-- ==== Sys2Proof/Machine/Regs.lean ====
section
/-! DEFINITION. Sys2Proof/Machine/Regs.lean: every register of BAR0 and of BAR4 by its own name, where it lies
(the register offset tables of spec/02 to spec/19), and every field of it with its bits, access code (R10, Table 0.3)
and reset value, as the register tables of the chapters give them. Reserved bits carry no field: they read 0 and a
write to them is ignored (R8). Reset values the tables call image, part, pins, fuse, flash, boot or random stand as 0
here and are given by `regReset` in Machine/Ops.lean or written by the step that sets them. -/

namespace Sys2Proof.Machine

/-- The registers of BAR0 (and of BAR4, those named MTR_). -/
inductive Reg where
  | ID_REV | FEATURE | TURN_CTRL | TURN_EVENTS | TURN_JOB | TURN_LATE_COUNT | TURN_TIMING | TURN_ABORT_COUNT
  | TURN_TOL | TURN_SKEW | TURN_TREE | ROTA_SUBMIT_ADDR | TURN_MARKER_CHILDREN | ROTA_SUBMIT | TURN_SEAL_CHILDREN
  | ROTA_SUBMIT_TURN | TURN_START | ROTA_STATUS | TURN_NUMBER | ROTA_RESULT | TURN_STATUS | ROTA_LIMITS
  | TURN_COMMIT | ROTA_CLOCK | ROTA_COST_A | ROTA_COST_B | ROTA_PLOT_USE | PLOT_ID | PLOT_PROG_LIMIT | PLOT_STATUS
  | PLOT_HEADMAP | PLOT_CTRL | PLOT_EVENTS | PLOT_SPARE_MAP | PLOT_STOP_STATS | PLOT_PROG_BASE | PLOT_FP_STATUS
  | PLOT_CORE_STATE | PIM_CAPS | PIM_DQ_BASE | PIM_CTRL | PIM_DQ_CTRL | PIM_EVENTS | PIM_DQ_TAIL | PIM_TURN_STATS
  | PIM_DQ_HEAD | PIM_CH_STATUS | PIM_CH_WINDOWS | PIM_CH_WAIT | PIM_CH_REFRESH | FUR_CAPS | FUR_CQ_BASE
  | FUR_DESC_BASE | FUR_CQ_CTRL | FUR_DIR_BASE | FUR_CQ_TAIL | FUR_SEL_BASE | FUR_CQ_HEAD | FUR_LIST | FUR_EVENTS
  | FUR_BUILD_BASE | FUR_TURN_STATS | FUR_TIMING | FUR_FLASH_TABLE | FUR_POOL_CFG | FUR_POOL_STATUS | FUR_STRICT
  | SCR_CAPS | SCR_CMD | SCR_AREA | SCR_CMD_STATUS | SCR_RES_AREA | SCR_SCRUB | SCR_MASK_BASE | SCR_EVENTS
  | SCR_CMD_ADDR | SCR_TURN_STATS | SCR_TABLE | SLU_CAPS | SLU_FLUSH_STATUS | SLU_RETRY | SLU_EV_BASE
  | SLU_TARGET_CTRL | SLU_EV_CTRL | SLU_ODP | SLU_EV_PRODUCED | SLU_REGION_BASE | SLU_EV_CONSUMED | SLU_MREF_BASE
  | SLU_EVENTS | SLU_FLUSH | SLU_DEAD_LAST | SLU_ENG_STATUS | SLU_ENG_CTRL | SLU_ENG_STATS | SLU_ENG_RETRY
  | FUR_HO_BASE | FUR_HO_EVENTS | FUR_HO_CTRL | FUR_HO_STATS | FUR_HO_TIMING | FUR_HO_VERSION | FAB_CAPS
  | FAB_RX_DROPS | FAB_NODE | FAB_RX_STATS | FAB_CTRL | FAB_VECTOR | FAB_EVENTS | FAB_LINK_CFG | FAB_LINK_FEC
  | FAB_LINK_CTRL | FAB_LINK_REPLAY | FAB_LINK_STATUS | FAB_LINK_TRAFFIC | FAB_ROUTE_STATUS | WEIR_CTRL
  | FAB_ROUTE_LOAD_ADDR | WEIR_COMMIT | FAB_ROUTE_LOAD | WEIR_STATUS | FAB_ROUTE_SWITCH_TURN | WEIR_STATS
  | FAB_ROUTE_SWITCH | WEIR_CLASS_CFG | FAB_ROUTE_CTRL | WEIR_CLASS_ARB | FAB_ROUTE_STATS | WEIR_OWNER_CFG
  | HG_CTRL | WEIR_TEL_BASE | HG_DROP_BASE | WEIR_TEL_CTRL | HG_DROP_PRODUCED | WEIR_TEL_LINKS0 | HG_DROP_CONSUMED
  | WEIR_TEL_LINKS1 | HG_STATS | WEIR_TEL_PRODUCED | HG_REQ_CFG | WEIR_TEL_CONSUMED | HG_PROMPT_CFG | WEIR_TEL_LOST
  | HG_LEVEL | HQ_CAPS | NVM_CAPS | HQ_CONTROL | NVM_TIMING | HQ_PORT_STATUS | NVM_EVENTS | HQ_FLUME_BASE
  | NVM_CTRL | HQ_FLUME_CTRL | NVM_ADMIN_ADDR | HQ_EVENTS | NVM_ADMIN | HQ_VECTOR | NVM_ADMIN_STATUS | HQ_STATS
  | NVM_PORT_CFG | HQ_Q_BASE | NVM_PORT_CTRL | HQ_Q_CTRL | NVM_PORT_STATUS | HQ_Q_STATUS | NVM_PORT_STATS
  | HQ_Q_CPL_BASE | NVM_PORT_ERRORS | NVM_EXT_CFG | NVM_EXT_ADDR | NVM_EXT_FRAMES | NVM_EXT_CRC | CFG_STATUS
  | CFG_CMD | CFG_DIGEST | CFG_CMD_STATUS | CFG_CTRL | CFG_STAGE_FAULT | CFG_EVENTS | CFG_CENSUS_BASE
  | CFG_CMD_ADDR | CFG_CENSUS | CFG_SLOT_INFO | CFG_CENSUS_STATUS | SEC_STATUS | MTR_ID | SEC_KEY_POLICY
  | MTR_STATUS | SEC_KEYS_USED | MTR_PERIOD | SEC_CMD_ADDR | MTR_PRODUCED | SEC_CMD | MTR_CONSUMED | SEC_CMD_STATUS
  | MTR_CTRL | SEC_CTRL | MTR_CONFIG | SEC_EVENTS | MTR_FW_ADDR | SEC_KEY_ID | MTR_FW_CMD | MTR_FW_STATUS
  | MTR_VECTOR | MTR_EVENTS | MTR_DIGEST | ERR_STATUS | ERR_RESET_STATUS | ERR_CTRL | ERR_DUMP_HOST | ERR_EVENTS
  | ERR_DUMP_CMD | ERR_COUNTS | ERR_SENT_CFG | ERR_RING_BASE | ERR_SHADOW_CFG | ERR_RING_CTRL | ERR_SHADOW_TARGETS
  | ERR_RING_PRODUCED | ERR_SHADOW_STATS | ERR_RING_CONSUMED | ERR_SENT_BIN | ERR_RESET_CMD | ERR_SENT_CORE
  | RIDE_STATUS | RIDE_EVENTS | RIDE_HEARTBEAT | RIDE_DUMP_FLASH | RIDE_WDOG | RIDE_DUMP_LBA | PWR_STATUS
  | PWR_THERM | PWR_LIMIT | PWR_THERM_CFG | PWR_CTRL | PWR_STEP_STATS | PWR_EVENTS | PWR_RAIL
  deriving DecidableEq, Repr

/-- The access codes of Table 0.3. -/
inductive Access where
  | ro | rw | wo | w1c | w1s | rc | st
  deriving DecidableEq, Repr

/-- One field of a register: its lowest bit and width, its access code, its reset value and, where its meaning
states a numeric range, that range (R461). -/
structure Field where
  reg : Reg
  lo : Nat
  w : Nat
  acc : Access
  reset : Nat
  rng : Option (Nat × Nat)
  deriving DecidableEq, Repr

/-- Where a register lies: its BAR, the offset of its first copy, and up to two strides with their counts (copy
`i * c2 + j` lies at `base + s1 * i + s2 * j`). -/
structure Place where
  bar : Nat
  base : Nat
  s1 : Nat
  c1 : Nat
  s2 : Nat
  c2 : Nat
  deriving DecidableEq, Repr

def F.ID_REV.VENDOR : Field := ⟨.ID_REV, 48, 16, .ro, 8117, none⟩
def F.ID_REV.PART : Field := ⟨.ID_REV, 32, 16, .ro, 16534, none⟩
def F.ID_REV.STEPPING : Field := ⟨.ID_REV, 24, 8, .ro, 0, none⟩
def F.ID_REV.ARCH_GEN : Field := ⟨.ID_REV, 20, 4, .ro, 1, none⟩
def F.ID_REV.VARIANT : Field := ⟨.ID_REV, 16, 4, .ro, 0, none⟩
def F.FEATURE.NVME_PORTS : Field := ⟨.FEATURE, 40, 8, .ro, 0, none⟩
def F.FEATURE.STACKS : Field := ⟨.FEATURE, 32, 8, .ro, 0, none⟩
def F.FEATURE.FABRIC : Field := ⟨.FEATURE, 28, 4, .ro, 0, none⟩
def F.FEATURE.SCREEN : Field := ⟨.FEATURE, 1, 1, .ro, 0, none⟩
def F.FEATURE.PIM : Field := ⟨.FEATURE, 0, 1, .ro, 0, none⟩
def F.TURN_CTRL.RESUME_ARM : Field := ⟨.TURN_CTRL, 2, 1, .rw, 0, none⟩
def F.TURN_CTRL.LEAVE : Field := ⟨.TURN_CTRL, 1, 1, .w1s, 0, none⟩
def F.TURN_CTRL.ENABLE : Field := ⟨.TURN_CTRL, 0, 1, .rw, 0, none⟩
def F.TURN_EVENTS.ADMIT_TIME : Field := ⟨.TURN_EVENTS, 8, 1, .w1c, 0, none⟩
def F.TURN_EVENTS.ROTA_REUSED : Field := ⟨.TURN_EVENTS, 7, 1, .w1c, 0, none⟩
def F.TURN_EVENTS.PAIR_MISMATCH : Field := ⟨.TURN_EVENTS, 6, 1, .w1c, 0, none⟩
def F.TURN_EVENTS.LATE : Field := ⟨.TURN_EVENTS, 5, 1, .w1c, 0, none⟩
def F.TURN_EVENTS.MARKER_MISSED : Field := ⟨.TURN_EVENTS, 4, 1, .w1c, 0, none⟩
def F.TURN_EVENTS.CONFIG_MISMATCH : Field := ⟨.TURN_EVENTS, 3, 1, .w1c, 0, none⟩
def F.TURN_EVENTS.INCONSISTENT : Field := ⟨.TURN_EVENTS, 2, 1, .w1c, 0, none⟩
def F.TURN_EVENTS.LOCAL_ABORT : Field := ⟨.TURN_EVENTS, 1, 1, .w1c, 0, none⟩
def F.TURN_EVENTS.ABORTED : Field := ⟨.TURN_EVENTS, 0, 1, .w1c, 0, none⟩
def F.TURN_JOB.JOB_ID : Field := ⟨.TURN_JOB, 48, 16, .st, 0, none⟩
def F.TURN_JOB.JOB_SIZE : Field := ⟨.TURN_JOB, 24, 17, .st, 1, none⟩
def F.TURN_JOB.SOURCE : Field := ⟨.TURN_JOB, 2, 2, .st, 0, none⟩
def F.TURN_JOB.SEAL_ROOT : Field := ⟨.TURN_JOB, 1, 1, .st, 0, none⟩
def F.TURN_JOB.TURN_ROOT : Field := ⟨.TURN_JOB, 0, 1, .st, 0, none⟩
def F.TURN_LATE_COUNT.LATE : Field := ⟨.TURN_LATE_COUNT, 0, 32, .rc, 0, none⟩
def F.TURN_TIMING.PERIOD : Field := ⟨.TURN_TIMING, 48, 16, .st, 1000, none⟩
def F.TURN_TIMING.SEAL_WINDOW : Field := ⟨.TURN_TIMING, 32, 16, .st, 40, none⟩
def F.TURN_TIMING.MARGIN_PM : Field := ⟨.TURN_TIMING, 16, 16, .st, 100, none⟩
def F.TURN_TIMING.SEAL_CUTOFF : Field := ⟨.TURN_TIMING, 0, 16, .st, 30, none⟩
def F.TURN_ABORT_COUNT.LOCAL : Field := ⟨.TURN_ABORT_COUNT, 16, 16, .rc, 0, none⟩
def F.TURN_ABORT_COUNT.RECEIVED : Field := ⟨.TURN_ABORT_COUNT, 0, 16, .rc, 0, none⟩
def F.TURN_TOL.PIN_LAG : Field := ⟨.TURN_TOL, 16, 16, .st, 2000, none⟩
def F.TURN_TOL.MARKER_TOL : Field := ⟨.TURN_TOL, 0, 16, .st, 2000, none⟩
def F.TURN_SKEW.MAX_ABS : Field := ⟨.TURN_SKEW, 32, 32, .rc, 0, none⟩
def F.TURN_SKEW.LAST : Field := ⟨.TURN_SKEW, 0, 32, .ro, 0, none⟩
def F.TURN_TREE.MARKER_PARENT : Field := ⟨.TURN_TREE, 16, 6, .st, 63, none⟩
def F.TURN_TREE.SEAL_PARENT : Field := ⟨.TURN_TREE, 8, 6, .st, 63, none⟩
def F.ROTA_SUBMIT_ADDR.ADDR : Field := ⟨.ROTA_SUBMIT_ADDR, 5, 59, .rw, 0, none⟩
def F.TURN_MARKER_CHILDREN.PORTS : Field := ⟨.TURN_MARKER_CHILDREN, 0, 56, .st, 0, none⟩
def F.ROTA_SUBMIT.COUNT : Field := ⟨.ROTA_SUBMIT, 0, 14, .wo, 0, none⟩
def F.TURN_SEAL_CHILDREN.PORTS : Field := ⟨.TURN_SEAL_CHILDREN, 0, 56, .st, 0, none⟩
def F.ROTA_SUBMIT_TURN.TURN : Field := ⟨.ROTA_SUBMIT_TURN, 0, 64, .rw, 0, none⟩
def F.TURN_START.START : Field := ⟨.TURN_START, 0, 64, .rw, 0, none⟩
def F.ROTA_STATUS.FETCH : Field := ⟨.ROTA_STATUS, 0, 2, .ro, 0, none⟩
def F.TURN_NUMBER.CURRENT : Field := ⟨.TURN_NUMBER, 0, 64, .ro, 0, none⟩
def F.ROTA_RESULT.ADMITTED : Field := ⟨.ROTA_RESULT, 50, 14, .ro, 0, none⟩
def F.ROTA_RESULT.DEFERRED : Field := ⟨.ROTA_RESULT, 34, 14, .ro, 0, none⟩
def F.ROTA_RESULT.SKIPPED : Field := ⟨.ROTA_RESULT, 18, 14, .ro, 0, none⟩
def F.ROTA_RESULT.ADMIT_TIME : Field := ⟨.ROTA_RESULT, 0, 16, .ro, 0, none⟩
def F.TURN_STATUS.LAST_REASON : Field := ⟨.TURN_STATUS, 32, 8, .ro, 0, none⟩
def F.TURN_STATUS.EXCL_COUNT : Field := ⟨.TURN_STATUS, 16, 8, .ro, 0, none⟩
def F.TURN_STATUS.STAGE_RESULT : Field := ⟨.TURN_STATUS, 8, 4, .ro, 0, none⟩
def F.TURN_STATUS.LAST_VERDICT : Field := ⟨.TURN_STATUS, 6, 2, .ro, 0, none⟩
def F.TURN_STATUS.PHASE : Field := ⟨.TURN_STATUS, 3, 3, .ro, 0, none⟩
def F.TURN_STATUS.STATE : Field := ⟨.TURN_STATUS, 0, 3, .ro, 0, none⟩
def F.ROTA_LIMITS.PIM_ALLOT : Field := ⟨.ROTA_LIMITS, 40, 8, .ro, 0, none⟩
def F.ROTA_LIMITS.SCR_UPDATE_PM : Field := ⟨.ROTA_LIMITS, 16, 16, .st, 50, none⟩
def F.ROTA_LIMITS.SENTINEL : Field := ⟨.ROTA_LIMITS, 0, 16, .ro, 1000, none⟩
def F.TURN_COMMIT.STAGE : Field := ⟨.TURN_COMMIT, 0, 1, .wo, 0, none⟩
def F.ROTA_CLOCK.NOMINAL : Field := ⟨.ROTA_CLOCK, 16, 16, .ro, 1900, none⟩
def F.ROTA_CLOCK.CURRENT : Field := ⟨.ROTA_CLOCK, 0, 16, .ro, 1900, none⟩
def F.ROTA_COST_A.BASE : Field := ⟨.ROTA_COST_A, 32, 32, .st, 0, none⟩
def F.ROTA_COST_A.K_TOK : Field := ⟨.ROTA_COST_A, 0, 32, .st, 0, none⟩
def F.ROTA_COST_B.K_PAGE : Field := ⟨.ROTA_COST_B, 48, 16, .st, 0, none⟩
def F.ROTA_COST_B.K_PRE : Field := ⟨.ROTA_COST_B, 32, 16, .st, 0, none⟩
def F.ROTA_COST_B.K_FETCH : Field := ⟨.ROTA_COST_B, 16, 16, .st, 0, none⟩
def F.ROTA_PLOT_USE.MEASURED : Field := ⟨.ROTA_PLOT_USE, 32, 32, .ro, 0, none⟩
def F.ROTA_PLOT_USE.CHARGED : Field := ⟨.ROTA_PLOT_USE, 0, 32, .ro, 0, none⟩
def F.PLOT_ID.ENABLED : Field := ⟨.PLOT_ID, 40, 8, .ro, 64, none⟩
def F.PLOT_ID.FUSED : Field := ⟨.PLOT_ID, 32, 8, .ro, 0, none⟩
def F.PLOT_ID.SPARES : Field := ⟨.PLOT_ID, 24, 8, .ro, 0, none⟩
def F.PLOT_ID.ROLE : Field := ⟨.PLOT_ID, 16, 8, .ro, 0, none⟩
def F.PLOT_ID.DIE : Field := ⟨.PLOT_ID, 8, 8, .ro, 0, none⟩
def F.PLOT_ID.PLOT : Field := ⟨.PLOT_ID, 0, 6, .ro, 0, none⟩
def F.PLOT_PROG_LIMIT.ADDR : Field := ⟨.PLOT_PROG_LIMIT, 12, 36, .st, 0, none⟩
def F.PLOT_STATUS.ENTRIES : Field := ⟨.PLOT_STATUS, 16, 16, .ro, 0, none⟩
def F.PLOT_STATUS.LAST_RESET : Field := ⟨.PLOT_STATUS, 8, 8, .ro, 0, none⟩
def F.PLOT_STATUS.STATE : Field := ⟨.PLOT_STATUS, 0, 3, .ro, 0, none⟩
def F.PLOT_HEADMAP.COUNT : Field := ⟨.PLOT_HEADMAP, 48, 16, .st, 0, none⟩
def F.PLOT_HEADMAP.ADDR : Field := ⟨.PLOT_HEADMAP, 4, 44, .st, 0, none⟩
def F.PLOT_CTRL.RESET : Field := ⟨.PLOT_CTRL, 0, 1, .w1s, 0, none⟩
def F.PLOT_EVENTS.APPEND_REFUSED : Field := ⟨.PLOT_EVENTS, 7, 1, .w1c, 0, none⟩
def F.PLOT_EVENTS.PROG_CHECK : Field := ⟨.PLOT_EVENTS, 6, 1, .w1c, 0, none⟩
def F.PLOT_EVENTS.ILLEGAL_INSN : Field := ⟨.PLOT_EVENTS, 5, 1, .w1c, 0, none⟩
def F.PLOT_EVENTS.CANCEL_STOP : Field := ⟨.PLOT_EVENTS, 4, 1, .w1c, 0, none⟩
def F.PLOT_EVENTS.DEADLINE_STOP : Field := ⟨.PLOT_EVENTS, 3, 1, .w1c, 0, none⟩
def F.PLOT_EVENTS.ROLE_SKIP : Field := ⟨.PLOT_EVENTS, 2, 1, .w1c, 0, none⟩
def F.PLOT_EVENTS.RESET_REFUSED : Field := ⟨.PLOT_EVENTS, 1, 1, .w1c, 0, none⟩
def F.PLOT_EVENTS.RESET_DONE : Field := ⟨.PLOT_EVENTS, 0, 1, .w1c, 0, none⟩
def F.PLOT_SPARE_MAP.FUSED_B : Field := ⟨.PLOT_SPARE_MAP, 17, 1, .ro, 0, none⟩
def F.PLOT_SPARE_MAP.FUSED_A : Field := ⟨.PLOT_SPARE_MAP, 16, 1, .ro, 0, none⟩
def F.PLOT_SPARE_MAP.UNMAPPED_B : Field := ⟨.PLOT_SPARE_MAP, 8, 7, .ro, 0, none⟩
def F.PLOT_SPARE_MAP.UNMAPPED_A : Field := ⟨.PLOT_SPARE_MAP, 0, 7, .ro, 0, none⟩
def F.PLOT_STOP_STATS.MAX_STOP : Field := ⟨.PLOT_STOP_STATS, 32, 32, .rc, 0, none⟩
def F.PLOT_STOP_STATS.STOPS : Field := ⟨.PLOT_STOP_STATS, 0, 32, .rc, 0, none⟩
def F.PLOT_PROG_BASE.ADDR : Field := ⟨.PLOT_PROG_BASE, 12, 36, .st, 0, none⟩
def F.PLOT_FP_STATUS.NAN_OUT : Field := ⟨.PLOT_FP_STATUS, 32, 16, .rc, 0, none⟩
def F.PLOT_FP_STATUS.SATURATED : Field := ⟨.PLOT_FP_STATUS, 16, 16, .rc, 0, none⟩
def F.PLOT_FP_STATUS.INT_SAT : Field := ⟨.PLOT_FP_STATUS, 0, 16, .rc, 0, none⟩
def F.PLOT_CORE_STATE.LAST_PC : Field := ⟨.PLOT_CORE_STATE, 32, 32, .ro, 0, none⟩
def F.PLOT_CORE_STATE.MAX_GAP : Field := ⟨.PLOT_CORE_STATE, 16, 16, .rc, 0, none⟩
def F.PLOT_CORE_STATE.LOGICAL : Field := ⟨.PLOT_CORE_STATE, 8, 8, .ro, 0, none⟩
def F.PLOT_CORE_STATE.STATE : Field := ⟨.PLOT_CORE_STATE, 0, 3, .ro, 0, none⟩
def F.PIM_CAPS.BANK_UNITS : Field := ⟨.PIM_CAPS, 16, 16, .ro, 0, none⟩
def F.PIM_CAPS.MAX_TOPN : Field := ⟨.PIM_CAPS, 8, 8, .ro, 64, none⟩
def F.PIM_CAPS.MAX_QN : Field := ⟨.PIM_CAPS, 4, 4, .ro, 4, none⟩
def F.PIM_DQ_BASE.ADDR : Field := ⟨.PIM_DQ_BASE, 12, 52, .rw, 0, none⟩
def F.PIM_CTRL.WINDOW_LIMIT : Field := ⟨.PIM_CTRL, 0, 16, .st, 40000, none⟩
def F.PIM_DQ_CTRL.ENABLE : Field := ⟨.PIM_DQ_CTRL, 31, 1, .rw, 0, none⟩
def F.PIM_DQ_CTRL.VECTOR : Field := ⟨.PIM_DQ_CTRL, 20, 11, .rw, 0, none⟩
def F.PIM_DQ_CTRL.LOG2_SIZE : Field := ⟨.PIM_DQ_CTRL, 0, 4, .rw, 6, some (6, 12)⟩
def F.PIM_EVENTS.DQ_ERROR : Field := ⟨.PIM_EVENTS, 7, 1, .w1c, 0, none⟩
def F.PIM_EVENTS.DQ_FENCE : Field := ⟨.PIM_EVENTS, 6, 1, .w1c, 0, none⟩
def F.PIM_EVENTS.DEBT_MAX : Field := ⟨.PIM_EVENTS, 5, 1, .w1c, 0, none⟩
def F.PIM_EVENTS.HOT : Field := ⟨.PIM_EVENTS, 4, 1, .w1c, 0, none⟩
def F.PIM_EVENTS.UNCORRECTABLE : Field := ⟨.PIM_EVENTS, 3, 1, .w1c, 0, none⟩
def F.PIM_EVENTS.CUT : Field := ⟨.PIM_EVENTS, 2, 1, .w1c, 0, none⟩
def F.PIM_EVENTS.NO_WINDOW : Field := ⟨.PIM_EVENTS, 1, 1, .w1c, 0, none⟩
def F.PIM_EVENTS.REFUSED : Field := ⟨.PIM_EVENTS, 0, 1, .w1c, 0, none⟩
def F.PIM_DQ_TAIL.TAIL : Field := ⟨.PIM_DQ_TAIL, 0, 12, .rw, 0, none⟩
def F.PIM_TURN_STATS.WINDOWS : Field := ⟨.PIM_TURN_STATS, 48, 16, .ro, 0, none⟩
def F.PIM_TURN_STATS.TRACKS_PEAK : Field := ⟨.PIM_TURN_STATS, 40, 8, .ro, 0, none⟩
def F.PIM_TURN_STATS.CUT : Field := ⟨.PIM_TURN_STATS, 16, 16, .ro, 0, none⟩
def F.PIM_TURN_STATS.NO_WINDOW : Field := ⟨.PIM_TURN_STATS, 0, 16, .ro, 0, none⟩
def F.PIM_DQ_HEAD.STOPPED : Field := ⟨.PIM_DQ_HEAD, 16, 1, .ro, 0, none⟩
def F.PIM_DQ_HEAD.HEAD : Field := ⟨.PIM_DQ_HEAD, 0, 12, .ro, 0, none⟩
def F.PIM_CH_STATUS.BAD_FRAMES : Field := ⟨.PIM_CH_STATUS, 48, 16, .ro, 0, none⟩
def F.PIM_CH_STATUS.CLEARS : Field := ⟨.PIM_CH_STATUS, 40, 8, .ro, 0, none⟩
def F.PIM_CH_STATUS.SCORE_SIZE : Field := ⟨.PIM_CH_STATUS, 32, 8, .ro, 0, none⟩
def F.PIM_CH_STATUS.SEG_LIMIT : Field := ⟨.PIM_CH_STATUS, 16, 16, .ro, 3764, none⟩
def F.PIM_CH_STATUS.DEBT : Field := ⟨.PIM_CH_STATUS, 9, 3, .ro, 0, none⟩
def F.PIM_CH_STATUS.RATE : Field := ⟨.PIM_CH_STATUS, 6, 3, .ro, 0, none⟩
def F.PIM_CH_STATUS.MODE : Field := ⟨.PIM_CH_STATUS, 0, 3, .ro, 0, none⟩
def F.PIM_CH_WINDOWS.WINDOWS : Field := ⟨.PIM_CH_WINDOWS, 32, 32, .rc, 0, none⟩
def F.PIM_CH_WINDOWS.PROC_US : Field := ⟨.PIM_CH_WINDOWS, 0, 32, .rc, 0, none⟩
def F.PIM_CH_WAIT.MAX_WAIT : Field := ⟨.PIM_CH_WAIT, 32, 32, .rc, 0, none⟩
def F.PIM_CH_WAIT.WAITED : Field := ⟨.PIM_CH_WAIT, 0, 32, .rc, 0, none⟩
def F.PIM_CH_REFRESH.REFPB : Field := ⟨.PIM_CH_REFRESH, 32, 32, .rc, 0, none⟩
def F.PIM_CH_REFRESH.POSTPONED : Field := ⟨.PIM_CH_REFRESH, 16, 16, .rc, 0, none⟩
def F.PIM_CH_REFRESH.RFM : Field := ⟨.PIM_CH_REFRESH, 0, 16, .rc, 0, none⟩
def F.FUR_CAPS.MAX_TOP : Field := ⟨.FUR_CAPS, 32, 8, .ro, 64, none⟩
def F.FUR_CAPS.MAX_RECENT : Field := ⟨.FUR_CAPS, 24, 8, .ro, 63, none⟩
def F.FUR_CAPS.DESCRIPTORS : Field := ⟨.FUR_CAPS, 0, 19, .ro, 262144, none⟩
def F.FUR_CQ_BASE.ADDR : Field := ⟨.FUR_CQ_BASE, 12, 52, .rw, 0, none⟩
def F.FUR_DESC_BASE.ADDR : Field := ⟨.FUR_DESC_BASE, 16, 32, .ro, 0, none⟩
def F.FUR_CQ_CTRL.ENABLE : Field := ⟨.FUR_CQ_CTRL, 31, 1, .rw, 0, none⟩
def F.FUR_CQ_CTRL.VECTOR : Field := ⟨.FUR_CQ_CTRL, 20, 11, .rw, 0, none⟩
def F.FUR_CQ_CTRL.LOG2_SIZE : Field := ⟨.FUR_CQ_CTRL, 0, 4, .rw, 6, some (6, 12)⟩
def F.FUR_DIR_BASE.ADDR : Field := ⟨.FUR_DIR_BASE, 16, 32, .ro, 0, none⟩
def F.FUR_CQ_TAIL.TAIL : Field := ⟨.FUR_CQ_TAIL, 0, 12, .rw, 0, none⟩
def F.FUR_SEL_BASE.ADDR : Field := ⟨.FUR_SEL_BASE, 16, 32, .st, 0, none⟩
def F.FUR_CQ_HEAD.STOPPED : Field := ⟨.FUR_CQ_HEAD, 16, 1, .ro, 0, none⟩
def F.FUR_CQ_HEAD.HEAD : Field := ⟨.FUR_CQ_HEAD, 0, 12, .ro, 0, none⟩
def F.FUR_LIST.SIZE : Field := ⟨.FUR_LIST, 48, 16, .st, 0, none⟩
def F.FUR_LIST.ADDR : Field := ⟨.FUR_LIST, 16, 32, .st, 0, none⟩
def F.FUR_EVENTS.CQ_ERROR : Field := ⟨.FUR_EVENTS, 9, 1, .w1c, 0, none⟩
def F.FUR_EVENTS.MOVE_FAILED : Field := ⟨.FUR_EVENTS, 8, 1, .w1c, 0, none⟩
def F.FUR_EVENTS.RANK_LATE : Field := ⟨.FUR_EVENTS, 7, 1, .w1c, 0, none⟩
def F.FUR_EVENTS.SKIPPED : Field := ⟨.FUR_EVENTS, 6, 1, .w1c, 0, none⟩
def F.FUR_EVENTS.DEGRADED : Field := ⟨.FUR_EVENTS, 5, 1, .w1c, 0, none⟩
def F.FUR_EVENTS.FALLBACK : Field := ⟨.FUR_EVENTS, 4, 1, .w1c, 0, none⟩
def F.FUR_EVENTS.FLASH_FULL : Field := ⟨.FUR_EVENTS, 3, 1, .w1c, 0, none⟩
def F.FUR_EVENTS.SCORE_FULL : Field := ⟨.FUR_EVENTS, 2, 1, .w1c, 0, none⟩
def F.FUR_EVENTS.LIST_FULL : Field := ⟨.FUR_EVENTS, 1, 1, .w1c, 0, none⟩
def F.FUR_EVENTS.NO_FRAME : Field := ⟨.FUR_EVENTS, 0, 1, .w1c, 0, none⟩
def F.FUR_BUILD_BASE.ADDR : Field := ⟨.FUR_BUILD_BASE, 16, 32, .ro, 0, none⟩
def F.FUR_TURN_STATS.DEGRADED : Field := ⟨.FUR_TURN_STATS, 48, 16, .ro, 0, none⟩
def F.FUR_TURN_STATS.SKIPPED : Field := ⟨.FUR_TURN_STATS, 32, 16, .ro, 0, none⟩
def F.FUR_TURN_STATS.FALLBACK : Field := ⟨.FUR_TURN_STATS, 16, 16, .ro, 0, none⟩
def F.FUR_TURN_STATS.MISSING : Field := ⟨.FUR_TURN_STATS, 0, 16, .ro, 0, none⟩
def F.FUR_TIMING.RANK_CUT : Field := ⟨.FUR_TIMING, 16, 16, .st, 200, none⟩
def F.FUR_TIMING.FETCH_CUT : Field := ⟨.FUR_TIMING, 0, 16, .st, 700, none⟩
def F.FUR_FLASH_TABLE.ADDR : Field := ⟨.FUR_FLASH_TABLE, 16, 32, .ro, 0, none⟩
def F.FUR_POOL_CFG.HIGH : Field := ⟨.FUR_POOL_CFG, 32, 32, .st, 0, none⟩
def F.FUR_POOL_CFG.LOW : Field := ⟨.FUR_POOL_CFG, 0, 32, .st, 0, none⟩
def F.FUR_POOL_STATUS.TOTAL : Field := ⟨.FUR_POOL_STATUS, 32, 32, .ro, 0, none⟩
def F.FUR_POOL_STATUS.FREE : Field := ⟨.FUR_POOL_STATUS, 0, 32, .ro, 0, none⟩
def F.FUR_STRICT.STRICT : Field := ⟨.FUR_STRICT, 0, 64, .rw, 0, none⟩
def F.SCR_CAPS.HANDLES : Field := ⟨.SCR_CAPS, 16, 16, .ro, 1024, none⟩
def F.SCR_CAPS.MAX_TABLE_MIB : Field := ⟨.SCR_CAPS, 0, 16, .ro, 64, none⟩
def F.SCR_CMD.BYTES : Field := ⟨.SCR_CMD, 32, 32, .wo, 0, none⟩
def F.SCR_CMD.HANDLE : Field := ⟨.SCR_CMD, 16, 10, .wo, 0, none⟩
def F.SCR_CMD.OPCODE : Field := ⟨.SCR_CMD, 0, 8, .wo, 0, none⟩
def F.SCR_AREA.SIZE_MIB : Field := ⟨.SCR_AREA, 48, 16, .ro, 0, none⟩
def F.SCR_AREA.ADDR : Field := ⟨.SCR_AREA, 16, 32, .ro, 0, none⟩
def F.SCR_CMD_STATUS.HANDLE : Field := ⟨.SCR_CMD_STATUS, 16, 10, .ro, 0, none⟩
def F.SCR_CMD_STATUS.RESULT : Field := ⟨.SCR_CMD_STATUS, 8, 8, .ro, 0, none⟩
def F.SCR_CMD_STATUS.ACTIVE : Field := ⟨.SCR_CMD_STATUS, 0, 1, .ro, 0, none⟩
def F.SCR_RES_AREA.SIZE_MIB : Field := ⟨.SCR_RES_AREA, 48, 16, .ro, 0, none⟩
def F.SCR_RES_AREA.ADDR : Field := ⟨.SCR_RES_AREA, 16, 32, .ro, 0, none⟩
def F.SCR_SCRUB.LAST_CYCLE_US : Field := ⟨.SCR_SCRUB, 32, 32, .ro, 0, none⟩
def F.SCR_SCRUB.MISMATCH : Field := ⟨.SCR_SCRUB, 16, 16, .rc, 0, none⟩
def F.SCR_SCRUB.INTERVAL : Field := ⟨.SCR_SCRUB, 0, 16, .st, 1000, none⟩
def F.SCR_MASK_BASE.ADDR : Field := ⟨.SCR_MASK_BASE, 16, 32, .ro, 0, none⟩
def F.SCR_EVENTS.BAD : Field := ⟨.SCR_EVENTS, 6, 1, .w1c, 0, none⟩
def F.SCR_EVENTS.MISMATCH : Field := ⟨.SCR_EVENTS, 5, 1, .w1c, 0, none⟩
def F.SCR_EVENTS.DEAD : Field := ⟨.SCR_EVENTS, 4, 1, .w1c, 0, none⟩
def F.SCR_EVENTS.SWITCH_INVALID : Field := ⟨.SCR_EVENTS, 3, 1, .w1c, 0, none⟩
def F.SCR_EVENTS.UPDATE_LATE : Field := ⟨.SCR_EVENTS, 2, 1, .w1c, 0, none⟩
def F.SCR_EVENTS.LOAD_FAILED : Field := ⟨.SCR_EVENTS, 1, 1, .w1c, 0, none⟩
def F.SCR_EVENTS.LOAD_DONE : Field := ⟨.SCR_EVENTS, 0, 1, .w1c, 0, none⟩
def F.SCR_CMD_ADDR.ADDR : Field := ⟨.SCR_CMD_ADDR, 12, 52, .rw, 0, none⟩
def F.SCR_TURN_STATS.STEPS : Field := ⟨.SCR_TURN_STATS, 32, 32, .ro, 0, none⟩
def F.SCR_TURN_STATS.MASKS : Field := ⟨.SCR_TURN_STATS, 16, 16, .ro, 0, none⟩
def F.SCR_TURN_STATS.TRIGGERS : Field := ⟨.SCR_TURN_STATS, 0, 16, .ro, 0, none⟩
def F.SCR_TABLE.PIECES : Field := ⟨.SCR_TABLE, 56, 8, .ro, 0, none⟩
def F.SCR_TABLE.DONE : Field := ⟨.SCR_TABLE, 48, 8, .ro, 0, none⟩
def F.SCR_TABLE.BLOCKS : Field := ⟨.SCR_TABLE, 32, 16, .ro, 0, none⟩
def F.SCR_TABLE.USERS : Field := ⟨.SCR_TABLE, 16, 16, .ro, 0, none⟩
def F.SCR_TABLE.OWNER : Field := ⟨.SCR_TABLE, 4, 12, .ro, 0, none⟩
def F.SCR_TABLE.SHARED : Field := ⟨.SCR_TABLE, 3, 1, .ro, 0, none⟩
def F.SCR_TABLE.STATE : Field := ⟨.SCR_TABLE, 0, 3, .ro, 0, none⟩
def F.SLU_CAPS.ENGINES : Field := ⟨.SLU_CAPS, 48, 8, .ro, 32, none⟩
def F.SLU_CAPS.CONTEXTS : Field := ⟨.SLU_CAPS, 32, 16, .ro, 4096, none⟩
def F.SLU_CAPS.REGIONS : Field := ⟨.SLU_CAPS, 0, 32, .ro, 65536, none⟩
def F.SLU_FLUSH_STATUS.STATUS : Field := ⟨.SLU_FLUSH_STATUS, 24, 8, .ro, 0, none⟩
def F.SLU_FLUSH_STATUS.ACTIVE : Field := ⟨.SLU_FLUSH_STATUS, 16, 1, .ro, 0, none⟩
def F.SLU_FLUSH_STATUS.NODE : Field := ⟨.SLU_FLUSH_STATUS, 0, 16, .ro, 0, none⟩
def F.SLU_RETRY.MSG_KIB : Field := ⟨.SLU_RETRY, 48, 11, .st, 256, none⟩
def F.SLU_RETRY.CAP_US : Field := ⟨.SLU_RETRY, 32, 16, .st, 8000, none⟩
def F.SLU_RETRY.LIMIT : Field := ⟨.SLU_RETRY, 16, 4, .st, 7, none⟩
def F.SLU_RETRY.BASE_US : Field := ⟨.SLU_RETRY, 0, 16, .st, 8, none⟩
def F.SLU_EV_BASE.ADDR : Field := ⟨.SLU_EV_BASE, 12, 52, .rw, 0, none⟩
def F.SLU_TARGET_CTRL.MEMORY_US : Field := ⟨.SLU_TARGET_CTRL, 16, 16, .st, 4000, none⟩
def F.SLU_TARGET_CTRL.REASSEMBLY_US : Field := ⟨.SLU_TARGET_CTRL, 0, 16, .st, 4000, none⟩
def F.SLU_EV_CTRL.ENABLE : Field := ⟨.SLU_EV_CTRL, 31, 1, .rw, 0, none⟩
def F.SLU_EV_CTRL.VECTOR : Field := ⟨.SLU_EV_CTRL, 20, 11, .rw, 0, none⟩
def F.SLU_EV_CTRL.LOG2_SIZE : Field := ⟨.SLU_EV_CTRL, 0, 4, .rw, 6, some (6, 12)⟩
def F.SLU_ODP.MIN_DELAY_US : Field := ⟨.SLU_ODP, 32, 16, .st, 50, none⟩
def F.SLU_ODP.FAULT_LIMIT : Field := ⟨.SLU_ODP, 16, 8, .st, 16, none⟩
def F.SLU_ODP.STALL_US : Field := ⟨.SLU_ODP, 0, 16, .st, 20, none⟩
def F.SLU_EV_PRODUCED.PRODUCED : Field := ⟨.SLU_EV_PRODUCED, 0, 64, .ro, 0, none⟩
def F.SLU_REGION_BASE.ADDR : Field := ⟨.SLU_REGION_BASE, 16, 32, .ro, 0, none⟩
def F.SLU_EV_CONSUMED.CONSUMED : Field := ⟨.SLU_EV_CONSUMED, 0, 64, .rw, 0, none⟩
def F.SLU_MREF_BASE.COUNT : Field := ⟨.SLU_MREF_BASE, 48, 16, .st, 0, none⟩
def F.SLU_MREF_BASE.ADDR : Field := ⟨.SLU_MREF_BASE, 5, 43, .st, 0, none⟩
def F.SLU_EVENTS.EV_OVERFLOW : Field := ⟨.SLU_EVENTS, 7, 1, .w1c, 0, none⟩
def F.SLU_EVENTS.DEAD_TARGET : Field := ⟨.SLU_EVENTS, 6, 1, .w1c, 0, none⟩
def F.SLU_EVENTS.TIMEOUT_EXHAUSTED : Field := ⟨.SLU_EVENTS, 5, 1, .w1c, 0, none⟩
def F.SLU_EVENTS.STALE_EPOCH : Field := ⟨.SLU_EVENTS, 4, 1, .w1c, 0, none⟩
def F.SLU_EVENTS.ODP_FAULT : Field := ⟨.SLU_EVENTS, 3, 1, .w1c, 0, none⟩
def F.SLU_EVENTS.VIOLATION_OUT : Field := ⟨.SLU_EVENTS, 2, 1, .w1c, 0, none⟩
def F.SLU_EVENTS.VIOLATION_IN : Field := ⟨.SLU_EVENTS, 1, 1, .w1c, 0, none⟩
def F.SLU_EVENTS.REVOKE_DONE : Field := ⟨.SLU_EVENTS, 0, 1, .w1c, 0, none⟩
def F.SLU_FLUSH.START : Field := ⟨.SLU_FLUSH, 16, 1, .wo, 0, none⟩
def F.SLU_FLUSH.NODE : Field := ⟨.SLU_FLUSH, 0, 16, .wo, 0, none⟩
def F.SLU_DEAD_LAST.COUNT : Field := ⟨.SLU_DEAD_LAST, 32, 32, .rc, 0, none⟩
def F.SLU_DEAD_LAST.NODE : Field := ⟨.SLU_DEAD_LAST, 0, 16, .ro, 0, none⟩
def F.SLU_ENG_STATUS.TARGET_MSGS : Field := ⟨.SLU_ENG_STATUS, 16, 16, .ro, 0, none⟩
def F.SLU_ENG_STATUS.STATE : Field := ⟨.SLU_ENG_STATUS, 13, 3, .ro, 0, none⟩
def F.SLU_ENG_STATUS.OUTSTANDING : Field := ⟨.SLU_ENG_STATUS, 0, 13, .ro, 0, none⟩
def F.SLU_ENG_CTRL.RESET : Field := ⟨.SLU_ENG_CTRL, 0, 1, .w1s, 0, none⟩
def F.SLU_ENG_STATS.OUT_MIB : Field := ⟨.SLU_ENG_STATS, 32, 32, .rc, 0, none⟩
def F.SLU_ENG_STATS.IN_MIB : Field := ⟨.SLU_ENG_STATS, 0, 32, .rc, 0, none⟩
def F.SLU_ENG_RETRY.RETRIES : Field := ⟨.SLU_ENG_RETRY, 32, 32, .rc, 0, none⟩
def F.SLU_ENG_RETRY.EXHAUSTED : Field := ⟨.SLU_ENG_RETRY, 16, 16, .rc, 0, none⟩
def F.SLU_ENG_RETRY.FAULTS : Field := ⟨.SLU_ENG_RETRY, 0, 16, .rc, 0, none⟩
def F.FUR_HO_BASE.ADDR : Field := ⟨.FUR_HO_BASE, 16, 32, .ro, 0, none⟩
def F.FUR_HO_BASE.HOME : Field := ⟨.FUR_HO_BASE, 0, 1, .ro, 0, none⟩
def F.FUR_HO_EVENTS.VERSION : Field := ⟨.FUR_HO_EVENTS, 5, 1, .w1c, 0, none⟩
def F.FUR_HO_EVENTS.RECLAIMED : Field := ⟨.FUR_HO_EVENTS, 4, 1, .w1c, 0, none⟩
def F.FUR_HO_EVENTS.REFUSED : Field := ⟨.FUR_HO_EVENTS, 3, 1, .w1c, 0, none⟩
def F.FUR_HO_EVENTS.PARKED : Field := ⟨.FUR_HO_EVENTS, 2, 1, .w1c, 0, none⟩
def F.FUR_HO_EVENTS.GRANTED : Field := ⟨.FUR_HO_EVENTS, 1, 1, .w1c, 0, none⟩
def F.FUR_HO_EVENTS.RELEASED : Field := ⟨.FUR_HO_EVENTS, 0, 1, .w1c, 0, none⟩
def F.FUR_HO_CTRL.AUTO_PARK : Field := ⟨.FUR_HO_CTRL, 31, 1, .rw, 0, none⟩
def F.FUR_HO_CTRL.VECTOR : Field := ⟨.FUR_HO_CTRL, 20, 11, .rw, 0, none⟩
def F.FUR_HO_STATS.STALE : Field := ⟨.FUR_HO_STATS, 48, 16, .rc, 0, none⟩
def F.FUR_HO_STATS.QUERIES : Field := ⟨.FUR_HO_STATS, 32, 16, .rc, 0, none⟩
def F.FUR_HO_STATS.COMMITS : Field := ⟨.FUR_HO_STATS, 16, 16, .rc, 0, none⟩
def F.FUR_HO_STATS.RECLAIMS : Field := ⟨.FUR_HO_STATS, 0, 16, .rc, 0, none⟩
def F.FUR_HO_TIMING.TIMEOUT_TURNS : Field := ⟨.FUR_HO_TIMING, 16, 16, .st, 16, none⟩
def F.FUR_HO_TIMING.QUERY_TURNS : Field := ⟨.FUR_HO_TIMING, 0, 16, .st, 4, none⟩
def F.FUR_HO_VERSION.HIGHEST : Field := ⟨.FUR_HO_VERSION, 8, 8, .ro, 16, none⟩
def F.FUR_HO_VERSION.LOWEST : Field := ⟨.FUR_HO_VERSION, 0, 8, .ro, 16, none⟩
def F.FAB_CAPS.CONTEXTS : Field := ⟨.FAB_CAPS, 48, 16, .ro, 16384, none⟩
def F.FAB_CAPS.HIGHEST : Field := ⟨.FAB_CAPS, 40, 8, .ro, 16, none⟩
def F.FAB_CAPS.LOWEST : Field := ⟨.FAB_CAPS, 32, 8, .ro, 16, none⟩
def F.FAB_CAPS.PORTS : Field := ⟨.FAB_CAPS, 0, 8, .ro, 0, none⟩
def F.FAB_RX_DROPS.TAG : Field := ⟨.FAB_RX_DROPS, 48, 16, .rc, 0, none⟩
def F.FAB_RX_DROPS.NO_KEY : Field := ⟨.FAB_RX_DROPS, 32, 16, .rc, 0, none⟩
def F.FAB_RX_DROPS.MALFORMED : Field := ⟨.FAB_RX_DROPS, 16, 16, .rc, 0, none⟩
def F.FAB_RX_DROPS.NO_CONTEXT : Field := ⟨.FAB_RX_DROPS, 0, 16, .rc, 0, none⟩
def F.FAB_NODE.NODE : Field := ⟨.FAB_NODE, 0, 16, .rw, 65535, none⟩
def F.FAB_RX_STATS.DUPLICATES : Field := ⟨.FAB_RX_STATS, 32, 32, .rc, 0, none⟩
def F.FAB_RX_STATS.HOPS : Field := ⟨.FAB_RX_STATS, 16, 16, .rc, 0, none⟩
def F.FAB_RX_STATS.CONTEXTS_PEAK : Field := ⟨.FAB_RX_STATS, 0, 16, .rc, 0, none⟩
def F.FAB_CTRL.SALT : Field := ⟨.FAB_CTRL, 20, 20, .ro, 0, none⟩
def F.FAB_CTRL.MAX_HOPS : Field := ⟨.FAB_CTRL, 0, 8, .rw, 32, some (1, 255)⟩
def F.FAB_VECTOR.VECTOR : Field := ⟨.FAB_VECTOR, 0, 11, .rw, 0, none⟩
def F.FAB_EVENTS.NODE_REFUSED : Field := ⟨.FAB_EVENTS, 9, 1, .w1c, 0, none⟩
def F.FAB_EVENTS.HOPS : Field := ⟨.FAB_EVENTS, 8, 1, .w1c, 0, none⟩
def F.FAB_EVENTS.NO_CONTEXT : Field := ⟨.FAB_EVENTS, 7, 1, .w1c, 0, none⟩
def F.FAB_EVENTS.MALFORMED : Field := ⟨.FAB_EVENTS, 6, 1, .w1c, 0, none⟩
def F.FAB_EVENTS.NO_KEY : Field := ⟨.FAB_EVENTS, 5, 1, .w1c, 0, none⟩
def F.FAB_EVENTS.TAG : Field := ⟨.FAB_EVENTS, 4, 1, .w1c, 0, none⟩
def F.FAB_EVENTS.VERSION : Field := ⟨.FAB_EVENTS, 3, 1, .w1c, 0, none⟩
def F.FAB_EVENTS.DEGRADED : Field := ⟨.FAB_EVENTS, 2, 1, .w1c, 0, none⟩
def F.FAB_EVENTS.LINK_DOWN : Field := ⟨.FAB_EVENTS, 1, 1, .w1c, 0, none⟩
def F.FAB_EVENTS.LINK_UP : Field := ⟨.FAB_EVENTS, 0, 1, .w1c, 0, none⟩
def F.FAB_LINK_CFG.HOLDOFF_MS : Field := ⟨.FAB_LINK_CFG, 16, 16, .rw, 1, some (1, 65535)⟩
def F.FAB_LINK_CFG.PRECODE : Field := ⟨.FAB_LINK_CFG, 8, 2, .rw, 0, none⟩
def F.FAB_LINK_CFG.DEGRADE : Field := ⟨.FAB_LINK_CFG, 7, 1, .rw, 0, none⟩
def F.FAB_LINK_CFG.REACH : Field := ⟨.FAB_LINK_CFG, 4, 3, .ro, 0, none⟩
def F.FAB_LINK_CFG.MODE : Field := ⟨.FAB_LINK_CFG, 0, 2, .ro, 0, none⟩
def F.FAB_LINK_FEC.CORRECTED : Field := ⟨.FAB_LINK_FEC, 32, 32, .rc, 0, none⟩
def F.FAB_LINK_FEC.UNCORRECTABLE : Field := ⟨.FAB_LINK_FEC, 0, 32, .rc, 0, none⟩
def F.FAB_LINK_CTRL.RESET : Field := ⟨.FAB_LINK_CTRL, 1, 1, .w1s, 0, none⟩
def F.FAB_LINK_CTRL.ENABLE : Field := ⟨.FAB_LINK_CTRL, 0, 1, .rw, 0, none⟩
def F.FAB_LINK_REPLAY.CRC_FAIL : Field := ⟨.FAB_LINK_REPLAY, 32, 32, .rc, 0, none⟩
def F.FAB_LINK_REPLAY.REPLAYS : Field := ⟨.FAB_LINK_REPLAY, 8, 24, .rc, 0, none⟩
def F.FAB_LINK_REPLAY.DOWNS : Field := ⟨.FAB_LINK_REPLAY, 0, 8, .rc, 0, none⟩
def F.FAB_LINK_STATUS.PEER_NODE : Field := ⟨.FAB_LINK_STATUS, 48, 16, .ro, 0, none⟩
def F.FAB_LINK_STATUS.PEER_LINK : Field := ⟨.FAB_LINK_STATUS, 40, 8, .ro, 0, none⟩
def F.FAB_LINK_STATUS.VERSION : Field := ⟨.FAB_LINK_STATUS, 32, 8, .ro, 0, none⟩
def F.FAB_LINK_STATUS.DOWN_REASON : Field := ⟨.FAB_LINK_STATUS, 28, 4, .ro, 0, none⟩
def F.FAB_LINK_STATUS.LANE_FAULT : Field := ⟨.FAB_LINK_STATUS, 20, 8, .ro, 0, none⟩
def F.FAB_LINK_STATUS.REVERSED : Field := ⟨.FAB_LINK_STATUS, 19, 1, .ro, 0, none⟩
def F.FAB_LINK_STATUS.WIDTH : Field := ⟨.FAB_LINK_STATUS, 12, 4, .ro, 0, none⟩
def F.FAB_LINK_STATUS.HALF : Field := ⟨.FAB_LINK_STATUS, 11, 1, .ro, 0, none⟩
def F.FAB_LINK_STATUS.STATE : Field := ⟨.FAB_LINK_STATUS, 0, 3, .ro, 0, none⟩
def F.FAB_LINK_TRAFFIC.OUT_MFLITS : Field := ⟨.FAB_LINK_TRAFFIC, 32, 32, .rc, 0, none⟩
def F.FAB_LINK_TRAFFIC.IN_MFLITS : Field := ⟨.FAB_LINK_TRAFFIC, 0, 32, .rc, 0, none⟩
def F.FAB_ROUTE_STATUS.OTHER_EPOCH : Field := ⟨.FAB_ROUTE_STATUS, 56, 8, .ro, 0, none⟩
def F.FAB_ROUTE_STATUS.ACTIVE_EPOCH : Field := ⟨.FAB_ROUTE_STATUS, 48, 8, .ro, 0, none⟩
def F.FAB_ROUTE_STATUS.OTHER_STATE : Field := ⟨.FAB_ROUTE_STATUS, 45, 3, .ro, 0, none⟩
def F.FAB_ROUTE_STATUS.ACTIVE_BANK : Field := ⟨.FAB_ROUTE_STATUS, 44, 1, .ro, 0, none⟩
def F.FAB_ROUTE_STATUS.LOAD_RESULT : Field := ⟨.FAB_ROUTE_STATUS, 40, 4, .ro, 0, none⟩
def F.FAB_ROUTE_STATUS.SWITCH_RESULT : Field := ⟨.FAB_ROUTE_STATUS, 36, 4, .ro, 0, none⟩
def F.WEIR_CTRL.ENABLE : Field := ⟨.WEIR_CTRL, 31, 1, .rw, 0, none⟩
def F.WEIR_CTRL.OVERHEAD : Field := ⟨.WEIR_CTRL, 0, 8, .st, 0, none⟩
def F.FAB_ROUTE_LOAD_ADDR.ADDR : Field := ⟨.FAB_ROUTE_LOAD_ADDR, 6, 58, .rw, 0, none⟩
def F.WEIR_COMMIT.STAGE : Field := ⟨.WEIR_COMMIT, 0, 1, .wo, 0, none⟩
def F.FAB_ROUTE_LOAD.BYTES : Field := ⟨.FAB_ROUTE_LOAD, 0, 19, .wo, 0, none⟩
def F.WEIR_STATUS.STAGE_RESULT : Field := ⟨.WEIR_STATUS, 8, 4, .ro, 0, none⟩
def F.FAB_ROUTE_SWITCH_TURN.TURN : Field := ⟨.FAB_ROUTE_SWITCH_TURN, 0, 64, .rw, 0, none⟩
def F.WEIR_STATS.OWNER_WAITS : Field := ⟨.WEIR_STATS, 32, 32, .rc, 0, none⟩
def F.WEIR_STATS.CLASS_WAITS : Field := ⟨.WEIR_STATS, 0, 32, .rc, 0, none⟩
def F.FAB_ROUTE_SWITCH.IMMEDIATE : Field := ⟨.FAB_ROUTE_SWITCH, 1, 1, .wo, 0, none⟩
def F.FAB_ROUTE_SWITCH.ARM : Field := ⟨.FAB_ROUTE_SWITCH, 0, 1, .wo, 0, none⟩
def F.WEIR_CLASS_CFG.BURST : Field := ⟨.WEIR_CLASS_CFG, 32, 32, .st, 4294967295, none⟩
def F.WEIR_CLASS_CFG.RATE : Field := ⟨.WEIR_CLASS_CFG, 0, 32, .st, 4294967295, none⟩
def F.FAB_ROUTE_CTRL.HOLD_US : Field := ⟨.FAB_ROUTE_CTRL, 0, 16, .rw, 100, none⟩
def F.WEIR_CLASS_ARB.QUANTUM : Field := ⟨.WEIR_CLASS_ARB, 0, 12, .st, 18, none⟩
def F.FAB_ROUTE_STATS.STALE_SENT : Field := ⟨.FAB_ROUTE_STATS, 48, 16, .rc, 0, none⟩
def F.FAB_ROUTE_STATS.UNREACH_SENT : Field := ⟨.FAB_ROUTE_STATS, 32, 16, .rc, 0, none⟩
def F.FAB_ROUTE_STATS.HELD_DROPS : Field := ⟨.FAB_ROUTE_STATS, 16, 16, .rc, 0, none⟩
def F.FAB_ROUTE_STATS.OLD_ROUTED : Field := ⟨.FAB_ROUTE_STATS, 0, 16, .rc, 0, none⟩
def F.WEIR_OWNER_CFG.BURST : Field := ⟨.WEIR_OWNER_CFG, 32, 32, .st, 4294967295, none⟩
def F.WEIR_OWNER_CFG.RATE : Field := ⟨.WEIR_OWNER_CFG, 0, 32, .st, 4294967295, none⟩
def F.HG_CTRL.ENABLE : Field := ⟨.HG_CTRL, 31, 1, .rw, 0, none⟩
def F.HG_CTRL.VECTOR : Field := ⟨.HG_CTRL, 20, 11, .rw, 0, none⟩
def F.HG_CTRL.LOG2_SIZE : Field := ⟨.HG_CTRL, 0, 4, .rw, 6, some (6, 12)⟩
def F.WEIR_TEL_BASE.ADDR : Field := ⟨.WEIR_TEL_BASE, 12, 52, .rw, 0, none⟩
def F.HG_DROP_BASE.ADDR : Field := ⟨.HG_DROP_BASE, 12, 52, .rw, 0, none⟩
def F.WEIR_TEL_CTRL.ENABLE : Field := ⟨.WEIR_TEL_CTRL, 31, 1, .rw, 0, none⟩
def F.WEIR_TEL_CTRL.VECTOR : Field := ⟨.WEIR_TEL_CTRL, 20, 11, .rw, 0, none⟩
def F.WEIR_TEL_CTRL.LOG2_SIZE : Field := ⟨.WEIR_TEL_CTRL, 0, 5, .rw, 6, some (6, 16)⟩
def F.HG_DROP_PRODUCED.PRODUCED : Field := ⟨.HG_DROP_PRODUCED, 0, 64, .ro, 0, none⟩
def F.WEIR_TEL_LINKS0.LINKS : Field := ⟨.WEIR_TEL_LINKS0, 0, 64, .rw, 0, none⟩
def F.HG_DROP_CONSUMED.CONSUMED : Field := ⟨.HG_DROP_CONSUMED, 0, 64, .rw, 0, none⟩
def F.WEIR_TEL_LINKS1.WEIRS : Field := ⟨.WEIR_TEL_LINKS1, 48, 1, .rw, 0, none⟩
def F.WEIR_TEL_LINKS1.LINKS : Field := ⟨.WEIR_TEL_LINKS1, 0, 48, .rw, 0, none⟩
def F.HG_STATS.LOST : Field := ⟨.HG_STATS, 48, 16, .rc, 0, none⟩
def F.HG_STATS.REQ_DROPS : Field := ⟨.HG_STATS, 24, 24, .rc, 0, none⟩
def F.HG_STATS.PROMPT_DROPS : Field := ⟨.HG_STATS, 0, 24, .rc, 0, none⟩
def F.WEIR_TEL_PRODUCED.PRODUCED : Field := ⟨.WEIR_TEL_PRODUCED, 0, 64, .ro, 0, none⟩
def F.HG_REQ_CFG.BURST : Field := ⟨.HG_REQ_CFG, 32, 32, .st, 0, none⟩
def F.HG_REQ_CFG.RATE : Field := ⟨.HG_REQ_CFG, 0, 32, .st, 0, none⟩
def F.WEIR_TEL_CONSUMED.CONSUMED : Field := ⟨.WEIR_TEL_CONSUMED, 0, 64, .rw, 0, none⟩
def F.HG_PROMPT_CFG.BURST : Field := ⟨.HG_PROMPT_CFG, 32, 32, .st, 0, none⟩
def F.HG_PROMPT_CFG.RATE : Field := ⟨.HG_PROMPT_CFG, 0, 32, .st, 0, none⟩
def F.WEIR_TEL_LOST.LOST : Field := ⟨.WEIR_TEL_LOST, 0, 64, .rc, 0, none⟩
def F.HG_LEVEL.REQ : Field := ⟨.HG_LEVEL, 32, 32, .ro, 0, none⟩
def F.HG_LEVEL.PROMPT : Field := ⟨.HG_LEVEL, 0, 32, .ro, 0, none⟩
def F.HQ_CAPS.QUEUES : Field := ⟨.HQ_CAPS, 32, 16, .ro, 256, none⟩
def F.HQ_CAPS.VFS : Field := ⟨.HQ_CAPS, 24, 8, .ro, 31, none⟩
def F.HQ_CAPS.VECTORS : Field := ⟨.HQ_CAPS, 12, 12, .ro, 2048, none⟩
def F.HQ_CAPS.VF_VECTORS : Field := ⟨.HQ_CAPS, 0, 12, .ro, 64, none⟩
def F.NVM_CAPS.FLASH_FRAMES : Field := ⟨.NVM_CAPS, 32, 32, .ro, 0, none⟩
def F.NVM_CAPS.MAX_QDEPTH : Field := ⟨.NVM_CAPS, 16, 16, .ro, 1024, none⟩
def F.NVM_CAPS.MAX_IO_QUEUES : Field := ⟨.NVM_CAPS, 8, 8, .ro, 16, none⟩
def F.NVM_CAPS.PORTS : Field := ⟨.NVM_CAPS, 0, 8, .ro, 0, none⟩
def F.HQ_CONTROL.REMAINING_MS : Field := ⟨.HQ_CONTROL, 48, 16, .ro, 0, none⟩
def F.HQ_CONTROL.LEASE_MS : Field := ⟨.HQ_CONTROL, 32, 16, .rw, 0, some (0, 10000)⟩
def F.HQ_CONTROL.RENEW : Field := ⟨.HQ_CONTROL, 5, 1, .w1s, 0, none⟩
def F.HQ_CONTROL.RELEASE : Field := ⟨.HQ_CONTROL, 4, 1, .w1s, 0, none⟩
def F.HQ_CONTROL.CLAIM : Field := ⟨.HQ_CONTROL, 3, 1, .w1s, 0, none⟩
def F.HQ_CONTROL.LAPSED : Field := ⟨.HQ_CONTROL, 2, 1, .ro, 0, none⟩
def F.HQ_CONTROL.HOLDER : Field := ⟨.HQ_CONTROL, 0, 2, .ro, 0, none⟩
def F.NVM_TIMING.ADMIN_MS : Field := ⟨.NVM_TIMING, 32, 16, .st, 1000, none⟩
def F.NVM_TIMING.IO_MS : Field := ⟨.NVM_TIMING, 0, 16, .st, 100, none⟩
def F.HQ_PORT_STATUS.H1 : Field := ⟨.HQ_PORT_STATUS, 16, 16, .ro, 0, none⟩
def F.HQ_PORT_STATUS.H0 : Field := ⟨.HQ_PORT_STATUS, 0, 16, .ro, 0, none⟩
def F.NVM_EVENTS.EXTENT_LOST : Field := ⟨.NVM_EVENTS, 7, 1, .w1c, 0, none⟩
def F.NVM_EVENTS.ADMIN_DONE : Field := ⟨.NVM_EVENTS, 6, 1, .w1c, 0, none⟩
def F.NVM_EVENTS.CRC : Field := ⟨.NVM_EVENTS, 5, 1, .w1c, 0, none⟩
def F.NVM_EVENTS.DMA_REFUSED : Field := ⟨.NVM_EVENTS, 4, 1, .w1c, 0, none⟩
def F.NVM_EVENTS.TIMEOUT : Field := ⟨.NVM_EVENTS, 3, 1, .w1c, 0, none⟩
def F.NVM_EVENTS.IO_ERROR : Field := ⟨.NVM_EVENTS, 2, 1, .w1c, 0, none⟩
def F.NVM_EVENTS.PORT_FAILED : Field := ⟨.NVM_EVENTS, 1, 1, .w1c, 0, none⟩
def F.NVM_EVENTS.PORT_READY : Field := ⟨.NVM_EVENTS, 0, 1, .w1c, 0, none⟩
def F.HQ_FLUME_BASE.ADDR : Field := ⟨.HQ_FLUME_BASE, 12, 52, .rw, 0, none⟩
def F.NVM_CTRL.VECTOR : Field := ⟨.NVM_CTRL, 0, 11, .rw, 0, none⟩
def F.HQ_FLUME_CTRL.ENABLE : Field := ⟨.HQ_FLUME_CTRL, 31, 1, .rw, 0, none⟩
def F.HQ_FLUME_CTRL.COUNT : Field := ⟨.HQ_FLUME_CTRL, 0, 16, .rw, 0, none⟩
def F.NVM_ADMIN_ADDR.ADDR : Field := ⟨.NVM_ADMIN_ADDR, 12, 52, .rw, 0, none⟩
def F.HQ_EVENTS.HOST_ERROR : Field := ⟨.HQ_EVENTS, 5, 1, .w1c, 0, none⟩
def F.HQ_EVENTS.LEASE_LAPSED : Field := ⟨.HQ_EVENTS, 4, 1, .w1c, 0, none⟩
def F.HQ_EVENTS.FLR : Field := ⟨.HQ_EVENTS, 3, 1, .w1c, 0, none⟩
def F.HQ_EVENTS.QUEUE_ERROR : Field := ⟨.HQ_EVENTS, 2, 1, .w1c, 0, none⟩
def F.HQ_EVENTS.PORT_DOWN : Field := ⟨.HQ_EVENTS, 1, 1, .w1c, 0, none⟩
def F.HQ_EVENTS.HOLDER_CHANGE : Field := ⟨.HQ_EVENTS, 0, 1, .w1c, 0, none⟩
def F.NVM_ADMIN.PORT : Field := ⟨.NVM_ADMIN, 1, 3, .wo, 0, none⟩
def F.NVM_ADMIN.START : Field := ⟨.NVM_ADMIN, 0, 1, .wo, 0, none⟩
def F.HQ_VECTOR.VECTOR : Field := ⟨.HQ_VECTOR, 0, 11, .rw, 0, none⟩
def F.NVM_ADMIN_STATUS.NVME_STATUS : Field := ⟨.NVM_ADMIN_STATUS, 48, 16, .ro, 0, none⟩
def F.NVM_ADMIN_STATUS.RESULT : Field := ⟨.NVM_ADMIN_STATUS, 4, 4, .ro, 0, none⟩
def F.NVM_ADMIN_STATUS.ACTIVE : Field := ⟨.NVM_ADMIN_STATUS, 0, 1, .ro, 0, none⟩
def F.HQ_STATS.FOREIGN : Field := ⟨.HQ_STATS, 48, 16, .rc, 0, none⟩
def F.HQ_STATS.DOORBELL_IGNORED : Field := ⟨.HQ_STATS, 32, 16, .rc, 0, none⟩
def F.HQ_STATS.CANCEL_IGNORED : Field := ⟨.HQ_STATS, 16, 16, .rc, 0, none⟩
def F.HQ_STATS.HOST_ERRORS : Field := ⟨.HQ_STATS, 0, 16, .rc, 0, none⟩
def F.NVM_PORT_CFG.ENABLE : Field := ⟨.NVM_PORT_CFG, 31, 1, .rw, 0, none⟩
def F.NVM_PORT_CFG.TRIM : Field := ⟨.NVM_PORT_CFG, 30, 1, .rw, 0, none⟩
def F.NVM_PORT_CFG.IO_QUEUES : Field := ⟨.NVM_PORT_CFG, 11, 5, .rw, 4, some (1, 16)⟩
def F.NVM_PORT_CFG.QDEPTH : Field := ⟨.NVM_PORT_CFG, 0, 11, .rw, 1024, some (64, 1024)⟩
def F.HQ_Q_BASE.ADDR : Field := ⟨.HQ_Q_BASE, 12, 52, .rw, 0, none⟩
def F.NVM_PORT_CTRL.RESET : Field := ⟨.NVM_PORT_CTRL, 0, 1, .w1s, 0, none⟩
def F.HQ_Q_CTRL.ENABLE : Field := ⟨.HQ_Q_CTRL, 31, 1, .rw, 0, none⟩
def F.HQ_Q_CTRL.VECTOR : Field := ⟨.HQ_Q_CTRL, 20, 11, .rw, 0, none⟩
def F.HQ_Q_CTRL.ENGINE : Field := ⟨.HQ_Q_CTRL, 11, 5, .rw, 0, none⟩
def F.HQ_Q_CTRL.KIND : Field := ⟨.HQ_Q_CTRL, 6, 2, .rw, 0, none⟩
def F.HQ_Q_CTRL.LOG2_SIZE : Field := ⟨.HQ_Q_CTRL, 0, 4, .rw, 6, some (6, 12)⟩
def F.NVM_PORT_STATUS.RATE : Field := ⟨.NVM_PORT_STATUS, 28, 4, .ro, 0, none⟩
def F.NVM_PORT_STATUS.WIDTH : Field := ⟨.NVM_PORT_STATUS, 24, 4, .ro, 0, none⟩
def F.NVM_PORT_STATUS.FLIT : Field := ⟨.NVM_PORT_STATUS, 23, 1, .ro, 0, none⟩
def F.NVM_PORT_STATUS.QUEUES : Field := ⟨.NVM_PORT_STATUS, 8, 8, .ro, 0, none⟩
def F.NVM_PORT_STATUS.STATE : Field := ⟨.NVM_PORT_STATUS, 0, 3, .ro, 0, none⟩
def F.HQ_Q_STATUS.WRITTEN : Field := ⟨.HQ_Q_STATUS, 32, 32, .ro, 0, none⟩
def F.HQ_Q_STATUS.STOPPED : Field := ⟨.HQ_Q_STATUS, 16, 1, .ro, 0, none⟩
def F.HQ_Q_STATUS.HEAD : Field := ⟨.HQ_Q_STATUS, 0, 12, .ro, 0, none⟩
def F.NVM_PORT_STATS.MEAN_READ : Field := ⟨.NVM_PORT_STATS, 48, 16, .ro, 0, none⟩
def F.NVM_PORT_STATS.OUTSTANDING : Field := ⟨.NVM_PORT_STATS, 32, 16, .ro, 0, none⟩
def F.NVM_PORT_STATS.DMA_REFUSED : Field := ⟨.NVM_PORT_STATS, 16, 16, .rc, 0, none⟩
def F.NVM_PORT_STATS.TIMEOUTS : Field := ⟨.NVM_PORT_STATS, 0, 16, .rc, 0, none⟩
def F.HQ_Q_CPL_BASE.ADDR : Field := ⟨.HQ_Q_CPL_BASE, 12, 52, .rw, 0, none⟩
def F.NVM_PORT_ERRORS.COMMANDS : Field := ⟨.NVM_PORT_ERRORS, 32, 32, .rc, 0, none⟩
def F.NVM_PORT_ERRORS.ERRORS : Field := ⟨.NVM_PORT_ERRORS, 16, 16, .rc, 0, none⟩
def F.NVM_PORT_ERRORS.CRC_FAIL : Field := ⟨.NVM_PORT_ERRORS, 0, 16, .rc, 0, none⟩
def F.NVM_EXT_CFG.NSID : Field := ⟨.NVM_EXT_CFG, 32, 32, .st, 0, none⟩
def F.NVM_EXT_CFG.ENABLE : Field := ⟨.NVM_EXT_CFG, 31, 1, .st, 0, none⟩
def F.NVM_EXT_CFG.KIND : Field := ⟨.NVM_EXT_CFG, 29, 2, .st, 0, none⟩
def F.NVM_EXT_CFG.FUNCTION : Field := ⟨.NVM_EXT_CFG, 24, 5, .st, 0, none⟩
def F.NVM_EXT_CFG.PORT : Field := ⟨.NVM_EXT_CFG, 20, 4, .st, 0, none⟩
def F.NVM_EXT_CFG.LOST : Field := ⟨.NVM_EXT_CFG, 0, 1, .ro, 0, none⟩
def F.NVM_EXT_ADDR.ADDR : Field := ⟨.NVM_EXT_ADDR, 0, 64, .st, 0, none⟩
def F.NVM_EXT_FRAMES.FRAMES : Field := ⟨.NVM_EXT_FRAMES, 32, 32, .st, 0, none⟩
def F.NVM_EXT_FRAMES.FIRST : Field := ⟨.NVM_EXT_FRAMES, 0, 32, .st, 0, none⟩
def F.NVM_EXT_CRC.ADDR : Field := ⟨.NVM_EXT_CRC, 3, 61, .st, 0, none⟩
def F.CFG_STATUS.CFG_EPOCH : Field := ⟨.CFG_STATUS, 48, 16, .ro, 0, none⟩
def F.CFG_STATUS.RESULT : Field := ⟨.CFG_STATUS, 40, 8, .ro, 0, none⟩
def F.CFG_STATUS.PINS : Field := ⟨.CFG_STATUS, 8, 2, .ro, 0, none⟩
def F.CFG_STATUS.STATE : Field := ⟨.CFG_STATUS, 4, 2, .ro, 0, none⟩
def F.CFG_STATUS.ACTIVE_SLOT : Field := ⟨.CFG_STATUS, 0, 2, .ro, 0, none⟩
def F.CFG_CMD.BYTES : Field := ⟨.CFG_CMD, 32, 32, .wo, 0, none⟩
def F.CFG_CMD.SLOT : Field := ⟨.CFG_CMD, 8, 2, .wo, 0, none⟩
def F.CFG_CMD.OPCODE : Field := ⟨.CFG_CMD, 0, 8, .wo, 0, none⟩
def F.CFG_DIGEST.DIGEST : Field := ⟨.CFG_DIGEST, 0, 64, .ro, 0, none⟩
def F.CFG_CMD_STATUS.BUSY_WHY : Field := ⟨.CFG_CMD_STATUS, 40, 8, .ro, 0, none⟩
def F.CFG_CMD_STATUS.OPCODE : Field := ⟨.CFG_CMD_STATUS, 16, 8, .ro, 0, none⟩
def F.CFG_CMD_STATUS.RESULT : Field := ⟨.CFG_CMD_STATUS, 8, 8, .ro, 0, none⟩
def F.CFG_CMD_STATUS.ACTIVE : Field := ⟨.CFG_CMD_STATUS, 0, 1, .ro, 0, none⟩
def F.CFG_CTRL.VECTOR : Field := ⟨.CFG_CTRL, 0, 11, .rw, 0, none⟩
def F.CFG_STAGE_FAULT.OFFSET : Field := ⟨.CFG_STAGE_FAULT, 0, 32, .ro, 0, none⟩
def F.CFG_EVENTS.NO_IMAGE : Field := ⟨.CFG_EVENTS, 5, 1, .w1c, 0, none⟩
def F.CFG_EVENTS.CENSUS_DONE : Field := ⟨.CFG_EVENTS, 4, 1, .w1c, 0, none⟩
def F.CFG_EVENTS.SLOT_WRITE_FAILED : Field := ⟨.CFG_EVENTS, 3, 1, .w1c, 0, none⟩
def F.CFG_EVENTS.SLOT_WRITTEN : Field := ⟨.CFG_EVENTS, 2, 1, .w1c, 0, none⟩
def F.CFG_EVENTS.SWITCH_FAILED : Field := ⟨.CFG_EVENTS, 1, 1, .w1c, 0, none⟩
def F.CFG_EVENTS.SWITCH_DONE : Field := ⟨.CFG_EVENTS, 0, 1, .w1c, 0, none⟩
def F.CFG_CENSUS_BASE.ADDR : Field := ⟨.CFG_CENSUS_BASE, 12, 52, .rw, 0, none⟩
def F.CFG_CENSUS_BASE.LOG2_SIZE : Field := ⟨.CFG_CENSUS_BASE, 0, 4, .rw, 6, some (6, 15)⟩
def F.CFG_CMD_ADDR.ADDR : Field := ⟨.CFG_CMD_ADDR, 12, 52, .rw, 0, none⟩
def F.CFG_CENSUS.LAST : Field := ⟨.CFG_CENSUS, 48, 16, .wo, 0, none⟩
def F.CFG_CENSUS.FIRST : Field := ⟨.CFG_CENSUS, 32, 16, .wo, 0, none⟩
def F.CFG_CENSUS.SCOPE : Field := ⟨.CFG_CENSUS, 1, 2, .wo, 0, none⟩
def F.CFG_CENSUS.START : Field := ⟨.CFG_CENSUS, 0, 1, .wo, 0, none⟩
def F.CFG_SLOT_INFO.ROLE_TAG : Field := ⟨.CFG_SLOT_INFO, 32, 32, .ro, 0, none⟩
def F.CFG_SLOT_INFO.CFG_EPOCH : Field := ⟨.CFG_SLOT_INFO, 16, 16, .ro, 0, none⟩
def F.CFG_SLOT_INFO.LAST_RESULT : Field := ⟨.CFG_SLOT_INFO, 8, 8, .ro, 0, none⟩
def F.CFG_SLOT_INFO.STATE : Field := ⟨.CFG_SLOT_INFO, 0, 2, .ro, 0, none⟩
def F.CFG_CENSUS_STATUS.SENT : Field := ⟨.CFG_CENSUS_STATUS, 48, 16, .ro, 0, none⟩
def F.CFG_CENSUS_STATUS.RECEIVED : Field := ⟨.CFG_CENSUS_STATUS, 32, 16, .ro, 0, none⟩
def F.CFG_CENSUS_STATUS.MISMATCHED : Field := ⟨.CFG_CENSUS_STATUS, 16, 16, .ro, 0, none⟩
def F.CFG_CENSUS_STATUS.DROPPED : Field := ⟨.CFG_CENSUS_STATUS, 1, 15, .ro, 0, none⟩
def F.CFG_CENSUS_STATUS.ACTIVE : Field := ⟨.CFG_CENSUS_STATUS, 0, 1, .ro, 0, none⟩
def F.SEC_STATUS.FW_FLOOR : Field := ⟨.SEC_STATUS, 40, 8, .ro, 0, none⟩
def F.SEC_STATUS.FW_SVN : Field := ⟨.SEC_STATUS, 32, 8, .ro, 0, none⟩
def F.SEC_STATUS.FW_SLOT : Field := ⟨.SEC_STATUS, 8, 1, .ro, 0, none⟩
def F.SEC_STATUS.STATE : Field := ⟨.SEC_STATUS, 0, 2, .ro, 0, none⟩
def F.MTR_ID.FORMAT : Field := ⟨.MTR_ID, 32, 8, .ro, 1, none⟩
def F.MTR_ID.SEAL : Field := ⟨.MTR_ID, 16, 10, .ro, 0, none⟩
def F.MTR_ID.SVN : Field := ⟨.MTR_ID, 0, 6, .ro, 0, none⟩
def F.SEC_KEY_POLICY.KM_ID : Field := ⟨.SEC_KEY_POLICY, 32, 32, .ro, 0, none⟩
def F.SEC_KEY_POLICY.FLAGS : Field := ⟨.SEC_KEY_POLICY, 16, 3, .ro, 0, none⟩
def F.SEC_KEY_POLICY.SLOT_LIMIT : Field := ⟨.SEC_KEY_POLICY, 0, 13, .ro, 0, none⟩
def F.MTR_STATUS.BOOT : Field := ⟨.MTR_STATUS, 32, 32, .ro, 0, none⟩
def F.MTR_STATUS.HEARTBEAT : Field := ⟨.MTR_STATUS, 16, 16, .ro, 0, none⟩
def F.MTR_STATUS.QUEUED : Field := ⟨.MTR_STATUS, 8, 8, .ro, 0, none⟩
def F.MTR_STATUS.STATE : Field := ⟨.MTR_STATUS, 0, 3, .ro, 0, none⟩
def F.SEC_KEYS_USED.ACTIVE : Field := ⟨.SEC_KEYS_USED, 0, 13, .ro, 0, none⟩
def F.MTR_PERIOD.FIRST_TURN : Field := ⟨.MTR_PERIOD, 0, 64, .ro, 0, none⟩
def F.SEC_CMD_ADDR.ADDR : Field := ⟨.SEC_CMD_ADDR, 6, 58, .rw, 0, none⟩
def F.MTR_PRODUCED.PRODUCED : Field := ⟨.MTR_PRODUCED, 0, 64, .ro, 0, none⟩
def F.SEC_CMD.BYTES : Field := ⟨.SEC_CMD, 32, 32, .wo, 0, none⟩
def F.SEC_CMD.SLOT : Field := ⟨.SEC_CMD, 16, 12, .wo, 0, none⟩
def F.SEC_CMD.OPCODE : Field := ⟨.SEC_CMD, 0, 8, .wo, 0, none⟩
def F.MTR_CONSUMED.CONSUMED : Field := ⟨.MTR_CONSUMED, 0, 64, .rw, 0, none⟩
def F.SEC_CMD_STATUS.OPCODE : Field := ⟨.SEC_CMD_STATUS, 16, 8, .ro, 0, none⟩
def F.SEC_CMD_STATUS.RESULT : Field := ⟨.SEC_CMD_STATUS, 8, 8, .ro, 0, none⟩
def F.SEC_CMD_STATUS.ACTIVE : Field := ⟨.SEC_CMD_STATUS, 0, 1, .ro, 0, none⟩
def F.MTR_CTRL.CLOSE : Field := ⟨.MTR_CTRL, 1, 1, .w1s, 0, none⟩
def F.MTR_CTRL.TALLY_NOW : Field := ⟨.MTR_CTRL, 0, 1, .w1s, 0, none⟩
def F.SEC_CTRL.VECTOR : Field := ⟨.SEC_CTRL, 0, 11, .rw, 0, none⟩
def F.MTR_CONFIG.AUDIT_COUNT : Field := ⟨.MTR_CONFIG, 20, 4, .ro, 0, none⟩
def F.MTR_CONFIG.INTERVAL : Field := ⟨.MTR_CONFIG, 0, 16, .ro, 0, none⟩
def F.SEC_EVENTS.KEY_RETIRED : Field := ⟨.SEC_EVENTS, 1, 1, .w1c, 0, none⟩
def F.SEC_EVENTS.CMD_DONE : Field := ⟨.SEC_EVENTS, 0, 1, .w1c, 0, none⟩
def F.MTR_FW_ADDR.ADDR : Field := ⟨.MTR_FW_ADDR, 12, 52, .rw, 0, none⟩
def F.SEC_KEY_ID.KEY_ID : Field := ⟨.SEC_KEY_ID, 0, 64, .ro, 0, none⟩
def F.MTR_FW_CMD.BYTES : Field := ⟨.MTR_FW_CMD, 32, 32, .wo, 0, none⟩
def F.MTR_FW_CMD.START : Field := ⟨.MTR_FW_CMD, 0, 1, .wo, 0, none⟩
def F.MTR_FW_STATUS.RESULT : Field := ⟨.MTR_FW_STATUS, 8, 8, .ro, 0, none⟩
def F.MTR_FW_STATUS.ACTIVE : Field := ⟨.MTR_FW_STATUS, 0, 1, .ro, 0, none⟩
def F.MTR_VECTOR.ENABLE1 : Field := ⟨.MTR_VECTOR, 31, 1, .rw, 0, none⟩
def F.MTR_VECTOR.VECTOR1 : Field := ⟨.MTR_VECTOR, 16, 11, .rw, 0, none⟩
def F.MTR_VECTOR.ENABLE0 : Field := ⟨.MTR_VECTOR, 15, 1, .rw, 0, none⟩
def F.MTR_VECTOR.VECTOR0 : Field := ⟨.MTR_VECTOR, 0, 11, .rw, 0, none⟩
def F.MTR_EVENTS.MIXED : Field := ⟨.MTR_EVENTS, 5, 1, .w1c, 0, none⟩
def F.MTR_EVENTS.QUERY_REFUSED : Field := ⟨.MTR_EVENTS, 4, 1, .w1c, 0, none⟩
def F.MTR_EVENTS.FW_DONE : Field := ⟨.MTR_EVENTS, 3, 1, .w1c, 0, none⟩
def F.MTR_EVENTS.BROKEN : Field := ⟨.MTR_EVENTS, 2, 1, .w1c, 0, none⟩
def F.MTR_EVENTS.RING_FULL : Field := ⟨.MTR_EVENTS, 1, 1, .w1c, 0, none⟩
def F.MTR_EVENTS.RECORD : Field := ⟨.MTR_EVENTS, 0, 1, .w1c, 0, none⟩
def F.MTR_DIGEST.DIGEST : Field := ⟨.MTR_DIGEST, 0, 64, .ro, 0, none⟩
def F.ERR_STATUS.RESTART_TURN : Field := ⟨.ERR_STATUS, 0, 64, .ro, 0, none⟩
def F.ERR_RESET_STATUS.LAST_REQUEST : Field := ⟨.ERR_RESET_STATUS, 10, 2, .ro, 0, none⟩
def F.ERR_RESET_STATUS.FATAL : Field := ⟨.ERR_RESET_STATUS, 9, 1, .ro, 0, none⟩
def F.ERR_RESET_STATUS.ACTIVE : Field := ⟨.ERR_RESET_STATUS, 8, 1, .ro, 0, none⟩
def F.ERR_RESET_STATUS.KIND : Field := ⟨.ERR_RESET_STATUS, 4, 4, .ro, 0, none⟩
def F.ERR_RESET_STATUS.STEP : Field := ⟨.ERR_RESET_STATUS, 0, 3, .ro, 0, none⟩
def F.ERR_CTRL.RESTART_JOB : Field := ⟨.ERR_CTRL, 32, 32, .ro, 0, none⟩
def F.ERR_CTRL.VECTOR : Field := ⟨.ERR_CTRL, 0, 11, .rw, 0, none⟩
def F.ERR_DUMP_HOST.ADDR : Field := ⟨.ERR_DUMP_HOST, 12, 52, .rw, 0, none⟩
def F.ERR_DUMP_HOST.PORT : Field := ⟨.ERR_DUMP_HOST, 1, 1, .rw, 0, none⟩
def F.ERR_DUMP_HOST.ENABLE : Field := ⟨.ERR_DUMP_HOST, 0, 1, .rw, 0, none⟩
def F.ERR_EVENTS.RING_OVERFLOW : Field := ⟨.ERR_EVENTS, 7, 1, .w1c, 0, none⟩
def F.ERR_EVENTS.DUMP_DROPPED : Field := ⟨.ERR_EVENTS, 6, 1, .w1c, 0, none⟩
def F.ERR_EVENTS.DUMP_TAKEN : Field := ⟨.ERR_EVENTS, 5, 1, .w1c, 0, none⟩
def F.ERR_EVENTS.SHADOW_DIFF : Field := ⟨.ERR_EVENTS, 4, 1, .w1c, 0, none⟩
def F.ERR_EVENTS.SUSPECT : Field := ⟨.ERR_EVENTS, 3, 1, .w1c, 0, none⟩
def F.ERR_EVENTS.RESET_STEP : Field := ⟨.ERR_EVENTS, 2, 1, .w1c, 0, none⟩
def F.ERR_EVENTS.RESTART : Field := ⟨.ERR_EVENTS, 1, 1, .w1c, 0, none⟩
def F.ERR_EVENTS.RECORD : Field := ⟨.ERR_EVENTS, 0, 1, .w1c, 0, none⟩
def F.ERR_DUMP_CMD.PUSH_NOW : Field := ⟨.ERR_DUMP_CMD, 2, 1, .w1s, 0, none⟩
def F.ERR_DUMP_CMD.RELEASE : Field := ⟨.ERR_DUMP_CMD, 1, 1, .w1s, 0, none⟩
def F.ERR_DUMP_CMD.DUMP_NOW : Field := ⟨.ERR_DUMP_CMD, 0, 1, .w1s, 0, none⟩
def F.ERR_COUNTS.REPLAYED : Field := ⟨.ERR_COUNTS, 32, 32, .rc, 0, none⟩
def F.ERR_COUNTS.UNCORRECTABLE : Field := ⟨.ERR_COUNTS, 16, 16, .rc, 0, none⟩
def F.ERR_COUNTS.SUPPRESSED : Field := ⟨.ERR_COUNTS, 8, 8, .rc, 0, none⟩
def F.ERR_COUNTS.DUMPS_DROPPED : Field := ⟨.ERR_COUNTS, 0, 8, .rc, 0, none⟩
def F.ERR_SENT_CFG.CLEAR : Field := ⟨.ERR_SENT_CFG, 16, 1, .w1s, 0, none⟩
def F.ERR_SENT_CFG.FAIL_SEAL : Field := ⟨.ERR_SENT_CFG, 15, 1, .rw, 0, none⟩
def F.ERR_SENT_CFG.TOTAL_LIMIT : Field := ⟨.ERR_SENT_CFG, 8, 7, .rw, 4, some (1, 127)⟩
def F.ERR_SENT_CFG.BIN_LIMIT : Field := ⟨.ERR_SENT_CFG, 0, 7, .rw, 2, some (1, 127)⟩
def F.ERR_RING_BASE.ADDR : Field := ⟨.ERR_RING_BASE, 12, 52, .rw, 0, none⟩
def F.ERR_SHADOW_CFG.HASH_TOL : Field := ⟨.ERR_SHADOW_CFG, 8, 4, .rw, 3, none⟩
def F.ERR_SHADOW_CFG.LOGIT_TOL : Field := ⟨.ERR_SHADOW_CFG, 0, 8, .rw, 2, none⟩
def F.ERR_RING_CTRL.ENABLE : Field := ⟨.ERR_RING_CTRL, 31, 1, .rw, 0, none⟩
def F.ERR_RING_CTRL.LOG2_SIZE : Field := ⟨.ERR_RING_CTRL, 0, 4, .rw, 6, some (6, 12)⟩
def F.ERR_SHADOW_TARGETS.NODES : Field := ⟨.ERR_SHADOW_TARGETS, 0, 64, .rw, 18446744073709551615, none⟩
def F.ERR_RING_PRODUCED.PRODUCED : Field := ⟨.ERR_RING_PRODUCED, 0, 64, .ro, 0, none⟩
def F.ERR_SHADOW_STATS.COMPARED : Field := ⟨.ERR_SHADOW_STATS, 40, 24, .rc, 0, none⟩
def F.ERR_SHADOW_STATS.DISAGREED : Field := ⟨.ERR_SHADOW_STATS, 16, 24, .rc, 0, none⟩
def F.ERR_SHADOW_STATS.MISSING : Field := ⟨.ERR_SHADOW_STATS, 8, 8, .rc, 0, none⟩
def F.ERR_SHADOW_STATS.SEND_FAILED : Field := ⟨.ERR_SHADOW_STATS, 0, 8, .rc, 0, none⟩
def F.ERR_RING_CONSUMED.CONSUMED : Field := ⟨.ERR_RING_CONSUMED, 0, 64, .rw, 0, none⟩
def F.ERR_SENT_BIN.RUNS : Field := ⟨.ERR_SENT_BIN, 32, 32, .rc, 0, none⟩
def F.ERR_SENT_BIN.FAILS : Field := ⟨.ERR_SENT_BIN, 0, 32, .rc, 0, none⟩
def F.ERR_RESET_CMD.KIND : Field := ⟨.ERR_RESET_CMD, 16, 4, .wo, 0, none⟩
def F.ERR_RESET_CMD.DOMAIN : Field := ⟨.ERR_RESET_CMD, 12, 4, .wo, 0, none⟩
def F.ERR_RESET_CMD.INDEX : Field := ⟨.ERR_RESET_CMD, 0, 9, .wo, 0, none⟩
def F.ERR_SENT_CORE.FAILS : Field := ⟨.ERR_SENT_CORE, 48, 16, .ro, 0, none⟩
def F.ERR_SENT_CORE.BINS : Field := ⟨.ERR_SENT_CORE, 0, 32, .ro, 0, none⟩
def F.RIDE_STATUS.RESETS : Field := ⟨.RIDE_STATUS, 32, 32, .ro, 0, none⟩
def F.RIDE_STATUS.STATE : Field := ⟨.RIDE_STATUS, 0, 3, .ro, 0, none⟩
def F.RIDE_EVENTS.PUSH_FAILED : Field := ⟨.RIDE_EVENTS, 5, 1, .w1c, 0, none⟩
def F.RIDE_EVENTS.PUSH_FLASH : Field := ⟨.RIDE_EVENTS, 4, 1, .w1c, 0, none⟩
def F.RIDE_EVENTS.PUSH_HOST : Field := ⟨.RIDE_EVENTS, 3, 1, .w1c, 0, none⟩
def F.RIDE_EVENTS.RIDER_UP : Field := ⟨.RIDE_EVENTS, 2, 1, .w1c, 0, none⟩
def F.RIDE_EVENTS.WARM_RESET : Field := ⟨.RIDE_EVENTS, 1, 1, .w1c, 0, none⟩
def F.RIDE_EVENTS.RIDER_RESET : Field := ⟨.RIDE_EVENTS, 0, 1, .w1c, 0, none⟩
def F.RIDE_HEARTBEAT.COUNT : Field := ⟨.RIDE_HEARTBEAT, 0, 32, .ro, 0, none⟩
def F.RIDE_DUMP_FLASH.NSID : Field := ⟨.RIDE_DUMP_FLASH, 32, 32, .rw, 0, none⟩
def F.RIDE_DUMP_FLASH.ENABLE : Field := ⟨.RIDE_DUMP_FLASH, 31, 1, .rw, 0, none⟩
def F.RIDE_DUMP_FLASH.PORT : Field := ⟨.RIDE_DUMP_FLASH, 24, 3, .rw, 0, none⟩
def F.RIDE_WDOG.MISSES : Field := ⟨.RIDE_WDOG, 16, 16, .rc, 0, none⟩
def F.RIDE_WDOG.PERIOD_MS : Field := ⟨.RIDE_WDOG, 0, 16, .rw, 100, some (10, 1000)⟩
def F.RIDE_DUMP_LBA.LBA : Field := ⟨.RIDE_DUMP_LBA, 0, 64, .rw, 0, none⟩
def F.PWR_STATUS.AVG_W : Field := ⟨.PWR_STATUS, 48, 16, .ro, 0, none⟩
def F.PWR_STATUS.PEAK_W : Field := ⟨.PWR_STATUS, 32, 16, .rc, 0, none⟩
def F.PWR_STATUS.CLOCK_MHZ : Field := ⟨.PWR_STATUS, 16, 16, .ro, 1900, none⟩
def F.PWR_STATUS.STEP : Field := ⟨.PWR_STATUS, 8, 4, .ro, 0, none⟩
def F.PWR_STATUS.EMERGENCY : Field := ⟨.PWR_STATUS, 0, 1, .ro, 0, none⟩
def F.PWR_THERM.PEAK : Field := ⟨.PWR_THERM, 48, 16, .rc, 0, none⟩
def F.PWR_THERM.STACK_MAX : Field := ⟨.PWR_THERM, 32, 16, .ro, 0, none⟩
def F.PWR_THERM.DIE1_MAX : Field := ⟨.PWR_THERM, 16, 16, .ro, 0, none⟩
def F.PWR_THERM.DIE0_MAX : Field := ⟨.PWR_THERM, 0, 16, .ro, 0, none⟩
def F.PWR_LIMIT.LIMIT_W : Field := ⟨.PWR_LIMIT, 16, 16, .st, 1850, none⟩
def F.PWR_LIMIT.HEADROOM_W : Field := ⟨.PWR_LIMIT, 0, 16, .st, 50, none⟩
def F.PWR_THERM_CFG.ALERT_C : Field := ⟨.PWR_THERM_CFG, 32, 16, .st, 100, none⟩
def F.PWR_THERM_CFG.THROTTLE_C : Field := ⟨.PWR_THERM_CFG, 16, 16, .st, 105, none⟩
def F.PWR_THERM_CFG.EMERG_C : Field := ⟨.PWR_THERM_CFG, 0, 16, .st, 110, none⟩
def F.PWR_CTRL.FLOOR_STEP : Field := ⟨.PWR_CTRL, 28, 4, .st, 6, none⟩
def F.PWR_CTRL.CEIL_STEP : Field := ⟨.PWR_CTRL, 24, 4, .st, 0, none⟩
def F.PWR_CTRL.VECTOR : Field := ⟨.PWR_CTRL, 0, 11, .rw, 0, none⟩
def F.PWR_STEP_STATS.EMERGENCY : Field := ⟨.PWR_STEP_STATS, 32, 32, .rc, 0, none⟩
def F.PWR_STEP_STATS.PLANNED : Field := ⟨.PWR_STEP_STATS, 0, 32, .rc, 0, none⟩
def F.PWR_EVENTS.SUPPLY_FAULT : Field := ⟨.PWR_EVENTS, 6, 1, .w1c, 0, none⟩
def F.PWR_EVENTS.ALERT : Field := ⟨.PWR_EVENTS, 5, 1, .w1c, 0, none⟩
def F.PWR_EVENTS.STACK_HOT : Field := ⟨.PWR_EVENTS, 4, 1, .w1c, 0, none⟩
def F.PWR_EVENTS.EMERG_THERMAL : Field := ⟨.PWR_EVENTS, 3, 1, .w1c, 0, none⟩
def F.PWR_EVENTS.EMERG_CURRENT : Field := ⟨.PWR_EVENTS, 2, 1, .w1c, 0, none⟩
def F.PWR_EVENTS.STEP_UP : Field := ⟨.PWR_EVENTS, 1, 1, .w1c, 0, none⟩
def F.PWR_EVENTS.STEP_DOWN : Field := ⟨.PWR_EVENTS, 0, 1, .w1c, 0, none⟩
def F.PWR_RAIL.PEAK_A : Field := ⟨.PWR_RAIL, 48, 16, .rc, 0, none⟩
def F.PWR_RAIL.CURRENT_A : Field := ⟨.PWR_RAIL, 32, 16, .ro, 0, none⟩
def F.PWR_RAIL.MV : Field := ⟨.PWR_RAIL, 16, 16, .ro, 0, none⟩
def F.PWR_RAIL.OUT_OF_RANGE : Field := ⟨.PWR_RAIL, 0, 1, .ro, 0, none⟩

/-- The fields of each register, reserved bits left out (the field maps of the chapters). -/
def Reg.fields : Reg → List Field
  | .ID_REV => [F.ID_REV.VENDOR, F.ID_REV.PART, F.ID_REV.STEPPING, F.ID_REV.ARCH_GEN, F.ID_REV.VARIANT]
  | .FEATURE => [F.FEATURE.NVME_PORTS, F.FEATURE.STACKS, F.FEATURE.FABRIC, F.FEATURE.SCREEN, F.FEATURE.PIM]
  | .TURN_CTRL => [F.TURN_CTRL.RESUME_ARM, F.TURN_CTRL.LEAVE, F.TURN_CTRL.ENABLE]
  | .TURN_EVENTS => [F.TURN_EVENTS.ADMIT_TIME, F.TURN_EVENTS.ROTA_REUSED, F.TURN_EVENTS.PAIR_MISMATCH, F.TURN_EVENTS.LATE, F.TURN_EVENTS.MARKER_MISSED, F.TURN_EVENTS.CONFIG_MISMATCH, F.TURN_EVENTS.INCONSISTENT, F.TURN_EVENTS.LOCAL_ABORT, F.TURN_EVENTS.ABORTED]
  | .TURN_JOB => [F.TURN_JOB.JOB_ID, F.TURN_JOB.JOB_SIZE, F.TURN_JOB.SOURCE, F.TURN_JOB.SEAL_ROOT, F.TURN_JOB.TURN_ROOT]
  | .TURN_LATE_COUNT => [F.TURN_LATE_COUNT.LATE]
  | .TURN_TIMING => [F.TURN_TIMING.PERIOD, F.TURN_TIMING.SEAL_WINDOW, F.TURN_TIMING.MARGIN_PM, F.TURN_TIMING.SEAL_CUTOFF]
  | .TURN_ABORT_COUNT => [F.TURN_ABORT_COUNT.LOCAL, F.TURN_ABORT_COUNT.RECEIVED]
  | .TURN_TOL => [F.TURN_TOL.PIN_LAG, F.TURN_TOL.MARKER_TOL]
  | .TURN_SKEW => [F.TURN_SKEW.MAX_ABS, F.TURN_SKEW.LAST]
  | .TURN_TREE => [F.TURN_TREE.MARKER_PARENT, F.TURN_TREE.SEAL_PARENT]
  | .ROTA_SUBMIT_ADDR => [F.ROTA_SUBMIT_ADDR.ADDR]
  | .TURN_MARKER_CHILDREN => [F.TURN_MARKER_CHILDREN.PORTS]
  | .ROTA_SUBMIT => [F.ROTA_SUBMIT.COUNT]
  | .TURN_SEAL_CHILDREN => [F.TURN_SEAL_CHILDREN.PORTS]
  | .ROTA_SUBMIT_TURN => [F.ROTA_SUBMIT_TURN.TURN]
  | .TURN_START => [F.TURN_START.START]
  | .ROTA_STATUS => [F.ROTA_STATUS.FETCH]
  | .TURN_NUMBER => [F.TURN_NUMBER.CURRENT]
  | .ROTA_RESULT => [F.ROTA_RESULT.ADMITTED, F.ROTA_RESULT.DEFERRED, F.ROTA_RESULT.SKIPPED, F.ROTA_RESULT.ADMIT_TIME]
  | .TURN_STATUS => [F.TURN_STATUS.LAST_REASON, F.TURN_STATUS.EXCL_COUNT, F.TURN_STATUS.STAGE_RESULT, F.TURN_STATUS.LAST_VERDICT, F.TURN_STATUS.PHASE, F.TURN_STATUS.STATE]
  | .ROTA_LIMITS => [F.ROTA_LIMITS.PIM_ALLOT, F.ROTA_LIMITS.SCR_UPDATE_PM, F.ROTA_LIMITS.SENTINEL]
  | .TURN_COMMIT => [F.TURN_COMMIT.STAGE]
  | .ROTA_CLOCK => [F.ROTA_CLOCK.NOMINAL, F.ROTA_CLOCK.CURRENT]
  | .ROTA_COST_A => [F.ROTA_COST_A.BASE, F.ROTA_COST_A.K_TOK]
  | .ROTA_COST_B => [F.ROTA_COST_B.K_PAGE, F.ROTA_COST_B.K_PRE, F.ROTA_COST_B.K_FETCH]
  | .ROTA_PLOT_USE => [F.ROTA_PLOT_USE.MEASURED, F.ROTA_PLOT_USE.CHARGED]
  | .PLOT_ID => [F.PLOT_ID.ENABLED, F.PLOT_ID.FUSED, F.PLOT_ID.SPARES, F.PLOT_ID.ROLE, F.PLOT_ID.DIE, F.PLOT_ID.PLOT]
  | .PLOT_PROG_LIMIT => [F.PLOT_PROG_LIMIT.ADDR]
  | .PLOT_STATUS => [F.PLOT_STATUS.ENTRIES, F.PLOT_STATUS.LAST_RESET, F.PLOT_STATUS.STATE]
  | .PLOT_HEADMAP => [F.PLOT_HEADMAP.COUNT, F.PLOT_HEADMAP.ADDR]
  | .PLOT_CTRL => [F.PLOT_CTRL.RESET]
  | .PLOT_EVENTS => [F.PLOT_EVENTS.APPEND_REFUSED, F.PLOT_EVENTS.PROG_CHECK, F.PLOT_EVENTS.ILLEGAL_INSN, F.PLOT_EVENTS.CANCEL_STOP, F.PLOT_EVENTS.DEADLINE_STOP, F.PLOT_EVENTS.ROLE_SKIP, F.PLOT_EVENTS.RESET_REFUSED, F.PLOT_EVENTS.RESET_DONE]
  | .PLOT_SPARE_MAP => [F.PLOT_SPARE_MAP.FUSED_B, F.PLOT_SPARE_MAP.FUSED_A, F.PLOT_SPARE_MAP.UNMAPPED_B, F.PLOT_SPARE_MAP.UNMAPPED_A]
  | .PLOT_STOP_STATS => [F.PLOT_STOP_STATS.MAX_STOP, F.PLOT_STOP_STATS.STOPS]
  | .PLOT_PROG_BASE => [F.PLOT_PROG_BASE.ADDR]
  | .PLOT_FP_STATUS => [F.PLOT_FP_STATUS.NAN_OUT, F.PLOT_FP_STATUS.SATURATED, F.PLOT_FP_STATUS.INT_SAT]
  | .PLOT_CORE_STATE => [F.PLOT_CORE_STATE.LAST_PC, F.PLOT_CORE_STATE.MAX_GAP, F.PLOT_CORE_STATE.LOGICAL, F.PLOT_CORE_STATE.STATE]
  | .PIM_CAPS => [F.PIM_CAPS.BANK_UNITS, F.PIM_CAPS.MAX_TOPN, F.PIM_CAPS.MAX_QN]
  | .PIM_DQ_BASE => [F.PIM_DQ_BASE.ADDR]
  | .PIM_CTRL => [F.PIM_CTRL.WINDOW_LIMIT]
  | .PIM_DQ_CTRL => [F.PIM_DQ_CTRL.ENABLE, F.PIM_DQ_CTRL.VECTOR, F.PIM_DQ_CTRL.LOG2_SIZE]
  | .PIM_EVENTS => [F.PIM_EVENTS.DQ_ERROR, F.PIM_EVENTS.DQ_FENCE, F.PIM_EVENTS.DEBT_MAX, F.PIM_EVENTS.HOT, F.PIM_EVENTS.UNCORRECTABLE, F.PIM_EVENTS.CUT, F.PIM_EVENTS.NO_WINDOW, F.PIM_EVENTS.REFUSED]
  | .PIM_DQ_TAIL => [F.PIM_DQ_TAIL.TAIL]
  | .PIM_TURN_STATS => [F.PIM_TURN_STATS.WINDOWS, F.PIM_TURN_STATS.TRACKS_PEAK, F.PIM_TURN_STATS.CUT, F.PIM_TURN_STATS.NO_WINDOW]
  | .PIM_DQ_HEAD => [F.PIM_DQ_HEAD.STOPPED, F.PIM_DQ_HEAD.HEAD]
  | .PIM_CH_STATUS => [F.PIM_CH_STATUS.BAD_FRAMES, F.PIM_CH_STATUS.CLEARS, F.PIM_CH_STATUS.SCORE_SIZE, F.PIM_CH_STATUS.SEG_LIMIT, F.PIM_CH_STATUS.DEBT, F.PIM_CH_STATUS.RATE, F.PIM_CH_STATUS.MODE]
  | .PIM_CH_WINDOWS => [F.PIM_CH_WINDOWS.WINDOWS, F.PIM_CH_WINDOWS.PROC_US]
  | .PIM_CH_WAIT => [F.PIM_CH_WAIT.MAX_WAIT, F.PIM_CH_WAIT.WAITED]
  | .PIM_CH_REFRESH => [F.PIM_CH_REFRESH.REFPB, F.PIM_CH_REFRESH.POSTPONED, F.PIM_CH_REFRESH.RFM]
  | .FUR_CAPS => [F.FUR_CAPS.MAX_TOP, F.FUR_CAPS.MAX_RECENT, F.FUR_CAPS.DESCRIPTORS]
  | .FUR_CQ_BASE => [F.FUR_CQ_BASE.ADDR]
  | .FUR_DESC_BASE => [F.FUR_DESC_BASE.ADDR]
  | .FUR_CQ_CTRL => [F.FUR_CQ_CTRL.ENABLE, F.FUR_CQ_CTRL.VECTOR, F.FUR_CQ_CTRL.LOG2_SIZE]
  | .FUR_DIR_BASE => [F.FUR_DIR_BASE.ADDR]
  | .FUR_CQ_TAIL => [F.FUR_CQ_TAIL.TAIL]
  | .FUR_SEL_BASE => [F.FUR_SEL_BASE.ADDR]
  | .FUR_CQ_HEAD => [F.FUR_CQ_HEAD.STOPPED, F.FUR_CQ_HEAD.HEAD]
  | .FUR_LIST => [F.FUR_LIST.SIZE, F.FUR_LIST.ADDR]
  | .FUR_EVENTS => [F.FUR_EVENTS.CQ_ERROR, F.FUR_EVENTS.MOVE_FAILED, F.FUR_EVENTS.RANK_LATE, F.FUR_EVENTS.SKIPPED, F.FUR_EVENTS.DEGRADED, F.FUR_EVENTS.FALLBACK, F.FUR_EVENTS.FLASH_FULL, F.FUR_EVENTS.SCORE_FULL, F.FUR_EVENTS.LIST_FULL, F.FUR_EVENTS.NO_FRAME]
  | .FUR_BUILD_BASE => [F.FUR_BUILD_BASE.ADDR]
  | .FUR_TURN_STATS => [F.FUR_TURN_STATS.DEGRADED, F.FUR_TURN_STATS.SKIPPED, F.FUR_TURN_STATS.FALLBACK, F.FUR_TURN_STATS.MISSING]
  | .FUR_TIMING => [F.FUR_TIMING.RANK_CUT, F.FUR_TIMING.FETCH_CUT]
  | .FUR_FLASH_TABLE => [F.FUR_FLASH_TABLE.ADDR]
  | .FUR_POOL_CFG => [F.FUR_POOL_CFG.HIGH, F.FUR_POOL_CFG.LOW]
  | .FUR_POOL_STATUS => [F.FUR_POOL_STATUS.TOTAL, F.FUR_POOL_STATUS.FREE]
  | .FUR_STRICT => [F.FUR_STRICT.STRICT]
  | .SCR_CAPS => [F.SCR_CAPS.HANDLES, F.SCR_CAPS.MAX_TABLE_MIB]
  | .SCR_CMD => [F.SCR_CMD.BYTES, F.SCR_CMD.HANDLE, F.SCR_CMD.OPCODE]
  | .SCR_AREA => [F.SCR_AREA.SIZE_MIB, F.SCR_AREA.ADDR]
  | .SCR_CMD_STATUS => [F.SCR_CMD_STATUS.HANDLE, F.SCR_CMD_STATUS.RESULT, F.SCR_CMD_STATUS.ACTIVE]
  | .SCR_RES_AREA => [F.SCR_RES_AREA.SIZE_MIB, F.SCR_RES_AREA.ADDR]
  | .SCR_SCRUB => [F.SCR_SCRUB.LAST_CYCLE_US, F.SCR_SCRUB.MISMATCH, F.SCR_SCRUB.INTERVAL]
  | .SCR_MASK_BASE => [F.SCR_MASK_BASE.ADDR]
  | .SCR_EVENTS => [F.SCR_EVENTS.BAD, F.SCR_EVENTS.MISMATCH, F.SCR_EVENTS.DEAD, F.SCR_EVENTS.SWITCH_INVALID, F.SCR_EVENTS.UPDATE_LATE, F.SCR_EVENTS.LOAD_FAILED, F.SCR_EVENTS.LOAD_DONE]
  | .SCR_CMD_ADDR => [F.SCR_CMD_ADDR.ADDR]
  | .SCR_TURN_STATS => [F.SCR_TURN_STATS.STEPS, F.SCR_TURN_STATS.MASKS, F.SCR_TURN_STATS.TRIGGERS]
  | .SCR_TABLE => [F.SCR_TABLE.PIECES, F.SCR_TABLE.DONE, F.SCR_TABLE.BLOCKS, F.SCR_TABLE.USERS, F.SCR_TABLE.OWNER, F.SCR_TABLE.SHARED, F.SCR_TABLE.STATE]
  | .SLU_CAPS => [F.SLU_CAPS.ENGINES, F.SLU_CAPS.CONTEXTS, F.SLU_CAPS.REGIONS]
  | .SLU_FLUSH_STATUS => [F.SLU_FLUSH_STATUS.STATUS, F.SLU_FLUSH_STATUS.ACTIVE, F.SLU_FLUSH_STATUS.NODE]
  | .SLU_RETRY => [F.SLU_RETRY.MSG_KIB, F.SLU_RETRY.CAP_US, F.SLU_RETRY.LIMIT, F.SLU_RETRY.BASE_US]
  | .SLU_EV_BASE => [F.SLU_EV_BASE.ADDR]
  | .SLU_TARGET_CTRL => [F.SLU_TARGET_CTRL.MEMORY_US, F.SLU_TARGET_CTRL.REASSEMBLY_US]
  | .SLU_EV_CTRL => [F.SLU_EV_CTRL.ENABLE, F.SLU_EV_CTRL.VECTOR, F.SLU_EV_CTRL.LOG2_SIZE]
  | .SLU_ODP => [F.SLU_ODP.MIN_DELAY_US, F.SLU_ODP.FAULT_LIMIT, F.SLU_ODP.STALL_US]
  | .SLU_EV_PRODUCED => [F.SLU_EV_PRODUCED.PRODUCED]
  | .SLU_REGION_BASE => [F.SLU_REGION_BASE.ADDR]
  | .SLU_EV_CONSUMED => [F.SLU_EV_CONSUMED.CONSUMED]
  | .SLU_MREF_BASE => [F.SLU_MREF_BASE.COUNT, F.SLU_MREF_BASE.ADDR]
  | .SLU_EVENTS => [F.SLU_EVENTS.EV_OVERFLOW, F.SLU_EVENTS.DEAD_TARGET, F.SLU_EVENTS.TIMEOUT_EXHAUSTED, F.SLU_EVENTS.STALE_EPOCH, F.SLU_EVENTS.ODP_FAULT, F.SLU_EVENTS.VIOLATION_OUT, F.SLU_EVENTS.VIOLATION_IN, F.SLU_EVENTS.REVOKE_DONE]
  | .SLU_FLUSH => [F.SLU_FLUSH.START, F.SLU_FLUSH.NODE]
  | .SLU_DEAD_LAST => [F.SLU_DEAD_LAST.COUNT, F.SLU_DEAD_LAST.NODE]
  | .SLU_ENG_STATUS => [F.SLU_ENG_STATUS.TARGET_MSGS, F.SLU_ENG_STATUS.STATE, F.SLU_ENG_STATUS.OUTSTANDING]
  | .SLU_ENG_CTRL => [F.SLU_ENG_CTRL.RESET]
  | .SLU_ENG_STATS => [F.SLU_ENG_STATS.OUT_MIB, F.SLU_ENG_STATS.IN_MIB]
  | .SLU_ENG_RETRY => [F.SLU_ENG_RETRY.RETRIES, F.SLU_ENG_RETRY.EXHAUSTED, F.SLU_ENG_RETRY.FAULTS]
  | .FUR_HO_BASE => [F.FUR_HO_BASE.ADDR, F.FUR_HO_BASE.HOME]
  | .FUR_HO_EVENTS => [F.FUR_HO_EVENTS.VERSION, F.FUR_HO_EVENTS.RECLAIMED, F.FUR_HO_EVENTS.REFUSED, F.FUR_HO_EVENTS.PARKED, F.FUR_HO_EVENTS.GRANTED, F.FUR_HO_EVENTS.RELEASED]
  | .FUR_HO_CTRL => [F.FUR_HO_CTRL.AUTO_PARK, F.FUR_HO_CTRL.VECTOR]
  | .FUR_HO_STATS => [F.FUR_HO_STATS.STALE, F.FUR_HO_STATS.QUERIES, F.FUR_HO_STATS.COMMITS, F.FUR_HO_STATS.RECLAIMS]
  | .FUR_HO_TIMING => [F.FUR_HO_TIMING.TIMEOUT_TURNS, F.FUR_HO_TIMING.QUERY_TURNS]
  | .FUR_HO_VERSION => [F.FUR_HO_VERSION.HIGHEST, F.FUR_HO_VERSION.LOWEST]
  | .FAB_CAPS => [F.FAB_CAPS.CONTEXTS, F.FAB_CAPS.HIGHEST, F.FAB_CAPS.LOWEST, F.FAB_CAPS.PORTS]
  | .FAB_RX_DROPS => [F.FAB_RX_DROPS.TAG, F.FAB_RX_DROPS.NO_KEY, F.FAB_RX_DROPS.MALFORMED, F.FAB_RX_DROPS.NO_CONTEXT]
  | .FAB_NODE => [F.FAB_NODE.NODE]
  | .FAB_RX_STATS => [F.FAB_RX_STATS.DUPLICATES, F.FAB_RX_STATS.HOPS, F.FAB_RX_STATS.CONTEXTS_PEAK]
  | .FAB_CTRL => [F.FAB_CTRL.SALT, F.FAB_CTRL.MAX_HOPS]
  | .FAB_VECTOR => [F.FAB_VECTOR.VECTOR]
  | .FAB_EVENTS => [F.FAB_EVENTS.NODE_REFUSED, F.FAB_EVENTS.HOPS, F.FAB_EVENTS.NO_CONTEXT, F.FAB_EVENTS.MALFORMED, F.FAB_EVENTS.NO_KEY, F.FAB_EVENTS.TAG, F.FAB_EVENTS.VERSION, F.FAB_EVENTS.DEGRADED, F.FAB_EVENTS.LINK_DOWN, F.FAB_EVENTS.LINK_UP]
  | .FAB_LINK_CFG => [F.FAB_LINK_CFG.HOLDOFF_MS, F.FAB_LINK_CFG.PRECODE, F.FAB_LINK_CFG.DEGRADE, F.FAB_LINK_CFG.REACH, F.FAB_LINK_CFG.MODE]
  | .FAB_LINK_FEC => [F.FAB_LINK_FEC.CORRECTED, F.FAB_LINK_FEC.UNCORRECTABLE]
  | .FAB_LINK_CTRL => [F.FAB_LINK_CTRL.RESET, F.FAB_LINK_CTRL.ENABLE]
  | .FAB_LINK_REPLAY => [F.FAB_LINK_REPLAY.CRC_FAIL, F.FAB_LINK_REPLAY.REPLAYS, F.FAB_LINK_REPLAY.DOWNS]
  | .FAB_LINK_STATUS => [F.FAB_LINK_STATUS.PEER_NODE, F.FAB_LINK_STATUS.PEER_LINK, F.FAB_LINK_STATUS.VERSION, F.FAB_LINK_STATUS.DOWN_REASON, F.FAB_LINK_STATUS.LANE_FAULT, F.FAB_LINK_STATUS.REVERSED, F.FAB_LINK_STATUS.WIDTH, F.FAB_LINK_STATUS.HALF, F.FAB_LINK_STATUS.STATE]
  | .FAB_LINK_TRAFFIC => [F.FAB_LINK_TRAFFIC.OUT_MFLITS, F.FAB_LINK_TRAFFIC.IN_MFLITS]
  | .FAB_ROUTE_STATUS => [F.FAB_ROUTE_STATUS.OTHER_EPOCH, F.FAB_ROUTE_STATUS.ACTIVE_EPOCH, F.FAB_ROUTE_STATUS.OTHER_STATE, F.FAB_ROUTE_STATUS.ACTIVE_BANK, F.FAB_ROUTE_STATUS.LOAD_RESULT, F.FAB_ROUTE_STATUS.SWITCH_RESULT]
  | .WEIR_CTRL => [F.WEIR_CTRL.ENABLE, F.WEIR_CTRL.OVERHEAD]
  | .FAB_ROUTE_LOAD_ADDR => [F.FAB_ROUTE_LOAD_ADDR.ADDR]
  | .WEIR_COMMIT => [F.WEIR_COMMIT.STAGE]
  | .FAB_ROUTE_LOAD => [F.FAB_ROUTE_LOAD.BYTES]
  | .WEIR_STATUS => [F.WEIR_STATUS.STAGE_RESULT]
  | .FAB_ROUTE_SWITCH_TURN => [F.FAB_ROUTE_SWITCH_TURN.TURN]
  | .WEIR_STATS => [F.WEIR_STATS.OWNER_WAITS, F.WEIR_STATS.CLASS_WAITS]
  | .FAB_ROUTE_SWITCH => [F.FAB_ROUTE_SWITCH.IMMEDIATE, F.FAB_ROUTE_SWITCH.ARM]
  | .WEIR_CLASS_CFG => [F.WEIR_CLASS_CFG.BURST, F.WEIR_CLASS_CFG.RATE]
  | .FAB_ROUTE_CTRL => [F.FAB_ROUTE_CTRL.HOLD_US]
  | .WEIR_CLASS_ARB => [F.WEIR_CLASS_ARB.QUANTUM]
  | .FAB_ROUTE_STATS => [F.FAB_ROUTE_STATS.STALE_SENT, F.FAB_ROUTE_STATS.UNREACH_SENT, F.FAB_ROUTE_STATS.HELD_DROPS, F.FAB_ROUTE_STATS.OLD_ROUTED]
  | .WEIR_OWNER_CFG => [F.WEIR_OWNER_CFG.BURST, F.WEIR_OWNER_CFG.RATE]
  | .HG_CTRL => [F.HG_CTRL.ENABLE, F.HG_CTRL.VECTOR, F.HG_CTRL.LOG2_SIZE]
  | .WEIR_TEL_BASE => [F.WEIR_TEL_BASE.ADDR]
  | .HG_DROP_BASE => [F.HG_DROP_BASE.ADDR]
  | .WEIR_TEL_CTRL => [F.WEIR_TEL_CTRL.ENABLE, F.WEIR_TEL_CTRL.VECTOR, F.WEIR_TEL_CTRL.LOG2_SIZE]
  | .HG_DROP_PRODUCED => [F.HG_DROP_PRODUCED.PRODUCED]
  | .WEIR_TEL_LINKS0 => [F.WEIR_TEL_LINKS0.LINKS]
  | .HG_DROP_CONSUMED => [F.HG_DROP_CONSUMED.CONSUMED]
  | .WEIR_TEL_LINKS1 => [F.WEIR_TEL_LINKS1.WEIRS, F.WEIR_TEL_LINKS1.LINKS]
  | .HG_STATS => [F.HG_STATS.LOST, F.HG_STATS.REQ_DROPS, F.HG_STATS.PROMPT_DROPS]
  | .WEIR_TEL_PRODUCED => [F.WEIR_TEL_PRODUCED.PRODUCED]
  | .HG_REQ_CFG => [F.HG_REQ_CFG.BURST, F.HG_REQ_CFG.RATE]
  | .WEIR_TEL_CONSUMED => [F.WEIR_TEL_CONSUMED.CONSUMED]
  | .HG_PROMPT_CFG => [F.HG_PROMPT_CFG.BURST, F.HG_PROMPT_CFG.RATE]
  | .WEIR_TEL_LOST => [F.WEIR_TEL_LOST.LOST]
  | .HG_LEVEL => [F.HG_LEVEL.REQ, F.HG_LEVEL.PROMPT]
  | .HQ_CAPS => [F.HQ_CAPS.QUEUES, F.HQ_CAPS.VFS, F.HQ_CAPS.VECTORS, F.HQ_CAPS.VF_VECTORS]
  | .NVM_CAPS => [F.NVM_CAPS.FLASH_FRAMES, F.NVM_CAPS.MAX_QDEPTH, F.NVM_CAPS.MAX_IO_QUEUES, F.NVM_CAPS.PORTS]
  | .HQ_CONTROL => [F.HQ_CONTROL.REMAINING_MS, F.HQ_CONTROL.LEASE_MS, F.HQ_CONTROL.RENEW, F.HQ_CONTROL.RELEASE, F.HQ_CONTROL.CLAIM, F.HQ_CONTROL.LAPSED, F.HQ_CONTROL.HOLDER]
  | .NVM_TIMING => [F.NVM_TIMING.ADMIN_MS, F.NVM_TIMING.IO_MS]
  | .HQ_PORT_STATUS => [F.HQ_PORT_STATUS.H1, F.HQ_PORT_STATUS.H0]
  | .NVM_EVENTS => [F.NVM_EVENTS.EXTENT_LOST, F.NVM_EVENTS.ADMIN_DONE, F.NVM_EVENTS.CRC, F.NVM_EVENTS.DMA_REFUSED, F.NVM_EVENTS.TIMEOUT, F.NVM_EVENTS.IO_ERROR, F.NVM_EVENTS.PORT_FAILED, F.NVM_EVENTS.PORT_READY]
  | .HQ_FLUME_BASE => [F.HQ_FLUME_BASE.ADDR]
  | .NVM_CTRL => [F.NVM_CTRL.VECTOR]
  | .HQ_FLUME_CTRL => [F.HQ_FLUME_CTRL.ENABLE, F.HQ_FLUME_CTRL.COUNT]
  | .NVM_ADMIN_ADDR => [F.NVM_ADMIN_ADDR.ADDR]
  | .HQ_EVENTS => [F.HQ_EVENTS.HOST_ERROR, F.HQ_EVENTS.LEASE_LAPSED, F.HQ_EVENTS.FLR, F.HQ_EVENTS.QUEUE_ERROR, F.HQ_EVENTS.PORT_DOWN, F.HQ_EVENTS.HOLDER_CHANGE]
  | .NVM_ADMIN => [F.NVM_ADMIN.PORT, F.NVM_ADMIN.START]
  | .HQ_VECTOR => [F.HQ_VECTOR.VECTOR]
  | .NVM_ADMIN_STATUS => [F.NVM_ADMIN_STATUS.NVME_STATUS, F.NVM_ADMIN_STATUS.RESULT, F.NVM_ADMIN_STATUS.ACTIVE]
  | .HQ_STATS => [F.HQ_STATS.FOREIGN, F.HQ_STATS.DOORBELL_IGNORED, F.HQ_STATS.CANCEL_IGNORED, F.HQ_STATS.HOST_ERRORS]
  | .NVM_PORT_CFG => [F.NVM_PORT_CFG.ENABLE, F.NVM_PORT_CFG.TRIM, F.NVM_PORT_CFG.IO_QUEUES, F.NVM_PORT_CFG.QDEPTH]
  | .HQ_Q_BASE => [F.HQ_Q_BASE.ADDR]
  | .NVM_PORT_CTRL => [F.NVM_PORT_CTRL.RESET]
  | .HQ_Q_CTRL => [F.HQ_Q_CTRL.ENABLE, F.HQ_Q_CTRL.VECTOR, F.HQ_Q_CTRL.ENGINE, F.HQ_Q_CTRL.KIND, F.HQ_Q_CTRL.LOG2_SIZE]
  | .NVM_PORT_STATUS => [F.NVM_PORT_STATUS.RATE, F.NVM_PORT_STATUS.WIDTH, F.NVM_PORT_STATUS.FLIT, F.NVM_PORT_STATUS.QUEUES, F.NVM_PORT_STATUS.STATE]
  | .HQ_Q_STATUS => [F.HQ_Q_STATUS.WRITTEN, F.HQ_Q_STATUS.STOPPED, F.HQ_Q_STATUS.HEAD]
  | .NVM_PORT_STATS => [F.NVM_PORT_STATS.MEAN_READ, F.NVM_PORT_STATS.OUTSTANDING, F.NVM_PORT_STATS.DMA_REFUSED, F.NVM_PORT_STATS.TIMEOUTS]
  | .HQ_Q_CPL_BASE => [F.HQ_Q_CPL_BASE.ADDR]
  | .NVM_PORT_ERRORS => [F.NVM_PORT_ERRORS.COMMANDS, F.NVM_PORT_ERRORS.ERRORS, F.NVM_PORT_ERRORS.CRC_FAIL]
  | .NVM_EXT_CFG => [F.NVM_EXT_CFG.NSID, F.NVM_EXT_CFG.ENABLE, F.NVM_EXT_CFG.KIND, F.NVM_EXT_CFG.FUNCTION, F.NVM_EXT_CFG.PORT, F.NVM_EXT_CFG.LOST]
  | .NVM_EXT_ADDR => [F.NVM_EXT_ADDR.ADDR]
  | .NVM_EXT_FRAMES => [F.NVM_EXT_FRAMES.FRAMES, F.NVM_EXT_FRAMES.FIRST]
  | .NVM_EXT_CRC => [F.NVM_EXT_CRC.ADDR]
  | .CFG_STATUS => [F.CFG_STATUS.CFG_EPOCH, F.CFG_STATUS.RESULT, F.CFG_STATUS.PINS, F.CFG_STATUS.STATE, F.CFG_STATUS.ACTIVE_SLOT]
  | .CFG_CMD => [F.CFG_CMD.BYTES, F.CFG_CMD.SLOT, F.CFG_CMD.OPCODE]
  | .CFG_DIGEST => [F.CFG_DIGEST.DIGEST]
  | .CFG_CMD_STATUS => [F.CFG_CMD_STATUS.BUSY_WHY, F.CFG_CMD_STATUS.OPCODE, F.CFG_CMD_STATUS.RESULT, F.CFG_CMD_STATUS.ACTIVE]
  | .CFG_CTRL => [F.CFG_CTRL.VECTOR]
  | .CFG_STAGE_FAULT => [F.CFG_STAGE_FAULT.OFFSET]
  | .CFG_EVENTS => [F.CFG_EVENTS.NO_IMAGE, F.CFG_EVENTS.CENSUS_DONE, F.CFG_EVENTS.SLOT_WRITE_FAILED, F.CFG_EVENTS.SLOT_WRITTEN, F.CFG_EVENTS.SWITCH_FAILED, F.CFG_EVENTS.SWITCH_DONE]
  | .CFG_CENSUS_BASE => [F.CFG_CENSUS_BASE.ADDR, F.CFG_CENSUS_BASE.LOG2_SIZE]
  | .CFG_CMD_ADDR => [F.CFG_CMD_ADDR.ADDR]
  | .CFG_CENSUS => [F.CFG_CENSUS.LAST, F.CFG_CENSUS.FIRST, F.CFG_CENSUS.SCOPE, F.CFG_CENSUS.START]
  | .CFG_SLOT_INFO => [F.CFG_SLOT_INFO.ROLE_TAG, F.CFG_SLOT_INFO.CFG_EPOCH, F.CFG_SLOT_INFO.LAST_RESULT, F.CFG_SLOT_INFO.STATE]
  | .CFG_CENSUS_STATUS => [F.CFG_CENSUS_STATUS.SENT, F.CFG_CENSUS_STATUS.RECEIVED, F.CFG_CENSUS_STATUS.MISMATCHED, F.CFG_CENSUS_STATUS.DROPPED, F.CFG_CENSUS_STATUS.ACTIVE]
  | .SEC_STATUS => [F.SEC_STATUS.FW_FLOOR, F.SEC_STATUS.FW_SVN, F.SEC_STATUS.FW_SLOT, F.SEC_STATUS.STATE]
  | .MTR_ID => [F.MTR_ID.FORMAT, F.MTR_ID.SEAL, F.MTR_ID.SVN]
  | .SEC_KEY_POLICY => [F.SEC_KEY_POLICY.KM_ID, F.SEC_KEY_POLICY.FLAGS, F.SEC_KEY_POLICY.SLOT_LIMIT]
  | .MTR_STATUS => [F.MTR_STATUS.BOOT, F.MTR_STATUS.HEARTBEAT, F.MTR_STATUS.QUEUED, F.MTR_STATUS.STATE]
  | .SEC_KEYS_USED => [F.SEC_KEYS_USED.ACTIVE]
  | .MTR_PERIOD => [F.MTR_PERIOD.FIRST_TURN]
  | .SEC_CMD_ADDR => [F.SEC_CMD_ADDR.ADDR]
  | .MTR_PRODUCED => [F.MTR_PRODUCED.PRODUCED]
  | .SEC_CMD => [F.SEC_CMD.BYTES, F.SEC_CMD.SLOT, F.SEC_CMD.OPCODE]
  | .MTR_CONSUMED => [F.MTR_CONSUMED.CONSUMED]
  | .SEC_CMD_STATUS => [F.SEC_CMD_STATUS.OPCODE, F.SEC_CMD_STATUS.RESULT, F.SEC_CMD_STATUS.ACTIVE]
  | .MTR_CTRL => [F.MTR_CTRL.CLOSE, F.MTR_CTRL.TALLY_NOW]
  | .SEC_CTRL => [F.SEC_CTRL.VECTOR]
  | .MTR_CONFIG => [F.MTR_CONFIG.AUDIT_COUNT, F.MTR_CONFIG.INTERVAL]
  | .SEC_EVENTS => [F.SEC_EVENTS.KEY_RETIRED, F.SEC_EVENTS.CMD_DONE]
  | .MTR_FW_ADDR => [F.MTR_FW_ADDR.ADDR]
  | .SEC_KEY_ID => [F.SEC_KEY_ID.KEY_ID]
  | .MTR_FW_CMD => [F.MTR_FW_CMD.BYTES, F.MTR_FW_CMD.START]
  | .MTR_FW_STATUS => [F.MTR_FW_STATUS.RESULT, F.MTR_FW_STATUS.ACTIVE]
  | .MTR_VECTOR => [F.MTR_VECTOR.ENABLE1, F.MTR_VECTOR.VECTOR1, F.MTR_VECTOR.ENABLE0, F.MTR_VECTOR.VECTOR0]
  | .MTR_EVENTS => [F.MTR_EVENTS.MIXED, F.MTR_EVENTS.QUERY_REFUSED, F.MTR_EVENTS.FW_DONE, F.MTR_EVENTS.BROKEN, F.MTR_EVENTS.RING_FULL, F.MTR_EVENTS.RECORD]
  | .MTR_DIGEST => [F.MTR_DIGEST.DIGEST]
  | .ERR_STATUS => [F.ERR_STATUS.RESTART_TURN]
  | .ERR_RESET_STATUS => [F.ERR_RESET_STATUS.LAST_REQUEST, F.ERR_RESET_STATUS.FATAL, F.ERR_RESET_STATUS.ACTIVE, F.ERR_RESET_STATUS.KIND, F.ERR_RESET_STATUS.STEP]
  | .ERR_CTRL => [F.ERR_CTRL.RESTART_JOB, F.ERR_CTRL.VECTOR]
  | .ERR_DUMP_HOST => [F.ERR_DUMP_HOST.ADDR, F.ERR_DUMP_HOST.PORT, F.ERR_DUMP_HOST.ENABLE]
  | .ERR_EVENTS => [F.ERR_EVENTS.RING_OVERFLOW, F.ERR_EVENTS.DUMP_DROPPED, F.ERR_EVENTS.DUMP_TAKEN, F.ERR_EVENTS.SHADOW_DIFF, F.ERR_EVENTS.SUSPECT, F.ERR_EVENTS.RESET_STEP, F.ERR_EVENTS.RESTART, F.ERR_EVENTS.RECORD]
  | .ERR_DUMP_CMD => [F.ERR_DUMP_CMD.PUSH_NOW, F.ERR_DUMP_CMD.RELEASE, F.ERR_DUMP_CMD.DUMP_NOW]
  | .ERR_COUNTS => [F.ERR_COUNTS.REPLAYED, F.ERR_COUNTS.UNCORRECTABLE, F.ERR_COUNTS.SUPPRESSED, F.ERR_COUNTS.DUMPS_DROPPED]
  | .ERR_SENT_CFG => [F.ERR_SENT_CFG.CLEAR, F.ERR_SENT_CFG.FAIL_SEAL, F.ERR_SENT_CFG.TOTAL_LIMIT, F.ERR_SENT_CFG.BIN_LIMIT]
  | .ERR_RING_BASE => [F.ERR_RING_BASE.ADDR]
  | .ERR_SHADOW_CFG => [F.ERR_SHADOW_CFG.HASH_TOL, F.ERR_SHADOW_CFG.LOGIT_TOL]
  | .ERR_RING_CTRL => [F.ERR_RING_CTRL.ENABLE, F.ERR_RING_CTRL.LOG2_SIZE]
  | .ERR_SHADOW_TARGETS => [F.ERR_SHADOW_TARGETS.NODES]
  | .ERR_RING_PRODUCED => [F.ERR_RING_PRODUCED.PRODUCED]
  | .ERR_SHADOW_STATS => [F.ERR_SHADOW_STATS.COMPARED, F.ERR_SHADOW_STATS.DISAGREED, F.ERR_SHADOW_STATS.MISSING, F.ERR_SHADOW_STATS.SEND_FAILED]
  | .ERR_RING_CONSUMED => [F.ERR_RING_CONSUMED.CONSUMED]
  | .ERR_SENT_BIN => [F.ERR_SENT_BIN.RUNS, F.ERR_SENT_BIN.FAILS]
  | .ERR_RESET_CMD => [F.ERR_RESET_CMD.KIND, F.ERR_RESET_CMD.DOMAIN, F.ERR_RESET_CMD.INDEX]
  | .ERR_SENT_CORE => [F.ERR_SENT_CORE.FAILS, F.ERR_SENT_CORE.BINS]
  | .RIDE_STATUS => [F.RIDE_STATUS.RESETS, F.RIDE_STATUS.STATE]
  | .RIDE_EVENTS => [F.RIDE_EVENTS.PUSH_FAILED, F.RIDE_EVENTS.PUSH_FLASH, F.RIDE_EVENTS.PUSH_HOST, F.RIDE_EVENTS.RIDER_UP, F.RIDE_EVENTS.WARM_RESET, F.RIDE_EVENTS.RIDER_RESET]
  | .RIDE_HEARTBEAT => [F.RIDE_HEARTBEAT.COUNT]
  | .RIDE_DUMP_FLASH => [F.RIDE_DUMP_FLASH.NSID, F.RIDE_DUMP_FLASH.ENABLE, F.RIDE_DUMP_FLASH.PORT]
  | .RIDE_WDOG => [F.RIDE_WDOG.MISSES, F.RIDE_WDOG.PERIOD_MS]
  | .RIDE_DUMP_LBA => [F.RIDE_DUMP_LBA.LBA]
  | .PWR_STATUS => [F.PWR_STATUS.AVG_W, F.PWR_STATUS.PEAK_W, F.PWR_STATUS.CLOCK_MHZ, F.PWR_STATUS.STEP, F.PWR_STATUS.EMERGENCY]
  | .PWR_THERM => [F.PWR_THERM.PEAK, F.PWR_THERM.STACK_MAX, F.PWR_THERM.DIE1_MAX, F.PWR_THERM.DIE0_MAX]
  | .PWR_LIMIT => [F.PWR_LIMIT.LIMIT_W, F.PWR_LIMIT.HEADROOM_W]
  | .PWR_THERM_CFG => [F.PWR_THERM_CFG.ALERT_C, F.PWR_THERM_CFG.THROTTLE_C, F.PWR_THERM_CFG.EMERG_C]
  | .PWR_CTRL => [F.PWR_CTRL.FLOOR_STEP, F.PWR_CTRL.CEIL_STEP, F.PWR_CTRL.VECTOR]
  | .PWR_STEP_STATS => [F.PWR_STEP_STATS.EMERGENCY, F.PWR_STEP_STATS.PLANNED]
  | .PWR_EVENTS => [F.PWR_EVENTS.SUPPLY_FAULT, F.PWR_EVENTS.ALERT, F.PWR_EVENTS.STACK_HOT, F.PWR_EVENTS.EMERG_THERMAL, F.PWR_EVENTS.EMERG_CURRENT, F.PWR_EVENTS.STEP_UP, F.PWR_EVENTS.STEP_DOWN]
  | .PWR_RAIL => [F.PWR_RAIL.PEAK_A, F.PWR_RAIL.CURRENT_A, F.PWR_RAIL.MV, F.PWR_RAIL.OUT_OF_RANGE]

/-- Where each register lies (the register offset tables). -/
def Reg.place : Reg → Place
  | .ID_REV => ⟨0, 0x0, 0, 1, 0, 1⟩
  | .FEATURE => ⟨0, 0x8, 0, 1, 0, 1⟩
  | .TURN_CTRL => ⟨0, 0x100000, 0, 1, 0, 1⟩
  | .TURN_EVENTS => ⟨0, 0x100058, 0, 1, 0, 1⟩
  | .TURN_JOB => ⟨0, 0x100008, 0, 1, 0, 1⟩
  | .TURN_LATE_COUNT => ⟨0, 0x100060, 0, 1, 0, 1⟩
  | .TURN_TIMING => ⟨0, 0x100010, 0, 1, 0, 1⟩
  | .TURN_ABORT_COUNT => ⟨0, 0x100068, 0, 1, 0, 1⟩
  | .TURN_TOL => ⟨0, 0x100018, 0, 1, 0, 1⟩
  | .TURN_SKEW => ⟨0, 0x100070, 0, 1, 0, 1⟩
  | .TURN_TREE => ⟨0, 0x100020, 0, 1, 0, 1⟩
  | .ROTA_SUBMIT_ADDR => ⟨0, 0x101000, 0, 1, 0, 1⟩
  | .TURN_MARKER_CHILDREN => ⟨0, 0x100028, 0, 1, 0, 1⟩
  | .ROTA_SUBMIT => ⟨0, 0x101008, 0, 1, 0, 1⟩
  | .TURN_SEAL_CHILDREN => ⟨0, 0x100030, 0, 1, 0, 1⟩
  | .ROTA_SUBMIT_TURN => ⟨0, 0x101010, 0, 1, 0, 1⟩
  | .TURN_START => ⟨0, 0x100038, 0, 1, 0, 1⟩
  | .ROTA_STATUS => ⟨0, 0x101018, 0, 1, 0, 1⟩
  | .TURN_NUMBER => ⟨0, 0x100040, 0, 1, 0, 1⟩
  | .ROTA_RESULT => ⟨0, 0x101020, 0, 1, 0, 1⟩
  | .TURN_STATUS => ⟨0, 0x100048, 0, 1, 0, 1⟩
  | .ROTA_LIMITS => ⟨0, 0x101028, 0, 1, 0, 1⟩
  | .TURN_COMMIT => ⟨0, 0x100050, 0, 1, 0, 1⟩
  | .ROTA_CLOCK => ⟨0, 0x101030, 0, 1, 0, 1⟩
  | .ROTA_COST_A => ⟨0, 0x101100, 16, 16, 0, 1⟩
  | .ROTA_COST_B => ⟨0, 0x101108, 16, 16, 0, 1⟩
  | .ROTA_PLOT_USE => ⟨0, 0x101200, 8, 64, 0, 1⟩
  | .PLOT_ID => ⟨0, 0x400000, 16384, 64, 0, 1⟩
  | .PLOT_PROG_LIMIT => ⟨0, 0x400028, 16384, 64, 0, 1⟩
  | .PLOT_STATUS => ⟨0, 0x400008, 16384, 64, 0, 1⟩
  | .PLOT_HEADMAP => ⟨0, 0x400030, 16384, 64, 0, 1⟩
  | .PLOT_CTRL => ⟨0, 0x400010, 16384, 64, 0, 1⟩
  | .PLOT_EVENTS => ⟨0, 0x400038, 16384, 64, 0, 1⟩
  | .PLOT_SPARE_MAP => ⟨0, 0x400018, 16384, 64, 0, 1⟩
  | .PLOT_STOP_STATS => ⟨0, 0x400040, 16384, 64, 0, 1⟩
  | .PLOT_PROG_BASE => ⟨0, 0x400020, 16384, 64, 0, 1⟩
  | .PLOT_FP_STATUS => ⟨0, 0x400048, 16384, 64, 0, 1⟩
  | .PLOT_CORE_STATE => ⟨0, 0x400100, 16384, 64, 8, 66⟩
  | .PIM_CAPS => ⟨0, 0x800000, 0, 1, 0, 1⟩
  | .PIM_DQ_BASE => ⟨0, 0x800020, 0, 1, 0, 1⟩
  | .PIM_CTRL => ⟨0, 0x800008, 0, 1, 0, 1⟩
  | .PIM_DQ_CTRL => ⟨0, 0x800028, 0, 1, 0, 1⟩
  | .PIM_EVENTS => ⟨0, 0x800010, 0, 1, 0, 1⟩
  | .PIM_DQ_TAIL => ⟨0, 0x800030, 0, 1, 0, 1⟩
  | .PIM_TURN_STATS => ⟨0, 0x800018, 0, 1, 0, 1⟩
  | .PIM_DQ_HEAD => ⟨0, 0x800038, 0, 1, 0, 1⟩
  | .PIM_CH_STATUS => ⟨0, 0x810000, 64, 320, 0, 1⟩
  | .PIM_CH_WINDOWS => ⟨0, 0x810008, 64, 320, 0, 1⟩
  | .PIM_CH_WAIT => ⟨0, 0x810010, 64, 320, 0, 1⟩
  | .PIM_CH_REFRESH => ⟨0, 0x810018, 64, 320, 0, 1⟩
  | .FUR_CAPS => ⟨0, 0xC00000, 0, 1, 0, 1⟩
  | .FUR_CQ_BASE => ⟨0, 0xC00038, 0, 1, 0, 1⟩
  | .FUR_DESC_BASE => ⟨0, 0xC00008, 0, 1, 0, 1⟩
  | .FUR_CQ_CTRL => ⟨0, 0xC00040, 0, 1, 0, 1⟩
  | .FUR_DIR_BASE => ⟨0, 0xC00010, 0, 1, 0, 1⟩
  | .FUR_CQ_TAIL => ⟨0, 0xC00048, 0, 1, 0, 1⟩
  | .FUR_SEL_BASE => ⟨0, 0xC00018, 0, 1, 0, 1⟩
  | .FUR_CQ_HEAD => ⟨0, 0xC00050, 0, 1, 0, 1⟩
  | .FUR_LIST => ⟨0, 0xC00020, 0, 1, 0, 1⟩
  | .FUR_EVENTS => ⟨0, 0xC00058, 0, 1, 0, 1⟩
  | .FUR_BUILD_BASE => ⟨0, 0xC00028, 0, 1, 0, 1⟩
  | .FUR_TURN_STATS => ⟨0, 0xC00060, 0, 1, 0, 1⟩
  | .FUR_TIMING => ⟨0, 0xC00030, 0, 1, 0, 1⟩
  | .FUR_FLASH_TABLE => ⟨0, 0xC00068, 0, 1, 0, 1⟩
  | .FUR_POOL_CFG => ⟨0, 0xC00100, 16, 4, 0, 1⟩
  | .FUR_POOL_STATUS => ⟨0, 0xC00108, 16, 4, 0, 1⟩
  | .FUR_STRICT => ⟨0, 0xC00200, 8, 64, 0, 1⟩
  | .SCR_CAPS => ⟨0, 0x1C00000, 0, 1, 0, 1⟩
  | .SCR_CMD => ⟨0, 0x1C00028, 0, 1, 0, 1⟩
  | .SCR_AREA => ⟨0, 0x1C00008, 0, 1, 0, 1⟩
  | .SCR_CMD_STATUS => ⟨0, 0x1C00030, 0, 1, 0, 1⟩
  | .SCR_RES_AREA => ⟨0, 0x1C00010, 0, 1, 0, 1⟩
  | .SCR_SCRUB => ⟨0, 0x1C00038, 0, 1, 0, 1⟩
  | .SCR_MASK_BASE => ⟨0, 0x1C00018, 0, 1, 0, 1⟩
  | .SCR_EVENTS => ⟨0, 0x1C00040, 0, 1, 0, 1⟩
  | .SCR_CMD_ADDR => ⟨0, 0x1C00020, 0, 1, 0, 1⟩
  | .SCR_TURN_STATS => ⟨0, 0x1C00048, 0, 1, 0, 1⟩
  | .SCR_TABLE => ⟨0, 0x1C01000, 8, 1024, 0, 1⟩
  | .SLU_CAPS => ⟨0, 0x1000000, 0, 1, 0, 1⟩
  | .SLU_FLUSH_STATUS => ⟨0, 0x1000038, 0, 1, 0, 1⟩
  | .SLU_RETRY => ⟨0, 0x1000008, 0, 1, 0, 1⟩
  | .SLU_EV_BASE => ⟨0, 0x1000040, 0, 1, 0, 1⟩
  | .SLU_TARGET_CTRL => ⟨0, 0x1000010, 0, 1, 0, 1⟩
  | .SLU_EV_CTRL => ⟨0, 0x1000048, 0, 1, 0, 1⟩
  | .SLU_ODP => ⟨0, 0x1000018, 0, 1, 0, 1⟩
  | .SLU_EV_PRODUCED => ⟨0, 0x1000050, 0, 1, 0, 1⟩
  | .SLU_REGION_BASE => ⟨0, 0x1000020, 0, 1, 0, 1⟩
  | .SLU_EV_CONSUMED => ⟨0, 0x1000058, 0, 1, 0, 1⟩
  | .SLU_MREF_BASE => ⟨0, 0x1000028, 0, 1, 0, 1⟩
  | .SLU_EVENTS => ⟨0, 0x1000060, 0, 1, 0, 1⟩
  | .SLU_FLUSH => ⟨0, 0x1000030, 0, 1, 0, 1⟩
  | .SLU_DEAD_LAST => ⟨0, 0x1000068, 0, 1, 0, 1⟩
  | .SLU_ENG_STATUS => ⟨0, 0x1010000, 64, 32, 0, 1⟩
  | .SLU_ENG_CTRL => ⟨0, 0x1010008, 64, 32, 0, 1⟩
  | .SLU_ENG_STATS => ⟨0, 0x1010010, 64, 32, 0, 1⟩
  | .SLU_ENG_RETRY => ⟨0, 0x1010018, 64, 32, 0, 1⟩
  | .FUR_HO_BASE => ⟨0, 0xC01000, 0, 1, 0, 1⟩
  | .FUR_HO_EVENTS => ⟨0, 0xC01018, 0, 1, 0, 1⟩
  | .FUR_HO_CTRL => ⟨0, 0xC01008, 0, 1, 0, 1⟩
  | .FUR_HO_STATS => ⟨0, 0xC01020, 0, 1, 0, 1⟩
  | .FUR_HO_TIMING => ⟨0, 0xC01010, 0, 1, 0, 1⟩
  | .FUR_HO_VERSION => ⟨0, 0xC01028, 0, 1, 0, 1⟩
  | .FAB_CAPS => ⟨0, 0x1400000, 0, 1, 0, 1⟩
  | .FAB_RX_DROPS => ⟨0, 0x1400020, 0, 1, 0, 1⟩
  | .FAB_NODE => ⟨0, 0x1400008, 0, 1, 0, 1⟩
  | .FAB_RX_STATS => ⟨0, 0x1400028, 0, 1, 0, 1⟩
  | .FAB_CTRL => ⟨0, 0x1400010, 0, 1, 0, 1⟩
  | .FAB_VECTOR => ⟨0, 0x1400030, 0, 1, 0, 1⟩
  | .FAB_EVENTS => ⟨0, 0x1400018, 0, 1, 0, 1⟩
  | .FAB_LINK_CFG => ⟨0, 0x1410000, 64, 112, 0, 1⟩
  | .FAB_LINK_FEC => ⟨0, 0x1410018, 64, 112, 0, 1⟩
  | .FAB_LINK_CTRL => ⟨0, 0x1410008, 64, 112, 0, 1⟩
  | .FAB_LINK_REPLAY => ⟨0, 0x1410020, 64, 112, 0, 1⟩
  | .FAB_LINK_STATUS => ⟨0, 0x1410010, 64, 112, 0, 1⟩
  | .FAB_LINK_TRAFFIC => ⟨0, 0x1410028, 64, 112, 0, 1⟩
  | .FAB_ROUTE_STATUS => ⟨0, 0x1420000, 0, 1, 0, 1⟩
  | .WEIR_CTRL => ⟨0, 0x1830000, 0, 1, 0, 1⟩
  | .FAB_ROUTE_LOAD_ADDR => ⟨0, 0x1420008, 0, 1, 0, 1⟩
  | .WEIR_COMMIT => ⟨0, 0x1830008, 0, 1, 0, 1⟩
  | .FAB_ROUTE_LOAD => ⟨0, 0x1420010, 0, 1, 0, 1⟩
  | .WEIR_STATUS => ⟨0, 0x1830010, 0, 1, 0, 1⟩
  | .FAB_ROUTE_SWITCH_TURN => ⟨0, 0x1420018, 0, 1, 0, 1⟩
  | .WEIR_STATS => ⟨0, 0x1830018, 0, 1, 0, 1⟩
  | .FAB_ROUTE_SWITCH => ⟨0, 0x1420020, 0, 1, 0, 1⟩
  | .WEIR_CLASS_CFG => ⟨0, 0x1830100, 16, 7, 0, 1⟩
  | .FAB_ROUTE_CTRL => ⟨0, 0x1420028, 0, 1, 0, 1⟩
  | .WEIR_CLASS_ARB => ⟨0, 0x1830108, 16, 7, 0, 1⟩
  | .FAB_ROUTE_STATS => ⟨0, 0x1420030, 0, 1, 0, 1⟩
  | .WEIR_OWNER_CFG => ⟨0, 0x1840000, 8, 4096, 0, 1⟩
  | .HG_CTRL => ⟨0, 0x1800000, 0, 1, 0, 1⟩
  | .WEIR_TEL_BASE => ⟨0, 0x1850000, 0, 1, 0, 1⟩
  | .HG_DROP_BASE => ⟨0, 0x1800008, 0, 1, 0, 1⟩
  | .WEIR_TEL_CTRL => ⟨0, 0x1850008, 0, 1, 0, 1⟩
  | .HG_DROP_PRODUCED => ⟨0, 0x1800010, 0, 1, 0, 1⟩
  | .WEIR_TEL_LINKS0 => ⟨0, 0x1850010, 0, 1, 0, 1⟩
  | .HG_DROP_CONSUMED => ⟨0, 0x1800018, 0, 1, 0, 1⟩
  | .WEIR_TEL_LINKS1 => ⟨0, 0x1850018, 0, 1, 0, 1⟩
  | .HG_STATS => ⟨0, 0x1800020, 0, 1, 0, 1⟩
  | .WEIR_TEL_PRODUCED => ⟨0, 0x1850020, 0, 1, 0, 1⟩
  | .HG_REQ_CFG => ⟨0, 0x1810000, 32, 4096, 0, 1⟩
  | .WEIR_TEL_CONSUMED => ⟨0, 0x1850028, 0, 1, 0, 1⟩
  | .HG_PROMPT_CFG => ⟨0, 0x1810008, 32, 4096, 0, 1⟩
  | .WEIR_TEL_LOST => ⟨0, 0x1850030, 0, 1, 0, 1⟩
  | .HG_LEVEL => ⟨0, 0x1810010, 32, 4096, 0, 1⟩
  | .HQ_CAPS => ⟨0, 0x2000000, 0, 1, 0, 1⟩
  | .NVM_CAPS => ⟨0, 0x2400000, 0, 1, 0, 1⟩
  | .HQ_CONTROL => ⟨0, 0x2000008, 0, 1, 0, 1⟩
  | .NVM_TIMING => ⟨0, 0x2400008, 0, 1, 0, 1⟩
  | .HQ_PORT_STATUS => ⟨0, 0x2000010, 0, 1, 0, 1⟩
  | .NVM_EVENTS => ⟨0, 0x2400010, 0, 1, 0, 1⟩
  | .HQ_FLUME_BASE => ⟨0, 0x2000018, 0, 1, 0, 1⟩
  | .NVM_CTRL => ⟨0, 0x2400018, 0, 1, 0, 1⟩
  | .HQ_FLUME_CTRL => ⟨0, 0x2000020, 0, 1, 0, 1⟩
  | .NVM_ADMIN_ADDR => ⟨0, 0x2400020, 0, 1, 0, 1⟩
  | .HQ_EVENTS => ⟨0, 0x2000028, 0, 1, 0, 1⟩
  | .NVM_ADMIN => ⟨0, 0x2400028, 0, 1, 0, 1⟩
  | .HQ_VECTOR => ⟨0, 0x2000030, 0, 1, 0, 1⟩
  | .NVM_ADMIN_STATUS => ⟨0, 0x2400030, 0, 1, 0, 1⟩
  | .HQ_STATS => ⟨0, 0x2000038, 0, 1, 0, 1⟩
  | .NVM_PORT_CFG => ⟨0, 0x2410000, 64, 8, 0, 1⟩
  | .HQ_Q_BASE => ⟨0, 0x2010000, 32, 256, 0, 1⟩
  | .NVM_PORT_CTRL => ⟨0, 0x2410008, 64, 8, 0, 1⟩
  | .HQ_Q_CTRL => ⟨0, 0x2010008, 32, 256, 0, 1⟩
  | .NVM_PORT_STATUS => ⟨0, 0x2410010, 64, 8, 0, 1⟩
  | .HQ_Q_STATUS => ⟨0, 0x2010010, 32, 256, 0, 1⟩
  | .NVM_PORT_STATS => ⟨0, 0x2410018, 64, 8, 0, 1⟩
  | .HQ_Q_CPL_BASE => ⟨0, 0x2010018, 32, 256, 0, 1⟩
  | .NVM_PORT_ERRORS => ⟨0, 0x2410020, 64, 8, 0, 1⟩
  | .NVM_EXT_CFG => ⟨0, 0x2420000, 32, 64, 0, 1⟩
  | .NVM_EXT_ADDR => ⟨0, 0x2420008, 32, 64, 0, 1⟩
  | .NVM_EXT_FRAMES => ⟨0, 0x2420010, 32, 64, 0, 1⟩
  | .NVM_EXT_CRC => ⟨0, 0x2420018, 32, 64, 0, 1⟩
  | .CFG_STATUS => ⟨0, 0x200000, 0, 1, 0, 1⟩
  | .CFG_CMD => ⟨0, 0x200050, 0, 1, 0, 1⟩
  | .CFG_DIGEST => ⟨0, 0x200008, 8, 6, 0, 1⟩
  | .CFG_CMD_STATUS => ⟨0, 0x200058, 0, 1, 0, 1⟩
  | .CFG_CTRL => ⟨0, 0x200038, 0, 1, 0, 1⟩
  | .CFG_STAGE_FAULT => ⟨0, 0x200060, 0, 1, 0, 1⟩
  | .CFG_EVENTS => ⟨0, 0x200040, 0, 1, 0, 1⟩
  | .CFG_CENSUS_BASE => ⟨0, 0x200068, 0, 1, 0, 1⟩
  | .CFG_CMD_ADDR => ⟨0, 0x200048, 0, 1, 0, 1⟩
  | .CFG_CENSUS => ⟨0, 0x200070, 0, 1, 0, 1⟩
  | .CFG_SLOT_INFO => ⟨0, 0x200100, 8, 4, 0, 1⟩
  | .CFG_CENSUS_STATUS => ⟨0, 0x200078, 0, 1, 0, 1⟩
  | .SEC_STATUS => ⟨0, 0x2800000, 0, 1, 0, 1⟩
  | .MTR_ID => ⟨4, 0x0, 0, 1, 0, 1⟩
  | .SEC_KEY_POLICY => ⟨0, 0x2800008, 0, 1, 0, 1⟩
  | .MTR_STATUS => ⟨4, 0x8, 0, 1, 0, 1⟩
  | .SEC_KEYS_USED => ⟨0, 0x2800010, 0, 1, 0, 1⟩
  | .MTR_PERIOD => ⟨4, 0x10, 0, 1, 0, 1⟩
  | .SEC_CMD_ADDR => ⟨0, 0x2800018, 0, 1, 0, 1⟩
  | .MTR_PRODUCED => ⟨4, 0x18, 0, 1, 0, 1⟩
  | .SEC_CMD => ⟨0, 0x2800020, 0, 1, 0, 1⟩
  | .MTR_CONSUMED => ⟨4, 0x20, 0, 1, 0, 1⟩
  | .SEC_CMD_STATUS => ⟨0, 0x2800028, 0, 1, 0, 1⟩
  | .MTR_CTRL => ⟨4, 0x28, 0, 1, 0, 1⟩
  | .SEC_CTRL => ⟨0, 0x2800030, 0, 1, 0, 1⟩
  | .MTR_CONFIG => ⟨4, 0x30, 0, 1, 0, 1⟩
  | .SEC_EVENTS => ⟨0, 0x2800038, 0, 1, 0, 1⟩
  | .MTR_FW_ADDR => ⟨4, 0x38, 0, 1, 0, 1⟩
  | .SEC_KEY_ID => ⟨0, 0x2810000, 8, 4096, 0, 1⟩
  | .MTR_FW_CMD => ⟨4, 0x40, 0, 1, 0, 1⟩
  | .MTR_FW_STATUS => ⟨4, 0x48, 0, 1, 0, 1⟩
  | .MTR_VECTOR => ⟨4, 0x50, 0, 1, 0, 1⟩
  | .MTR_EVENTS => ⟨4, 0x58, 0, 1, 0, 1⟩
  | .MTR_DIGEST => ⟨4, 0x80, 8, 6, 0, 1⟩
  | .ERR_STATUS => ⟨0, 0x2C00000, 0, 1, 0, 1⟩
  | .ERR_RESET_STATUS => ⟨0, 0x2C00048, 0, 1, 0, 1⟩
  | .ERR_CTRL => ⟨0, 0x2C00008, 0, 1, 0, 1⟩
  | .ERR_DUMP_HOST => ⟨0, 0x2C00050, 0, 1, 0, 1⟩
  | .ERR_EVENTS => ⟨0, 0x2C00010, 0, 1, 0, 1⟩
  | .ERR_DUMP_CMD => ⟨0, 0x2C00058, 0, 1, 0, 1⟩
  | .ERR_COUNTS => ⟨0, 0x2C00018, 0, 1, 0, 1⟩
  | .ERR_SENT_CFG => ⟨0, 0x2C00060, 0, 1, 0, 1⟩
  | .ERR_RING_BASE => ⟨0, 0x2C00020, 0, 1, 0, 1⟩
  | .ERR_SHADOW_CFG => ⟨0, 0x2C00068, 0, 1, 0, 1⟩
  | .ERR_RING_CTRL => ⟨0, 0x2C00028, 0, 1, 0, 1⟩
  | .ERR_SHADOW_TARGETS => ⟨0, 0x2C00070, 0, 1, 0, 1⟩
  | .ERR_RING_PRODUCED => ⟨0, 0x2C00030, 0, 1, 0, 1⟩
  | .ERR_SHADOW_STATS => ⟨0, 0x2C00078, 0, 1, 0, 1⟩
  | .ERR_RING_CONSUMED => ⟨0, 0x2C00038, 0, 1, 0, 1⟩
  | .ERR_SENT_BIN => ⟨0, 0x2C00100, 8, 32, 0, 1⟩
  | .ERR_RESET_CMD => ⟨0, 0x2C00040, 0, 1, 0, 1⟩
  | .ERR_SENT_CORE => ⟨0, 0x2C10000, 8, 4224, 0, 1⟩
  | .RIDE_STATUS => ⟨0, 0x2C20000, 0, 1, 0, 1⟩
  | .RIDE_EVENTS => ⟨0, 0x2C20018, 0, 1, 0, 1⟩
  | .RIDE_HEARTBEAT => ⟨0, 0x2C20008, 0, 1, 0, 1⟩
  | .RIDE_DUMP_FLASH => ⟨0, 0x2C20020, 0, 1, 0, 1⟩
  | .RIDE_WDOG => ⟨0, 0x2C20010, 0, 1, 0, 1⟩
  | .RIDE_DUMP_LBA => ⟨0, 0x2C20028, 0, 1, 0, 1⟩
  | .PWR_STATUS => ⟨0, 0x3000000, 0, 1, 0, 1⟩
  | .PWR_THERM => ⟨0, 0x3000020, 0, 1, 0, 1⟩
  | .PWR_LIMIT => ⟨0, 0x3000008, 0, 1, 0, 1⟩
  | .PWR_THERM_CFG => ⟨0, 0x3000028, 0, 1, 0, 1⟩
  | .PWR_CTRL => ⟨0, 0x3000010, 0, 1, 0, 1⟩
  | .PWR_STEP_STATS => ⟨0, 0x3000030, 0, 1, 0, 1⟩
  | .PWR_EVENTS => ⟨0, 0x3000018, 0, 1, 0, 1⟩
  | .PWR_RAIL => ⟨0, 0x3000100, 8, 11, 0, 1⟩

/-- All registers, in the order of the offset tables. -/
def Reg.all : List Reg := List.flatten
  [[Reg.ID_REV, Reg.FEATURE, Reg.TURN_CTRL, Reg.TURN_EVENTS, Reg.TURN_JOB, Reg.TURN_LATE_COUNT, Reg.TURN_TIMING, Reg.TURN_ABORT_COUNT],
   [Reg.TURN_TOL, Reg.TURN_SKEW, Reg.TURN_TREE, Reg.ROTA_SUBMIT_ADDR, Reg.TURN_MARKER_CHILDREN, Reg.ROTA_SUBMIT, Reg.TURN_SEAL_CHILDREN, Reg.ROTA_SUBMIT_TURN],
   [Reg.TURN_START, Reg.ROTA_STATUS, Reg.TURN_NUMBER, Reg.ROTA_RESULT, Reg.TURN_STATUS, Reg.ROTA_LIMITS, Reg.TURN_COMMIT, Reg.ROTA_CLOCK],
   [Reg.ROTA_COST_A, Reg.ROTA_COST_B, Reg.ROTA_PLOT_USE, Reg.PLOT_ID, Reg.PLOT_PROG_LIMIT, Reg.PLOT_STATUS, Reg.PLOT_HEADMAP, Reg.PLOT_CTRL],
   [Reg.PLOT_EVENTS, Reg.PLOT_SPARE_MAP, Reg.PLOT_STOP_STATS, Reg.PLOT_PROG_BASE, Reg.PLOT_FP_STATUS, Reg.PLOT_CORE_STATE, Reg.PIM_CAPS, Reg.PIM_DQ_BASE],
   [Reg.PIM_CTRL, Reg.PIM_DQ_CTRL, Reg.PIM_EVENTS, Reg.PIM_DQ_TAIL, Reg.PIM_TURN_STATS, Reg.PIM_DQ_HEAD, Reg.PIM_CH_STATUS, Reg.PIM_CH_WINDOWS],
   [Reg.PIM_CH_WAIT, Reg.PIM_CH_REFRESH, Reg.FUR_CAPS, Reg.FUR_CQ_BASE, Reg.FUR_DESC_BASE, Reg.FUR_CQ_CTRL, Reg.FUR_DIR_BASE, Reg.FUR_CQ_TAIL],
   [Reg.FUR_SEL_BASE, Reg.FUR_CQ_HEAD, Reg.FUR_LIST, Reg.FUR_EVENTS, Reg.FUR_BUILD_BASE, Reg.FUR_TURN_STATS, Reg.FUR_TIMING, Reg.FUR_FLASH_TABLE],
   [Reg.FUR_POOL_CFG, Reg.FUR_POOL_STATUS, Reg.FUR_STRICT, Reg.SCR_CAPS, Reg.SCR_CMD, Reg.SCR_AREA, Reg.SCR_CMD_STATUS, Reg.SCR_RES_AREA],
   [Reg.SCR_SCRUB, Reg.SCR_MASK_BASE, Reg.SCR_EVENTS, Reg.SCR_CMD_ADDR, Reg.SCR_TURN_STATS, Reg.SCR_TABLE, Reg.SLU_CAPS, Reg.SLU_FLUSH_STATUS],
   [Reg.SLU_RETRY, Reg.SLU_EV_BASE, Reg.SLU_TARGET_CTRL, Reg.SLU_EV_CTRL, Reg.SLU_ODP, Reg.SLU_EV_PRODUCED, Reg.SLU_REGION_BASE, Reg.SLU_EV_CONSUMED],
   [Reg.SLU_MREF_BASE, Reg.SLU_EVENTS, Reg.SLU_FLUSH, Reg.SLU_DEAD_LAST, Reg.SLU_ENG_STATUS, Reg.SLU_ENG_CTRL, Reg.SLU_ENG_STATS, Reg.SLU_ENG_RETRY],
   [Reg.FUR_HO_BASE, Reg.FUR_HO_EVENTS, Reg.FUR_HO_CTRL, Reg.FUR_HO_STATS, Reg.FUR_HO_TIMING, Reg.FUR_HO_VERSION, Reg.FAB_CAPS, Reg.FAB_RX_DROPS],
   [Reg.FAB_NODE, Reg.FAB_RX_STATS, Reg.FAB_CTRL, Reg.FAB_VECTOR, Reg.FAB_EVENTS, Reg.FAB_LINK_CFG, Reg.FAB_LINK_FEC, Reg.FAB_LINK_CTRL],
   [Reg.FAB_LINK_REPLAY, Reg.FAB_LINK_STATUS, Reg.FAB_LINK_TRAFFIC, Reg.FAB_ROUTE_STATUS, Reg.WEIR_CTRL, Reg.FAB_ROUTE_LOAD_ADDR, Reg.WEIR_COMMIT, Reg.FAB_ROUTE_LOAD],
   [Reg.WEIR_STATUS, Reg.FAB_ROUTE_SWITCH_TURN, Reg.WEIR_STATS, Reg.FAB_ROUTE_SWITCH, Reg.WEIR_CLASS_CFG, Reg.FAB_ROUTE_CTRL, Reg.WEIR_CLASS_ARB, Reg.FAB_ROUTE_STATS],
   [Reg.WEIR_OWNER_CFG, Reg.HG_CTRL, Reg.WEIR_TEL_BASE, Reg.HG_DROP_BASE, Reg.WEIR_TEL_CTRL, Reg.HG_DROP_PRODUCED, Reg.WEIR_TEL_LINKS0, Reg.HG_DROP_CONSUMED],
   [Reg.WEIR_TEL_LINKS1, Reg.HG_STATS, Reg.WEIR_TEL_PRODUCED, Reg.HG_REQ_CFG, Reg.WEIR_TEL_CONSUMED, Reg.HG_PROMPT_CFG, Reg.WEIR_TEL_LOST, Reg.HG_LEVEL],
   [Reg.HQ_CAPS, Reg.NVM_CAPS, Reg.HQ_CONTROL, Reg.NVM_TIMING, Reg.HQ_PORT_STATUS, Reg.NVM_EVENTS, Reg.HQ_FLUME_BASE, Reg.NVM_CTRL],
   [Reg.HQ_FLUME_CTRL, Reg.NVM_ADMIN_ADDR, Reg.HQ_EVENTS, Reg.NVM_ADMIN, Reg.HQ_VECTOR, Reg.NVM_ADMIN_STATUS, Reg.HQ_STATS, Reg.NVM_PORT_CFG],
   [Reg.HQ_Q_BASE, Reg.NVM_PORT_CTRL, Reg.HQ_Q_CTRL, Reg.NVM_PORT_STATUS, Reg.HQ_Q_STATUS, Reg.NVM_PORT_STATS, Reg.HQ_Q_CPL_BASE, Reg.NVM_PORT_ERRORS],
   [Reg.NVM_EXT_CFG, Reg.NVM_EXT_ADDR, Reg.NVM_EXT_FRAMES, Reg.NVM_EXT_CRC, Reg.CFG_STATUS, Reg.CFG_CMD, Reg.CFG_DIGEST, Reg.CFG_CMD_STATUS],
   [Reg.CFG_CTRL, Reg.CFG_STAGE_FAULT, Reg.CFG_EVENTS, Reg.CFG_CENSUS_BASE, Reg.CFG_CMD_ADDR, Reg.CFG_CENSUS, Reg.CFG_SLOT_INFO, Reg.CFG_CENSUS_STATUS],
   [Reg.SEC_STATUS, Reg.MTR_ID, Reg.SEC_KEY_POLICY, Reg.MTR_STATUS, Reg.SEC_KEYS_USED, Reg.MTR_PERIOD, Reg.SEC_CMD_ADDR, Reg.MTR_PRODUCED],
   [Reg.SEC_CMD, Reg.MTR_CONSUMED, Reg.SEC_CMD_STATUS, Reg.MTR_CTRL, Reg.SEC_CTRL, Reg.MTR_CONFIG, Reg.SEC_EVENTS, Reg.MTR_FW_ADDR],
   [Reg.SEC_KEY_ID, Reg.MTR_FW_CMD, Reg.MTR_FW_STATUS, Reg.MTR_VECTOR, Reg.MTR_EVENTS, Reg.MTR_DIGEST, Reg.ERR_STATUS, Reg.ERR_RESET_STATUS],
   [Reg.ERR_CTRL, Reg.ERR_DUMP_HOST, Reg.ERR_EVENTS, Reg.ERR_DUMP_CMD, Reg.ERR_COUNTS, Reg.ERR_SENT_CFG, Reg.ERR_RING_BASE, Reg.ERR_SHADOW_CFG],
   [Reg.ERR_RING_CTRL, Reg.ERR_SHADOW_TARGETS, Reg.ERR_RING_PRODUCED, Reg.ERR_SHADOW_STATS, Reg.ERR_RING_CONSUMED, Reg.ERR_SENT_BIN, Reg.ERR_RESET_CMD, Reg.ERR_SENT_CORE],
   [Reg.RIDE_STATUS, Reg.RIDE_EVENTS, Reg.RIDE_HEARTBEAT, Reg.RIDE_DUMP_FLASH, Reg.RIDE_WDOG, Reg.RIDE_DUMP_LBA, Reg.PWR_STATUS, Reg.PWR_THERM],
   [Reg.PWR_LIMIT, Reg.PWR_THERM_CFG, Reg.PWR_CTRL, Reg.PWR_STEP_STATS, Reg.PWR_EVENTS, Reg.PWR_RAIL]]

end Sys2Proof.Machine
end

