-- ==== Sys2Proof/Syntax.lean ====
section
/-! DEFINITION. Sys2Proof/Syntax.lean: the commands of the device, one constructor of `Instr` for each row of the opcode
table, with the operands each step takes from outside (what a host wrote, what a message or a flit carried, what a
drive, a pin or a sensor reported, and the moment where a rule compares times). The table gives no operand fields; the
operands are read off the rules (log entry 1). -/

namespace Sys2Proof

/-- A function of a host port: port 0 H0 or 1 H1, function 0 the PF, 1–31 a VF (R349). -/
structure Fn where
  port : Nat
  vf : Nat := 0
  deriving DecidableEq, Repr

/-- A rota entry (Table 2.5). `rsvd` says that one of its reserved fields is not zero. -/
structure RotaEntry where
  plotMask : BitVec 64
  program : Nat := 0
  arg : Nat := 0
  jst : Nat := 0
  prefill : Nat := 0
  pim : Nat := 0
  kind : Nat
  cls : Nat := 0
  specCap : Nat := 0
  noSample : Bool := false
  slot : Nat := 0
  rsvd : Bool := false
  deriving DecidableEq, Repr

/-- A turn marker's payload (Table 2.1). -/
structure MarkerMsg where
  turn : Nat
  digest : BitVec 64
  jobId : Nat
  first : Bool
  epoch : Nat
  period : Nat
  window : Nat
  deriving DecidableEq, Repr

/-- A SEAL, COMMIT or ABORT payload (Table 2.6); an exclusion tag is its reason code and its JST. -/
structure SealMsg where
  turn : Nat
  jobId : Nat
  fail : Bool := false
  reason : Nat := 0
  count : Nat := 0
  excl : List (Nat × Nat) := []
  deriving DecidableEq, Repr

/-- A reading of one rail (Table 19.14): mV, current in units of 0.25 A, and whether it is outside its tolerance. -/
structure RailReading where
  rail : Nat
  mv : Nat
  quarterAmps : Nat
  outOfRange : Bool := false
  deriving DecidableEq, Repr

/-- One reading of every sensor (R455), temperatures in tenths of a degree: the junction and headwater sensors of each die, the
stack base sensors, the summed rail power in W, and the rails. -/
structure Sensors where
  junction0 : List Int
  junction1 : List Int
  headwater0 : List Int
  headwater1 : List Int
  stackBases : List Int
  watts : Nat
  rails : List RailReading
  deriving DecidableEq, Repr

/-- The operation header (Table 11.9). -/
structure OpHdr where
  key : Nat := 0
  offset : Nat := 0
  region : Nat := 0
  op : Nat
  codedWire : Bool := false
  tables : Nat := 0
  owner : Nat := 0
  subop : Nat := 0
  operand : Nat := 0
  compare : Nat := 0
  reqId : Nat := 0
  deriving DecidableEq, Repr

/-- A packet (R313): its routing header (Table 13.6), its operation header when KIND is OPERATION, its payload as it
travels and its GCM tag when ENC is set. `rsvd` says that a reserved field holds a reserved value. -/
structure Packet where
  dest : Nat
  src : Nat
  tc : Nat
  enc : Bool := false
  epoch : Nat := 0
  hops : Nat := 0
  version : Nat := 0x10
  msgId : Nat := 0
  attempt : Nat := 0
  kind : Nat := 1
  offset : Nat := 0
  total : Nat := 0
  plen : Nat := 0
  salt : Nat := 0
  op : OpHdr := { op := 0 }
  payload : List Byte := []
  tag : List Byte := []
  rsvd : Bool := false
  deriving DecidableEq, Repr

/-- The flit types of Table 13.3. -/
inductive FlitType where
  | data | idle | param | turn
  deriving DecidableEq, Repr

/-- A flit (R305, Table 13.3). -/
structure Flit where
  ty : FlitType
  seq : Nat := 0
  ack : Nat := 0
  nak : Bool := false
  sop : Bool := false
  tc : Nat := 0
  creditTc : Nat := 0
  credits : Nat := 0
  bodyLen : Nat := 0
  tack : Nat := 0
  body : List Byte := []
  deriving DecidableEq, Repr

/-- A message as the receiver takes it whole: who sent it, its message ID, its transmission, its operation header, its
payload in clear, whether the source is in the same job (R254; log entry 24), and whether its check at its first packet has admitted it
(R258). -/
structure Msg where
  src : Nat
  msgId : Nat
  attempt : Nat := 0
  hdr : OpHdr
  tc : Nat := 3
  data : List Byte := []
  sameJob : Bool := true
  checked : Bool := false
  deriving DecidableEq, Repr

/-- A sluice descriptor (Table 11.2). `rsvd` says that a reserved field is not zero. -/
structure Desc where
  opcode : Nat
  chain : Bool := false
  order : Bool := false
  stopOnError : Bool := false
  atPlacement : Bool := false
  quiet : Bool := false
  shared : Bool := false
  cls : Nat := 5
  coding : Nat := 0
  tables : Nat := 0
  owner : Nat := 0
  node : Nat := 0
  tag : Nat := 0
  loc : Nat := 0
  locHost : Bool := false
  remHost : Bool := false
  func : Nat := 0
  subop : Nat := 0
  region : Nat := 0
  length : Nat := 0
  remote : Nat := 0
  key : Nat := 0
  operand : Nat := 0
  compare : Nat := 0
  rsvd : Bool := false
  deriving DecidableEq, Repr

/-- A namespace that a controller reports in INIT (R363): its number, its size in LBAs, and whether it is formatted as
R363 requires. -/
structure Namespace where
  nsid : Nat
  lbas : Nat
  ok : Bool
  deriving DecidableEq, Repr

/-- A map image (R322): its header fields, its route sets (link masks) and its map entries listed by node, and whether MAGIC, CRC32 and the
header's reserved fields are right. -/
structure MapImage where
  epoch : Nat
  setCount : Nat
  sets : List Nat
  entries : List (Nat × BitVec 32)
  ok : Bool
  deriving DecidableEq, Repr


/-- A slot image (Table 8.1). `rsvd` says that a reserved bit is set or a coded value is reserved. -/
structure SlotImg where
  state : Nat := 0
  pendingV : Bool := false
  cls : Nat := 0
  handoff : Bool := false
  reason : Nat := 0
  depth : Nat := 0
  held : Nat := 0
  ckptK : Nat := 1
  ckptLag : Bool := false
  furrow : Nat := 0
  draft : Nat := 0xFFFFFFFF
  jst : Nat := 0
  ckptPhase : Nat := 0
  seed : Nat := 0
  pending : Nat := 0
  temperature : Nat := 0
  topP : Nat := 0x3F800000
  topK : Nat := 0
  flume : Nat := 0xFFFF
  end0 : Nat := 0xFFFFFFFF
  end1 : Nat := 0xFFFFFFFF
  outLimit : Nat := 0
  outCount : Nat := 0
  promptCount : Nat := 0
  specProposed : Nat := 0
  specRejected : Nat := 0
  screenState : Nat := 0
  screenTable : Nat := 0xFFFF
  proposals : List Nat := []
  turn : Nat := 0
  deriving DecidableEq, Repr

/-- A flume table entry (Table 10.1). -/
structure FlumeEntry where
  ring : Nat
  log2 : Nat
  valid : Bool
  vf : Nat
  vector : Nat
  modCount : Nat
  modTime : Nat
  deriving DecidableEq, Repr

/-- A furrow descriptor image (Table 7.1). `rsvd` says that a reserved bit is set or a coded value is reserved; `openScore`
is the raw 32-bit field. -/
structure Furrow where
  id : Nat := 0
  base : Nat := 0
  length : Nat := 0
  pushed : Nat := 0
  ppsM1 : Nat := 0
  layersM1 : Nat := 0
  headsM1 : Nat := 0
  rankStream : Nat := 0
  home : Nat := 0
  state : Nat := 0
  openHw : Bool := false
  mode : Nat := 0
  spillHome : Bool := false
  sink : Nat := 0
  recent : Nat := 0
  top : Nat := 0
  fmt : Nat := 0
  dsz : Nat := 0
  dM32 : Nat := 0
  owner : Nat := 0
  scBase : Nat := 0
  scCount : Nat := 0
  indexAddr : Nat := 0
  openScore : Nat := 0
  lastUse : Nat := 0
  deriving DecidableEq, Repr

/-- A request of the device to a host, named by what it served (R345). -/
inductive HostReq where
  /-- A fetch or a result of a host queue (R358). -/
  | queue (q : Nat)
  /-- A host access of a sluice context. -/
  | ctx (e c : Nat)
  /-- A record or a header write of a flume (R238). -/
  | flume (h : Nat)
  /-- The prefill staging copy of a slot (R200). -/
  | staging (slot : Nat)
  /-- A record of a device-written ring: 0 host error ring, 1 region events, 2 headgate drops, 3 telemetry (R463). -/
  | ring (r : Nat)
  /-- A fetch of furrow commands. -/
  | furrowRing
  /-- A fetch of reservoir descriptors. -/
  | pimRing
  /-- Any other request. -/
  | other
  deriving DecidableEq, Repr

/-- The headwater areas an image fixes (Table 16.3, HEADWATER). -/
inductive Area where
  | framePool | descriptors | directory | slotTable | staging | selection | listPool | build | flashTable | regions
  | handoff | screen | masks | rootPorts | programs
  deriving DecidableEq, Repr

/-- What the sections of a Damrus image fix (Table 16.3), as the device takes it: the spec gives these sections no byte layout, and
`wellMade` says whether each keeps the form that it has (log entry 13). `rota` gives register copies (by key) and the values the ROTA
and FABRIC sections give them. -/
structure Sections where
  wellMade : Bool := true
  unmapped : List (Nat × Nat) := []
  roles : List Nat := []
  rota : List (Nat × Word) := []
  areas : List (Area × Nat × Nat) := []
  scoreSize : List (Nat × Nat) := []
  screenRes : Nat × Nat := (0, 0)
  pimAllot : Nat := 0
  ports : List (Nat × Nat) := []
  maxHops : Option Nat := none
  holdUs : Option Nat := none
  hwFrames : List (Nat × Nat) := []
  resFrames : List (Nat × Nat) := []
  poolHigh : List Nat := []
  poolLow : List Nat := []
  flashFrames : Nat := 0
  screenMib : Nat := 0
  deriving DecidableEq, Repr

/-- A Damrus image in a profile slot: its bytes as they are programmed, and what its sections, its header (Table 16.2), its set record
(R380), its digests (R380, R381) and its KEYS section (R409) give. -/
structure Image extends Sections where
  file : List Byte := []
  partCode : Nat := 0x4096
  archGen : Nat := 1
  steppings : Nat := 7
  home : Bool := false
  shadow : Bool := false
  primary : Nat := 0xFFFF
  roleTag : Nat := 0
  epoch : Nat := 0
  bodyDigest : BitVec 384 := 0
  cfgDigest : BitVec 384 := 0
  kmHash : Nat := 0
  keyFlags : Nat := 0
  slotLimit : Nat := 0
  deriving DecidableEq, Repr

/-- A firmware image in a firmware slot (R402): its bytes, its SVN and the digest of its body. -/
structure FwImage where
  file : List Byte := []
  svn : Nat := 0
  digest : BitVec 384 := 0
  deriving DecidableEq, Repr

/-- A metergate image (R402, R416): its bytes, its SVN, its MTR_DIGEST and its configuration block. -/
structure MtrImage where
  file : List Byte := []
  svn : Nat := 0
  digest : BitVec 384 := 0
  interval : Nat := 1000
  audit : List Nat := []
  deriving DecidableEq, Repr

/-- A turn-program instruction as a core executes it (R70): the core, FLAGS and the operands A, B and C of its word, the
instruction's NONSAT flag (R59), and what the outside decides of it: the replays that its parity check needed (4: the
last one failed, R113; 5: the check was that of a register, which is not replayed, R421) and the cycles it took. -/
structure CoreInsn where
  plot : Nat
  core : Nat
  flags : Nat := 0
  a : Nat := 0
  b : Nat := 0
  c : Nat := 0
  nonsat : Bool := false
  parity : Nat := 0
  cycles : Nat := 1
  deriving DecidableEq, Repr

/-- What ACCR moves: accumulator slots, or the m, l or o of ATTN's query heads. -/
inductive AccPart where
  | acc | m | l | o
  deriving DecidableEq, Repr

/-- Registers that LD and ST reach. -/
inductive RegFile where
  | vector | scalar | tref
  deriving DecidableEq, Repr

/-- What an ATTN instruction names beside its operand fields: the head placement entry, the first position of the block in
its page and their number, the scalar register that holds the FP32 constant c, the format of the queries, and whether the
block is the head's first. -/
structure AttnOp where
  head : Nat
  first : Nat := 0
  r : Nat
  scale : Nat
  qfmt : Nat := 8
  fresh : Bool := false
  deriving DecidableEq, Repr

/-- A vector operation: v[A] from v[B] and v[C]; the fused multiply-add also adds v[A]. The reductions put one value in every
lane of v[A]. -/
inductive VecOp where
  | add | sub | mul | fma | min | max | neg | abs | lt | le | eq | sum | maxAll | minAll
  deriving DecidableEq, Repr

/-- The operations of Table 3.3. -/
inductive VFun where
  | exp2 | log2 | rcp | rsqrt | tanh | sincospi
  deriving DecidableEq, Repr

/-- A scalar operation: s[A] from s[B] and s[C], an immediate, or the program counter. -/
inductive ScalarOp where
  | imm (v : Nat) | move | add | sub | mul | band | bor | bxor | shl | shr | sar | lt | ltu | eq
  | branch (target : Nat) | branchIf (target : Nat) | loop (target : Nat)
  deriving DecidableEq, Repr

/-- A reservoir command descriptor (Table 6.3). `rsvd` says that a reserved field is not zero. -/
structure PimDesc where
  opcode : Nat
  channel : Nat
  entry : Nat := 0xFFFF
  count : Nat := 0
  frame : Nat := 0
  slot : Nat := 0
  topn : Nat := 0
  qn : Nat := 0
  dsz : Nat := 0
  aspace : Bool := false
  irq : Bool := false
  owner : Nat := 0
  a : Nat := 0
  b : Nat := 0
  c : Nat := 0
  rsvd : Bool := false
  deriving DecidableEq, Repr

/-- The commands of the device, one for each row of the opcode table, in its order. -/
inductive Instr where
  /-- LOCAL_TURN_START: a turn start that is due begins (R30); `examined` is how many rota entries the admission phase reaches before 5 % of P has passed (R32), `sent` the sentinel tests that fail (R436): plot, logical core, test, CRC found, `table` and `bad` how the screen engine's reads for the mask records go, as for TARGET. -/
  | localTurnStart (at_ examined : Nat) (sent : List (Nat × Nat × Nat × Nat)) (table bad : Nat)
  /-- TURN_ROOT_TIMER_TICK: the turn root's period timer ticks (R25). -/
  | turnRootTimerTick (at_ : Nat)
  /-- TURN_IN_EDGE: a rising edge of TURN_IN (R25, R26). -/
  | turnInEdge (at_ : Nat)
  /-- IDLE_TIMER_TICK: the free-running timer ticks (R28). -/
  | idleTimerTick (at_ : Nat)
  /-- MARKER: a marker arrives on a fabric port (R22, R23, R27, R462). -/
  | marker (at_ port : Nat) (m : MarkerMsg)
  /-- MARKER_TOL_EXPIRY: the expected time plus MARKER_TOL has passed (R25, R26). -/
  | markerTolExpiry (at_ : Nat)
  /-- PIN_LAG_EXPIRY: PIN_LAG has passed since the edge (R26). -/
  | pinLagExpiry (at_ : Nat)
  /-- ADMIT_TIME_EXPIRY: 5 % of P has passed (R32). -/
  | admitTimeExpiry
  /-- DEADLINE: the deadline D (R44). -/
  | deadline (at_ : Nat)
  /-- SEAL_SEND: the device's part and every child's are in (R47). -/
  | sealSend
  /-- SEAL: a SEAL arrives on a fabric port (R46, R47). -/
  | sealMsg (port : Nat) (m : SealMsg)
  /-- SEAL_CUTOFF_EXPIRY: D + SEAL_CUTOFF at the seal root (R48). -/
  | sealCutoffExpiry
  /-- COMMIT: a COMMIT verdict arrives, from the seal parent or as the seal root's own decision (R48, R52); `consumed` gives what the headers of flumes hold as CONSUMED when the device reads them after the commit instant (R237); a flume that is not named holds what it held before. -/
  | commitVerdict (at_ : Nat) (m : SealMsg) (consumed : List (Nat × Nat))
  /-- ABORT: an ABORT verdict arrives (R53). -/
  | abortVerdict (at_ : Nat) (m : SealMsg)
  /-- LOCAL_ABORT: P − C passes without a verdict (R49). -/
  | localAbort (at_ : Nat)
  /-- ENABLE: a PF writes TURN_CTRL.ENABLE (R53). -/
  | turnEnable (port : Nat) (value : Bool)
  /-- LEAVE: a PF writes TURN_CTRL.LEAVE (R53). -/
  | turnLeave (port : Nat)
  /-- TURN_COMMIT: a PF writes TURN_COMMIT.STAGE (R388). -/
  | turnCommit (port at_ : Nat)
  /-- ROTA_SUBMIT: a PF writes ROTA_SUBMIT (R43). -/
  | rotaSubmit (port count : Nat)
  /-- ROTA_FETCH_DONE: the rota fetch ends (R33, R43). -/
  | rotaFetchDone (bytes : List Byte) (ok : Bool)
  /-- ENTRY_START: a core starts its next admitted entry (R71). -/
  | entryStart (plot core : Nat)
  /-- LDS: load the stationary buffer from tensor reference A, lanes B. -/
  | lds (insn : CoreInsn)
  /-- MMA: stream B rows of tensor reference A into accumulator slots from C (R62). -/
  | mma (insn : CoreInsn)
  /-- ACCR: move C accumulator slots from A to vector registers from B, converted (R59). -/
  | accr (insn : CoreInsn) (part : AccPart) (fmt : Nat)
  /-- ATTN: one attention block of page-list entry B, queries in vector registers from A (R65). -/
  | attn (insn : CoreInsn) (op : AttnOp)
  /-- VOP: a vector operation; `bf16`: on 64 BF16 lanes. -/
  | vop (insn : CoreInsn) (op : VecOp) (bf16 : Bool)
  /-- VTR: a transcendental function of v[B] into v[A] (R57). -/
  | vtr (insn : CoreInsn) (f : VFun)
  /-- CVT: convert 32 elements of v[B] from a format to another into v[A] (R59, R60). -/
  | cvt (insn : CoreInsn) (src dst : Nat)
  /-- LD: load C bytes at s[B] into registers from A. -/
  | coreLd (insn : CoreInsn) (file : RegFile)
  /-- ST: store C bytes of registers from A at s[B]. -/
  | coreSt (insn : CoreInsn) (file : RegFile)
  /-- MLD: a memory-semantic load (R271). -/
  | mld (insn : CoreInsn)
  /-- MST: a memory-semantic store (R271). -/
  | mst (insn : CoreInsn)
  /-- MAT: a remote atomic (R271). -/
  | mat (insn : CoreInsn)
  /-- XPUT: a collective put (R274). -/
  | xput (insn : CoreInsn)
  /-- XWAIT: wait for a headwater word, or for every XPUT's answer (R70). -/
  | xwait (insn : CoreInsn)
  /-- APPEND: write K and V of one position (R75 to R78). -/
  | append (insn : CoreInsn)
  /-- BAR: a barrier among the cores of the entry (R70). -/
  | coreBar (insn : CoreInsn)
  /-- SEND: send B vector registers from A to core C (64 × plot + core). -/
  | coreSend (insn : CoreInsn)
  /-- RECV: receive into vector registers from A what core C sends. -/
  | coreRecv (insn : CoreInsn)
  /-- SCALAR: a scalar instruction (R70). -/
  | scalar (insn : CoreInsn) (op : ScalarOp)
  /-- END: a core ends its entry (R77). -/
  | endEntry (plot core : Nat)
  /-- QUERY_POST: a turn program has posted a query in the slot's area (R171, R172). -/
  | queryPost (slot : Nat) (draft : Bool)
  /-- SELECTION_POST: a turn program has posted a selection in the slot's area (R171, R172). -/
  | selectionPost (slot : Nat) (draft : Bool)
  /-- PLOT_RESET: a PF writes PLOT_CTRL.RESET (R82). -/
  | plotReset (port plot : Nat)
  /-- PLOT_RESET_DONE: a plot's reset completes (R82). -/
  | plotResetDone (plot : Nat)
  /-- MEMORY_ACCESS: a memory-mode access reaches its channel's queue (R109, R111, R113, R118, R130). -/
  | memoryAccess (at_ addr len owner : Nat) (write pfq : Bool) (data : List Byte) (parity : Nat)
  /-- MR4_READ: MR4 of channel `k` reads: 0 1×, 1 2×, 2 4×, 3 beyond (R128, R151, R152). -/
  | mr4Read (k rate : Nat)
  /-- REFRESH_DUE: a per-bank refresh falls due; `issue` refreshes are issued, 0 postpones it (R110, R151). -/
  | refreshDue (k bank issue : Nat)
  /-- WINDOW_OPEN: the planner opens the window that is due (R132, R136). -/
  | windowOpen (at_ : Nat)
  /-- ENTERING_DONE: the bank units are enabled; MR4 is read (R128, R133). -/
  | enteringDone (k rate : Nat)
  /-- WINDOW_END: the window ends (R133). -/
  | windowEnd (k : Nat)
  /-- EXIT_DONE: the exit is complete (R122, R128). -/
  | exitDone (k at_ : Nat)
  /-- CLEARING_DONE: the score region is zero (R128, R138). -/
  | clearingDone (k : Nat)
  /-- RANK: the RANK that channel `k` runs next, of queue `q` (0 entry, 1 maintenance): at most `scans` row scans more of it; `host` is its query block and page list where they lie in host memory; `badAt` and `badBank` say where a parity check that needs `parity` replays fails (4: the last one failed; 5: the check of a query buffer, which is not replayed) (R144 to R150, R154). -/
  | pimRank (k q scans : Nat) (host : List Byte) (parity badAt badBank : Nat)
  /-- SWRITE: the SWRITE that channel `k` runs next, with the replays it needed, above 3 a failure (R113, R141). -/
  | swrite (k q : Nat) (host : List Byte) (parity badBank : Nat)
  /-- SREAD: the SREAD that channel `k` runs next, with the replays it needed, above 3 a failure (R141, R154). -/
  | sread (k q parity badBank : Nat)
  /-- SCLEAR: the SCLEAR that channel `k` runs next (R141). -/
  | sclear (k q : Nat)
  /-- PIM_FENCE: the fence that channel `k` runs next (R147, R148). -/
  | pimFence (k q : Nat)
  /-- PIM_DQ_TAIL_WRITE: a PF writes PIM_DQ_TAIL (R140). -/
  | pimDqTailWrite (port tail : Nat)
  /-- PIM_DQ_FETCH: the next driver-ring descriptor is fetched, 32 bytes (R140, Table 6.3). -/
  | pimDqFetch (bytes : List Byte)
  /-- FUR_CQ_TAIL_WRITE: a PF writes FUR_CQ_TAIL (R161). -/
  | furCqTailWrite (port tail : Nat)
  /-- FUR_CREATE: the furrow command at HEAD is CREATE (R162): its 64 bytes (R161). -/
  | furCreate (bytes : List Byte)
  /-- FUR_DESTROY: the furrow command at HEAD is DESTROY (R162): its 64 bytes. -/
  | furDestroy (bytes : List Byte)
  /-- DESTROY_COMPLETE: no operation of the furrow that is being destroyed is in flight at a boundary (R162). -/
  | destroyComplete
  /-- FUR_SET: the furrow command at HEAD is SET (R162): its 64 bytes. -/
  | furSet (bytes : List Byte)
  /-- FUR_READ: the furrow command at HEAD is READ, or one with a reserved OPCODE (R162): its 64 bytes. -/
  | furRead (bytes : List Byte)
  /-- CODED_FRAME_READY: the encoder finishes a closed page (R99, R167); the parity of its read of the raw frame (R113). -/
  | codedFrameReady (page parity : Nat)
  /-- RESERVOIR_MERGE: every fence of ranking `id` has written, and its results are merged (R173). -/
  | reservoirMerge (id : Nat)
  /-- RANK_REQUEST: a ranking request is taken (R177). -/
  | rankRequest (m : Msg)
  /-- RANK_REPLY: a ranking reply is taken (R178). -/
  | rankReply (m : Msg)
  /-- RANK_CUT_EXPIRY: RANK_CUT passes (R186). -/
  | rankCutExpiry (at_ : Nat)
  /-- FETCH_CUT_EXPIRY: FETCH_CUT passes (R186). -/
  | fetchCutExpiry (at_ : Nat)
  /-- FETCH_DONE: the fetch of a page, or a read of it by the furrow unit for itself, has ended (R169, R180, R188); `ok` says whether a direct reservoir read passes its parity, and `tries` is what reads of its host spill frame bring. -/
  | fetchDone (page : Nat) (ok : Bool) (tries : List (List Byte))
  /-- FURROW_READ: a furrow read is served (R182); of a page in a host spill area, `tries` is what the reads of its units bring. -/
  | furrowRead (m : Msg) (tries : List (List Byte)) (parity : Nat)
  /-- SPILLWAY_EVICT: the spillway makes one step in a pool; `pick` chooses among pages of equal LAST_USE (R183). -/
  | spillwayEvict (pool pick : Nat)
  /-- MOVE_DONE: the writes of a page's move have ended (R184); of one to the home that has failed, whether it was refused for want of frames (R183). -/
  | moveDone (page : Nat) (refused : Bool)
  /-- OPEN: the entry at the head of a SLOT queue is OPEN (R196): its 64 bytes, the 128 bytes that the read of ADDR brings, and the bytes of its flume's table entry and ring header (Tables 10.1 and 10.2); a read that ends as a host error brings none. -/
  | openSlot (q : Nat) (cmd image entry header : List Byte)
  /-- CLOSE: the entry is CLOSE (R196). -/
  | closeSlot (q : Nat) (cmd : List Byte)
  /-- SLOT_SET: the entry is SET (R196). -/
  | slotSet (q : Nat) (cmd image : List Byte)
  /-- SLOT_READ: the entry is READ (R196), or has a reserved OPCODE; whether the write to ADDR succeeds. -/
  | slotRead (q : Nat) (cmd : List Byte) (ok : Bool)
  /-- PAUSE: the entry is PAUSE (R196). -/
  | slotPause (at_ q : Nat) (cmd : List Byte)
  /-- RESUME: the entry is RESUME (R196). -/
  | slotResume (at_ q : Nat) (cmd : List Byte)
  /-- BUFFER: the entry is BUFFER (R196). -/
  | tokBuffer (q : Nat) (cmd : List Byte)
  /-- BUFFER_ADD: the entry is BUFFER_ADD (R196). -/
  | bufferAdd (q : Nat) (cmd : List Byte)
  /-- PREFILL_STAGING_DONE: the staging copy of a slot's PREFILL entry ends (R200). -/
  | prefillStagingDone (slot : Nat) (tokens : List Nat) (ok : Bool)
  /-- TARGET: the sampler serves a TARGET request (R201); `lists` and `table` are the replays of its reads of the candidate lists and of the screen tables (4: they all fail, of the table in block `bad`, 16,384 × handle + block) (R421, R228). -/
  | samplerTarget (slot lists table bad : Nat)
  /-- DRAFT_STEP: the sampler serves a DRAFT_STEP request (R206); as for TARGET. -/
  | draftStep (slot lists table bad : Nat)
  /-- HEADS: the sampler serves a HEADS request (R205); as for TARGET. -/
  | samplerHeads (slot lists table bad : Nat)
  /-- LOAD: a PF writes SCR_CMD with LOAD (R225); `header` is what the read of the image's header brings, nothing on a host error. -/
  | scrLoad (port handle bytes : Nat) (header : List Byte)
  /-- LOAD_FETCH_DONE: the copy of a table image has ended, and the checks run (R226); the replays of their reads of the copy (4: all fail). -/
  | loadFetchDone (parity : Nat)
  /-- RETIRE: a PF writes SCR_CMD with RETIRE (R225). -/
  | scrRetire (port handle : Nat)
  /-- SCREEN_UPDATE: the SCREEN_UPDATE entry at a rota position copies its piece (R227); the replays of its reads. -/
  | screenUpdate (index parity : Nat)
  /-- SCRUB_TICK: the scrub compares a block of each VALID table (R228); the tables whose headwater or reservoir block fails its replays. -/
  | scrubTick (at_ : Nat) (hwBad resBad : List Nat)
  /-- CANCEL: a CANCEL doorbell write of a 64-bit value (R240, R359); whether it is a naturally aligned 64-bit write. -/
  | cancelDoorbell (at_ : Nat) (fn : Fn) (value : Nat) (aligned : Bool)
  /-- FLUME_INTERRUPT_TEST: every 10 µs the flumes' interrupt conditions are tested (R239). -/
  | flumeInterruptTest (at_ : Nat)
  /-- HOST_ERROR: a request of the device to a host ends with an error (R345). -/
  | hostError (req : HostReq)
  /-- COPY: engine `e` carries out the COPY of its context `c` (R249); `host` is what a read of host memory brings, `seen` what the encoder's counting pass read of a source that has changed since (R95; empty: it has not), and `again` what replays of a spill area's units bring (R114), `parity` the replays of its source's read (4 and 5: those of the read, of the write, all fail). -/
  | sluCopy (e c : Nat) (host seen : List Byte) (again : List (List Byte)) (parity : Nat)
  /-- WRITE: engine `e` sends the messages of the WRITE of context `c` (R262); `seen` as for COPY. -/
  | sluWrite (e c : Nat) (host seen : List Byte) (parity : Nat)
  /-- READ: engine `e` sends the requests of the READ of context `c` (R262). -/
  | sluRead (e c : Nat)
  /-- ATOMIC: engine `e` sends the atomic of context `c` (R273). -/
  | sluAtomic (e c : Nat)
  /-- FLUSH: engine `e` starts the FLUSH of context `c` (R265). -/
  | sluFlush (e c : Nat)
  /-- FLASH_READ: engine `e` issues the NVMe Reads of context `c` (R275). -/
  | flashRead (e c at_ : Nat)
  /-- FLASH_WRITE: engine `e` issues the NVMe Writes of context `c` (R275); `seen` as for COPY. -/
  | flashWrite (e c at_ : Nat) (host seen : List Byte) (parity : Nat)
  /-- SIGNAL: engine `e` carries out the SIGNAL of context `c` (R249). -/
  | signalWord (e c parity : Nat)
  /-- WAIT_VALUE: engine `e` tests the word of the WAIT_VALUE of context `c` (R249). -/
  | waitValue (e c : Nat) (host : List Byte) (parity : Nat)
  /-- WAIT_VALUE_TIMEOUT: the WAIT_VALUE of context `c` passes its limit (R249). -/
  | waitValueTimeout (e c : Nat)
  /-- ALLOC: engine `e` carries out the ALLOC of context `c` (R276). -/
  | allocFrame (e c : Nat)
  /-- FREE: engine `e` carries out the FREE of context `c` (R276). -/
  | freeFrame (e c : Nat)
  /-- REGISTER: engine `e` carries out the REGISTER of context `c` (R257). -/
  | registerRegion (e c : Nat) (host : List Byte) (parity : Nat)
  /-- REVOKE: engine `e` carries out the REVOKE of context `c` (R260). -/
  | revokeRegion (e c : Nat)
  /-- REVOKE_COMPLETE: a REVOKING region's count reaches 0 (R260). -/
  | revokeComplete (region : Nat)
  /-- SLUICE_SEND: engine `e` sends the message of context `c` (R249). -/
  | sluiceSend (e c : Nat)
  /-- NOP: engine `e` completes the NOP of context `c` (R249). -/
  | sluNop (e c : Nat)
  /-- PACKET_RECEIVED: a packet reaches the device (R318, R323, R328). -/
  | packetReceived (at_ link : Nat) (p : Packet) (sameJob : Bool) (parity : Nat)
  /-- WRITE_MESSAGE: a write message has arrived whole (R258, R263). -/
  | writeMessage (m : Msg) (parity : Nat)
  /-- READ_REQ: a read request arrives (R258, R263); `seen` as for COPY. -/
  | readReq (m : Msg) (host seen : List Byte) (parity : Nat)
  /-- READ_RESP: read data arrives for a request (R264). -/
  | readResp (m : Msg) (parity : Nat)
  /-- ATOMIC_REQ: an atomic arrives (R273). -/
  | atomicReq (m : Msg) (parity : Nat)
  /-- ATOMIC_RESP: an atomic's answer arrives (R264). -/
  | atomicResp (m : Msg)
  /-- ACK: an ACK arrives (R263). -/
  | ackMsg (m : Msg)
  /-- NACK: a NACK arrives (R263). -/
  | nackMsg (m : Msg)
  /-- FAULT: an ODP FAULT arrives (R270). -/
  | odpFault (m : Msg)
  /-- SEND_MESSAGE: a SEND arrives (R263). -/
  | sendMessage (m : Msg)
  /-- RETRANSMIT_TIMEOUT: a message's answer wait expires (R266); `seen` as for COPY. -/
  | retransmitTimeout (msgId : Nat) (host seen : List Byte)
  /-- REASSEMBLY_TIMEOUT: REASSEMBLY_US passes for an unfinished message (R263). -/
  | reassemblyTimeout (src msgId : Nat)
  /-- MEMORY_EXPIRY: MEMORY_US passes for a finished message (R267). -/
  | memoryExpiry (src msgId : Nat)
  /-- FAULT_DELAY_EXPIRY: the delay after a FAULT passes (R270); `seen` as for COPY. -/
  | faultDelayExpiry (msgId : Nat) (host seen : List Byte)
  /-- ODP_PAGE_READY: the flash page of a region that messages wait for is at hand (R270); of a host spill area, `tries` is what the reads of its units bring. -/
  | odpPageReady (region page : Nat) (tries : List (List Byte))
  /-- SLU_FLUSH_START: a PF writes SLU_FLUSH.START (R265). -/
  | sluFlushStart (port node : Nat)
  /-- ENGINE_RESET: a PF writes SLU_ENG_CTRL.RESET (R279). -/
  | engineReset (port e : Nat)
  /-- HELLO: a HELLO arrives (R286). -/
  | hello (m : Msg)
  /-- OFFER: an OFFER arrives, for its recipient or for the home (R287, R291). -/
  | offer (m : Msg)
  /-- DATA: a DATA message arrives (R291). -/
  | dataMsg (m : Msg)
  /-- ACCEPT: an ACCEPT arrives at the home (R287). -/
  | accept (m : Msg)
  /-- GRANT: a GRANT arrives (R288). -/
  | grant (m : Msg)
  /-- RELEASE: a RELEASE arrives (R288). -/
  | release (m : Msg)
  /-- REFUSE: a REFUSE arrives (R288). -/
  | refuse (m : Msg)
  /-- OWNER_Q: an OWNER_Q arrives at the home (R287). -/
  | ownerQ (m : Msg)
  /-- OWNER_IS: an OWNER_IS arrives (R293). -/
  | ownerIs (m : Msg)
  /-- CLAIM_REQ: a CLAIM_REQ arrives at the home (R287). -/
  | claimReq (m : Msg)
  /-- PUSH: a PUSH arrives at the home (R287). -/
  | pushMsg (m : Msg)
  /-- PUSH_ACK: a PUSH_ACK arrives (R295). -/
  | pushAck (m : Msg)
  /-- WITHDRAW: a WITHDRAW arrives at the home (R287). -/
  | withdraw (m : Msg)
  /-- HANDOFF_TIMEOUT: TIMEOUT_TURNS have passed in OFFERED at a commit instant (R294). -/
  | handoffTimeout (furrow : Nat)
  /-- QUERY_TURNS_EXPIRY: QUERY_TURNS have passed in OFFERING or ACCEPTING (R288, R293). -/
  | queryTurnsExpiry (furrow : Nat)
  /-- TRANSFER_TIMEOUT: a transfer is not complete in time (R291). -/
  | transferTimeout (furrow at_ : Nat)
  /-- HOME_OPEN: the entry at the head of a HANDOFF queue is HOME_OPEN (R297): its 64 bytes. -/
  | homeOpen (q : Nat) (cmd : List Byte)
  /-- HOME_CLOSE: the entry is HOME_CLOSE (R297). -/
  | homeClose (q : Nat) (cmd : List Byte)
  /-- MOVE: the entry is MOVE (R297). -/
  | hoMove (q : Nat) (cmd : List Byte)
  /-- PARK: the entry is PARK (R297). -/
  | hoPark (q : Nat) (cmd : List Byte)
  /-- CLAIM: the entry is CLAIM (R297). -/
  | hoClaim (q : Nat) (cmd : List Byte)
  /-- QUERY: the entry is QUERY (R297); one with a reserved OPCODE comes here too, and ends INVALID. -/
  | hoQuery (q : Nat) (cmd : List Byte)
  /-- RECORD: the entry is RECORD; `ok` says whether its write to ADDR succeeds (R297). -/
  | recordQuery (q : Nat) (cmd : List Byte) (ok : Bool)
  /-- LINK_ENABLE: a PF writes FAB_LINK_CTRL.ENABLE (R308). -/
  | linkEnable (port link : Nat) (value : Bool)
  /-- LINK_RESET: a PF writes FAB_LINK_CTRL.RESET (R319). -/
  | linkReset (port link : Nat)
  /-- SIGNAL_DETECTED: a signal is detected on the link's lanes (R308). -/
  | signalDetected (link : Nat)
  /-- TRAIN_DONE: training ends; bit n of `laneFault`: lane n failed equalisation (R310). -/
  | trainDone (link laneFault : Nat) (reversed : Bool)
  /-- ALIGN_DONE: FEC lock, alignment and deskew (R308). -/
  | alignDone (link : Nat)
  /-- TRAIN_TIMEOUT: 100 ms since leaving DETECT (R308). -/
  | trainTimeout (link : Nat)
  /-- HOLDOFF_EXPIRY: HOLDOFF_MS in DOWN (R308). -/
  | holdoffExpiry (link : Nat)
  /-- PARAM_FLIT: a PARAM flit arrives (R309, R311). -/
  | paramFlit (link : Nat) (flit : List Byte)
  /-- DATA_FLIT: a DATA flit arrives (R306): its 256 bytes. -/
  | dataFlit (link : Nat) (flit : List Byte)
  /-- TURN_FLIT: a TURN flit arrives (R306). -/
  | turnFlit (link : Nat) (flit : List Byte)
  /-- IDLE_FLIT: an IDLE flit arrives (R306). -/
  | idleFlit (link : Nat) (flit : List Byte)
  /-- REPLAY_TIMEOUT: ACK has not advanced for 1 µs (R306). -/
  | replayTimeout (link : Nat)
  /-- TURN_REPLAY_TIMEOUT: TACK has not advanced for 300 ns (R306). -/
  | turnReplayTimeout (link : Nat)
  /-- REPLAY_LIMIT: a flit is about to be sent for the eighth time unacknowledged (R306). -/
  | replayLimit (link : Nat)
  /-- PEER_TRAINING: training frames arrive or marker lock is lost (R311). -/
  | peerTraining (link : Nat)
  /-- FEC_FAILURE: 32 consecutive uncorrectable codewords (R311). -/
  | fecFailure (link : Nat)
  /-- NO_FLIT: no correct flit for 1 µs (R311). -/
  | noFlit (link : Nat)
  /-- PACKET_TRANSMIT: the next packet of a class that may leave joins a link (R317, R340, R341). -/
  | packetTransmit (at_ cls : Nat)
  /-- FAB_NODE_WRITE: a PF writes FAB_NODE (R321). -/
  | fabNodeWrite (port node : Nat)
  /-- ROUTE_LOAD: a PF writes FAB_ROUTE_LOAD (R327). -/
  | routeLoad (port bytes : Nat)
  /-- ROUTE_LOAD_DONE: the map image fetch ends with its bytes, or fails (R327). -/
  | routeLoadDone (image : List Byte) (ok : Bool)
  /-- ARM: a PF writes FAB_ROUTE_SWITCH.ARM with IMMEDIATE clear (R327). -/
  | armRoute (port : Nat)
  /-- IMMEDIATE: a PF writes FAB_ROUTE_SWITCH.ARM with IMMEDIATE set (R327). -/
  | armImmediate (port : Nat)
  /-- DRAIN_WINDOW_END: 2 × PERIOD after an IDLE device's switch (R327). -/
  | drainWindowEnd
  /-- ROUTE_HOLD_EXPIRY: HOLD_US has passed for held packets (R325). -/
  | routeHoldExpiry (at_ : Nat)
  /-- ROUTING_NOTICE: a routing notice arrives (Table 14.3); `host` is what the host answers when a host source is read again (R326). -/
  | routingNotice (payload host : List Byte)
  /-- HG_ENABLE: a PF writes HG_CTRL.ENABLE (R337). -/
  | hgEnable (port : Nat) (value : Bool)
  /-- HG_DROP_BASE_WRITE: a PF writes HG_DROP_BASE (R339). -/
  | hgDropBaseWrite (port addr : Nat)
  /-- WEIR_REFILL: a 1 µs refill (R340). -/
  | weirRefill (at_ : Nat)
  /-- WEIR_COMMIT: a PF writes WEIR_COMMIT.STAGE (R388). -/
  | weirCommit (port : Nat)
  /-- TELEMETRY_SAMPLE: a 10 µs sample; `ages` gives link, class and the oldest packet's age in 10 ns (R342). -/
  | telemetrySample (at_ : Nat) (ages : List (Nat × Nat × Nat))
  /-- HOLDER_CLAIM: a PF writes HQ_CONTROL.CLAIM (R350). -/
  | holderClaim (at_ port : Nat)
  /-- RENEW: a PF writes HQ_CONTROL.RENEW (R350). -/
  | leaseRenew (port at_ : Nat)
  /-- HOLDER_RELEASE: a PF writes HQ_CONTROL.RELEASE (R350). -/
  | holderRelease (port : Nat)
  /-- LEASE_WRITE: a PF writes HQ_CONTROL.LEASE_MS (R350). -/
  | leaseWrite (port at_ ms : Nat)
  /-- LEASE_LAPSE: the lease has not been renewed for LEASE_MS (R350). -/
  | leaseLapse (at_ : Nat)
  /-- PORT_LOST: a host port is lost: 0 its link went down or PERST# was asserted, 1 its PF was reset, 2 its PF entered D3hot (R353). -/
  | portLost (port cause : Nat)
  /-- VF_FLR: a VF is reset, or its enablement cleared (R353). -/
  | vfFlr (fn : Fn) (disabled : Bool)
  /-- HQ_Q_ENABLE: a PF writes HQ_Q_CTRL.ENABLE (R354, R358). -/
  | hqQEnable (port q : Nat) (value : Bool)
  /-- TAIL: a TAIL doorbell write (R355). -/
  | hqTail (port q tail : Nat)
  /-- CONSUMED: a CONSUMED doorbell write (R355, R357). -/
  | hqConsumed (port q count : Nat)
  /-- SLUICE_FETCH: a descriptor's 64 bytes are fetched from a SLUICE queue (R248, R357). -/
  | sluiceFetch (q : Nat) (bytes : List Byte)
  /-- NVM_PORT_ENABLE: a PF writes NVM_PORT_CFG.ENABLE (R368). -/
  | nvmPortEnable (port root : Nat) (value : Bool)
  /-- ROOT_LINK_UP: a root port's link comes up (R361). -/
  | rootLinkUp (root rate width : Nat) (flitMode accepted : Bool)
  /-- ROOT_LINK_TIMEOUT: 100 ms without link (R368). -/
  | rootLinkTimeout (root : Nat)
  /-- ROOT_INIT_DONE: the queues are created (R368). -/
  | rootInitDone (root : Nat) (spaces : List Namespace) (trim : Bool)
  /-- ROOT_INIT_TIMEOUT: CAP.TO passed or an admin command failed in INIT (R368). -/
  | rootInitTimeout (root : Nat)
  /-- ROOT_LINK_DOWN: a root port's link goes down (R368). -/
  | rootLinkDown (root : Nat)
  /-- NVM_PORT_RESET: a PF writes NVM_PORT_CTRL.RESET (R368). -/
  | nvmPortReset (port root : Nat)
  /-- ROOT_RESET_DONE: a root port reset completes (R368). -/
  | rootResetDone (root : Nat)
  /-- NVME_COMPLETION: a completion entry arrives; what the command returns stands in its staging buffers (R364). -/
  | nvmeCompletion (at_ root : Nat) (entry : List Byte)
  /-- IO_TIMEOUT: an I/O command passes IO_MS (R366). -/
  | ioTimeout (root id : Nat)
  /-- ADMIN_TIMEOUT: an Abort or admin command passes ADMIN_MS (R366). -/
  | adminTimeout (root : Nat)
  /-- CONTROLLER_DMA: a controller-initiated request (R365). -/
  | controllerDma (root addr bytes : Nat) (write : Bool) (data : List Byte)
  /-- NVM_ADMIN_START: a PF writes NVM_ADMIN.START; `block` is the entry and the data buffer as read from the host (R369). -/
  | nvmAdminStart (port root : Nat) (block : List Byte) (ok : Bool)
  /-- PROFILE_SWITCH: a PF writes CFG_CMD with PROFILE_SWITCH and SLOT (R384). -/
  | profileSwitch (port slot : Nat)
  /-- PROFILE_SWITCH_DONE: the steps of a switch have run (R385): whether the configuration flash read, and whether each target took the retention push. -/
  | profileSwitchDone (flashOk hostTook nvmeTook : Bool)
  /-- SLOT_WRITE: a PF writes CFG_CMD with SLOT_WRITE, SLOT and BYTES (R386). -/
  | slotWrite (port slot bytes : Nat)
  /-- SLOT_WRITE_DONE: an image has been streamed and programmed (R386): the bytes placed in host memory, what its sections say (log entry 13), and whether the host port and the flash served. -/
  | slotWriteDone (image : List Byte) (sections : Sections) (hostOk flashOk : Bool)
  /-- CENSUS_START: a PF writes CFG_CENSUS with START 1 (R392). -/
  | censusStart (port scope first last : Nat)
  /-- CENSUS_QUERY: a census query arrives (Table 16.7). -/
  | censusQuery (payload : List Byte)
  /-- CENSUS_REPLY: a census reply arrives (Table 16.8). -/
  | censusReply (payload : List Byte)
  /-- CENSUS_END: 10 ms have passed since the last census query left (R392). -/
  | censusEnd
  /-- KEY_GENERATE: a PF writes SEC_CMD with KEY_GENERATE and SLOT (Table 17.5); `rsvd` says that a reserved field is not 0. -/
  | keyGenerate (port slot : Nat) (rsvd : Bool)
  /-- KEY_EXPORT: a PF writes SEC_CMD with KEY_EXPORT; the key manager's public key from the buffer, whether it is on the curve, and whether the buffer could be accessed. -/
  | keyExport (port slot : Nat) (manager : List Byte) (onCurve rsvd hostOk : Bool)
  /-- KEY_IMPORT: a PF writes SEC_CMD with KEY_IMPORT; the wrap record from the buffer. -/
  | keyImport (port slot : Nat) (record : List Byte) (rsvd hostOk : Bool)
  /-- KEY_RETIRE: a PF writes SEC_CMD with KEY_RETIRE (R410). -/
  | keyRetire (port slot : Nat) (rsvd : Bool)
  /-- ATTEST: a PF writes SEC_CMD with ATTEST (R404); the nonce from the buffer. -/
  | attest (port : Nat) (nonce : List Byte) (rsvd hostOk : Bool)
  /-- IDENTITY: a PF writes SEC_CMD with IDENTITY (R403). -/
  | identityCmd (port : Nat) (rsvd hostOk : Bool)
  /-- FW_WRITE: a PF writes SEC_CMD with FW_WRITE, SLOT and BYTES; the image from the buffer. -/
  | fwWrite (port slot bytes : Nat) (image : List Byte) (rsvd hostOk flashOk : Bool)
  /-- FW_FLOOR: a PF writes SEC_CMD with FW_FLOOR (R405). -/
  | fwFloor (port : Nat) (rsvd : Bool)
  /-- METERGATE_START: the metergate has its slot through the rider, and starts (R416). -/
  | metergateStart
  /-- INTERVAL_CLOSE: the open period has reached INTERVAL turns (R413). -/
  | intervalClose
  /-- TALLY_NOW: a PF writes MTR_CTRL.TALLY_NOW (R413). -/
  | tallyNow (port : Nat)
  /-- MTR_CLOSE: a PF writes MTR_CTRL.CLOSE (R413). -/
  | mtrClose (port : Nat)
  /-- PERIOD_CLOSE: a close that waited for the snapshot queue goes on (R413). -/
  | periodClose
  /-- RECORD_SIGN: the metergate signs its next record (R414). -/
  | recordSign
  /-- MTR_CONSUMED_WRITE: a PF writes MTR_CONSUMED (R415). -/
  | mtrConsumedWrite (port value : Nat)
  /-- METERGATE_FW_CHANGE: a PF writes MTR_FW_CMD.START with BYTES (R417); the image at MTR_FW_ADDR, and whether the host port and later the flash serve. -/
  | metergateFwChange (port bytes : Nat) (image : List Byte) (hostOk flashOk : Bool)
  /-- FW_DRAIN_TIMEOUT: 10 s have passed since step 3 of a firmware change began (R417). -/
  | fwDrainTimeout
  /-- METER_QUERY: a METER query of 32 bytes arrives (R418). -/
  | meterQuery (payload : List Byte)
  /-- RESET_REQUEST: a PF writes ERR_RESET_CMD with KIND, DOMAIN and INDEX (R429). -/
  | resetRequest (port kind domain index : Nat)
  /-- RESET_STEP_DONE: the running step over a domain completes (R428); whether the configuration flash then reads. -/
  | resetStepDone (kind domain index : Nat) (flashOk : Bool)
  /-- RESET_STEP_TIMEOUT: the running step over a domain misses its limit (R427); whether headwater still answers. -/
  | resetStepTimeout (kind domain index : Nat) (answers : Bool)
  /-- RIDER_HEARTBEAT: the rider firmware advances its heartbeat (R430). -/
  | riderHeartbeat
  /-- WATCHDOG: the heartbeat has not changed for PERIOD_MS (R430). -/
  | watchdog
  /-- WATCHDOG_NO_RETURN: the heartbeat has not advanced within 2 × PERIOD_MS of a rider reset (R430). -/
  | watchdogNoReturn
  /-- DUMP_NOW: a PF writes ERR_DUMP_CMD.DUMP_NOW (R432). -/
  | dumpNow (port : Nat)
  /-- DUMP_RELEASE: a PF writes ERR_DUMP_CMD.RELEASE (R432). -/
  | dumpRelease (port : Nat)
  /-- PUSH_NOW: a PF writes ERR_DUMP_CMD.PUSH_NOW (R433); whether each target takes the area. -/
  | pushNow (port : Nat) (hostOk flashOk : Bool)
  /-- RETENTION_PUSH: the rider pushes the retention area (R433); whether each target takes it. -/
  | retentionPush (hostOk flashOk : Bool)
  /-- SENT_CLEAR: a PF writes ERR_SENT_CFG.CLEAR (R438). -/
  | sentClear (port : Nat)
  /-- FINGERPRINT: a shadow takes a fingerprint message that has been placed (R441). -/
  | fingerprint (m : Msg)
  /-- PWRGOOD_ASSERT: the board asserts PWRGOOD (R444); whether power was held since it fell. -/
  | pwrgoodAssert (held : Bool)
  /-- PWRGOOD_DEASSERT: the board deasserts PWRGOOD (R447). -/
  | pwrgoodDeassert
  /-- PERST0_ASSERT: the board asserts PERST0_N (R447). -/
  | perst0Assert
  /-- PERST0_DEASSERT: the board deasserts PERST0_N with PROF[1:0] at a value (R383); whether the configuration flash reads. -/
  | perst0Deassert (prof : Nat) (flashOk : Bool)
  /-- PERST1_ASSERT: the board asserts PERST1_N (R447). -/
  | perst1Assert
  /-- PERST1_DEASSERT: the board deasserts PERST1_N (R447). -/
  | perst1Deassert
  /-- SUPPLY_FAULT: a rail leaves its tolerance while PWRGOOD is asserted (R445). -/
  | supplyFault (rail : Nat)
  /-- SENSOR_SAMPLE: the sensors are read (R455): every reading of the sample. -/
  | sensorSample (at_ : Nat) (x : Sensors)
  /-- VCORE_OVERCURRENT: VCORE0 or VCORE1 has carried more than 810 A for 2 µs (R453). -/
  | vcoreOvercurrent (rail : Nat)
  /-- IDLE_STEP_TICK: 1 ms has passed while the turn unit is IDLE (R452). -/
  | idleStepTick (at_ : Nat)
  /-- REGISTER_WRITE: a write of `size` bytes to a BAR of a function (R9, R10). -/
  | registerWrite (fn : Fn) (bar off size value : Nat)
  /-- RC_FIELD_READ: a read of `size` bytes from a BAR of a function (R10). -/
  | rcFieldRead (at_ : Nat) (fn : Fn) (bar off size : Nat)
  /-- FLIT_BOUNDARY: the transmitter of a link sends its next flit (R306). -/
  | flitBoundary (link : Nat)
  /-- HOST_LINK_TRAINED: a host port's link trains or its PF returns to D0; `vfs` are the VFs that SR-IOV enables (R353). -/
  | hostLinkTrained (port rate lanes : Nat) (flitMode : Bool) (vfs : List Nat)
  /-- RFM_REQUEST: the dies ask for a refresh management command (R110). -/
  | rfmRequest (k bank : Nat)
  deriving DecidableEq, Repr

end Sys2Proof
end

