-- ==== Sys2Proof/Decode.lean ====
section
/-! DEFINITION. Sys2Proof/Decode.lean: commands by the opcode table's bits. -/

namespace Sys2Proof

/-- The command that a word spells by the table's bits. The opcode table gives no row any bits: the commands are events,
messages and register accesses, so no word spells one. -/
def decodeTableWord (_nbits _w : Nat) : Option Instr := none

end Sys2Proof
end

