-- ==== Sys2Proof/Machine/Codec.lean ====
section
/-! DEFINITION. Sys2Proof/Machine/Codec.lean: lossless coding (spec/04): table records, the decoding procedure of R89 with
the errors of Table 4.3, the encoder of R92 to R94. -/

namespace Sys2Proof.Machine

/-! ### Tables (R88, R89) -/

/-- One slot of a decode table: the symbol, the bits to read and the base of the next state. -/
structure TansSlot where
  sym : Nat
  nb : Nat
  base : Nat
  deriving DecidableEq, Repr

/-- The symbol of each slot: slot (2563 × k) mod 4096 takes the k-th symbol of the counts laid end to end. -/
def tansSymbols (counts : List Nat) : Array Nat :=
  let fill := ((List.range 256).zip counts).flatMap fun (s, n) => List.replicate n s
  ((List.range 4096).zip fill).foldl (fun a (k, s) => a.set! (k * 2563 % 4096) s) (Array.replicate 4096 0)

/-- The decode table of a table record's counts (R89). -/
def tansTable (counts : List Nat) : Array TansSlot :=
  let syms := tansSymbols counts
  let step := fun (acc : Array Nat × Array TansSlot) (u : Nat) =>
    let s := syms.getD u 0
    let xp := acc.1.getD s 0
    let nb := 12 - Nat.log2 xp
    (acc.1.set! s (xp + 1), acc.2.push { sym := s, nb := nb, base := xp * 2 ^ nb - 4096 })
  ((List.range 4096).foldl step (counts.toArray, #[])).2

/-! ### Decoding (R89, R90) -/

/-- Why a block does not decode, as Table 4.3 lists it: the row, numbered from 1 (Table 18.3). -/
inductive DecodeError where
  | flags | lengths | tables | substream | object
  deriving DecidableEq, Repr

/-- The row of Table 4.3. -/
def DecodeError.row : DecodeError → Nat
  | .flags => 1
  | .lengths => 2
  | .tables => 3
  | .substream => 4
  | .object => 5

/-- The bits of bytes, bit 7 of each byte first. -/
def bitsMsb (bs : List Byte) : List Bool := bs.flatMap fun b => (List.range 8).map fun i => b.getLsbD (7 - i)

/-- Bits as a number, the first the most significant. -/
def ofBitsMsb (bs : List Bool) : Nat := bs.foldl (fun n b => 2 * n + b2n b) 0

/-- Decode `n` symbols of a substream from a state: the bytes, the bits left and the final state, or none when a read passes
the end. -/
def decodeSub (table : Array TansSlot) : Nat → Nat → List Bool → Option (List Byte × List Bool × Nat)
  | 0, x, bits => some ([], bits, x)
  | n + 1, x, bits =>
    let e := table.getD x { sym := 0, nb := 0, base := 0 }
    if bits.length < e.nb then none
    else
      (decodeSub table n (e.base + ofBitsMsb (bits.take e.nb)) (bits.drop e.nb)).map fun (out, rest, y) =>
        (BitVec.ofNat 8 e.sym :: out, rest, y)

/-- The bytes of a block of `len` bytes that belong to substream j. -/
def subCount (len j : Nat) : Nat := (len + 15 - j) / 16

/-- Interleave sixteen substreams into the block's bytes. -/
def interleave (len : Nat) (subs : List (List Byte)) : List Byte :=
  (List.range len).map fun i => ((subs.getD (i % 16) []).getD (i / 16) 0)

/-- A header of a coded block (Table 4.2). -/
structure BlockHeader where
  codedLen : Nat
  raw : Bool
  lead : Bool
  last : Bool
  tables : Nat
  decodedLen : Nat
  tableBytes : Nat
  starts : List Nat
  subLens : List Nat
  deriving DecidableEq, Repr

/-- A little-endian field of a byte list. -/
def leField (bs : List Byte) (i n : Nat) : Nat := leValue ((bs.drop i).take n)

/-- Read a block header. -/
def BlockHeader.ofBytes (bs : List Byte) : BlockHeader :=
  let flags := leField bs 2 1
  { codedLen := leField bs 0 2, raw := flags.testBit 0, lead := flags.testBit 1, last := flags.testBit 2,
    tables := bitsOf flags 3 2, decodedLen := leField bs 4 2, tableBytes := leField bs 6 2,
    starts := (List.range 16).map fun j => bitsOf (leField bs 8 24) (12 * j) 12,
    subLens := (List.range 16).map fun j => leField bs (32 + 2 * j) 2 }

/-- The number of tables that a TABLES code names. -/
def tableCount (code : Nat) : Nat := 2 ^ code

/-- The span of a block: header, tables and data, to a multiple of 64 (R86). -/
def BlockHeader.span (h : BlockHeader) : Nat := ceilDiv (64 + h.tableBytes + h.codedLen) 64 * 64

/-- The FLAGS and length checks of Table 4.3 on a block that is the `first` of its object or not, under the lead block's
TABLES code. -/
def BlockHeader.check (h : BlockHeader) (first : Bool) (tables : Nat) : Option DecodeError :=
  if h.tables = 3 ∨ h.tables ≠ tables ∨ h.lead ≠ first then some .flags
  else if h.decodedLen = 0 ∨ h.decodedLen > 4096 ∨ (h.decodedLen < 4096 ∧ h.last = false) ∨
      (if h.raw then h.codedLen ≠ h.decodedLen else h.codedLen = 0 ∨ h.codedLen ≥ h.decodedLen) ∨
      (h.raw = false ∧ h.subLens.sum ≠ h.codedLen) ∨
      h.tableBytes ≠ (if h.lead then 512 * tableCount h.tables else 0) then some .lengths
  else none

/-- Decode one substream with its checks (Table 4.3). -/
def decodeSubChecked (table : Array TansSlot) (n start : Nat) (bs : List Byte) : Except DecodeError (List Byte) :=
  if n = 0 then (if bs = [] ∧ start = 0 then .ok [] else .error .substream)
  else
    match decodeSub table n start (bitsMsb bs) with
    | some (out, rest, x) => if x = 0 ∧ rest.length < 8 ∧ rest.all (!·) = true then .ok out else .error .substream
    | none => .error .substream

/-- Decode the substreams of a block, j from 0. -/
def decodeSubs (tables : List (Array TansSlot)) (h : BlockHeader) (data : List Byte) : List Nat → Except DecodeError (List (List Byte))
  | [] => .ok []
  | j :: js =>
    let from_ := (h.subLens.take j).sum
    let bs := (data.drop from_).take (h.subLens.getD j 0)
    match decodeSubChecked (tables.getD (j % tables.length) #[]) (subCount h.decodedLen j) (h.starts.getD j 0) bs with
    | .error e => .error e
    | .ok out =>
      match decodeSubs tables h data js with
      | .error e => .error e
      | .ok rest => .ok (out :: rest)

/-- The tables of a lead block's records; each must sum to 4,096. -/
def readTables (bs : List Byte) (n : Nat) : Except DecodeError (List (List Nat)) :=
  let recs := (List.range n).map fun t => (List.range 256).map fun s => leField bs (512 * t + 2 * s) 2
  if recs.all fun r => r.sum == 4096 then .ok recs else .error .tables

/-- Decode a coded object block by block until LAST: its bytes and its span. `fuel` bounds the number of blocks. -/
def decodeBlocks (tables : List (Array TansSlot)) (code : Nat) (first : Bool) : Nat → List Byte → Except DecodeError (List Byte × Nat)
  | 0, _ => .error .object
  | fuel + 1, bs =>
    let h := BlockHeader.ofBytes bs
    let code := if first then h.tables else code
    match if bs.length < 64 then some .object else h.check first code with
    | some e => .error e
    | none =>
      if bs.length < h.span then .error .object
      else
        let recs := if first then readTables (bs.drop 64) (tableCount code) else .ok []
        match recs with
        | .error e => .error e
        | .ok rs =>
          let tables := if first then rs.map tansTable else tables
          let data := (bs.drop (64 + h.tableBytes)).take h.codedLen
          let out : Except DecodeError (List Byte) :=
            if h.raw then .ok data
            else match decodeSubs tables h data (List.range 16) with
              | .error e => .error e
              | .ok subs => .ok (interleave h.decodedLen subs)
          match out with
          | .error e => .error e
          | .ok out =>
            if h.last then .ok (out, h.span)
            else
              match decodeBlocks tables code false fuel (bs.drop h.span) with
              | .error e => .error e
              | .ok (rest, n) => .ok (out ++ rest, h.span + n)

/-- Expand a coded object (R84, R89, R90): its decoded bytes and its span. -/
def decodeObject (bs : List Byte) : Except DecodeError (List Byte × Nat) := decodeBlocks [] 0 true (bs.length / 64 + 1) bs

/-- Expand a coded object that must hold at least `need` bytes and begins the bytes given. -/
def expand (bs : List Byte) (need : Nat) : Except DecodeError (List Byte) :=
  match decodeObject bs with
  | .error e => .error e
  | .ok (out, _) => if out.length < need then .error .object else .ok out

/-- Expand a coded object that is the whole of the bytes given, a payload or a page's span: a block that follows the one with
LAST set fails (Table 4.3, R86). -/
def expandAll (bs : List Byte) (need : Nat) : Except DecodeError (List Byte) :=
  match decodeObject bs with
  | .error e => .error e
  | .ok (out, n) => if n < bs.length then .error .flags else if out.length < need then .error .object else .ok out

/-! ### Encoding (R92 to R94) -/

/-- The index of the largest value among those that pass a test, the lowest on ties. -/
def argMax (test : Nat → Bool) (f : Nat → Nat) : Nat :=
  ((List.range 256).foldl (fun (best : Option Nat) s =>
    if test s then
      match best with
      | some b => if f s > f b then some s else best
      | none => some s
    else best) none).getD 0

/-- Take one from the largest counts until they sum to 4,096 (R92). -/
def trimCounts : Nat → List Nat → List Nat
  | 0, c => c
  | n + 1, c => trimCounts n (c.modify (argMax (fun s => c.getD s 0 > 1) fun s => c.getD s 0) (· - 1))

/-- The normalised counts of a histogram (R92). -/
def normalise (h : List Nat) : List Nat :=
  let n := h.sum
  if n = 0 then (List.range 256).map fun s => if s = 0 then 4096 else 0
  else
    let c := h.map fun x => if x = 0 then 0 else max 1 ((x * 4096 + n / 2) / n)
    if c.sum > 4096 then trimCounts (c.sum - 4096) c
    else c.modify (argMax (fun _ => true) fun s => h.getD s 0) (· + (4096 - c.sum))

/-- The histogram of an object's bytes at offsets i with i mod T = t. -/
def histogram (bs : List Byte) (T t : Nat) : List Nat :=
  (((List.range bs.length).zip bs).foldl (fun (a : Array Nat) x => if x.1 % T = t then a.modify x.2.toNat (· + 1) else a)
    (Array.replicate 256 0)).toList

/-- The slots of each symbol of a table, in the order in which its states xp count up. -/
def slotsBySymbol (table : Array TansSlot) : Array (Array Nat) :=
  (List.range 4096).foldl (fun a u =>
    let s := (table.getD u { sym := 0, nb := 0, base := 0 }).sym
    a.modify s (·.push u)) (Array.replicate 256 #[])

/-- The slot that decodes a symbol and leads to state x: the one whose range of next states holds x, and the bits it reads. -/
def slotBefore (table : Array TansSlot) (slots : Array Nat) (x : Nat) : Option (Nat × Nat × Nat) :=
  (slots.toList.find? fun u =>
    let e := table.getD u { sym := 0, nb := 0, base := 0 }
    decide (e.base ≤ x) && decide (x < e.base + 2 ^ e.nb)).map fun u =>
      let e := table.getD u { sym := 0, nb := 0, base := 0 }
      (u, x - e.base, e.nb)

/-- A number as `n` bits, the most significant first. -/
def toBitsMsb (v n : Nat) : List Bool := (List.range n).map fun i => v.testBit (n - 1 - i)

/-- Code a substream's bytes: from state 0 backwards, so that a decoder returns to state 0 (R89). None when a byte's count
is zero. -/
def encodeSub (table : Array TansSlot) (slots : Array (Array Nat)) : List Byte → Option (Nat × List Bool)
  | [] => some (0, [])
  | b :: bs =>
    match encodeSub table slots bs with
    | none => none
    | some (x, bits) =>
      (slotBefore table (slots.getD b.toNat #[]) x).map fun (u, v, n) => (u, toBitsMsb v n ++ bits)

/-- Eight bits at a time as bytes, the first bit the highest; the unread bits at the end are 0 (R93). -/
def packBits : Nat → List Bool → List Byte
  | 0, _ => []
  | n + 1, bits =>
    if bits.isEmpty then []
    else BitVec.ofNat 8 (ofBitsMsb ((bits.take 8) ++ List.replicate (8 - min 8 bits.length) false)) :: packBits n (bits.drop 8)

/-- The substream bytes j of a block. -/
def subBytes (bs : List Byte) (j : Nat) : List Byte :=
  ((List.range bs.length).zip bs).filterMap fun x => if x.1 % 16 = j then some x.2 else none

/-- Pad to a multiple of 64 bytes. -/
def pad64 (bs : List Byte) : List Byte := bs ++ List.replicate (ceilDiv bs.length 64 * 64 - bs.length) 0

/-- Code one block (R86, R94): `tables` with their slots; raw when coding gains nothing, when a byte has no count, or
when no bit would be coded, which Table 4.2 has no CODED_LEN for (log entry 23). -/
def encodeBlock (code : Nat) (tables : List (Array TansSlot × Array (Array Nat))) (records : List Byte) (first last : Bool)
    (bs : List Byte) : List Byte :=
  let subs := (List.range 16).map fun j =>
    match tables.getD (j % tables.length) (#[], #[]) with
    | (t, s) => (encodeSub t s (subBytes bs j)).map fun (x, bits) => (x, packBits (bits.length / 8 + 1) bits)
  let coded := subs.filterMap id
  let len := (coded.map fun x => x.2.length).sum
  let flags := 2 * b2n first + 4 * b2n last + 8 * code
  let tb := if first then records.length else 0
  let records := if first then records else []
  if coded.length < 16 ∨ len = 0 ∨ len ≥ bs.length then
    pad64 (pack [(2, bs.length), (1, flags + 1), (1, 0), (2, bs.length), (2, tb), (24, 0), (32, 0)] ++ records ++ bs)
  else
    let starts := ((List.range 16).zip coded).foldl (fun n x => n + x.2.1 * 2 ^ (12 * x.1)) 0
    pad64 (pack ([(2, len), (1, flags), (1, 0), (2, bs.length), (2, tb), (24, starts)] ++ coded.map fun x => (2, x.2.length)) ++
      records ++ coded.flatMap (·.2))

/-- The blocks of an object of `n` decoded blocks. -/
def encodeBlocks (code : Nat) (tables : List (Array TansSlot × Array (Array Nat))) (records : List Byte) :
    Nat → Bool → List Byte → List Byte
  | 0, _, _ => []
  | n + 1, first, bs =>
    encodeBlock code tables records first (n == 0) (bs.take 4096) ++ encodeBlocks code tables records n false (bs.drop 4096)

/-- Code bytes under T = 2^code tables (R92, R93): the coded object, or none when it would not be smaller (R94). `seen` is what the
counting pass read where the source has changed since: a byte that it has not counted makes its block raw (R95). Anything of another
length says that the passes read the same. -/
def encodePasses (code : Nat) (seen bs : List Byte) : Option (List Byte) :=
  let T := tableCount code
  let counted := if seen.length = bs.length then seen else bs
  let counts := (List.range T).map fun t => normalise (histogram counted T t)
  let tables := counts.map fun c => let t := tansTable c; (t, slotsBySymbol t)
  let records := counts.flatMap fun c => c.flatMap fun n => leBytes 2 n
  let out := encodeBlocks code tables records (ceilDiv bs.length 4096) true bs
  if bs = [] ∨ out.length > ceilDiv bs.length 64 * 64 then none else some out

/-- Code bytes that do not change between the passes. -/
def encodeObject (code : Nat) (bs : List Byte) : Option (List Byte) := encodePasses code bs bs

end Sys2Proof.Machine
end

