-- ==== Sys2Proof/Config.lean ====
section
/-! DEFINITION. Sys2Proof/Config.lean: the free values. Each is a constant without a body: nothing can evaluate it or
prove a value of it, so a statement holds whatever it is. Each is named in a log entry. What an implementation fixes
and a test must be able to set (the variant, the stepping, the fuses) is plain data in State (`Part`). -/

namespace Sys2Proof.Config

/-- A fresh 64-bit value the spec leaves open, drawn by the running count of draws (log entry 3). -/
opaque freeValue : Nat → BitVec 64

/-- A fresh byte that the spec leaves open: the left-over contents of memory that the reader may not rely on
(R120, Table 5.5), by the count of draws and the address (log entry 4). -/
opaque freeByte : Nat → Nat → BitVec 8

/-- The result of a transcendental unit for an operand bit pattern; the model takes it where the bounds of Table 3.3 allow it
(R57, log entry 5). The first argument is the function's code. -/
opaque transcendental : Nat → BitVec 32 → BitVec 32

/-- The result m × 2^e of a sum that the hardware forms in an order the spec leaves open (R63), by the running count of
draws; the model takes it where the bound of R64 allows it (log entry 6). -/
opaque freeSum : Nat → Int × Int

/-- The bits of a result that the spec names without giving its bits (a NaN's payload, the pattern of a true comparison, the
left-over of a buffer), by a code of what it is and the operand patterns (log entry 31). -/
opaque openResult : Nat → List Nat → BitVec 32

/-- SHA-384 of a byte string, 48 bytes (FIPS 180-4; the spec names the standard and does not state it; log entry 7). -/
opaque sha384 : List Byte → BitVec 384

/-- HMAC or KDF output under SHA-384 as the spec's labels name it (log entry 7). -/
opaque kdf : List Byte → List Byte → BitVec 512

/-- An ECDSA signature on brainpoolP384r1 with SHA-384 (r and s, 96 bytes), by what names the private key and over a message (R397;
log entry 7). -/
opaque ecdsaSign : List Byte → List Byte → BitVec 768

/-- AES-256-XTS encryption of a data unit as IEEE 1619 defines it, under a key pair and a tweak (R119; log entry 7). -/
opaque xtsEncrypt : List Byte → Nat → List Byte → List Byte

/-- AES-256-XTS decryption of a data unit under a key pair and a tweak (R119; log entry 7). -/
opaque xtsDecrypt : List Byte → Nat → List Byte → List Byte

/-- AES-256-GCM tag and ciphertext of a plaintext under a key, nonce and header (log entry 7). -/
opaque gcmSeal : List Byte → List Byte → List Byte → List Byte → List Byte

/-- The plaintext of an AES-256-GCM ciphertext, or none when its tag fails (log entry 7). -/
opaque gcmOpen : List Byte → List Byte → List Byte → List Byte → Option (List Byte)

/-- The x coordinate of an ECDH point, by what names the private key and by the public key (log entry 7). -/
opaque ecdhX : List Byte → List Byte → BitVec 384

/-- The public key that goes with a private key, 97 bytes, by what names the private key (log entry 7). -/
opaque publicKey : List Byte → BitVec 776

/-- AES Key Wrap (RFC 3394) of a 256-bit key, 40 bytes (log entry 7). -/
opaque keyWrap : List Byte → List Byte → BitVec 320

/-- The key that AES Key Wrap output holds, none when its integrity check fails (log entry 7). -/
opaque keyUnwrap : List Byte → List Byte → Option (BitVec 256)

/-- Whether an ECDSA signature (r and s, 96 bytes) on brainpoolP384r1 with SHA-384 verifies, by the public key, the message and the
signature (R397, R399; log entry 7). -/
opaque ecdsaVerify : List Byte → List Byte → List Byte → Bool

/-- The root fuse of a part, SHA-384 of a root public key, for a purpose named by its USAGE (Table 17.1: 2 FW_ROOT, 3 CFG_ROOT,
4 MTR_ROOT; log entry 35). -/
opaque rootFuse : Nat → Nat → BitVec 384

/-- SERIAL of a certificate that a part was made with (R398, R403; log entry 35). -/
opaque certSerial : Nat → Nat → BitVec 64

/-- How many CA certificates a part was made with; at most two count (R403; log entry 35). -/
opaque caCount : Nat → Nat

/-- An image that the configuration flash holds at State.reset: 0 firmware, 1 metergate (log entry 35). -/
opaque factoryImage : Nat → List Byte

/-- A number from the device's random source, by the count of draws (log entry 8). -/
opaque random : Nat → BitVec 256

/-- The CRC-64 of a 4 KiB unit: the spec names the ECMA-182 polynomial and neither the initial value nor the bit order (log
entry 9). -/
opaque crc64 : List Byte → BitVec 64

/-- The CRC-32 that the sentinel ROM holds for a test (R436): the spec does not give the ROM's contents (log entry 37). -/
opaque sentinelCrc : Nat → BitVec 32

end Sys2Proof.Config
end

