-- ==== Sys2Proof/Machine/State.lean ====
section
/-! DEFINITION. Sys2Proof/Machine/State.lean: everything the spec gives the machine to hold, as plain data, and the
state right after reset. Registers are one map from register copies to their values (Machine/Regs.lean names each);
the rest stands here unit by unit. Large tables are maps in one canonical form (`SMap`). -/

namespace Sys2Proof.Machine

/-- A sparse table: pairs of key and value, keys strictly rising, no value equal to the table's default. -/
abbrev SMap (α : Type) := List (Nat × α)

/-- Why a command has no meaning. -/
inductive Refusal where
  /-- Raised by a dispatch arm that has no meaning yet, with the command's mnemonic (safe: nothing runs). -/
  | notModelled (mnemonic : String)
  deriving DecidableEq, Repr

/-- The block never stops on a command: the spec gives each an effect, an error record, or none (log entry 2).
The type has no constructor. -/
inductive Fault where
  deriving DecidableEq, Repr

/-- What the part fixes at manufacture: the variant, the stepping, the fused cores (R1, R12, R80), the device's
identifier and its one-time fuses (R399, R400, R405, R416). Log entry 10. -/
structure Part where
  isL : Bool := false
  stepping : Nat := 0
  fusedCores : List Nat := []
  uid : Nat := 0
  deriving DecidableEq, Repr

/-- What leaves the device: host accesses, interrupts, flits, packets, NVMe commands and pins, oldest last. -/
inductive Out where
  /-- A posted write to host memory through a function. -/
  | hostWrite (fn : Fn) (addr : Nat) (bytes : List Byte)
  /-- A read request to host memory through a function, started. -/
  | hostRead (fn : Fn) (addr : Nat) (bytes : Nat)
  /-- An MSI-X interrupt of a function. -/
  | msix (fn : Fn) (vector : Nat)
  /-- The 256 bytes of a flit sent on a link. -/
  | flit (link : Nat) (bytes : List Byte)
  /-- A command submitted to a drive: root port, queue 0 the admin queue, opcode, namespace, first LBA, LBAs, tag. -/
  | nvme (port queue opcode nsid lba count tag : Nat)
  | nvmeEntry (port tag : Nat) (entry : List Byte)
  /-- What a drive is given to write, by root port and command: the encrypted units and their CRC-64s (R119, R363, R364). -/
  | flashData (port tag : Nat) (bytes crcs : List Byte)
  /-- A DRAM command class issued on a reservoir channel (R151, R110, R120, R122): 1 REFpb, 2 RFM, 3 Write X, 4 burst read,
  6 all-bank refresh, 7 self-refresh entry, 8 self-refresh exit, 9 precharge of all banks. -/
  | dram (channel cmd bank addr : Nat)
  /-- A burst written to a reservoir channel (R110, R112): its address, the 64 bytes as the dies store them, and the 16 parity bits on
  the DMI lanes. -/
  | burst (channel addr : Nat) (bytes : List Byte) (parity : Nat)
  /-- An answer to a controller-initiated request (R365): granted, with what it reads, or Unsupported Request. -/
  | dmaAnswer (port : Nat) (ok : Bool) (bytes : List Byte)
  /-- What a register read returns: the port it came through, the BAR and offset, and the bytes. -/
  | readReturn (fn : Fn) (bar off : Nat) (bytes : List Byte)
  /-- A pulse on TURN_OUT of 200 ns from the given time (R28). -/
  | turnOut (start : Nat)
  deriving DecidableEq, Repr

/-- What an error record (Table 18.2) says beyond what the error unit itself adds. -/
structure ErrRec where
  cause : Nat
  severity : Nat
  status : Nat := 0
  replays : Nat := 0
  persistent : Bool := false
  unitKind : Nat := 0
  unit : Nat := 0
  owner : Nat := 0xFFFF
  jst : Nat := 0xFFFFFF
  slot : Nat := 0xFFFF
  node : Nat := 0xFFFF
  furrow : Nat := 0xFFFFFFFF
  pcDesc : Nat := 0
  address : Nat := 0
  detail : List (Nat × Nat) := []
  deriving DecidableEq, Repr

/-- A ladder step that runs (R427): the step, the kind and index of its domain as ERR_RESET_CMD numbers them (for a unit
domain, which of Table 18.5), and what started it (1 driver, 2 ladder, 3 rider, 4 watchdog). -/
structure Ladder where
  step : Nat
  kind : Nat
  domain : Nat := 0
  index : Nat
  cause : Nat
  deriving DecidableEq, Repr

/-- A fingerprint (Table 18.7): its turn and tag, the token, LOGIT8 as a byte, and the hash. -/
structure Print where
  turn : Nat
  jst : Nat
  token : Nat
  logit : Nat
  hash : Nat
  deriving DecidableEq, Repr

/-- The error unit and the reset controller (spec/18): the records of this turn by cause and unit (R426), the record
number, the running ladder step (R427), the dump held (R432), the watchdog (R430), the push in progress (R433), the
shadow's own and received fingerprints (R441); and the failures of each core's sentinel tests by bin (R438; key 32 × the copy of
ERR_SENT_CORE + bin). -/
structure ErrState where
  seq : Nat := 0
  turnCounts : List (Nat × Nat × Nat × Nat) := []
  dumpHeld : Bool := false
  running : List Ladder := []
  riderWaiting : Bool := false
  pushing : Bool := false
  pushSwitch : Bool := false
  diffThisTurn : Bool := false
  lastTurns : List (List Byte) := []
  own : List Print := []
  got : List Print := []
  sentBins : SMap Nat := []
  deriving DecidableEq, Repr

/-- A message that waits to leave: its packets queue at the weirs (R341) until each joins a link. -/
structure TxPacket where
  pkt : Packet
  own : Bool := true
  heldUntil : Option Nat := none
  clear : List Byte := []
  waitedClass : Bool := false
  waitedOwner : Bool := false
  deriving DecidableEq, Repr

/-- A link's transmitter and receiver (R305 to R309, R335) beside its registers. A kept flit carries its sequence
number and how often it has been sent. -/
structure Link where
  txSeq : Nat := 0
  replay : List (Nat × Flit) := []
  resend : List (Nat × Flit) := []
  turnSeq : Nat := 0
  turnReplay : List (Nat × Flit) := []
  turnResend : List (Nat × Flit) := []
  rxAck : Nat := 0
  rxTack : Nat := 0
  nak : Bool := false
  discarding : Bool := false
  credits : List Nat := [0, 0, 0, 0, 0, 0, 0]
  freed : List Nat := [0, 0, 0, 0, 0, 0, 0]
  peerSeen : Bool := false
  sentSeen : Bool := false
  lastParam : List Byte := []
  paramWait : Nat := 0
  queue : List TxPacket := []
  turnQueue : List (List Byte) := []
  sending : List Byte := []
  sendingTc : Nat := 0
  sendingSop : Bool := false
  deficit : List Nat := [0, 0, 0, 0, 0, 0, 0]
  rx : List Byte := []
  since : Nat := 0
  outFlits : Nat := 0
  inFlits : Nat := 0
  deriving DecidableEq, Repr

/-- A reassembly context (R318). -/
structure RxCtx where
  src : Nat
  msgId : Nat
  engine : Nat
  total : Nat
  received : Nat := 0
  bitmap : Nat := 0
  admitted : Bool := true
  hdr : OpHdr
  tc : Nat := 3
  sameJob : Bool := true
  keep : Bool := false
  data : SMap (List Byte) := []
  deriving DecidableEq, Repr

/-- The fabric ports (spec/13). -/
structure FabState where
  links : SMap Link := []
  cfgLive : SMap Word := []
  ctxs : List RxCtx := []
  arrived : List (Nat × Packet) := []
  msgId : Nat := 0
  deriving DecidableEq, Repr

/-- One routing map bank (R327): its epoch, its route sets (link masks) and its map entries by node. -/
structure MapBank where
  epoch : Nat := 0
  sets : SMap Nat := []
  entries : SMap Nat := []
  deriving DecidableEq, Repr

/-- Routing, the headgate's ring and the weirs (spec/14). Weir levels are signed. -/
structure RouteState where
  bank0 : MapBank := {}
  bank1 : MapBank := {}
  retainedStarts : Nat := 0
  wait : List TxPacket := []
  rr : SMap Nat := []
  notices : List (Nat × Nat × Nat) := []
  dead : List Nat := []
  dropLive : Bool := false
  classLevel : SMap Int := []
  ownerLevel : SMap Int := []
  deriving DecidableEq, Repr

/-- A host queue beside its registers (R354, R357): the index after its last valid entry, the completion records
consumed and reserved, and whether results were written at this boundary. -/
structure HostQ where
  tail : Nat := 0
  consumed : Nat := 0
  reserved : Nat := 0
  written : Nat := 0
  signal : Bool := false
  deriving DecidableEq, Repr

/-- What an outstanding NVMe command serves: `page` a flash read of the device's own (R182, R270). -/
inductive NvmeKind where
  | read | write | trim | admin | abort | setup | page
  deriving DecidableEq, Repr

/-- An NVMe command outstanding on a root port: what it serves (an engine and a context, or the number of a flash read of the device's own),
its namespace, its LBAs and the owner slot their keys are found by, its place in the transfer, its DMA windows (base and length), when its
doorbell was written, and how often a unit that failed its CRC-64 has been read again (R113, R114). -/
structure NvmeCmd where
  port : Nat
  id : Nat
  kind : NvmeKind
  queue : Nat := 1
  eng : Nat := 0
  ctx : Nat := 0
  nsid : Nat := 0
  owner : Nat := 0
  lba : Nat := 0
  count : Nat := 0
  offset : Nat := 0
  replays : Nat := 0
  opcode : Nat := 0
  windows : List (Nat × Nat) := []
  at_ : Nat := 0
  deriving DecidableEq, Repr

/-- The host ports, the host queues and the NVMe root ports (spec/15) beside their registers. `writer` gives the port that
wrote a ring's base, plus 1; `vfEnabled` the enabled VFs as 32 × port + VF; `msix` the MSI-X tables, by their 32-bit words (R348; log
entry 157). -/
structure HostState where
  leaseFrom : Nat := 0
  vfEnabled : List Nat := []
  qs : SMap HostQ := []
  writer : SMap Nat := []
  nvme : List NvmeCmd := []
  nvmeNext : SMap Nat := []
  spaces : SMap (List Namespace) := []
  trimOk : List Nat := []
  initQueues : SMap Nat := []
  readSeen : List Nat := []
  adminPort : Nat := 0
  msix : SMap Nat := []
  deriving DecidableEq, Repr

/-- One rota bank (R43). -/
structure RotaBank where
  turn : Nat := 0
  complete : Bool := false
  entries : List RotaEntry := []
  deriving DecidableEq, Repr

/-- How far an admitted entry has come (R44). -/
inductive EntryState where
  | running | finished | stopped | late
  deriving DecidableEq, Repr

/-- An admitted entry: where it stood in the rota, its cost, the plots on which it has still to end, and what the turn
has made of it. -/
structure Admitted where
  e : RotaEntry
  index : Nat
  cost : Nat
  tokens : Nat := 0
  pages : Nat := 0
  plotsLeft : BitVec 64
  state : EntryState := .running
  wait : Bool := false
  degraded : Bool := false
  deriving DecidableEq, Repr

/-- A turn start that a marker, a tick or an edge has made due (R25 to R28): the turn, the moment, whether it admits, with which
reasons its SEAL fails, and whether it sends a SEAL. -/
structure DueStart where
  turn : Nat
  at_ : Nat
  admits : Bool
  fails : List Nat := []
  seals : Bool := true
  deriving DecidableEq, Repr

/-- The turn unit (spec/02) beside its registers. `started`: a turn has started since ENABLE; `live`: a turn has started and not
ended; its start, its period in µs and the expected time of the next; under PIN the edge that waits for its marker and the marker
that came before its edge; the start that is due, and whether the effects before the commands of its boundary have been applied;
whether a TURN_COMMIT has been applied since IDLE was last entered (R53); a LEAVE that waits. Of the seal: whether the turn sends
one, the device's own reasons and tags, the children's SEALs, the children whose links failed (R47), whether it has left, the failure
that R422 carries over, the seal root's decision (true: COMMIT), the verdict (1 COMMIT, 2 ABORT, 3 local abort), the turns aborted
locally (R49). Of the rota: the banks, which serves, the fetch (count, turn, function), the entries not yet examined and those
admitted, the charged time of each plot, the windows and screen time taken, and the counts of Table 2.23. Of the free-running timer of
R28: when it last started, up to when its ticks have been taken or have passed, and a tick that fell due before it restarted. -/
structure TurnState where
  started : Bool := false
  live : Bool := false
  start : Nat := 0
  period : Nat := 0
  expected : Nat := 0
  startEdge : Option Nat := none
  pinMarker : Option MarkerMsg := none
  due : Option DueStart := none
  prelude : Bool := false
  applied : Bool := false
  leaving : Bool := false
  lastCommit : Nat := 0
  admits : Bool := false
  seals : Bool := false
  fails : List Nat := []
  tags : List (Nat × Nat) := []
  heard : List (Nat × SealMsg) := []
  linkDown : List Nat := []
  sealSent : Bool := false
  carry : Bool := false
  decided : Option (Bool × SealMsg) := none
  verdict : Nat := 0
  lost : List Nat := []
  bankA : RotaBank := {}
  bankB : RotaBank := {}
  serveB : Bool := false
  fetch : Option (Nat × Nat × Fn) := none
  unexamined : List (Nat × RotaEntry) := []
  admitted : List Admitted := []
  used : SMap Nat := []
  pimUsed : Nat := 0
  scrUsed : Nat := 0
  deferred : Nat := 0
  skipped : Nat := 0
  idleFrom : Nat := 0
  idleSeen : Nat := 0
  idleOwed : Option Nat := none
  deriving DecidableEq, Repr

/-- The memory tiers beside their bytes (spec/05): the stacks in self-refresh (R107), the frame owner entries of reservoir frames (by frame
index over the whole reservoir) and of flash frames, the frames freed while an access to them waits or is in flight, whose VALID clears
after it (R117), the key each 64-byte reservoir unit was last written under (0: none, or the plaintext of a score region; 2: no key;
otherwise the owner key plus 3), the frames taken from each pool, and the rotation of R123. -/
structure MemState where
  selfRefresh : List Nat := []
  owners : SMap Nat := []
  flashOwners : SMap Nat := []
  leaving : List Nat := []
  leavingFlash : List Nat := []
  unitKey : SMap Nat := []
  hwTaken : SMap Bool := []
  resRotor : Nat := 0
  flashRotor : Nat := 0
  deriving DecidableEq, Repr

/-- What a core waits for (R70). -/
inductive CoreWait where
  | none
  | remote (eng ctx : Nat)
  | xwait
  | xput
  | barrier
  | recv (src : Nat)
  | placement
  deriving DecidableEq, Repr

/-- One core (Table 3.1): its registers, accumulators and stationary buffer, the entry it runs, its counter and its
wait, the number of its run of an entry, that entry's unanswered puts and all of the core's, its unplaced appends, and what mesh
transfers have brought it. -/
structure Core where
  entry : Option Nat := none
  nextEntry : Nat := 0
  pc : Nat := 0
  s : SMap Nat := []
  v : SMap Nat := []
  t : SMap Nat := []
  acc : SMap Nat := []
  accInt : Bool := false
  stat : SMap Nat := []
  statScale : SMap Nat := []
  statFmt : Nat := 0
  statLanes : Nat := 0
  statLen : Nat := 0
  attnM : SMap Nat := []
  attnL : SMap Nat := []
  attnO : SMap Nat := []
  wait : CoreWait := .none
  run : Nat := 0
  xputs : Nat := 0
  unanswered : Nat := 0
  appends : Nat := 0
  inbox : List (Nat × Nat × List Nat) := []
  gap : Nat := 0
  deriving DecidableEq, Repr

/-- A program image as a plot has checked it (R68, R69): entry points with their code offset and allowed kinds. -/
structure PlotState where
  progOk : Bool := false
  entries : List (Nat × Nat) := []
  code : Nat := 0
  resetting : Bool := false
  busy : Nat := 0
  entriesRun : Nat := 0
  deriving DecidableEq, Repr

/-- What a furrow unit's descriptor does for a page: fetches it (R180), moves it (R184), or neither. -/
inductive PageWork where
  | none
  | fetch (page : Nat)
  | move (page : Nat)
  deriving DecidableEq, Repr

/-- Who issued a sluice descriptor (Table 11.1): a core with the number of its run, and the rota position and turn of that run's entry. -/
inductive Issuer where
  | hostQ (q index prog pos : Nat)
  | furrow (furrow : Nat) (work : PageWork)
  | core (plot core run entry turn : Nat)
  | handoff (furrow op : Nat)
  | screen (handle : Nat)
  | fingerprint
  deriving DecidableEq, Repr

/-- A transfer context (R246): its descriptor and issuer, and how far it has come. -/
structure SluCtx where
  eng : Nat
  id : Nat
  desc : Desc
  iss : Issuer
  fn : Fn
  started : Bool := false
  done : Bool := false
  late : Bool := false
  status : Nat := 0
  result : Nat := 0
  retries : Nat := 0
  abandoned : Bool := false
  payload : List Byte := []
  placed : Nat := 0
  msgsLeft : Nat := 0
  pending : Nat := 0
  watch : List Nat := []
  deriving DecidableEq, Repr

/-- A message that awaits its answer (R266). `code` is 1 + T's code of a payload that is to be coded for the fabric. -/
structure OutMsg where
  msgId : Nat
  eng : Nat
  ctx : Nat
  node : Nat
  cls : Nat
  hdr : OpHdr
  src : Nat := 0
  srcHost : Bool := false
  dst : Nat := 0
  len : Nat := 0
  data : List Byte := []
  code : Nat := 0
  attempt : Nat := 0
  retries : Nat := 0
  stale : Bool := false
  faults : Nat := 0
  faultWait : Bool := false
  waiting : Nat := 0
  status : Option Nat := none
  deriving DecidableEq, Repr

/-- A region entry (Table 11.5), with the port of the PF that registered a host region (R349). -/
structure Region where
  base : Nat := 0
  length : Nat := 0
  gen : Nat := 0
  secret : Nat := 0
  scopeNode : Nat := 0
  inFlight : Nat := 0
  owner : Nat := 0
  fn : Nat := 0
  host : Bool := false
  scope : Nat := 0
  odp : Bool := false
  perm : Nat := 0
  state : Nat := 0
  odpTable : Nat := 0
  port : Nat := 0
  deriving DecidableEq, Repr

/-- The remembered answer of a finished message (R267). -/
structure Finished where
  src : Nat
  msgId : Nat
  status : Nat
  old : Nat := 0
  atomic : Bool := false
  deriving DecidableEq, Repr

/-- What a flash read of the device's own is for: a page of an ODP region, by its table entry's address; the answer to a furrow read, of so
many bytes; or a page that the furrow unit reads for itself, by the number of that read. -/
inductive FlashUse where
  | odp (entryAddr : Nat)
  | serve (m : Msg) (n : Nat)
  | load (id : Nat)
  deriving DecidableEq, Repr

/-- A flash read of the device's own: its number, what it is for, its units so far, its commands outstanding, and the first status other
than OK. -/
structure FlashJob where
  id : Nat
  use : FlashUse
  units : SMap (List Byte) := []
  left : Nat := 0
  status : Nat := 0
  deriving DecidableEq, Repr

/-- A page of an ODP region that is being read from flash (R270): its table entry's address, its flash frame, the reservoir frame allocated
for it, and once the read has ended its status and its bytes. -/
structure OdpFetch where
  entryAddr : Nat
  flash : Nat
  frame : Nat
  ended : Option Nat := none
  data : List Byte := []
  deriving DecidableEq, Repr

/-- A read's or an atomic's response that has not left (R259): its message ID, the request, and whether a packet of it has been dropped. -/
structure Serving where
  resp : Nat
  m : Msg
  cut : Bool := false
  deriving DecidableEq, Repr

/-- The sluice engines (spec/11): contexts, messages out, regions, finished messages (R267), whole messages that wait for a page or a
channel (`held`; R130, R270), pages being read (R270), flash reads of the device's own and the number of the next, the programs of each queue and the lowest failed position of each, plus 1 (R251),
the flush of SLU_FLUSH (R265), the bytes not yet counted as MiB, messages that have arrived whole and wait for their engine (`inbox`) or
their unit (`delivered`), responses that have not left (R259), the messages placed of each put (R274), and internal descriptors that wait
for a context (R246). -/
structure SluState where
  ctxs : List SluCtx := []
  msgs : List OutMsg := []
  regions : SMap Region := []
  finished : List Finished := []
  held : List Msg := []
  odp : List OdpFetch := []
  jobs : List FlashJob := []
  nextJob : Nat := 0
  progs : SMap Nat := []
  progLen : SMap Nat := []
  progErr : SMap Nat := []
  flushWatch : List Nat := []
  flushStatus : Nat := 0
  sentBytes : SMap Nat := []
  recvBytes : SMap Nat := []
  inbox : List Msg := []
  delivered : List Msg := []
  serving : List Serving := []
  puts : List (Nat × Nat × Nat) := []
  waiting : List SluCtx := []
  deriving DecidableEq, Repr

/-- A page-table entry (Table 7.3). -/
structure Pte where
  tier : Nat := 0
  isOpen : Bool := false
  coded : Bool := false
  moving : Bool := false
  scored : Bool := false
  copy : Bool := false
  span : Nat := 0
  node : Nat := 0
  frame : Nat := 0
  lastUse : Nat := 0
  scCh : Nat := 0
  scFrame : Nat := 0
  scSlot : Nat := 0
  deriving DecidableEq, Repr

/-- A spillway move (R184): the page and its descriptor, its new place, the sluice context that writes it (engine and number), the
status with which that ended, and whether every write of it has completed, so that the next boundary switches it. -/
structure Move where
  page : Nat
  tier : Nat
  frame : Nat := 0
  node : Nat := 0
  desc : Nat := 0
  ctx : Option (Nat × Nat) := none
  ended : Option Nat := none
  done : Bool := false
  deriving DecidableEq, Repr

/-- A page fetch (R180, R181): the page, its furrow's descriptor, the headwater address of the copy, the reservoir frame it is read
from directly, the sluice context that brings it otherwise (engine and number), the status with which that ended and the bytes it has
brought, and whether a direct read that waited has been carried out. -/
structure Fetch where
  page : Nat
  desc : Nat
  addr : Nat
  src : Nat := 0
  ctx : Option (Nat × Nat) := none
  ended : Option Nat := none
  got : Nat := 0
  read : Bool := false
  deriving DecidableEq, Repr

/-- The selection and lists of an attending entry in the current turn (R170 to R175): its slot, whether its area is the
DRAFT one, its rota position, descriptor and owner, its candidates, the page indices listed, the sequence pages that have turned
missing, and what has happened to it. -/
structure Attend where
  slot : Nat
  draft : Bool
  entry : Nat
  desc : Nat
  a : Nat
  mode : Nat
  listAddr : Nat
  candFirst : Nat := 0
  candEnd : Nat := 0
  final : Bool := false
  previous : Bool := false
  degraded : Bool := false
  heldOut : Bool := false
  cut : Bool := false
  pages : List Nat := []
  lost : List Nat := []
  fallback : Bool := false
  plot : Nat := 0
  queried : Bool := false
  deriving DecidableEq, Repr

/-- A page that is being coded (R99, R167): its coded frame and span once the encoder has finished it. -/
structure Coding where
  page : Nat
  desc : Nat
  ready : Option (Nat × Nat) := none
  deriving DecidableEq, Repr

/-- A score form being built (R169): the page, its channel, score frame and page slot, and whether its SWRITE and its fence
have been served. -/
structure Build where
  page : Nat
  desc : Nat
  channel : Nat
  frame : Nat
  slot : Nat
  scratch : Nat
  written : Bool := false
  deriving DecidableEq, Repr

/-- A ranking under way (R172, R173, R177): its number; who asked: a slot's area of this device, or a remote requester with the
message to answer; its turn, descriptor and TOP; the channels whose fences are awaited; and what has fenced. -/
structure Ranking where
  id : Nat
  slot : Nat := 0
  draft : Bool := false
  requester : Option Nat := none
  msgId : Nat := 0
  turn : Nat
  desc : Nat
  top : Nat
  waiting : List Nat := []
  results : List (Nat × Nat) := []
  scored : Nat := 0
  partialOut : Bool := false
  deriving DecidableEq, Repr

/-- A page's stored form that the device reads for itself (R169, R188): its number, the page and its descriptor, the frame it is read from, its
span and whether it is coded, the offer or push whose manifest lists it (0: the index builder reads it), and the status and bytes with which that has ended. -/
structure PageLoad where
  id : Nat
  page : Nat
  desc : Nat
  tier : Nat
  frame : Nat
  span : Nat
  coded : Bool := false
  op : Nat := 0
  ended : Option Nat := none
  data : List Byte := []
  deriving DecidableEq, Repr

/-- The furrow unit and the spillway (spec/07) beside their registers. `copies` gives each page's read copy (its address plus 1);
`loads` the pages it reads for itself, and the number of the next; `kept` the raw frames of coded pages that the index builder has still to
read, and `toFree` the sources of switched moves that a read still uses (page, tier, frame); `evicting` the pools below HIGH since they fell
below LOW; `missing` the pages missing at FETCH_CUT (descriptor × 65536 + page index); `dying` the furrows that a RELEASE destroys. -/
structure FurState where
  desc : SMap Furrow := []
  pte : SMap Pte := []
  dir : SMap Nat := []
  copies : SMap Nat := []
  pins : List Nat := []
  moves : List Move := []
  fetches : List Fetch := []
  attend : List Attend := []
  listFill : Nat := 0
  destroying : Option Nat := none
  coding : List Coding := []
  builds : List Build := []
  unscored : List (Nat × Nat) := []
  rankings : List Ranking := []
  nextRank : Nat := 0
  loads : List PageLoad := []
  nextLoad : Nat := 1
  kept : List (Nat × Nat × Nat) := []
  toFree : List (Nat × Nat × Nat) := []
  evicting : List Nat := []
  nDegraded : Nat := 0
  nSkipped : Nat := 0
  nFallback : Nat := 0
  missing : List Nat := []
  dying : List Nat := []
  deriving DecidableEq, Repr

/-- The turn state of a slot (Table 8.2, bytes 128 to 223). -/
structure SlotTurn where
  doneSeq : Nat := 0
  verdict : Bool := false
  accepted : Nat := 0
  proposed : Nat := 0
  ending : Nat := 0
  draft : Nat := 0
  staged : Bool := false
  finalChunk : Bool := false
  top1Token : Nat := 0
  top1Logit : Nat := 0
  stageAddr : Nat := 0
  next : Nat := 0
  tokens : List Nat := []
  drafted : List Nat := []
  deriving DecidableEq, Repr

/-- A sequence slot (R192): its image and turn state, and what the device keeps beside them: proposals verified and equal in
this turn (k and M of R209), whether an ending truncated them, the screen codes of the accepted tokens, the screen working states
that follow (table and state), whether an ALREADY_FINISHED record has been written (R242), the post block as it stood when the
request that waits was posted (R201; empty: none waits), the HASH16 of the last TARGET request, and the state of a checkpoint
push (one that waits, the furrows whose manifest is not yet accepted). -/
structure Slot where
  img : SlotImg := {}
  ts : SlotTurn := {}
  k : Nat := 0
  m : Nat := 0
  draftOver : Bool := false
  headsDone : Bool := false
  truncated : Bool := false
  codes : List Nat := []
  screenNext : Option (Nat × Nat) := none
  screenDraft : Option (Nat × Nat) := none
  alreadyDone : Bool := false
  post : List Byte := []
  hash : Nat := 0
  pushDue : Bool := false
  pushWait : List Nat := []
  failing : Bool := false
  port : Nat := 0
  deriving DecidableEq, Repr

/-- A token buffer (R197): its address through the issuing PF, its capacity and its counts. -/
structure TokBuf where
  port : Nat := 0
  addr : Nat := 0
  cap : Nat := 0
  written : Nat := 0
  consumed : Nat := 0
  deriving DecidableEq, Repr

/-- A prefill staging copy in progress (R200). -/
structure Staging where
  slot : Nat
  entry : Nat
  addr : Nat
  held : Bool
  count : Nat
  deriving DecidableEq, Repr

/-- Generation (spec/08). -/
structure GenState where
  slots : SMap Slot := []
  bufs : SMap TokBuf := []
  stageFill : Nat := 0
  staging : List Staging := []
  deriving DecidableEq, Repr

/-- A flume as OPEN read it (R233, R237, R239). -/
structure Flume where
  slot : Nat := 0
  port : Nat := 0
  vf : Nat := 0
  ring : Nat := 0
  log2 : Nat := 0
  vector : Nat := 0
  modCount : Nat := 0
  modTime : Nat := 0
  produced : Nat := 0
  consumed : Nat := 0
  isOpen : Bool := false
  stopped : Bool := false
  since : Nat := 0
  firstAt : Nat := 0
  status : Bool := false
  fresh : Bool := false
  closing : Bool := false
  deriving DecidableEq, Repr

/-- A status record that waits for the end of its boundary (R235): its slot, its flume, and what Table 10.4 says of the slot. -/
structure StatusNote where
  slot : Nat
  flume : Nat
  turn : Nat
  length : Nat
  outCount : Nat
  promptCount : Nat
  event : Nat
  state : Nat
  reason : Nat
  deriving DecidableEq, Repr

/-- Flumes (spec/10): those that slots name, and the records of the boundary in progress, in ascending slot number. -/
structure FlumeState where
  flumes : SMap Flume := []
  notes : List StatusNote := []
  deriving DecidableEq, Repr


/-- Configuration (spec/16): the active image; the images in the profile slots; the target of a switch that runs; the slot and length
of a SLOT_WRITE that runs; the census that runs (its number and the nodes recorded) and the last census number used; and the last 16
queries received (initiator and census). -/
structure CfgState where
  image : Option Image := none
  slots : SMap (Option Image) := []
  switchTo : Option Nat := none
  writing : Option (Nat × Nat) := none
  census : Option (Nat × List Nat) := none
  censusNo : Nat := 0
  queries : List (Nat × Nat) := []
  deriving DecidableEq, Repr

/-- A reservoir command (Tables 6.3 and 6.4): its descriptor's fields; whether it came through the driver ring; its age; for
the furrow unit's own commands its query block and page list and what they serve (a ranking, a page's score form); and a
RANK's progress: row scans of the page under way, pages scored, pages kept out of the list, and the best entries (tag and score) so far. -/
structure PimCmd where
  opcode : Nat
  channel : Nat
  entry : Nat := 0xFFFF
  count : Nat := 0
  frame : Nat := 0
  slot : Nat := 0
  topn : Nat := 0
  qn : Nat := 0
  dsz : Nat := 0
  aspace : Bool := false
  irq : Bool := false
  owner : Nat := 0
  a : Nat := 0
  b : Nat := 0
  c : Nat := 0
  rsvd : Bool := false
  pfq : Bool := false
  seq : Nat := 0
  query : List Byte := []
  list : List Byte := []
  rank : Option Nat := none
  build : Option Nat := none
  started : Bool := false
  scan : Nat := 0
  scored : Nat := 0
  unranked : Nat := 0
  best : List (Nat × Nat) := []
  deriving DecidableEq, Repr

/-- A window (R129 to R133): the rota position whose grant it uses, whether it is one of R136, when it opened and for how
long it may last, the clears it makes, the time used, the scan time of the current segment, whether the opening
refreshes are paid, the refreshes still owed, and whether it must end for heat; of the RANK under way its age, how far the last bank
trails, and the row that is open. -/
structure PimWin where
  entry : Nat
  self : Bool := false
  opened : Nat
  limit : Nat
  clears : Nat := 0
  t : Nat := 0
  seg : Nat := 0
  refreshed : Bool := false
  owed : Nat := 0
  heat : Bool := false
  loaded : Option Nat := none
  lead : Nat := 0
  row : Option Nat := none
  deriving DecidableEq, Repr

/-- What awaits a memory-mode access that waits: nothing, an append's core (plot, core and its run), a handoff transfer that places
pages (its descriptor), the fetch of a page, a read of the furrow unit's own by its number, or the encoder of a page. -/
inductive AccUse where
  | none
  | append (plot core run : Nat)
  | carried (desc : Nat)
  | fetch (page : Nat)
  | load (id : Nat)
  | coding (page : Nat)
  deriving DecidableEq, Repr

/-- A memory-mode access that waits in its channel's queue (R130). -/
structure MemAcc where
  at_ : Nat
  addr : Nat
  len : Nat
  owner : Nat
  write : Bool
  pfq : Bool
  data : List Byte
  use : AccUse := .none
  deriving DecidableEq, Repr

/-- A reservoir channel's controller beside its registers: its two command queues, the furrow unit's commands that wait for room in
them, its window, what its bank units hold (the queries in their buffers, and each query's largest product over the page under way, over
the sixteen units; R127), the accesses that wait, the reads at or below 4× since it went HOT, the refreshes each bank has postponed, the
commands and the worst outcome of each queue since its last fence, results not yet fenced (by ranking: entries and pages scored), and since
when a clear waits. -/
structure PimChan where
  entryQ : List PimCmd := []
  maintQ : List PimCmd := []
  hold0 : List PimCmd := []
  hold1 : List PimCmd := []
  query : List Byte := []
  maxima : List Int := []
  win : Option PimWin := none
  waiting : List MemAcc := []
  cool : Nat := 0
  debts : List Nat := []
  cmds0 : Nat := 0
  worst0 : Nat := 0
  cmds1 : Nat := 0
  worst1 : Nat := 0
  pend : List (Nat × List (Nat × Nat) × Nat) := []
  clearSince : Nat := 0
  deriving DecidableEq, Repr

/-- Processing in the reservoir (spec/06): the channels; the freed score frames that await their clear, those withdrawn and those
kept allocated under R134; windows opened in this turn by rota position; the age counter; and the turn's counts. -/
structure PimState where
  chans : SMap PimChan := []
  awaiting : List (Nat × Nat) := []
  bad : List (Nat × Nat) := []
  toFree : List Nat := []
  opened : SMap Nat := []
  seq : Nat := 1
  nWindows : Nat := 0
  peak : Nat := 0
  nCut : Nat := 0
  nNoWindow : Nat := 0
  deriving DecidableEq, Repr

/-- A screen table that is resident (R225): its headwater and reservoir copies, its size, and its owner slot. -/
structure ScrTable where
  hw : Nat := 0
  res : Nat := 0
  bytes : Nat := 0
  owner : Nat := 0
  deriving DecidableEq, Repr

/-- The LOAD under way (R226): its handle, the places taken for its copies, its size, and how its fetch ended. -/
structure ScrLoad where
  handle : Nat
  hw : Nat
  res : Nat
  bytes : Nat
  owner : Nat
  port : Nat
  addr : Nat
  deriving DecidableEq, Repr

/-- The screen engine (spec/09) beside its registers: the resident tables by handle, the LOAD under way and its fetch's end (handle
and status), a RETIRE that waits for the boundary, the counts of the turn (steps, mask records, triggers), what this turn's update
pieces have copied, the scrub (the next block of each table, the tables whose blocks have all been compared in the cycle, when the cycle
began), the last clean turn of each block, and the blocks read in the turn. -/
structure ScrState where
  tables : SMap ScrTable := []
  load : Option ScrLoad := none
  fetchEnded : Option (Nat × Nat) := none
  retire : Option Nat := none
  steps : Nat := 0
  masks : Nat := 0
  triggers : Nat := 0
  pieces : SMap Nat := []
  scrubAt : SMap Nat := []
  wrapped : List Nat := []
  cycleAt : Nat := 0
  clean : SMap Nat := []
  read : List Nat := []
  deriving DecidableEq, Repr

/-- A handoff entry (Table 12.1): at the home the ownership record, elsewhere the local view. -/
structure HoEntry where
  gen : Nat := 0
  owner : Nat := 0
  pending : Nat := 0
  homeState : Nat := 0
  localState : Nat := 0
  kind : Nat := 0
  since : Nat := 0
  held : Nat := 0
  furrow : Nat := 0
  heldTurn : Nat := 0
  offerLength : Nat := 0
  image : List Byte := []
  deriving DecidableEq, Repr

/-- A handoff command under way (R297): its queue and its index there, the port it was issued through, its ADDR and opcode, and the
number by which its messages are known. -/
structure HoCmd where
  q : Nat
  index : Nat
  port : Nat
  addr : Nat
  opcode : Nat
  op : Nat := 0
  deriving DecidableEq, Repr

/-- A donor's open offer (Table 12.6): the generation it proposes, its kind, the recipient, the command that it ends (none for a park
of R298 and for the home's own offer), the turn of its last OWNER_Q, or of its start, and the number by which its messages are known. -/
structure HoTx where
  gen : Nat
  kind : Nat
  rcpt : Nat
  cmd : Option HoCmd := none
  auto : Bool := false
  asked : Nat
  op : Nat := 0
  deriving DecidableEq, Repr

/-- A transfer that is being received (R291), of an offer or of a push: its generation and donor, its kind, the slot image and
LENGTH its first message carried, its size in bytes, what has come of it by offset, when it began, whether its pages are being placed,
whether it is complete and verified, what it leaves when it is applied (the carried pages' entries, the index, PUSHED and the manifest's turn), and the turn
of the recipient's last OWNER_Q. -/
structure HoRx where
  gen : Nat
  src : Nat
  kind : Nat
  push : Bool := false
  image : List Byte := []
  length : Nat := 0
  total : Nat := 0
  got : SMap (List Byte) := []
  at_ : Nat := 0
  placing : Bool := false
  done : Bool := false
  pages : List (Nat × Pte) := []
  index : List Byte := []
  pushed : Nat := 0
  turn : Nat := 0
  asked : Nat := 0
  deriving DecidableEq, Repr

/-- A checkpoint push under way at the owner (R212): its generation, the turn of its start, the LENGTH it carries, and the number by
which its messages are known. -/
structure HoPush where
  gen : Nat
  turn : Nat
  length : Nat
  op : Nat := 0
  deriving DecidableEq, Repr

/-- A transfer whose manifest lists pages that are still being read (R188): the offer or push it belongs to, the node it goes to, its
generation and kind, the manifest's header, entries and index, the pages in order, and the stored bytes of those read so far. -/
structure HoSend where
  op : Nat
  node : Nat
  gen : Nat
  kind : Nat
  head : List Byte
  entries : List Byte
  index : List Byte
  pages : List Nat
  got : SMap (List Byte) := []
  deriving DecidableEq, Repr

/-- What the handoff logic keeps for a descriptor beside its entry: the open offer, the transfer being received, the push under
way, the transfers whose pages are still being read, an offer that waits for that push to end (its kind, recipient, command and whether R298 started it), the claim, the queries,
the PUSHED and the slot that the next boundary applies, and the RELEASE or GRANT it applies (generations). -/
structure HoLocal where
  tx : Option HoTx := none
  rx : Option HoRx := none
  push : Option HoPush := none
  sends : List HoSend := []
  after : Option (Nat × Nat × Option HoCmd × Bool) := none
  claim : Option HoCmd := none
  queries : List HoCmd := []
  pushed : Option Nat := none
  released : Option Nat := none
  granted : Option Nat := none
  deriving DecidableEq, Repr

/-- A handoff message that waits for the peer's HELLO (R286): its descriptor, class, owner slot and bytes, and the number of what it
belongs to. -/
structure HoHeld where
  desc : Nat
  cls : Nat
  owner : Nat
  data : List Byte
  op : Nat := 0
  deriving DecidableEq, Repr

/-- What is known of a peer's protocol version (R286): whether a HELLO has gone to it, the agreed version, whether none is common,
and the messages held until its HELLO. -/
structure HoPeer where
  sent : Bool := false
  agreed : Option Nat := none
  refused : Bool := false
  held : List HoHeld := []
  deriving DecidableEq, Repr

/-- A handoff message that ended with a status other than OK (R283): its descriptor, node, status and TYPE, and the number of the
offer, push, claim or query that it belongs to (0: of none). -/
structure HoFailed where
  desc : Nat
  node : Nat
  status : Nat
  ty : Nat
  op : Nat
  deriving DecidableEq, Repr

/-- The handoff logic (spec/12) beside its registers: the messages that failed, the descriptors whose received pages
a flash write has failed, the entries, the slots that start a park of R298 at the next boundary, and the number of the next offer, push or command. -/
structure HoState where
  failed : List HoFailed := []
  nextOp : Nat := 1
  placeFailed : List Nat := []
  entries : SMap HoEntry := []
  locals : SMap HoLocal := []
  peers : SMap HoPeer := []
  park : List Nat := []
  deriving DecidableEq, Repr

/-- The digest of the body of an image that the configuration flash holds at State.reset: 0 firmware, 1 metergate (R402; log entry 35). -/
def factoryDigest (i : Nat) : BitVec 384 :=
  Config.sha384 ((Config.factoryImage i).take (leValue (((Config.factoryImage i).drop 8).take 4)))

/-- The security unit (spec/17): the owner keys, the FW_FLOOR fuse, the two firmware slots of the configuration flash, and the running
firmware's digest. -/
structure SecState where
  keys : SMap (List Byte) := []
  floor : Nat := 0
  slots : SMap (Option FwImage) := [(0, some { file := Config.factoryImage 0, digest := factoryDigest 0 })]
  running : BitVec 384 := factoryDigest 0
  deriving DecidableEq, Repr

/-- The counts of one owner (Table 17.8), in the order of the tally record, and the KEY_ID that its first count latched (R413). -/
structure Tally where
  keyId : Nat := 0
  counts : List Nat := []
  deriving DecidableEq, Repr

/-- A period of the metergate (R413): whether its first turn is known, its first and last turns, whether it has had a commit
instant, the digest and job latched at its first commit instant, MIXED, its
commit instants, its owners' counts, and for a snapshot the cause of its close. -/
structure Period where
  known : Bool := false
  first : Nat := 0
  last : Nat := 0
  started : Bool := false
  digest : BitVec 384 := 0
  job : Nat := 0
  mixed : Bool := false
  turns : Nat := 0
  owners : SMap Tally := []
  cause : Nat := 0
  bare : Bool := false
  deriving DecidableEq, Repr

/-- The metergate (spec/17): its image and its slot's seal record (whether it verifies, SEAL, MTR_DIGEST, BOOT); the MTR_SEAL fuse;
the open period; a DEMAND close that waits for a commit instant; a close that waits for room (its cause); the snapshots that await
signing and, of the first of them, the owners still to be signed, their number, and how far it has come (0 not begun, 1 OWNER and
PERIOD records, 2 the CLOSE record); the records of this boot by their place in the ring; and a firmware change that waits in step 3:
the image offered, whether the flash will take it, and the STATE before; and when its firmware began to run (HEARTBEAT). -/
structure MtrState where
  image : MtrImage := { file := Config.factoryImage 1, digest := factoryDigest 1 }
  sealOk : Bool := true
  sealNo : Nat := 0
  sealDigest : BitVec 384 := factoryDigest 1
  boot : Nat := 0
  fuse : Nat := 0
  period : Period := {}
  demand : Bool := false
  due : Option Nat := none
  queue : List Period := []
  owners : List Nat := []
  ownerRecords : Nat := 0
  stage : Nat := 0
  ring : SMap (List Byte) := []
  change : Option (MtrImage × Bool × Nat) := none
  runFrom : Nat := 0
  deriving DecidableEq, Repr

/-- Power, clocks and reset pins (spec/19): PWRGOOD is deasserted; PERST0_N is asserted; PERST1_N is asserted; FATAL_N, THERMTRIP_N, THERM_ALERT_N are
asserted; STACK_HOT was set at the latest boundary; whether a hot reading, and an overcurrent of VCORE0 and of VCORE1, would make an
emergency (R453); and the sum and number of the turn's 10 µs power samples (R452). -/
structure PwrState where
  off : Bool := false
  held : Bool := false
  perst1 : Bool := false
  fatal : Bool := false
  tripped : Bool := false
  alert : Bool := false
  stackHot : Bool := false
  hotArmed : Bool := true
  armed0 : Bool := true
  armed1 : Bool := true
  sum : Nat := 0
  samples : Nat := 0
  deriving DecidableEq, Repr

/-- A write to memory that a command makes: bytes from an address, or a range that becomes zero. -/
inductive MemWrite where
  | put (a : Nat) (bs : List Byte)
  | zero (a n : Nat)
  deriving DecidableEq, Repr

/-- The device. -/
structure Device where
  part : Part := {}
  now : Nat := 0
  regs : SMap Word := []
  staged : SMap Word := []
  snapTurn : Option (SMap Word) := none
  snapWeir : Option (SMap Word) := none
  freeCount : Nat := 0
  randCount : Nat := 0
  mem : List Host.Cell := []
  wr : List MemWrite := []
  out : List Out := []
  err : ErrState := {}
  fab : FabState := {}
  rt : RouteState := {}
  host : HostState := {}
  turn : TurnState := {}
  mem5 : MemState := {}
  cores : SMap Core := []
  plots : SMap PlotState := []
  slu : SluState := {}
  cfg : CfgState := {}
  pim : PimState := {}
  fur : FurState := {}
  gen : GenState := {}
  flu : FlumeState := {}
  scr : ScrState := {}
  ho : HoState := {}
  sec : SecState := {}
  mtr : MtrState := {}
  pwr : PwrState := {}
  deriving DecidableEq, Repr

/-- The block: the device, and the commands that wait, first in, first out. -/
structure State where
  dev : Device := {}
  pending : List Instr := []
  deriving DecidableEq, Repr

/-- The registers that hold other than their register table's reset value right after reset: no profile slot holds an image, so none is
active (R383, R386, Table 16.4), the rider runs (R401), and SALT has been drawn (R316). -/
def resetRegs : SMap Word :=
  [(Reg.FAB_CTRL.ctorIdx * 0x10000, ((Config.random 0).setWidth 20).setWidth 64 <<< 20 ||| 32),
   (Reg.CFG_STATUS.ctorIdx * 0x10000, 0x0D0000000000),
   (Reg.CFG_EVENTS.ctorIdx * 0x10000, 0x20),
   (Reg.CFG_SLOT_INFO.ctorIdx * 0x10000, 0xD00), (Reg.CFG_SLOT_INFO.ctorIdx * 0x10000 + 1, 0xD00),
   (Reg.CFG_SLOT_INFO.ctorIdx * 0x10000 + 2, 0xD00), (Reg.CFG_SLOT_INFO.ctorIdx * 0x10000 + 3, 0xD00),
   (Reg.SEC_STATUS.ctorIdx * 0x10000, 1), (Reg.RIDE_STATUS.ctorIdx * 0x10000, 2)]

/-- The state right after reset (R447, Table 5.5, Table 19.3): power is good, PERST0_N has deasserted with PROF[1:0] open, the boot ROM
has started the rider, and no profile slot holds an image (log entry 40). Headwater is zero but for the MAGIC of the retention
header. -/
def State.reset : State :=
  { dev := { regs := resetRegs, randCount := 2, mem := [(0xC0000000, 0x54), (0xC0000001, 0x52), (0xC0000002, 0x54), (0xC0000003, 0x5A)],
             fab := { msgId := (Config.random 1).toNat % 2 ^ 48 } } }

end Sys2Proof.Machine
end

