-- ==== Sys2Proof/Machine/Ops.lean ====
section
/-! DEFINITION. Sys2Proof/Machine/Ops.lean: the named operations every meaning is written in: sparse tables, registers
and their fields, interrupts and event bits, memory, free values, error records, host writes and rings. -/

namespace Sys2Proof.Machine

/-! ### Sparse tables -/

/-- The value at a key, or the table's default. -/
def sget {α : Type} (dflt : α) : SMap α → Nat → α
  | [], _ => dflt
  | (k, v) :: m, a => if k = a then v else sget dflt m a

/-- Place a value at a key below every key of the list, or list nothing when it is the default. -/
def scons {α : Type} [DecidableEq α] (dflt : α) (a : Nat) (x : α) (m : SMap α) : SMap α :=
  if x = dflt then m else (a, x) :: m

/-- Place a value at a key that the table does not list, before the first larger key. -/
def sins {α : Type} [DecidableEq α] (dflt : α) (a : Nat) (x : α) : SMap α → SMap α
  | [] => scons dflt a x []
  | (k, v) :: m => if a < k then scons dflt a x ((k, v) :: m) else (k, v) :: sins dflt a x m

/-- Write a value at a key: what the table lists there goes, and the value is placed unless it is the default, so equal tables are equal
lists. -/
def sput {α : Type} [DecidableEq α] (dflt : α) (m : SMap α) (a : Nat) (x : α) : SMap α :=
  sins dflt a x (m.filter fun y => y.1 != a)

/-- The canonical form: keys strictly rising from `lo`, no entry equal to the default. -/
def swfFrom {α : Type} [DecidableEq α] (dflt : α) : Nat → SMap α → Bool
  | _, [] => true
  | lo, (k, v) :: m => decide (lo ≤ k) && decide (v ≠ dflt) && swfFrom dflt (k + 1) m

/-- A table in its canonical form. -/
def swf {α : Type} [DecidableEq α] (dflt : α) (m : SMap α) : Bool := swfFrom dflt 0 m

/-- The lowest of a list of numbers. -/
def lowest : List Nat → Option Nat
  | [] => none
  | x :: xs => match lowest xs with
    | some y => some (min x y)
    | none => some x

/-! ### Memory -/

/-- What an address of memory that nothing has written reads as: headwater is written to zero at power-on (Table 5.5);
the reservoir's own rule is `resvRead` in Machine/Memory.lean (log entry 11). -/
def memDefault : Byte := 0

/-- The memory's canonical form (addresses strictly rising, no entry equal to `memDefault`). -/
def Memory.wf (m : List Host.Cell) : Bool := swf memDefault m

/-- Write consecutive bytes from an address. -/
def Memory.write (m : List Host.Cell) : Nat → List Byte → List Host.Cell
  | _, [] => m
  | a, b :: bs => Memory.write (sput memDefault m a b) (a + 1) bs

/-- A range becomes zero: what an unlisted address reads as. -/
def Memory.zero (m : List Host.Cell) (a n : Nat) : List Host.Cell := m.filter fun c => !(decide (a ≤ c.1) && decide (c.1 < a + n))

/-- Land a command's writes, oldest first. -/
def Memory.land (m : List Host.Cell) : List MemWrite → List Host.Cell
  | [] => m
  | .put a bs :: ws => Memory.land (Memory.write m a bs) ws
  | .zero a n :: ws => Memory.land (Memory.zero m a n) ws

/-- What one write gives an address, if it touches it. -/
def MemWrite.at (a : Nat) : MemWrite → Option Byte
  | .put b bs => if b ≤ a ∧ a < b + bs.length then bs[a - b]? else none
  | .zero b n => if b ≤ a ∧ a < b + n then some 0 else none

/-- The byte that the latest of a command's own writes gave an address (`ws` is oldest first). -/
def writtenByte (a : Nat) : List MemWrite → Option Byte → Option Byte
  | [], acc => acc
  | w :: ws, acc => writtenByte a ws ((w.at a).orElse fun _ => acc)

/-- One byte of memory as a command that is being carried out sees it. -/
def Device.byte (d : Device) (a : Nat) : Byte :=
  match writtenByte a d.wr none with
  | some b => b
  | none => sget memDefault d.mem a

/-- `n` bytes of memory from an address. -/
def Device.bytes (d : Device) (a n : Nat) : List Byte := (List.range n).map fun i => d.byte (a + i)

/-- Write bytes from an address: the write lands when the command ends. -/
def Device.store (d : Device) (a : Nat) (bs : List Byte) : Device :=
  if bs.isEmpty then d else { d with wr := d.wr ++ [.put a bs] }

/-- Write a range to zero. -/
def Device.zero (d : Device) (a n : Nat) : Device := { d with wr := d.wr ++ [.zero a n] }

/-- A little-endian value of `n` bytes at an address. -/
def Device.load (d : Device) (a n : Nat) : Nat := leValue (d.bytes a n)

/-- Write a little-endian value of `n` bytes. -/
def Device.storeVal (d : Device) (a n v : Nat) : Device := d.store a (leBytes n v)

/-- A command's outcome: its device with its writes landed in memory, the queue as it stands. -/
def State.land (s : State) (d : Device) : Host.Outcome State Fault Refusal :=
  .next { s with dev := { d with mem := Memory.land s.dev.mem d.wr, wr := [] } }

/-- The device carries nothing out: without power good, with PERST0_N asserted, after a thermal trip (R449), or at step 5 of the
ladder (R448). -/
def Device.dead (d : Device) : Bool := d.pwr.off || d.pwr.held || d.pwr.tripped || d.pwr.fatal

/-- Carry out an effect on the device, unless it is dead. -/
def State.act (s : State) (f : Device → Device) : Host.Outcome State Fault Refusal := s.land (if s.dev.dead then s.dev else f s.dev)

/-- Carry out the effect of a pin, which reaches a dead device too. -/
def State.pin (s : State) (f : Device → Device) : Host.Outcome State Fault Refusal := s.land (f s.dev)

/-! ### Units present (R12, Table 1.2) -/

/-- Reservoir stack s is present. -/
def Part.stack (p : Part) (s : Nat) : Bool := decide (s < 8) && (!p.isL || decide (s % 4 < 2))
/-- Reservoir channel k is present. -/
def Part.channel (p : Part) (k : Nat) : Bool := p.stack (k / 40)
/-- Fabric port k is present. -/
def Part.port (p : Part) (k : Nat) : Bool := decide (k < 56) && (!p.isL || decide (k % 28 < 14))
/-- Link l is present. -/
def Part.link (p : Part) (l : Nat) : Bool := p.port (l / 2)
/-- NVMe root port n is present. -/
def Part.root (p : Part) (n : Nat) : Bool := decide (n < 8) && (!p.isL || decide (n % 4 < 2))

/-! ### Registers -/

/-- The key of a register copy in the register table. -/
def regKey (r : Reg) (i : Nat) : Nat := r.ctorIdx * 0x10000 + i

/-- A value placed in a field's bits. -/
def Field.place (f : Field) (v : Nat) : Word := BitVec.ofNat 64 (v % 2 ^ f.w) <<< f.lo

/-- The bits a field takes. -/
def Field.mask (f : Field) : Word := BitVec.ofNat 64 (2 ^ f.w - 1) <<< f.lo

/-- A field's value in a register value. -/
def Field.get (f : Field) (v : Word) : Nat := (v >>> f.lo).toNat % 2 ^ f.w

/-- A register value with a field replaced. -/
def Field.set (f : Field) (v : Word) (x : Nat) : Word := (v &&& ~~~f.mask) ||| f.place x

/-- The table reset values of a register's fields together. -/
def Reg.tableReset (r : Reg) : Word := r.fields.foldl (fun v f => v ||| f.place f.reset) 0

/-- The number of fused cores of a plot (R80). -/
def Part.fusedIn (p : Part) (plot : Nat) : Nat := (p.fusedCores.filter fun c => c / 66 == plot).length

/-- The four groups of fourteen fabric ports present, as FEATURE.FABRIC shows them. -/
def Part.fabricBits (p : Part) : Nat := if p.isL then 0b0101 else 0b1111
/-- The stacks present, or the root ports present, one bit each. -/
def Part.eightBits (p : Part) : Nat := if p.isL then 0x33 else 0xFF

/-- The value a register copy holds with nothing written: its table reset value, its part value (Table 16.9 to 16.11 and
the registers whose reset reads "part"), or what the register of an absent unit reads (R394, Table 16.11). -/
def regReset (p : Part) (r : Reg) (i : Nat) : Word :=
  match r with
  | .ID_REV => F.ID_REV.STEPPING.set (F.ID_REV.VARIANT.set r.tableReset (b2n p.isL)) p.stepping
  | .FEATURE =>
    F.FEATURE.NVME_PORTS.place p.eightBits ||| F.FEATURE.STACKS.place p.eightBits |||
      F.FEATURE.FABRIC.place p.fabricBits ||| F.FEATURE.SCREEN.place (b2n !p.isL) ||| F.FEATURE.PIM.place (b2n !p.isL)
  | .PLOT_ID =>
    r.tableReset ||| F.PLOT_ID.PLOT.place i ||| F.PLOT_ID.DIE.place (i / 32) ||| F.PLOT_ID.FUSED.place (p.fusedIn i)
  | .PIM_CAPS => if p.isL then 0 else F.PIM_CAPS.BANK_UNITS.set r.tableReset 5120
  | .PIM_CTRL | .PIM_DQ_CTRL | .SCR_CAPS | .SCR_SCRUB => if p.isL then 0 else r.tableReset
  | .PIM_CH_STATUS => if p.channel i then r.tableReset else F.PIM_CH_STATUS.MODE.place 7
  | .FAB_CAPS => F.FAB_CAPS.PORTS.set r.tableReset (if p.isL then 28 else 56)
  | .FAB_LINK_CFG => if p.link i then r.tableReset else F.FAB_LINK_CFG.MODE.place 3
  | .FAB_LINK_STATUS => if p.link i then r.tableReset else F.FAB_LINK_STATUS.STATE.place 7
  | .NVM_CAPS => F.NVM_CAPS.PORTS.set r.tableReset (if p.isL then 4 else 8)
  | .NVM_PORT_CFG => if p.root i then r.tableReset else 0
  | .NVM_PORT_STATUS => if p.root i then r.tableReset else F.NVM_PORT_STATUS.STATE.place 6
  | _ => r.tableReset

/-- The value in use of a register copy. -/
def Device.reg (d : Device) (r : Reg) (i : Nat := 0) : Word := sget (regReset d.part r i) d.regs (regKey r i)

/-- Replace a register copy's value. -/
def Device.setReg (d : Device) (r : Reg) (i : Nat) (v : Word) : Device :=
  { d with regs := sput (regReset d.part r i) d.regs (regKey r i) v }

/-- A field's value in use. -/
def Device.fld (d : Device) (f : Field) (i : Nat := 0) : Nat := f.get (d.reg f.reg i)

/-- A one-bit field as a truth value. -/
def Device.on (d : Device) (f : Field) (i : Nat := 0) : Bool := d.fld f i == 1

/-- Replace a field's value. -/
def Device.setFld (d : Device) (f : Field) (x : Nat) (i : Nat := 0) : Device := d.setReg f.reg i (f.set (d.reg f.reg i) x)

/-! ### Free values -/

/-- The next free value, cut to `w` bits: a value the spec leaves open (log entry 3). -/
def Device.free (d : Device) (w : Nat) : Nat := (Config.freeValue d.freeCount).toNat % 2 ^ w

/-- Count a free value as drawn. -/
def Device.drew (d : Device) : Device := { d with freeCount := d.freeCount + 1 }

/-- The next random number from the security unit's generator, cut to `w` bits (log entry 8). -/
def Device.rand (d : Device) (w : Nat) : Nat := (Config.random d.randCount).toNat % 2 ^ w

/-- Count a random number as drawn. -/
def Device.rolled (d : Device) : Device := { d with randCount := d.randCount + 1 }

/-- Add to a counting field. The spec gives no value for a count past the field's width, unless it says that the field
saturates: the field then holds a free value (log entry 12). -/
def Device.count (d : Device) (f : Field) (n : Nat := 1) (i : Nat := 0) : Device :=
  if d.fld f i + n < 2 ^ f.w then d.setFld f (d.fld f i + n) i
  else (d.setFld f (d.free f.w) i).drew

/-- Add to a field that saturates. -/
def Device.countSat (d : Device) (f : Field) (n : Nat := 1) (i : Nat := 0) : Device :=
  d.setFld f (min (d.fld f i + n) (2 ^ f.w - 1)) i

/-- Subtract from a field, not below zero. -/
def Device.countDown (d : Device) (f : Field) (n : Nat := 1) (i : Nat := 0) : Device := d.setFld f (d.fld f i - n) i

/-- Raise a field to a value if it is larger. -/
def Device.peak (d : Device) (f : Field) (v : Nat) (i : Nat := 0) : Device :=
  d.setFld f (max (d.fld f i) (min v (2 ^ f.w - 1))) i

/-! ### Out of the device -/

/-- Send something out. -/
def Device.emit (d : Device) (o : Out) : Device := { d with out := d.out ++ [o] }

/-- The port whose PF is the holder (R350). -/
def Device.holder (d : Device) : Option Nat :=
  match d.fld F.HQ_CONTROL.HOLDER with
  | 1 => some 0
  | 2 => some 1
  | _ => none

/-- Whether a host port is up and its function in D0 (R353). -/
def Device.portUp (d : Device) (port : Nat) : Bool :=
  let v := d.fld (if port = 0 then F.HQ_PORT_STATUS.H0 else F.HQ_PORT_STATUS.H1)
  v.testBit 15 && !v.testBit 6

/-- Write to host memory through a function while its port is up; discarded otherwise (R352). -/
def Device.hostWrite (d : Device) (fn : Fn) (addr : Nat) (bs : List Byte) : Device :=
  if d.portUp fn.port then d.emit (.hostWrite fn addr bs) else d

/-- Signal an MSI-X vector of a function. -/
def Device.msix (d : Device) (fn : Fn) (vector : Nat) : Device :=
  if d.portUp fn.port then d.emit (.msix fn vector) else d

/-- Signal a vector of the PF that holds control (R349). -/
def Device.signal (d : Device) (vector : Nat) : Device :=
  match d.holder with
  | some p => d.msix ⟨p, 0⟩ vector
  | none => d

/-- Set an event bit. -/
def Device.event (d : Device) (f : Field) : Device := d.setFld f 1

/-- Set an event bit and signal the block's vector. -/
def Device.eventSig (d : Device) (f : Field) (vec : Field) : Device := (d.event f).signal (d.fld vec)

/-- The function through which a ring's base was written (R349), the holder's PF when none is known. -/
def Device.ringFn (d : Device) (base : Reg) (i : Nat := 0) : Fn := ⟨sget 0 d.host.writer (regKey base i) - 1, 0⟩

/-- A host error (R345). -/
def Device.hostErr (d : Device) : Device :=
  (d.count F.HQ_STATS.HOST_ERRORS).eventSig F.HQ_EVENTS.HOST_ERROR F.HQ_VECTOR.VECTOR

/-! ### Time and turn -/

/-- Whether the job is RUNNING. -/
def Device.running (d : Device) : Bool := d.fld F.TURN_STATUS.STATE == 1
/-- The current turn number. -/
def Device.turnNo (d : Device) : Nat := d.fld F.TURN_NUMBER.CURRENT
/-- The turn unit is IDLE, or has started no turn since ENABLE: staged commits then act at once (R389). -/
def Device.idleForCommit (d : Device) : Bool := d.fld F.TURN_STATUS.STATE == 0 || (d.running && !d.turn.started)

/-- The moment a command carries, in ns since power-on; the device's clock never goes back. -/
def Device.at_ (d : Device) (t : Nat) : Device := { d with now := max d.now t }

/-! ### Error records (R425, R426) -/

/-- The retention window (Table 5.2). -/
def retention : Nat := 0x0000C0000000
/-- The error log ring: its offset in the window and its size (Table 5.3). -/
def logRing : Nat := 0x1000
/-- Bytes of the log ring: 4 MiB less 4 KiB. -/
def logSize : Nat := 0x400000 - 0x1000

/-- PHASE of record s of a ring of `size` records: bit 7 is 1 on the first pass and changes on each pass (R234). -/
def phase (s size : Nat) : Nat := if s / size % 2 = 0 then 0x80 else 0

/-- The 128 bytes of an error record (Table 18.2). -/
def ErrRec.pack (r : ErrRec) (d : Device) (sealFailed : Bool) : List Byte :=
  let body := Sys2Proof.pack
    [(8, d.turnNo), (8, d.err.seq), (8, d.now / 1000), (1, r.cause), (1, r.severity), (1, r.status), (1, r.replays),
     (1, b2n r.persistent + 2 * b2n sealFailed + 4 * b2n d.running), (1, r.unitKind), (2, r.unit), (2, r.owner),
     (2, d.fld F.TURN_JOB.JOB_ID), (3, r.jst), (1, 0), (2, r.slot), (2, r.node), (4, r.furrow), (8, r.pcDesc),
     (8, r.address)] ++ Sys2Proof.pack r.detail
  body ++ List.replicate (128 - body.length) 0

/-- Records of one cause from one unit this turn. -/
def Device.errCount (d : Device) (r : ErrRec) : Nat :=
  match d.err.turnCounts.find? fun (c, k, u, _) => c == r.cause && k == r.unitKind && u == r.unit with
  | some (_, _, _, n) => n
  | none => 0

/-- Count a record of one cause from one unit. -/
def Device.bumpErr (d : Device) (r : ErrRec) : Device :=
  let rest := d.err.turnCounts.filter fun (c, k, u, _) => !(c == r.cause && k == r.unitKind && u == r.unit)
  { d with err.turnCounts := (r.cause, r.unitKind, r.unit, d.errCount r + 1) :: rest }

/-- Copy a record to the host ring (R426): dropped when the ring is off or full. -/
def Device.errRing (d : Device) (bs : List Byte) : Device :=
  if !d.on F.ERR_RING_CTRL.ENABLE then d
  else
    let size := 2 ^ d.fld F.ERR_RING_CTRL.LOG2_SIZE
    let p := d.fld F.ERR_RING_PRODUCED.PRODUCED
    if p - d.fld F.ERR_RING_CONSUMED.CONSUMED ≥ size then d.event F.ERR_EVENTS.RING_OVERFLOW
    else
      match d.holder with
      | none => d
      | some port =>
        let d := d.hostWrite ⟨port, 0⟩ (d.fld F.ERR_RING_BASE.ADDR * 4096 + 128 * (p % size))
          (bs.take 127 ++ [BitVec.ofNat 8 (phase p size)])
        (d.setFld F.ERR_RING_PRODUCED.PRODUCED (p + 1)).signal (d.fld F.ERR_CTRL.VECTOR)

/-- Write an error record into the log ring of the retention area, and to the host ring (R426): at most 16 of one cause
from one unit in a turn, severities RESET and FATAL apart. -/
def Device.record (d : Device) (r : ErrRec) (sealFailed : Bool := false) : Device :=
  if d.errCount r ≥ 16 && decide (r.severity < 3) then d.countSat F.ERR_COUNTS.SUPPRESSED
  else
    let bs := r.pack d sealFailed
    let next := d.load (retention + 8) 8
    let d := d.store (retention + logRing + next) bs
    let d := d.storeVal (retention + 8) 8 ((next + 128) % logSize)
    let d := d.storeVal (retention + 16) 8 (d.load (retention + 16) 8 + 1)
    let d := { d.bumpErr r with err.seq := d.err.seq + 1 }
    (d.event F.ERR_EVENTS.RECORD).errRing bs

/-- The device's own part of the seal fails with a reason (R47, R422): before the SEAL has left, now; after it, as R422
carries it to the next turn. -/
def Device.failSeal (d : Device) (reason : Nat) : Device :=
  if d.turn.sealSent then { d with turn.carry := true }
  else { d with turn.fails := reason :: d.turn.fails }

/-- Latch the restart point (R422). -/
def Device.latchRestart (d : Device) : Device :=
  ((d.event F.ERR_EVENTS.RESTART).setFld F.ERR_STATUS.RESTART_TURN d.turnNo).setFld F.ERR_CTRL.RESTART_JOB
    (d.fld F.TURN_JOB.JOB_ID)

/-- The seal fails with reason UNCORRECTABLE while the job is RUNNING (R422, R428). -/
def Device.failUncorrectable (d : Device) : Device :=
  if !d.running then d
  else if d.turn.sealSent then { d with turn.carry := true }
  else ({ d with turn.fails := 1 :: d.turn.fails } : Device).latchRestart

/-- An uncorrectable error (R422): the record, the count, the slot it names that fails at the end of the turn (R194), and the
failing seal. -/
def Device.uncorrectable (d : Device) (r : ErrRec) : Device :=
  let d := d.count F.ERR_COUNTS.UNCORRECTABLE
  let d := d.record { r with severity := 2 } d.running
  let d := if r.slot < 4096 then
      { d with gen.slots := sput {} d.gen.slots r.slot { sget {} d.gen.slots r.slot with failing := true } }
    else d
  d.failUncorrectable

/-! ### Device-written host rings (R234, R463) -/

/-- Write a record of `n` bytes to a device-written ring, its last byte the PHASE, unless the ring is full. Answers
whether it was written. -/
def Device.ringPut (d : Device) (fn : Fn) (base size produced consumed n : Nat) (bs : List Byte) : Device × Bool :=
  if produced - consumed ≥ size then (d, false)
  else (d.hostWrite fn (base + n * (produced % size)) (bs.take (n - 1) ++ [BitVec.ofNat 8 (phase produced size)]), true)

/-! ### Owner keys -/

/-- A byte list cut or padded with zeros to a length. -/
def fit (n : Nat) (bs : List Byte) : List Byte := (bs ++ List.replicate n 0).take n

/-- The owner key of a slot, empty when the slot is EMPTY (R406). -/
def Device.ownerKey (d : Device) (slot : Nat) : List Byte := sget [] d.sec.keys slot

/-- An owner slot holds a key. -/
def Device.hasKey (d : Device) (slot : Nat) : Bool := d.ownerKey slot != []

/-- The bytes of an ASCII label. -/
def ascii (s : String) : List Byte := s.toList.map fun c => BitVec.ofNat 8 c.toNat

/-- A key derived from an owner key under a label (R407), `n` bytes. -/
def derived (key : List Byte) (label : String) (n : Nat) : List Byte := leBytes n (Config.kdf key (ascii label)).toNat

/-- The fabric key KF of an owner slot. -/
def Device.fabricKey (d : Device) (slot : Nat) : List Byte := derived (d.ownerKey slot) "ZT-GCM" 32

/-- KEY_ID of an owner key. -/
def keyId (key : List Byte) : Nat := leValue (derived key "ZT-KID" 8)

end Sys2Proof.Machine
end

