-- ==== Sys2Proof/Machine/Memory.lean ====
section
/-! DEFINITION. Sys2Proof/Machine/Memory.lean: the device physical address map (R101, R102), owner checks on frames
(R116 to R118), reads and writes as an owner sees them through encryption at rest (R119 to R121), and the frame
pools (R123, R138). -/

namespace Sys2Proof.Machine

/-- Where a device physical address lies (Table 5.2, R109). -/
inductive AddrClass where
  | headwater
  | retention
  | memRegion (channel : Nat)
  | scoreRegion (channel : Nat)
  | reserved
  deriving DecidableEq, Repr

/-- The first reservoir address. -/
def resvBase : Nat := 0x010000000000
/-- The bytes of one reservoir channel. -/
def channelBytes : Nat := 0x80000000
/-- The bytes of one headwater slice. -/
def sliceBytes : Nat := 0xC0000
/-- The bytes of a frame. -/
def frameBytes : Nat := 0x10000

/-- Where the score region of a channel begins, as a channel offset (R109). -/
def Device.scoreStart (d : Device) (k : Nat) : Nat := channelBytes - d.fld F.PIM_CH_STATUS.SCORE_SIZE k * 0x4000000

/-- The decode of R101, R102 and R109. -/
def Device.place (d : Device) (a : Nat) : AddrClass :=
  if a < 0xC0000000 then (if a % sliceBytes < 0xBF000 then .headwater else .reserved)
  else if a < 0xC1000000 then .retention
  else if a < resvBase then .reserved
  else
    let k := (a - resvBase) / channelBytes
    if k < 320 ∧ d.part.channel k = true then
      (if (a - resvBase) % channelBytes < d.scoreStart k then .memRegion k else .scoreRegion k)
    else .reserved

/-- A range of headwater addresses. -/
def inHeadwater (a n : Nat) : Bool := decide (a < 0xC0000000) && decide (a % sliceBytes + max n 1 ≤ 0xBF000)

/-- The reservoir frames (index over the whole reservoir) that a range touches. -/
def framesOf (a n : Nat) : List Nat :=
  let f := (a - resvBase) / frameBytes
  (List.range ((a + max n 1 - 1 - resvBase) / frameBytes + 1 - f)).map (f + ·)

/-- The address of reservoir frame f. -/
def frameAddr (f : Nat) : Nat := resvBase + f * frameBytes
/-- The reservoir frame that holds an address. -/
def frameOf (a : Nat) : Nat := (a - resvBase) / frameBytes

/-- A range lies in memory regions of present channels. -/
def Device.inMemRegion (d : Device) (a n : Nat) : Bool :=
  decide (resvBase ≤ a) && (framesOf a n).all fun f =>
    match d.place (frameAddr f) with
    | .memRegion _ => true
    | _ => false

/-- The frame owner entry of a reservoir frame (R116). -/
def Device.ownerEntry (d : Device) (f : Nat) : Nat := sget 0 d.mem5.owners f
/-- A frame owner entry for an owner slot (Table 5.9). -/
def mkOwner (slot : Nat) (shared : Bool) : Nat := 0x8000 + b2n shared * 0x4000 + slot
/-- VALID of a frame owner entry. -/
def entryValid (e : Nat) : Bool := e.testBit 15
/-- SHARED of a frame owner entry. -/
def entryShared (e : Nat) : Bool := e.testBit 14
/-- SLOT of a frame owner entry. -/
def entrySlot (e : Nat) : Nat := e % 4096

/-- R118: whether an entry admits an access in an owner context; `pfq` is true on a PF's host queue. -/
def entryAllows (e owner : Nat) (write pfq : Bool) : Bool :=
  entryValid e && (entryShared e || entrySlot e == owner) && (!(write && entryShared e) || pfq)

/-- How an access check comes out. -/
inductive AccessCheck where
  | ok
  | reserved
  | owner (entry : Nat)
  deriving DecidableEq, Repr

/-- R102, R106, R118: check a range in an owner context. The retention window may be read on a PF's host queue only. -/
def Device.check (d : Device) (a n owner : Nat) (write pfq : Bool) : AccessCheck :=
  if inHeadwater a n then .ok
  else if 0xC0000000 ≤ a ∧ a + n ≤ 0xC1000000 then (if pfq && !write then .ok else .reserved)
  else if d.inMemRegion a n then
    match (framesOf a n).find? fun f => !entryAllows (d.ownerEntry f) owner write pfq with
    | some f => .owner (d.ownerEntry f)
    | none => .ok
  else .reserved

/-! ### Encryption at rest (R119, Table 5.10) -/

/-- The XTS key pair of an owner key (R407). -/
def xtsKey (key : List Byte) : List Byte := derived key "ZT-XTS" 64

/-- The tweak of a data unit: the unit number in bits 63:0, the location in bits 127:64 (R119). -/
def xtsTweak (unit location : Nat) : Nat := unit % 2 ^ 64 + location * 2 ^ 64

/-- The location of reservoir memory regions (Table 5.10). -/
def resvLocation : Nat := 0x0100000000000000
/-- The location of a flash namespace (Table 5.10). -/
def flashLocation (nsid : Nat) : Nat := 0x0200000000000000 + nsid
/-- The location of a host spill area of a function (Table 5.10). -/
def spillLocation (vf : Nat) : Nat := 0x0300000000000000 + vf

/-- The 4 KiB units of some data, the last filled with zeros. -/
def unitsOf (bs : List Byte) : List (List Byte) := (List.range (ceilDiv bs.length 4096)).map fun i => fit 4096 ((bs.drop (4096 * i)).take 4096)

/-- A 4 KiB unit as it is stored: encrypted (R119). -/
def sealUnit (key : List Byte) (unit location : Nat) (bs : List Byte) : List Byte :=
  fit 4096 (Config.xtsEncrypt (xtsKey key) (xtsTweak unit location) bs)

/-- The 8 bytes of a unit's CRC-64, computed over its plaintext (R114). -/
def unitCrc (bs : List Byte) : List Byte := leBytes 8 (Config.crc64 bs).toNat

/-- A stored unit decrypted, none where it fails its CRC-64 (R114). -/
def openUnit (key : List Byte) (unit location : Nat) (stored crc : List Byte) : Option (List Byte) :=
  let bs := fit 4096 (Config.xtsDecrypt (xtsKey key) (xtsTweak unit location) (fit 4096 stored))
  if unitCrc bs = fit 8 crc then some bs else none

/-- Consecutive units as they are stored, from a unit number. -/
def sealUnits (key : List Byte) (first location : Nat) (bs : List Byte) : List Byte :=
  ((unitsOf bs).zipIdx).flatMap fun (u, i) => sealUnit key (first + i) location u

/-- The CRC-64s of the units of some data. -/
def unitCrcs (bs : List Byte) : List Byte := (unitsOf bs).flatMap unitCrc

/-- Consecutive stored units decrypted, none where one fails its CRC-64. -/
def openUnits (key : List Byte) (first location n : Nat) (stored crcs : List Byte) : Option (List Byte) :=
  (List.range n).foldl (fun acc i => acc.bind fun bs =>
    (openUnit key (first + i) location ((stored.drop (4096 * i)).take 4096) ((crcs.drop (8 * i)).take 8)).map (bs ++ ·)) (some [])

/-- The tag under which a unit of a frame is readable: 2 while the owner's slot holds no key, else the owner key plus 3
(R119: the unit is encrypted under the key of the frame's SLOT). -/
def Device.keyTag (d : Device) (entry : Nat) : Nat :=
  match sget [] d.sec.keys (entrySlot entry) with
  | [] => 2
  | k => leValue k + 3

/-- The tag a reservoir unit needs for its bytes to be read: 0 in a score region (plaintext, cleared before use), else the
key's. -/
def Device.unitTag (d : Device) (a : Nat) : Nat :=
  match d.place a with
  | .scoreRegion _ => 0
  | _ => d.keyTag (d.ownerEntry (frameOf a))

/-- The owner key of a tag above 2. -/
def tagKey (tag : Nat) : List Byte := leBytes 32 (tag - 3)

/-- The 64 bytes that a reservoir unit holds (R119): `bs` encrypted under the key it was written under, or plaintext. -/
def storedUnit (unit tag : Nat) (bs : List Byte) : List Byte :=
  if tag ≥ 3 then fit 64 (Config.xtsEncrypt (xtsKey (tagKey tag)) (xtsTweak unit resvLocation) bs) else bs

/-- A reservoir unit written under one key as a reader under another sees it (R119, R120): what is stored, decrypted under the reader's
key. Without a key on either side, or with nothing written, the bytes are open values (Table 5.5; log entry 4). -/
def Device.foreignUnit (d : Device) (u tag : Nat) : List Byte :=
  let a := resvBase + u * 64
  let t := sget 0 d.mem5.unitKey u
  let stored := storedUnit (a / 64) t (d.bytes a 64)
  if t ≥ 3 ∧ tag ≥ 3 then fit 64 (Config.xtsDecrypt (xtsKey (tagKey tag)) (xtsTweak (a / 64) resvLocation) stored)
  else if t ≥ 3 ∧ tag = 0 then stored
  else (List.range 64).map fun i => Config.freeByte d.freeCount (a + i)

/-- One byte as its reader sees it: what was written, or what the reader's own key makes of what another key encrypted. -/
def Device.readByte (d : Device) (a : Nat) : Byte :=
  let u := (a - resvBase) / 64
  if a < resvBase then d.byte a
  else if sget 0 d.mem5.unitKey u = d.unitTag a then d.byte a
  else (d.foreignUnit u (d.unitTag a)).getD ((a - resvBase) % 64) 0

/-- `n` bytes as their reader sees them. -/
def Device.readMem (d : Device) (a n : Nat) : List Byte := (List.range n).map fun i => d.readByte (a + i)

/-- A little-endian value as its reader sees it. -/
def Device.readVal (d : Device) (a n : Nat) : Nat := leValue (d.readMem a n)

/-- Bring the reservoir units of a range under the key in use: what a write in part leaves of a unit is what a read under that key gave
(R111, R119). -/
def Device.claimUnits (d : Device) : Nat → Nat → Device
  | _, 0 => d
  | u, n + 1 =>
    let a := resvBase + u * 64
    let tag := d.unitTag a
    let d :=
      if sget 0 d.mem5.unitKey u = tag then d
      else
        { d.store a (d.foreignUnit u tag) with
          mem5.unitKey := sput 0 d.mem5.unitKey u tag }
    d.claimUnits (u + 1) n

/-- Write bytes as an owner's access: headwater as it stands, the reservoir under the frame's key. -/
def Device.writeMem (d : Device) (a : Nat) (bs : List Byte) : Device :=
  if bs.isEmpty then d
  else if a < resvBase then d.store a bs
  else
    let u := (a - resvBase) / 64
    ((d.claimUnits u ((a + bs.length - 1 - resvBase) / 64 + 1 - u)).store a bs)

/-- Write a range of the reservoir to zero in plaintext (Write X, R120). -/
def Device.clearRange (d : Device) (a n : Nat) : Device :=
  ({ d with mem5.unitKey := d.mem5.unitKey.filter fun x =>
      !(decide ((a - resvBase) / 64 ≤ x.1) && decide (x.1 < (a - resvBase + n) / 64)) } : Device).zero a n

/-- Write a little-endian value as an owner's access. -/
def Device.writeVal (d : Device) (a n v : Nat) : Device := d.writeMem a (leBytes n v)

/-- A bank address in the reservoir (R108): channel, bank and row of an address. -/
def bankOf (a : Nat) : Nat := (a - resvBase) % channelBytes / 0x800 % 16
/-- Row of an address in its channel (Table 5.6). -/
def rowOf (a : Nat) : Nat := (a - resvBase) % channelBytes / 0x8000

/-- The bank group of a bank (R108). -/
def bankGroup (bank : Nat) : Nat := bank % 4

/-- The even-parity bit of a word's bytes (R112). -/
def wordParity (bs : List Byte) : Nat := ((bs.map fun b => ((List.range 8).filter b.getLsbD).length).sum) % 2

/-- What the DMI lanes carry with a burst: one parity bit for each of its sixteen 32-bit words, as the dies store them (R110, R112). -/
def burstParity (bs : List Byte) : Nat := (List.range 16).foldl (fun v i => v + wordParity ((bs.drop (4 * i)).take 4) * 2 ^ i) 0

/-- MODE of a channel: 0 MEMORY, 1 ENTERING, 2 PROCESSOR, 3 EXITING, 4 HOT, 5 BARRED, 6 CLEARING, 7 absent. -/
def Device.chMode (d : Device) (k : Nat) : Nat := d.fld F.PIM_CH_STATUS.MODE k

/-- A channel is in a window or on its way in or out: memory-mode accesses wait (R130). -/
def Device.inWindow (d : Device) (k : Nat) : Bool := let m := d.chMode k; m == 1 || m == 2 || m == 3

/-- Accesses to a channel wait: it is in a window (R130), or its stack is in self-refresh (R107). -/
def Device.chWaits (d : Device) (k : Nat) : Bool := d.inWindow k || d.mem5.selfRefresh.contains (k / 40)

/-- The reservoir channels that a range of addresses touches. -/
def channelsOf (a n : Nat) : List Nat :=
  if a < resvBase then []
  else
    let k := (a - resvBase) / channelBytes
    (List.range ((a + max n 1 - 1 - resvBase) / channelBytes + 1 - k)).map (k + ·)

/-- An access to a range would wait in a channel's queue. -/
def Device.waits (d : Device) (a n : Nat) : Bool := (channelsOf a n).any d.chWaits

/-- Count an access that waits for a window to close (PIM_CH_WAIT). -/
def Device.noteWait (d : Device) (a n : Nat) : Device :=
  ((channelsOf a n).filter d.inWindow).foldl (fun d k => d.count F.PIM_CH_WAIT.WAITED 1 k) d

/-- A channel's controller. -/
def Device.chan (d : Device) (k : Nat) : PimChan := sget {} d.pim.chans k
/-- Replace a channel's controller. -/
def Device.setChan (d : Device) (k : Nat) (c : PimChan) : Device := { d with pim.chans := sput {} d.pim.chans k c }

/-- A unit of the device writes the reservoir: at once, or in arrival order with the channel's other accesses while they wait (R130). -/
def Device.postWrite (d : Device) (a : Nat) (bs : List Byte) (owner : Nat := 0) (use : AccUse := .none) : Device :=
  match (channelsOf a bs.length).find? d.chWaits with
  | none => d.writeMem a bs
  | some k =>
    let x : MemAcc := { at_ := d.now, addr := a, len := bs.length, owner := owner, write := true, pfq := false, data := bs, use := use }
    (d.setChan k { d.chan k with waiting := (d.chan k).waiting ++ [x] }).noteWait a bs.length

/-- A unit of the device reads the reservoir while the channel's accesses wait: its read waits with them, once (R130). -/
def Device.postRead (d : Device) (a n owner : Nat) (use : AccUse) : Device :=
  match (channelsOf a n).find? d.chWaits with
  | none => d
  | some k =>
    if (d.chan k).waiting.any fun x => x.use == use then d
    else
      let x : MemAcc := { at_ := d.now, addr := a, len := n, owner := owner, write := false, pfq := false, data := [], use := use }
      (d.setChan k { d.chan k with waiting := (d.chan k).waiting ++ [x] }).noteWait a n

/-- Values of one key run laid into a sparse table: `n` keys from `u`, all `v`, which is not the default. -/
def putRun (v u n : Nat) (m : SMap Nat) : SMap Nat :=
  (m.filter fun x => decide (x.1 < u)) ++ (List.range n).map (fun i => (u + i, v)) ++ m.filter fun x => decide (u + n ≤ x.1)

/-- A reservoir frame written to zero by the device (R158), or in its turn while its channel's accesses wait (R130). -/
def Device.formatFrame (d : Device) (f : Nat) : Device :=
  let a := frameAddr f
  if d.waits a frameBytes then d.postWrite a (List.replicate frameBytes 0)
  else
    let u := (a - resvBase) / 64
    { d.zero a frameBytes with mem5.unitKey := putRun (d.unitTag a) u 1024 d.mem5.unitKey }

/-! ### Headwater areas of the image (Table 16.3) -/

/-- The base of a headwater area of the active image (Table 16.3). -/
def Device.areaBase (d : Device) (a : Area) : Nat :=
  match d.cfg.image with
  | some im => match im.areas.find? fun x => decide (x.1 = a) with
    | some x => x.2.1
    | none => 0
  | none => 0

/-- Keep the headwater bytes of a table that the device holds in step with it, while an image places the table. -/
def Device.mirror (d : Device) (a : Nat) (bs : List Byte) : Device := if d.cfg.image.isSome then d.store a bs else d

/-! ### Pools (R123, Table 5.12) -/

/-- Pool numbers as FUR_POOL_CFG numbers them. -/
def poolHw : Nat := 0
/-- RESERVOIR. -/
def poolRes : Nat := 1
/-- SCORE. -/
def poolScore : Nat := 2
/-- FLASH. -/
def poolFlash : Nat := 3

/-- The first of `n` consecutive numbers from `k` that passes a test. -/
def firstFrom (test : Nat → Bool) : Nat → Nat → Option Nat
  | _, 0 => none
  | k, n + 1 => if test k then some k else firstFrom test (k + 1) n

/-- The first number of consecutive ranges (first, count) that passes a test. -/
def firstIn (test : Nat → Bool) : List (Nat × Nat) → Option Nat
  | [] => none
  | (k, n) :: rs => (firstFrom test k n).orElse fun _ => firstIn test rs

/-- The active image's ranges of a pool, none without an image. -/
def Device.hwFrames (d : Device) : List (Nat × Nat) :=
  match d.cfg.image with
  | some im => im.hwFrames.map fun (b, n) => (b / frameBytes, n)
  | none => []

/-- The reservoir pool's frames, as reservoir frame indices. -/
def Device.resFrames (d : Device) : List (Nat × Nat) :=
  match d.cfg.image with
  | some im => im.resFrames.map fun (b, n) => (frameOf b, n)
  | none => []

/-- A frame number names a headwater frame: a slice holds eleven, and what would be its twelfth has the last 4 KiB in it (R104). -/
def isHwFrame (f : Nat) : Bool := f % 12 != 11

/-- The headwater frames among `n` consecutive frame numbers from `k`. -/
def hwCount (k n : Nat) : Nat := n - ((k + n) / 12 - k / 12)

/-- The die of a headwater frame number. -/
def hwDie (f : Nat) : Nat := f * frameBytes / 0x60000000
/-- The plot of a headwater frame number. -/
def hwPlot (f : Nat) : Nat := f * frameBytes / (64 * sliceBytes)

/-- HEADWATER: the lowest free address in the plot's slices, then in the rest of its die, then in the other die. -/
def Device.hwCandidate (d : Device) (plot : Nat) : Option Nat :=
  let free := fun f => isHwFrame f && !sget false d.mem5.hwTaken f
  let low := fun test => lowest (d.hwFrames.filterMap fun (k, n) => firstFrom (fun f => free f && test f) k n)
  (low fun f => hwPlot f == plot).orElse fun _ => (low fun f => hwDie f == plot / 32).orElse fun _ => low fun _ => true

/-- The channels of a die in rotation after the one used last. -/
def rotated (die last : Nat) : List Nat := (List.range 160).map fun i => die * 160 + (last + 1 + i) % 160

/-- RESERVOIR: rotating over the channels of the die named, then over the other die; within a channel the lowest free
frame (log entry 14). -/
def Device.resCandidate (d : Device) (die : Nat) : Option Nat :=
  let inCh := fun k => firstIn (fun f => f / 32768 == k && !entryValid (d.ownerEntry f)) d.resFrames
  let pick := fun dd => (rotated dd d.mem5.resRotor).findSome? inCh
  (pick die).orElse fun _ => pick (1 - die)

/-- SCORE (R138): the lowest free score frame of the channel named, none awaiting its clear. -/
def Device.scoreCandidate (d : Device) (k : Nat) : Option Nat :=
  let mode := d.fld F.PIM_CH_STATUS.MODE k
  let first := d.scoreStart k / frameBytes
  if mode = 5 ∨ mode = 6 ∨ mode = 7 then none
  else
    (firstFrom (fun f => !entryValid (d.ownerEntry (k * 32768 + f)) && !(d.pim.awaiting.contains (k, f)) &&
      !(d.pim.bad.contains (k, f))) first (32768 - first)).map (k * 32768 + ·)

/-- An extent slot that allocates: enabled, not LOST, and its root port READY (R368, R370, R373). -/
def Device.extentServes (d : Device) (e : Nat) : Bool :=
  d.on F.NVM_EXT_CFG.ENABLE e && !d.on F.NVM_EXT_CFG.LOST e &&
    (d.fld F.NVM_EXT_CFG.KIND e != 1 || d.fld F.NVM_PORT_STATUS.STATE (d.fld F.NVM_EXT_CFG.PORT e) == 3)

/-- The extent slot that covers a flash frame (R370). -/
def Device.extentOf (d : Device) (f : Nat) : Option Nat :=
  (List.range 64).find? fun e => d.on F.NVM_EXT_CFG.ENABLE e && decide (d.fld F.NVM_EXT_FRAMES.FIRST e ≤ f) &&
    decide (f < d.fld F.NVM_EXT_FRAMES.FIRST e + d.fld F.NVM_EXT_FRAMES.FRAMES e)

/-- FLASH: rotating over root ports, then spill areas; within an extent the lowest free frame (log entry 14). -/
def Device.flashCandidate (d : Device) : Option (Nat × Nat) :=
  let inExt := fun e => (firstFrom (fun f => !entryValid (sget 0 d.mem5.flashOwners f))
    (d.fld F.NVM_EXT_FRAMES.FIRST e) (d.fld F.NVM_EXT_FRAMES.FRAMES e)).map fun f => (e, f)
  let kind := fun k e => d.extentServes e && d.fld F.NVM_EXT_CFG.KIND e == k
  let onPort := fun p => (List.range 64).findSome? fun e =>
    if kind 1 e && d.fld F.NVM_EXT_CFG.PORT e == p then inExt e else none
  (((List.range 8).map fun i => (d.mem5.flashRotor + 1 + i) % 8).findSome? onPort).orElse fun _ =>
    (List.range 64).findSome? fun e => if kind 2 e then inExt e else none

/-- Replace the owner entry of a flash frame; the flash frame table follows (R185). -/
def Device.setFlashOwner (d : Device) (f e : Nat) : Device :=
  ({ d with mem5.flashOwners := sput 0 d.mem5.flashOwners f e } : Device).mirror (d.fld F.FUR_FLASH_TABLE.ADDR * 65536 + 2 * f) (leBytes 2 e)

/-- Take a frame from a pool for an owner (R123): its address (flash: its frame number), or none when the pool is empty.
`near` names the plot (HEADWATER), the die (RESERVOIR) or the channel (SCORE). -/
def Device.allocFrame (d : Device) (pool near owner : Nat) (shared : Bool := false) : Option (Nat × Device) :=
  let less := fun (d : Device) => d.countDown F.FUR_POOL_STATUS.FREE 1 pool
  match pool with
  | 0 => (d.hwCandidate near).map fun f =>
      (f * frameBytes, less { d with mem5.hwTaken := sput false d.mem5.hwTaken f true })
  | 1 => (d.resCandidate near).map fun f =>
      (frameAddr f, less { d with mem5.owners := sput 0 d.mem5.owners f (mkOwner owner shared),
                                  mem5.resRotor := f / 32768 % 160 })
  | 2 => (d.scoreCandidate near).map fun f =>
      (frameAddr f, less { d with mem5.owners := sput 0 d.mem5.owners f (mkOwner owner shared) })
  | 3 => d.flashCandidate.map fun (e, f) =>
      let rotor := if d.fld F.NVM_EXT_CFG.KIND e = 1 then d.fld F.NVM_EXT_CFG.PORT e else d.mem5.flashRotor
      (f, less (({ d with mem5.flashRotor := rotor } : Device).setFlashOwner f (mkOwner owner shared)))
  | _ => none

/-- Free a headwater frame: its bytes stay (R120). -/
def Device.freeHw (d : Device) (a : Nat) : Device :=
  let f := a / frameBytes
  if sget false d.mem5.hwTaken f then
    ({ d with mem5.hwTaken := sput false d.mem5.hwTaken f false } : Device).count F.FUR_POOL_STATUS.FREE 1 poolHw
  else d

/-- An access to a reservoir frame waits in its controller's queue. -/
def Device.queued (d : Device) (f : Nat) : Bool := (d.chan (f / 32768)).waiting.any fun x => (framesOf x.addr x.len).contains f

/-- Free a reservoir frame: VALID clears (R117), the ciphertext stays (R120). While an access to it waits the entry stays as it is, and
clears after it. -/
def Device.freeRes (d : Device) (a : Nat) : Device :=
  let f := frameOf a
  if !entryValid (d.ownerEntry f) then d
  else if d.queued f then { d with mem5.leaving := f :: d.mem5.leaving.filter (· != f) }
  else
    ({ d with mem5.owners := sput 0 d.mem5.owners f 0, mem5.leaving := d.mem5.leaving.filter (· != f) } : Device).count
      F.FUR_POOL_STATUS.FREE 1 poolRes

/-- The frames of a channel that were freed while accesses to them waited: their entries clear, now that none does (R117). -/
def Device.freeLeft (d : Device) (k : Nat) : Device :=
  (d.mem5.leaving.filter fun f => f / 32768 == k).foldl (fun d f => d.freeRes (frameAddr f)) d

/-- Free a score frame (R120, R134): it awaits its clear and returns to the pool after it; while 128 of its channel wait,
it stays allocated and is freed once the channel's next window has opened. A frame withdrawn under R154 never
returns. The first frame that waits, or the first after those that an opening window clears, dates the wait (R136). -/
def Device.freeScore (d : Device) (f : Nat) : Device :=
  let k := f / 32768
  let w := (d.pim.awaiting.filter fun x => x.1 == k).length
  if !entryValid (d.ownerEntry f) then d
  else if w ≥ 128 then { d with pim.toFree := d.pim.toFree ++ [f] }
  else
    let c := d.chan k
    let first := decide (w = (match c.win with | some x => if d.chMode k = 1 then x.clears else 0 | none => 0))
    let d := if first then { d.setChan k { c with clearSince := d.pim.seq } with pim.seq := d.pim.seq + 1 } else d
    ({ d with mem5.owners := sput 0 d.mem5.owners f 0, pim.awaiting := d.pim.awaiting ++ [(k, f % 32768)] } : Device).setFld
      F.PIM_CH_STATUS.CLEARS (w + 1) k

/-- A command that moves data of a flash frame is in flight at its root port. -/
def Device.flashBusy (d : Device) (f : Nat) : Bool :=
  match d.extentOf f with
  | none => false
  | some e =>
    let lo := d.fld F.NVM_EXT_ADDR.ADDR e + 16 * (f - d.fld F.NVM_EXT_FRAMES.FIRST e)
    d.fld F.NVM_EXT_CFG.KIND e == 1 && d.host.nvme.any fun c =>
      (c.kind == .read || c.kind == .write || c.kind == .page) && c.port == d.fld F.NVM_EXT_CFG.PORT e && c.nsid == d.fld F.NVM_EXT_CFG.NSID e && decide (c.lba < lo + 16) && decide (lo < c.lba + c.count)

/-- The outstanding commands of a root port. -/
def Device.nvmeOf (d : Device) (p : Nat) : List NvmeCmd := d.host.nvme.filter fun c => c.port == p

/-- The headwater area of a root port, one eighth of the image's (log entry 21): its queues lie in the first half, its
staging and metadata buffers in the second. -/
def Device.rootArea (d : Device) (p : Nat) : Nat × Nat :=
  match d.cfg.image with
  | some im => match im.areas.find? fun x => decide (x.1 = .rootPorts) with
    | some (_, base, size) => (base + p * (size / 8), size / 8)
    | none => (0, 0)
  | none => (0, 0)

/-- The next command identifier of a root port. -/
def Device.nextNvme (d : Device) (p : Nat) : Nat × Device :=
  let id := sget 0 d.host.nvmeNext p
  (id, { d with host.nvmeNext := sput 0 d.host.nvmeNext p ((id + 1) % 65536) })

/-- Where the buffers of a command with so many bytes stand: the first place of the port's buffer half, after its start or after the buffers
of an outstanding command, at which they meet no buffer of an outstanding command; none where there is no room (log entry 21). -/
def Device.stagingAt (d : Device) (p n : Nat) : Option Nat :=
  let (base, size) := d.rootArea p
  let used := (d.nvmeOf p).flatMap (·.windows)
  ((base + size / 2) :: used.map fun w => (w.1 + w.2 + 4095) / 4096 * 4096).find? fun a =>
    decide (a + n ≤ base + size) && used.all fun w => decide (a + n ≤ w.1) || decide (w.1 + w.2 ≤ a)

/-- Submit a command to a drive: its queue is dealt round robin over the port's I/O queues (R364), and its staging and
metadata buffers are its windows. `lba` is what its entry holds in command dwords 10 and 11. -/
def Device.submit (d : Device) (c : NvmeCmd) (opcode nsid : Nat) : Device :=
  let (id, d) := d.nextNvme c.port
  let queues := max 1 (d.fld F.NVM_PORT_STATUS.QUEUES c.port)
  let q := match c.kind with
    | .read | .write | .trim | .page => 1 + id % queues
    | _ => 0
  let room := if c.count = 0 then none else d.stagingAt c.port (c.count * 4104)
  let c := { c with id := id, queue := q, nsid := nsid, at_ := d.now, opcode := opcode,
                    windows := match room with
                      | some a => [(a, c.count * 4096), (a + c.count * 4096, c.count * 8)]
                      | none => [] }
  let d := { d with host.nvme := d.host.nvme ++ [c] }
  (d.setFld F.NVM_PORT_STATS.OUTSTANDING (d.nvmeOf c.port).length c.port).emit (.nvme c.port q opcode nsid c.lba c.count id)

/-- Free a flash frame: VALID clears, the ciphertext stays; TRIM deallocates it where the port is set so and the
controller reports it (Table 15.5), by a Dataset Management command with its range in staging. While a command on it is in flight the entry stays as it is, and clears after it (R117). -/
def Device.freeFlash (d : Device) (f : Nat) : Device :=
  if !entryValid (sget 0 d.mem5.flashOwners f) then d
  else if d.flashBusy f then { d with mem5.leavingFlash := f :: d.mem5.leavingFlash.filter (· != f) }
  else
    let d := { d with mem5.leavingFlash := d.mem5.leavingFlash.filter (· != f) }
    let d := (d.setFlashOwner f 0).count F.FUR_POOL_STATUS.FREE 1 poolFlash
    match d.extentOf f with
    | some e =>
      let p := d.fld F.NVM_EXT_CFG.PORT e
      if d.fld F.NVM_EXT_CFG.KIND e == 1 && d.on F.NVM_PORT_CFG.TRIM p && d.host.trimOk.contains p then
        let d := d.submit { port := p, id := 0, kind := .trim, lba := 4 * 2 ^ 32, count := 1 } 9 (d.fld F.NVM_EXT_CFG.NSID e)
        match d.host.nvme.getLast?.bind (·.windows.head?) with
        | some (a, _) => d.store a (leBytes 4 0 ++ leBytes 4 16 ++ leBytes 8 (d.fld F.NVM_EXT_ADDR.ADDR e + 16 * (f - d.fld F.NVM_EXT_FRAMES.FIRST e)))
        | none => d
      else d
    | none => d

end Sys2Proof.Machine
end

