-- ==== Sys2Proof/Machine/EntryOps.lean ====
section
/-! DEFINITION. Sys2Proof/Machine/EntryOps.lean: slot records (spec/08), admitted entries and the cores that run
them: stopping an entry (R44, R72, R73), exclusion tags (R47), and the core table. -/

namespace Sys2Proof.Machine

/-- Replace every listed value of a table, dropping those that become the default. -/
def smapVals {α : Type} [DecidableEq α] (dflt : α) (f : Nat → α → α) : SMap α → SMap α
  | [] => []
  | (k, v) :: m => scons dflt k (f k v) (smapVals dflt f m)

/-! ### Slot records (Tables 8.1 and 8.2) -/

/-- A list cut or padded with zeros. -/
def fitNat (n : Nat) (xs : List Nat) : List Nat := (xs ++ List.replicate n 0).take n

/-- The 128 bytes of a slot image; those of a FREE slot are zeros (log entry 184). -/
def imageBytes (s : SlotImg) : List Byte :=
  if s.state = 0 then List.replicate 128 0
  else pack ([(1, s.state + 8 * b2n s.pendingV + 16 * s.cls + 64 * b2n s.handoff), (1, s.reason), (1, s.depth + 16 * s.held),
    (1, s.ckptK + 128 * b2n s.ckptLag), (4, s.furrow), (4, s.draft), (3, s.jst), (1, s.ckptPhase), (8, s.seed), (4, s.pending),
    (4, s.temperature), (4, s.topP), (2, s.topK), (2, s.flume), (4, s.end0), (4, s.end1), (4, s.outLimit), (4, s.outCount),
    (4, s.promptCount), (4, s.specProposed), (4, s.specRejected), (4, s.screenState), (2, s.screenTable), (6, 0)] ++
    (fitNat 8 s.proposals).map (fun t => (4, t)) ++ [(8, s.turn), (8, 0)])

/-- The 96 bytes of a slot's turn state. -/
def turnBytes (t : SlotTurn) : List Byte :=
  pack ([(1, t.doneSeq), (1, b2n t.verdict), (1, t.accepted), (1, t.proposed), (1, t.ending), (1, t.draft), (1, b2n t.staged),
    (1, b2n t.finalChunk), (4, t.top1Token), (4, t.top1Logit), (6, t.stageAddr), (1, t.next), (1, 0)] ++
    (fitNat 9 t.tokens).map (fun x => (4, x)) ++ (fitNat 8 t.drafted).map (fun x => (4, x)) ++ [(4, 0)])

/-- The headwater address of a slot record (R192). -/
def Device.slotAddr (d : Device) (i : Nat) : Nat := d.areaBase .slotTable + 256 * i

/-- A slot. -/
def Device.slot (d : Device) (i : Nat) : Slot := sget {} d.gen.slots i
/-- A slot's committed SCREEN_TABLE changes: USERS of both handles follow (Table 9.12). -/
def Device.countUsers (d : Device) (old new : Nat) : Device :=
  if old = new then d
  else
    let d := if old < 1024 then d.countDown F.SCR_TABLE.USERS 1 old else d
    if new < 1024 then d.count F.SCR_TABLE.USERS 1 new else d

/-- Replace a slot; the bytes of its record follow. -/
def Device.setSlot (d : Device) (i : Nat) (s : Slot) : Device :=
  let d := d.countUsers (d.slot i).img.screenTable s.img.screenTable
  ({ d with gen.slots := sput {} d.gen.slots i s } : Device).mirror (d.slotAddr i) (imageBytes s.img ++ turnBytes s.ts)
/-- Change a slot's image. -/
def Device.modImg (d : Device) (i : Nat) (f : SlotImg → SlotImg) : Device := d.setSlot i { d.slot i with img := f (d.slot i).img }
/-- Change a slot's turn state. -/
def Device.modTs (d : Device) (i : Nat) (f : SlotTurn → SlotTurn) : Device := d.setSlot i { d.slot i with ts := f (d.slot i).ts }
/-- A slot's state code (Table 8.1). -/
def Device.slotState (d : Device) (i : Nat) : Nat := (d.slot i).img.state

/-- A field of the request that waits at a slot (Table 8.2): offset within the record and bytes. -/
def Device.postFld (d : Device) (i off n : Nat) : Nat := leValue (((d.slot i).post.drop (off - 224)).take n)

/-- POST returns to idle, and no request waits. -/
def Device.postIdle (d : Device) (i : Nat) : Device :=
  let d := d.storeVal (d.slotAddr i + 224) 1 0
  { d with gen.slots := sput {} d.gen.slots i { d.slot i with post := [] } }

/-- A program has stored `n` bytes at an address: a store to a slot's POST that finds it 0x00 posts the request that the post block then
holds; one that finds another value posts nothing, and that request is lost (R201). `before` is the device before the store. -/
def Device.notePosts (d before : Device) (addr n : Nat) : Device :=
  let first := (addr - (d.slotAddr 0 + 224) + 255) / 256
  ((List.range (n / 256 + 1)).map (first + ·)).foldl (fun (d : Device) i =>
    let a := d.slotAddr i + 224
    if i < 4096 ∧ addr ≤ a ∧ a < addr + n ∧ before.load a 1 = 0 ∧ d.load a 1 ≠ 0 then
      { d with gen.slots := sput {} d.gen.slots i { d.slot i with post := d.bytes a 32 } }
    else d) d

/-- The slots that are not FREE, in ascending number. -/
def Device.liveSlots (d : Device) : List Nat := (d.gen.slots.filter fun x => x.2.img.state != 0).map (·.1)

/-! ### Cores and entries -/

/-- The key of a core: 64 × plot + logical index (R101). -/
def coreKey (plot core : Nat) : Nat := plot * 64 + core

/-- A core's state. -/
def Device.core (d : Device) (plot core : Nat) : Core := sget {} d.cores (coreKey plot core)

/-- Replace a core's state. -/
def Device.setCore (d : Device) (plot core : Nat) (c : Core) : Device :=
  { d with cores := sput {} d.cores (coreKey plot core) c }

/-- The admitted entry at a rota position. -/
def Device.admittedAt (d : Device) (i : Nat) : Option Admitted := d.turn.admitted.find? fun a => a.index == i

/-- Change the admitted entry at a rota position. -/
def Device.modAdmitted (d : Device) (i : Nat) (f : Admitted → Admitted) : Device :=
  { d with turn.admitted := d.turn.admitted.map fun a => if a.index = i then f a else a }

/-- A core that abandons the entry it runs (R73): its waits and barriers are released, its answers will be discarded. -/
def Core.halt (c : Core) (i : Nat) : Core :=
  { c with entry := none, wait := .none, xputs := 0, appends := 0, nextEntry := max c.nextEntry (i + 1) }

/-- Halt every core that runs the entry at a rota position, and drop the answers its operations await (R73). -/
def Device.haltEntry (d : Device) (i : Nat) : Device :=
  let runs := fun (p c : Nat) => (d.core p c).entry == some i
  { d with
    cores := smapVals {} (fun _ c => if c.entry = some i then c.halt i else c) d.cores
    slu.ctxs := d.slu.ctxs.map fun x =>
      match x.iss with
      | .core p c run _ _ => if runs p c && run == (d.core p c).run then { x with abandoned := true } else x
      | _ => x }

/-- The plots of a mask. -/
def plotsOf (m : BitVec 64) : List Nat := (List.range 64).filter fun p => m.getLsbD p

/-- The kinds of Table 2.5 that serve a sequence of this device (R44). -/
def servesSequence (kind : Nat) : Bool := kind == 1 || kind == 2 || kind == 5

/-- Put an exclusion tag of the device's own on its seal (R47): reason 1 LATE, 2 SKIPPED. -/
def Device.tag (d : Device) (reason jst : Nat) : Device :=
  if d.turn.tags.contains (reason, jst) then d else { d with turn.tags := (reason, jst) :: d.turn.tags }

/-- An entry is reported LATE (R44, R45). A SCREEN_UPDATE entry reports nothing here (R227). -/
def Device.reportLate (d : Device) (a : Admitted) : Device :=
  if a.e.kind = 3 then d
  else
    let d := (d.count F.TURN_LATE_COUNT.LATE).event F.TURN_EVENTS.LATE
    if servesSequence a.e.kind then d.tag 1 a.e.jst else d

/-- What stopping an entry changes beside its own state: the plots count it, with the time to its halt (within 2 µs, R72; log
entry 3), and a DRAFT entry's slot reads stopped early (R206). -/
def Device.noteStop (d : Device) (a : Admitted) : Device :=
  let d := (plotsOf a.plotsLeft).foldl (fun (d : Device) p =>
    ((d.count F.PLOT_STOP_STATS.STOPS 1 p).peak F.PLOT_STOP_STATS.MAX_STOP (d.free 64 % 2001) p).drew) d
  if a.e.kind = 5 then d.modTs a.e.slot fun t => { t with draft := 3 } else d

/-- A plot whose entries of the turn have all ended or stopped is READY (Table 3.13). -/
def Device.plotRests (d : Device) (p : Nat) : Device :=
  if d.fld F.PLOT_STATUS.STATE p ≠ 2 ∨ (d.turn.admitted.any fun a => decide (a.state = .running) && a.plotsLeft.getLsbD p) = true then d
  else d.setFld F.PLOT_STATUS.STATE 1 p

/-- An entry that has stopped leaves its plots. -/
def Device.leavePlots (d : Device) (a : Admitted) : Device := (plotsOf a.plotsLeft).foldl Device.plotRests d

/-- Stop an admitted entry that has not finished: its cores halt and its sequence is reported LATE (R44, R70, R78). -/
def Device.stopLate (d : Device) (i : Nat) : Device :=
  match d.admittedAt i with
  | none => d
  | some a =>
    if a.state = .running then
      let d := d.haltEntry i
      let d := d.noteStop a
      ((d.modAdmitted i fun a => { a with state := .late, plotsLeft := 0 }).leavePlots a).reportLate a
    else d

/-- Stop an entry without any report (R72, R73, R82). -/
def Device.stopBare (d : Device) (i : Nat) : Device :=
  match d.admittedAt i with
  | none => d
  | some a =>
    if a.state = .running then
      (((d.haltEntry i).noteStop a).modAdmitted i fun a => { a with state := .stopped, plotsLeft := 0 }).leavePlots a
    else d

/-- Stop an entry for a cancellation, without a LATE report (R72, R241). -/
def Device.stopQuiet (d : Device) (i : Nat) : Device :=
  match d.admittedAt i with
  | none => d
  | some a =>
    if a.state = .running then ((plotsOf a.plotsLeft).foldl (fun d p => d.setFld F.PLOT_EVENTS.CANCEL_STOP 1 p) d).stopBare i else d

/-- The physical core that serves a logical index of a plot: the two unmapped cores are skipped (R80). -/
def Device.physical (d : Device) (plot logical : Nat) : Nat :=
  let a := d.fld F.PLOT_SPARE_MAP.UNMAPPED_A plot
  let b := d.fld F.PLOT_SPARE_MAP.UNMAPPED_B plot
  let lo := min a b
  let hi := max a b
  let x := if lo ≤ logical then logical + 1 else logical
  if hi ≤ x then x + 1 else x

/-- An error record's core context (Table 18.2): plot in bits 15:8, physical core in bits 7:0. -/
def Device.coreRec (d : Device) (plot core : Nat) (r : ErrRec) : ErrRec :=
  let a := ((d.core plot core).entry.bind d.admittedAt)
  { r with unitKind := 1, unit := plot * 256 + d.physical plot core, pcDesc := (d.core plot core).pc,
           slot := (a.map (·.e.slot)).getD 0xFFFF, jst := (a.map (·.e.jst)).getD 0xFFFFFF }

/-- A core's instruction is refused as illegal (R70): the entry stops, its sequence is LATE, and a record is written. -/
def Device.illegal (d : Device) (plot core word : Nat) : Device :=
  let d := d.record (d.coreRec plot core { cause := 4, severity := 1, detail := [(8, word)] })
  let d := d.setFld F.PLOT_EVENTS.ILLEGAL_INSN 1 plot
  match (d.core plot core).entry with
  | some i => d.stopLate i
  | none => d

/-- An operation of a core ended with a status other than OK (R272): a record, and the entry stops. -/
def Device.remoteFailed (d : Device) (plot core status node : Nat) : Device :=
  let d := d.record (d.coreRec plot core { cause := 6, severity := 1, status := status, node := node })
  match (d.core plot core).entry with
  | some i => d.stopLate i
  | none => d

/-- An operation of the entry at a rota position of a turn ended with a status other than OK after its core went on (R272, R274): a record, and
the entry stops if it still runs. -/
def Device.issuerFailed (d : Device) (plot core entry turn status node : Nat) : Device :=
  let a := if turn = d.turnNo then d.admittedAt entry else none
  let d := d.record { d.coreRec plot core { cause := 6, severity := 1, status := status, node := node } with
                        slot := (a.map (·.e.slot)).getD 0xFFFF, jst := (a.map (·.e.jst)).getD 0xFFFFFF }
  if a.isSome then d.stopLate entry else d

end Sys2Proof.Machine
end

