-- ==== Sys2Proof/Machine/SluOps.lean ====
section
/-! DEFINITION. Sys2Proof/Machine/SluOps.lean: what every unit that moves data needs of the sluice engines (spec/11):
contexts and their ends, completion records, messages out and their answers, dead nodes. -/

namespace Sys2Proof.Machine

/-! ### Contexts -/

/-- The context of an engine. -/
def Device.ctx (d : Device) (e c : Nat) : Option SluCtx := d.slu.ctxs.find? fun x => x.eng == e && x.id == c

/-- Change a context. -/
def Device.modCtx (d : Device) (e c : Nat) (f : SluCtx → SluCtx) : Device :=
  { d with slu.ctxs := d.slu.ctxs.map fun x => if x.eng = e ∧ x.id = c then f x else x }

/-- Contexts in use on an engine. -/
def Device.ctxCount (d : Device) (e : Nat) : Nat := (d.slu.ctxs.filter fun x => x.eng == e).length

/-- A free context number of an engine (R246). -/
def Device.freeCtx (d : Device) (e : Nat) : Option Nat := firstFrom (fun c => (d.ctx e c).isNone) 0 4096

/-- Open a context for a descriptor; none when the engine has no free context and the issuer waits (R246). -/
def Device.openCtx (d : Device) (e : Nat) (desc : Desc) (iss : Issuer) (fn : Fn) (payload : List Byte := []) :
    Option (Nat × Device) :=
  (d.freeCtx e).map fun c =>
    let d := { d with slu.ctxs := d.slu.ctxs ++ [({ eng := e, id := c, desc := desc, iss := iss, fn := fn, payload := payload } : SluCtx)] }
    (c, d.setFld F.SLU_ENG_STATUS.OUTSTANDING (d.ctxCount e) e)

/-- The engine of a die with the fewest outstanding contexts, the lowest on ties (Table 11.1). -/
def Device.leastEngine (d : Device) (die : Nat) : Nat :=
  (List.range 16).foldl (fun best i => if d.ctxCount (die * 16 + i) < d.ctxCount best then die * 16 + i else best) (die * 16)

/-- A host queue beside its registers. -/
def Device.hq (d : Device) (q : Nat) : HostQ := sget {} d.host.qs q
/-- Replace a host queue's state. -/
def Device.setHq (d : Device) (q : Nat) (h : HostQ) : Device := { d with host.qs := sput {} d.host.qs q h }

/-- The ring size of a host queue. -/
def Device.hqSize (d : Device) (q : Nat) : Nat := 2 ^ d.fld F.HQ_Q_CTRL.LOG2_SIZE q

/-- The host address of an entry of a queue. -/
def Device.hqEntry (d : Device) (q index : Nat) : Nat := d.fld F.HQ_Q_BASE.ADDR q * 4096 + 64 * index

/-- Take the entry at HEAD of a queue: its 64 bytes are read from the ring (R354, R355). -/
def Device.hqTake (d : Device) (q : Nat) : Device :=
  let head := d.fld F.HQ_Q_STATUS.HEAD q
  (d.setFld F.HQ_Q_STATUS.HEAD ((head + 1) % d.hqSize q) q).emit (.hostRead (d.ringFn .HQ_Q_BASE q) (d.hqEntry q head) 64)

/-- Write a completion record to a SLUICE queue's ring (R252, R357, Table 11.4). -/
def Device.cplRecord (d : Device) (x : SluCtx) (q index status : Nat) (late : Bool) : Device :=
  let h := d.hq q
  let size := 2 * 2 ^ d.fld F.HQ_Q_CTRL.LOG2_SIZE q
  let bs := pack [(8, x.desc.tag), (8, x.result), (8, d.turnNo), (4, index + x.eng * 0x10000), (1, status),
    (1, min x.retries 255), (1, b2n late + 2 * b2n (!x.desc.chain)), (1, phase h.written size)]
  let d := d.hostWrite ⟨x.fn.port, 0⟩ (d.fld F.HQ_Q_CPL_BASE.ADDR q * 4096 + 32 * (h.written % size)) bs
  let d := d.setHq q { h with written := h.written + 1, reserved := h.reserved - 1 }
  let d := d.setFld F.HQ_Q_STATUS.WRITTEN ((h.written + 1) % 2 ^ 32) q
  let d := if status = 1 then d.event F.SLU_EVENTS.VIOLATION_OUT else d
  d.signal (d.fld F.HQ_Q_CTRL.VECTOR q)

/-- The key of a descriptor program of a queue. -/
def progKey (q prog : Nat) : Nat := prog * 256 + q

/-- A put has been answered (R274): the core may issue another; the count that XWAIT tests is that of the run that issued it. -/
def Device.putAnswered (d : Device) (plot core run : Nat) : Device :=
  let k := d.core plot core
  d.setCore plot core { k with unanswered := k.unanswered - 1, xputs := if k.run = run then k.xputs - 1 else k.xputs,
                               wait := if k.wait = .xput then .none else k.wait }

/-- A core's operation has been answered (R271 to R274): the core goes on, or the entry that issued it stops under R272; what an
abandoned entry issued changes nothing else (R73). -/
def Device.coreAnswered (d : Device) (x : SluCtx) (plot core run entry turn status : Nat) : Device :=
  let d := if x.desc.cls = 1 then d.putAnswered plot core run else d
  if x.abandoned then d
  else if status ≠ 0 then d.issuerFailed plot core entry turn status x.desc.node
  else if x.desc.cls = 1 then d
  else
    let k := d.core plot core
    let k := if x.desc.opcode = 4 then { k with s := sput 0 k.s x.desc.tag (x.result % 2 ^ 64) } else k
    d.setCore plot core { k with wait := .none }

/-- The TYPE byte of a handoff message (Table 12.2). -/
def hoType (data : List Byte) : Nat := leValue ((data.drop 14).take 1)

/-- A descriptor of a program has ended with a status other than OK: the lowest such position counts (R251). -/
def Device.progFails (d : Device) (q prog pos : Nat) : Device :=
  let e := sget 0 d.slu.progErr (progKey q prog)
  { d with slu.progErr := sput 0 d.slu.progErr (progKey q prog) (if e = 0 then pos + 1 else min e (pos + 1)) }

/-- What an issuer learns when its descriptor ends (Table 11.1): a completion record, an answered core, or a count. -/
def Device.tellIssuer (d : Device) (x : SluCtx) (status : Nat) (late : Bool) : Device :=
  match x.iss with
  | .hostQ q index prog pos =>
    let d := if status ≠ 0 ∧ late = false then d.progFails q prog pos else d
    if x.desc.quiet && status == 0 then d else d.cplRecord x q index status late
  | .core p c run entry turn => if late then d else d.coreAnswered x p c run entry turn status
  | .handoff f op =>
    if status = 0 then d
    else { d with ho.failed := d.ho.failed ++ [{ desc := f, node := x.desc.node, status := status, ty := hoType x.payload, op := op }] }
  | .screen h => { d with scr.fetchEnded := some (h, status) }
  | .fingerprint => if status ≠ 0 then d.countSat F.ERR_SHADOW_STATS.SEND_FAILED else d
  | .furrow _ (.fetch _) =>
    { d with fur.fetches := d.fur.fetches.map fun (f : Fetch) =>
        if f.ctx = some (x.eng, x.id) then { f with ended := some status, ctx := none, got := x.result } else f }
  | .furrow _ (.move _) =>
    { d with fur.moves := d.fur.moves.map fun (m : Move) =>
        if m.ctx = some (x.eng, x.id) then { m with ended := some status, ctx := none } else m }
  | .furrow _ .none => d

/-- A descriptor has taken a context: the fetch or the move that it serves knows it by that. -/
def Device.ctxTaken (d : Device) (iss : Issuer) (e c : Nat) : Device :=
  match iss with
  | .furrow _ (.fetch g) =>
    { d with fur.fetches := d.fur.fetches.map fun (f : Fetch) => if f.page = g then { f with ctx := some (e, c) } else f }
  | .furrow _ (.move g) =>
    { d with fur.moves := d.fur.moves.map fun (m : Move) => if m.page = g then { m with ctx := some (e, c) } else m }
  | _ => d

/-- The engine that an internal descriptor takes (Table 11.1): the screen engine's is 31; a waiting one names its die. -/
def Device.engineOf (d : Device) (w : SluCtx) : Nat :=
  match w.iss with
  | .screen _ => 31
  | _ => d.leastEngine w.eng

/-- The first internal descriptor that has waited for a context and whose engine has one takes it (R246). -/
def Device.admitWaiting (d : Device) : Device :=
  match d.slu.waiting.find? fun w => (d.freeCtx (d.engineOf w)).isSome with
  | none => d
  | some w =>
    match ({ d with slu.waiting := d.slu.waiting.erase w } : Device).openCtx (d.engineOf w) w.desc w.iss w.fn w.payload with
    | some (c, d) => d.ctxTaken w.iss (d.engineOf w) c
    | none => d

/-- Issue an internal descriptor on a die: it takes a context of its engine (Table 11.1), or waits for one (R246). -/
def Device.issue (d : Device) (die : Nat) (desc : Desc) (iss : Issuer) (fn : Fn) (payload : List Byte := []) : Device :=
  let w : SluCtx := { eng := die, id := 0, desc := desc, iss := iss, fn := fn, payload := payload }
  match d.openCtx (d.engineOf w) desc iss fn payload with
  | some (c, d') => d'.ctxTaken iss (d.engineOf w) c
  | none => { d with slu.waiting := d.slu.waiting ++ [w] }

/-- Release a context once nothing of it remains; what it still reserved of the completion ring is released (R357). -/
def Device.closeCtx (d : Device) (e c : Nat) : Device :=
  match d.ctx e c with
  | none => d
  | some x =>
    let d := { d with slu.ctxs := d.slu.ctxs.filter fun y => !(y.eng == e && y.id == c) }
    let d := (d.setFld F.SLU_ENG_STATUS.OUTSTANDING (d.ctxCount e) e).admitWaiting
    match x.iss with
    | .hostQ q _ _ _ =>
      let used := b2n (!(x.desc.quiet && x.status == 0)) + b2n x.late
      d.setHq q { d.hq q with reserved := (d.hq q).reserved - (2 - used) }
    | _ => d

/-- A descriptor ends with a status and a result (R252, R264): its issuer is told; the context closes unless messages of
it are still unanswered. -/
def Device.endCtx (d : Device) (e c status result : Nat) : Device :=
  match d.ctx e c with
  | none => d
  | some x =>
    if x.done then d
    else
      let x := { x with done := true, started := true, status := status, result := result }
      let d := (d.modCtx e c fun _ => x).tellIssuer x status false
      if x.pending = 0 then d.closeCtx e c else d

/-! ### Messages out -/

/-- A new message ID (R314): a 48-bit counter. -/
def Device.newMsgId (d : Device) : Nat × Device := (d.fab.msgId, { d with fab.msgId := (d.fab.msgId + 1) % 2 ^ 48 })

/-- The device's own node. -/
def Device.node (d : Device) : Nat := d.fld F.FAB_NODE.NODE

/-- The payload of packet i of a message. -/
def pktPayload (data : List Byte) (i : Nat) : List Byte := (data.drop (i * 4096)).take 4096

/-- The packets of a message (R314): 4,096 bytes each, all of one MSG_ID and ATTEMPT. -/
def mkPackets (src dest tc msgId attempt : Nat) (enc : Bool) (kind : Nat) (op : OpHdr) (data : List Byte) : List Packet :=
  (List.range (max 1 (ceilDiv data.length 4096))).map fun i =>
    { dest := dest, src := src, tc := tc, enc := enc, msgId := msgId, attempt := attempt, kind := kind,
      offset := if data.isEmpty then 0 else i * 4096, total := data.length, plen := (pktPayload data i).length, op := op,
      payload := pktPayload data i }

/-- Hand packets to the weirs (R341). A packet to the device itself does not leave it (R21): the message is delivered to
the device's own receiving units. -/
def Device.sendPackets (d : Device) (ps : List Packet) : Device :=
  { d with rt.wait := d.rt.wait ++ ps.map fun p => { pkt := p, clear := p.payload } }

/-- A request or atomic answer carries no payload of its own, yet TOTAL is at least 1 in any packet that is not an answer
packet (R318): it carries one byte of zero (log entry 25). -/
def wireData (op : OpHdr) (data : List Byte) : List Byte :=
  if data = [] ∧ (op.op = 2 ∨ op.op = 4 ∨ op.op = 5) then [0] else data

/-- A packet is dropped for want of its owner slot's key (R318). -/
def Device.noKey (d : Device) (packets : Nat := 1) : Device :=
  (d.count F.FAB_RX_DROPS.NO_KEY packets).eventSig F.FAB_EVENTS.NO_KEY F.FAB_VECTOR.VECTOR

/-- Send a message: across the fabric, or to the device itself without leaving it, under the same key check (R21; log entry 174). -/
def Device.sendData (d : Device) (dest tc msgId attempt : Nat) (enc : Bool) (kind : Nat) (op : OpHdr) (data : List Byte) :
    Device :=
  if dest = d.node then
    if enc && !d.hasKey (op.owner % 4096) then d.noKey (max 1 (ceilDiv data.length 4096))
    else { d with slu.inbox := d.slu.inbox ++ [{ src := d.node, msgId := msgId, attempt := attempt, hdr := op, tc := tc, data := data }] }
  else d.sendPackets (mkPackets d.node dest tc msgId attempt enc kind op (wireData op data))

/-- Send a message without an operation header (R314): a single packet of KIND BARE. -/
def Device.sendBare (d : Device) (dest tc : Nat) (data : List Byte) : Device :=
  let (id, d) := d.newMsgId
  d.sendData dest tc id 0 false 2 { op := 0 } data

/-- Send an answer to a request (R263, R314): ACK 6, NACK 7, FAULT 8 are answer packets; the others carry data. -/
def Device.answer (d : Device) (m : Msg) (op status operand : Nat) (data : List Byte := []) : Device :=
  let (id, d) := d.newMsgId
  d.sendData m.src m.tc id 0 true 1
    { op := op, owner := m.hdr.owner, subop := status, operand := operand, reqId := m.msgId } data

/-- Local bytes of a sluice operation: device memory, or what the host answered to the read (`hd`). -/
def Device.sourceBytes (d : Device) (host : Bool) (a n : Nat) (hd : List Byte) : List Byte :=
  if host then hd.take n else d.readMem a n

/-- What a message sends of its bytes: coded when it is to be coded and coding gains (R85, R94), as its header then says; `seen` is what the
counting pass read of a source that has changed since (R95). -/
def OutMsg.wire (o : OutMsg) (seen data : List Byte) : OpHdr × List Byte :=
  if o.code = 0 then (o.hdr, data)
  else match encodePasses (o.code - 1) seen data with
    | some bs => ({ o.hdr with codedWire := true, tables := o.code - 1 }, bs)
    | none => ({ o.hdr with codedWire := false, tables := 0 }, data)

/-- Count bytes towards a field of MiB. -/
def Device.countMib (d : Device) (f : Field) (n e kept : Nat) : Device × Nat :=
  let m := kept + n
  (if m / 0x100000 = 0 then d else d.count f (m / 0x100000) e, m % 0x100000)

/-- Count the bytes an engine sends. -/
def Device.sentBytes (d : Device) (e n : Nat) : Device :=
  let (d, k) := d.countMib F.SLU_ENG_STATS.OUT_MIB n e (sget 0 d.slu.sentBytes e)
  { d with slu.sentBytes := sput 0 d.slu.sentBytes e k }

/-- Count the bytes an engine receives. -/
def Device.gotBytes (d : Device) (e n : Nat) : Device :=
  let (d, k) := d.countMib F.SLU_ENG_STATS.IN_MIB n e (sget 0 d.slu.recvBytes e)
  { d with slu.recvBytes := sput 0 d.slu.recvBytes e k }

/-- Count the bytes of a message that the device sent to itself: those of one that crossed the fabric are counted packet by packet. -/
def Device.gotOwn (d : Device) (m : Msg) : Device := if m.src = d.node then d.gotBytes ((m.src + m.msgId) % 32) m.data.length else d

/-- Register a message that awaits its answer, and send it (R262, R266). -/
def Device.post (d : Device) (o : OutMsg) (data : List Byte) (seen : List Byte := []) : Device :=
  let (id, d) := d.newMsgId
  let (h, bs) := o.wire seen data
  let d := ({ d with slu.msgs := d.slu.msgs ++ [{ o with msgId := id, hdr := h }] } : Device).sentBytes o.eng bs.length
  d.sendData o.node o.cls id 0 true 1 h bs

/-- A region of an unlisted index is FREE with generation 0 (R254). -/
def Device.region (d : Device) (r : Nat) : Region := sget {} d.slu.regions r

/-- The 32 bytes of a region entry (Table 11.5). -/
def Region.bytes (g : Region) : List Byte :=
  leBytes 32 (g.base * 2 ^ 208 + g.length * 2 ^ 160 + g.gen * 2 ^ 144 + g.secret * 2 ^ 96 + g.scopeNode * 2 ^ 80 +
    g.inFlight % 65536 * 2 ^ 64 + g.owner * 2 ^ 52 + g.fn * 2 ^ 47 + b2n g.host * 2 ^ 46 + g.scope * 2 ^ 44 + b2n g.odp * 2 ^ 43 +
    g.perm * 2 ^ 40 + g.state * 2 ^ 32 + g.odpTable)

/-- Replace a region entry; its bytes in headwater follow. -/
def Device.setRegion (d : Device) (r : Nat) (g : Region) : Device :=
  ({ d with slu.regions := sput {} d.slu.regions r g } : Device).mirror (d.fld F.SLU_REGION_BASE.ADDR * 65536 + 32 * r) g.bytes

/-- Release one count of a region (R259); a REVOKING region that no message holds is left for REVOKE_COMPLETE (R260). -/
def Device.regionDone (d : Device) (r : Nat) : Device :=
  if r = 0xFFFF then d else d.setRegion r { d.region r with inFlight := (d.region r).inFlight - 1 }

/-- A response has left: the count it held is released (R259). One of which a packet was dropped never leaves whole. -/
def Device.responseLeft (d : Device) (msgId : Nat) : Device :=
  match d.slu.serving.find? fun x => x.resp == msgId && !x.cut with
  | some x => ({ d with slu.serving := d.slu.serving.erase x } : Device).regionDone x.m.hdr.region
  | none => d

/-- A packet of a response has been dropped before it left: its request ends as R263 abandons it. -/
def Device.responseCut (d : Device) (msgId : Nat) : Device :=
  { d with slu.serving := d.slu.serving.map fun x => if x.resp = msgId then { x with cut := true } else x }

/-- A FLUSH that has heard the last of the messages it waits for ends with the lowest failure code (R265). -/
def Device.flushDone (d : Device) : Device :=
  let done := d.slu.ctxs.filter fun x => x.desc.opcode == 5 && x.started && !x.done && x.watch == []
  let d := done.foldl (fun d x => d.endCtx x.eng x.id x.status 0) d
  if d.on F.SLU_FLUSH_STATUS.ACTIVE && d.slu.flushWatch == [] then
    (d.setFld F.SLU_FLUSH_STATUS.ACTIVE 0).setFld F.SLU_FLUSH_STATUS.STATUS d.slu.flushStatus
  else d

/-- The lowest non-zero code of two (R265). -/
def lowestCode (a b : Nat) : Nat := if a = 0 then b else if b = 0 then a else min a b

/-- A message has been answered or has failed: every FLUSH that waits for it learns its status (R265). -/
def Device.unwatch (d : Device) (msgId status : Nat) : Device :=
  let d := { d with
    slu.ctxs := d.slu.ctxs.map fun (x : SluCtx) =>
      if x.watch.contains msgId then { x with watch := x.watch.filter (· != msgId), status := lowestCode x.status status } else x
    slu.flushStatus := if d.slu.flushWatch.contains msgId then lowestCode d.slu.flushStatus status else d.slu.flushStatus
    slu.flushWatch := d.slu.flushWatch.filter (· != msgId) }
  d.flushDone

/-- What the end of one message does to its context (R252, R264): the descriptor ends at its last answer, or a write that
has already completed OK draws one late-error record. -/
def Device.msgEnded (d : Device) (o : OutMsg) (status : Nat) : Device :=
  match d.ctx o.eng o.ctx with
  | none => d
  | some x =>
    let x := { x with pending := x.pending - 1, status := if x.status = 0 ∧ x.done = false then status else x.status }
    let d := d.modCtx o.eng o.ctx fun _ => x
    if x.done then
      let d :=
        if status ≠ 0 ∧ x.status = 0 ∧ x.late = false ∧ x.desc.opcode = 2 then
          let y := { x with late := true }
          (d.modCtx o.eng o.ctx fun _ => y).tellIssuer y status true
        else d
      if x.pending = 0 then d.closeCtx o.eng o.ctx else d
    else if x.pending = 0 && x.msgsLeft == 0 then d.endCtx o.eng o.ctx x.status (if x.status = 0 then x.result else x.placed)
    else d

/-- The message with an ID that awaits its answer. -/
def Device.outMsg (d : Device) (id : Nat) : Option OutMsg := d.slu.msgs.find? fun o => o.msgId == id

/-- A message ends with a status: it leaves the list of those that wait. -/
def Device.settle (d : Device) (o : OutMsg) (status : Nat) : Device :=
  let d := { d with
    slu.msgs := d.slu.msgs.filter fun x => x.msgId != o.msgId
    rt.wait := d.rt.wait.filter fun t => !(t.pkt.src == d.node && t.pkt.msgId == o.msgId) }
  (d.msgEnded o status).unwatch o.msgId status

/-- A packet of a message has left (R264, R341): a WRITE without AT_PLACEMENT completes once the last packet of its last
message has left the weirs. -/
def Device.departed (d : Device) (msgId : Nat) : Device :=
  let d := if d.rt.wait.any fun t => t.pkt.src == d.node && t.pkt.msgId == msgId then d else d.responseLeft msgId
  match (d.outMsg msgId).bind fun o => d.ctx o.eng o.ctx with
  | none => d
  | some x =>
    let waits := d.slu.msgs.any fun o => o.eng == x.eng && o.ctx == x.id &&
      d.rt.wait.any fun t => t.pkt.src == d.node && t.pkt.msgId == o.msgId
    if x.desc.opcode = 2 ∧ x.desc.atPlacement = false ∧ x.msgsLeft = 0 ∧ waits = false then
      d.endCtx x.eng x.id x.status x.placed
    else d

/-- Declare a node dead (R269): everything outstanding to it ends DEAD_TARGET at once. -/
def Device.declareDead (d : Device) (node : Nat) : Device :=
  let d := if d.rt.dead.contains node then d
    else (({ d with rt.dead := node :: d.rt.dead } : Device).setFld F.SLU_DEAD_LAST.NODE node).count F.SLU_DEAD_LAST.COUNT
  let p := sget {} d.ho.peers node
  let lost := p.held.map fun (h : HoHeld) => ({ desc := h.desc, node := node, status := 4, ty := hoType h.data, op := h.op } : HoFailed)
  let d := { d with ho.peers := sput {} d.ho.peers node {}, ho.failed := d.ho.failed ++ lost }
  let d := d.event F.SLU_EVENTS.DEAD_TARGET
  let d := (d.slu.ctxs.filter fun x => x.desc.opcode == 5 && x.desc.node == node && x.started && !x.done).foldl
    (fun d x => d.endCtx x.eng x.id 4 0) d
  let d := if d.on F.SLU_FLUSH_STATUS.ACTIVE && d.fld F.SLU_FLUSH_STATUS.NODE == node then
      ({ d with slu.flushWatch := [] } : Device).setFld F.SLU_FLUSH_STATUS.ACTIVE 0 |>.setFld F.SLU_FLUSH_STATUS.STATUS 4
    else d
  (d.slu.msgs.filter fun o => o.node == node).foldl (fun d o => d.settle o 4) d

/-- The mark of a dead node clears (R269). -/
def Device.reviveNode (d : Device) (node : Nat) : Device := { d with rt.dead := d.rt.dead.filter (· != node) }

/-- Resend a message whole under its ID, with the next ATTEMPT (R266, R268): its source is read again,
`hd` being what the host answers where the source is host memory. -/
def Device.resend (d : Device) (o : OutMsg) (hd : List Byte) (seen : List Byte := []) : Device :=
  let o := { o with attempt := o.attempt + 1 }
  let d := { d with slu.msgs := d.slu.msgs.map fun (x : OutMsg) => if x.msgId = o.msgId then o else x }
  let data := if o.hdr.op = 1 ∧ o.data = [] then d.sourceBytes o.srcHost o.src o.len hd else o.data
  let (h, bs) := o.wire seen data
  (d.sentBytes o.eng bs.length).sendData o.node o.cls o.msgId o.attempt true 1 h bs

/-- Open a context for an internal SEND of a payload to a node (R249, Table 11.1); with none free the descriptor waits
(R246). Its message goes with SLUICE_SEND. -/
def Device.internalSend (d : Device) (die : Nat) (iss : Issuer) (node owner cls : Nat) (payload : List Byte) : Device :=
  d.issue die { opcode := 14, node := node, owner := owner, cls := cls, length := payload.length } iss ⟨0, 0⟩ payload

/-! ### Region events (R261) -/

/-- Write a region event record (Table 11.8): dropped when the ring is off or full. -/
def Device.regionEvent (d : Device) (m : Msg) (len kind reason gen : Nat) : Device :=
  if !d.on F.SLU_EV_CTRL.ENABLE then d
  else
    let bs := pack [(8, d.turnNo), (8, m.hdr.offset), (4, len), (2, m.hdr.region), (2, m.src), (2, gen), (1, kind), (1, reason),
      (1, m.hdr.op), (2, 0), (1, 0)]
    let p := d.fld F.SLU_EV_PRODUCED.PRODUCED
    let (d, ok) := d.ringPut (d.ringFn .SLU_EV_BASE) (d.fld F.SLU_EV_BASE.ADDR * 4096) (2 ^ d.fld F.SLU_EV_CTRL.LOG2_SIZE)
      p (d.fld F.SLU_EV_CONSUMED.CONSUMED) 32 bs
    if ok then (d.setFld F.SLU_EV_PRODUCED.PRODUCED (p + 1)).signal (d.fld F.SLU_EV_CTRL.VECTOR)
    else d.event F.SLU_EVENTS.EV_OVERFLOW

end Sys2Proof.Machine
end

