-- ==== Sys2Proof/Machine/LadderOps.lean ====
section
/-! DEFINITION. Sys2Proof/Machine/LadderOps.lean: the reset controller's bookkeeping (R427, R429, Tables 18.4, 18.5):
which domain a step covers, beginning a step, and what a PF's write may do while a step runs. -/

namespace Sys2Proof.Machine

/-- The number of units of each kind that a step 1 or 2 reset may name (ERR_RESET_CMD.KIND 1 to 9). -/
def unitCount (kind domain : Nat) : Nat :=
  match kind with
  | 1 => 32
  | 2 => 320
  | 3 => 1
  | 4 => 56
  | 5 => 8
  | 6 => 64
  | 7 => if domain = 1 then 8 else if domain = 4 then 1 else 2
  | 8 => 2
  | 9 => 1
  | _ => 0

/-- The ladder step of a kind (Table 18.4). -/
def kindStep (kind : Nat) : Nat := if kind ≤ 5 then 1 else if kind ≤ 7 then 2 else if kind = 8 then 3 else 4

/-- The die on which a unit sits (Table 1.2). -/
def unitDie (kind domain index : Nat) : Nat :=
  match kind with
  | 1 => index / 16
  | 2 => index / 160
  | 3 => 1
  | 4 => index / 28
  | 5 => index / 4
  | 6 => index / 32
  | 7 => if domain = 1 then index / 4 else if domain = 4 then 1 else index
  | 8 => index
  | _ => 0

/-- The unit domain (Table 18.5) that holds an engine of step 1: its domain code and index. -/
def unitDomain (kind index : Nat) : Nat × Nat :=
  match kind with
  | 1 => (0, index / 16)
  | 2 => (1, index / 40)
  | 3 => (4, 0)
  | 4 => (2, index / 28)
  | _ => (3, index / 4)

/-- Whether one domain wholly covers another (R427). -/
def covers (a b : Ladder) : Bool :=
  a.step ≥ 4 ||
  (a.kind == 8 && (b.kind == 8 && a.index == b.index || b.kind != 8 && b.kind != 9 && unitDie b.kind b.domain b.index == a.index)) ||
  (a.kind == 7 && (b.kind == 7 && a.domain == b.domain && a.index == b.index ||
    b.kind ≤ 5 && unitDomain b.kind b.index == (a.domain, a.index))) ||
  (a.kind == b.kind && a.domain == b.domain && a.index == b.index)

/-- A running step covers a domain wholly. -/
def Device.covered (d : Device) (l : Ladder) : Bool := d.err.running.any fun a => covers a l

/-- A running step covers a domain in part: it lies within the domain asked for (R429). -/
def Device.coveredPart (d : Device) (l : Ladder) : Bool := d.err.running.any fun a => covers a l || covers l a

/-- The record a step writes (Table 18.3): RESET, RESET_TIMEOUT or FATAL. The domain index of a unit domain carries its DOMAIN code
in bits 15:12, as ERR_RESET_CMD does (log entry 16). -/
def Ladder.record (l : Ladder) (cause severity : Nat) : ErrRec :=
  { cause := cause, severity := severity, unitKind := 13,
    detail := [(1, l.step), (1, l.kind), (2, l.index + 4096 * l.domain), (1, l.cause)] }

/-- Begin a step: its RESET record, its event, its place among the running steps. -/
def Device.stepBegins (d : Device) (l : Ladder) : Device :=
  let d := d.record (l.record 0x12 3)
  let d := { d with err.running := (d.err.running.filter fun b => !covers l b) ++ [l] }
  let d := d.eventSig F.ERR_EVENTS.RESET_STEP F.ERR_CTRL.VECTOR
  let d := (d.setFld F.ERR_RESET_STATUS.STEP l.step).setFld F.ERR_RESET_STATUS.KIND l.kind
  d.setFld F.ERR_RESET_STATUS.ACTIVE 1

/-- Begin a step, unless a running step covers its domain wholly: the reset then joins that step (R427). -/
def Device.beginStep (d : Device) (l : Ladder) : Device := if d.covered l then d else d.stepBegins l

/-- A step ends. -/
def Device.endStep (d : Device) (l : Ladder) : Device :=
  let d := { d with err.running := d.err.running.filter (· != l) }
  if d.err.running.isEmpty then d.setFld F.ERR_RESET_STATUS.ACTIVE 0 else d

/-- Steps 3 and 4 run: BAR0 reads return zero and BAR0 and BAR2 writes are ignored (R428). -/
def Device.barClosed (d : Device) : Bool :=
  d.err.running.any (fun l => l.step ≥ 3) || d.on F.ERR_RESET_STATUS.FATAL || d.pwr.held

/-- What a PF's write to BAR0 or BAR2 does (R351, R385, R428): only the holder's write acts; during steps 3 and 4 none
does; while a profile switch runs none outside the CFG_ and HQ_ blocks does (`open_` marks those blocks). -/
def Device.asHolder (d : Device) (port : Nat) (f : Device → Device) (open_ : Bool := false) : Device :=
  if d.barClosed then d
  else if d.holder ≠ some port then d.count F.HQ_STATS.FOREIGN
  else if d.fld F.CFG_STATUS.STATE = 2 && !open_ then d
  else f d

end Sys2Proof.Machine
end

