-- ==== Sys2Proof/Machine/LinkOps.lean ====
section
/-! DEFINITION. Sys2Proof/Machine/LinkOps.lean: packets as bytes (R313), routing lookups (R323, R328), the links' transmit
and receive sides and what going DOWN does (R305 to R312, R335). -/

namespace Sys2Proof

/-! ### Packets as bytes -/

/-- The 48 bytes of an operation header (Table 11.9). -/
def OpHdr.bytes (o : OpHdr) : List Byte :=
  pack [(8, o.key), (8, o.offset), (2, o.region), (1, o.op), (1, b2n o.codedWire + 2 * o.tables), (2, o.owner), (1, o.subop),
    (1, 0), (8, o.operand), (8, o.compare), (8, o.reqId)]

/-- The 32 bytes of a routing header (Table 13.6). -/
def Packet.header (p : Packet) : List Byte :=
  pack [(2, p.dest), (2, p.src), (1, p.tc + 8 * b2n p.enc), (1, p.epoch), (1, p.hops), (1, p.version), (6, p.msgId),
    (1, p.attempt), (1, p.kind), (4, p.offset), (4, p.total), (2, p.plen), (3, p.salt), (3, 0)]

/-- A packet as it travels (R313). -/
def Packet.bytes (p : Packet) : List Byte :=
  p.header ++ (if p.kind = 1 then p.op.bytes else []) ++ p.payload ++ (if p.enc then p.tag else [])

/-- The length of a packet on the wire, from its routing header. -/
def Packet.wireLen (p : Packet) : Nat := 32 + (if p.kind = 1 then 48 else 0) + p.plen + (if p.enc then 16 else 0)

/-- A little-endian field of a byte list. -/
def fieldAt (bs : List Byte) (i n : Nat) : Nat := leValue ((bs.drop i).take n)

/-- An operation header read from bytes. -/
def OpHdr.ofBytes (bs : List Byte) : OpHdr :=
  { key := fieldAt bs 0 8, offset := fieldAt bs 8 8, region := fieldAt bs 16 2, op := fieldAt bs 18 1,
    codedWire := (fieldAt bs 19 1).testBit 0, tables := bitsOf (fieldAt bs 19 1) 1 2, owner := fieldAt bs 20 2 % 4096,
    subop := fieldAt bs 22 1, operand := fieldAt bs 24 8, compare := fieldAt bs 32 8, reqId := fieldAt bs 40 8 }

/-- A packet read from bytes, its routing header first. -/
def Packet.ofBytes (bs : List Byte) : Packet :=
  let kind := fieldAt bs 15 1
  let plen := fieldAt bs 24 2
  let at_ := 32 + (if kind = 1 then 48 else 0)
  let enc := (fieldAt bs 4 1).testBit 3
  { dest := fieldAt bs 0 2, src := fieldAt bs 2 2, tc := fieldAt bs 4 1 % 8, enc := enc,
    epoch := fieldAt bs 5 1, hops := fieldAt bs 6 1, version := fieldAt bs 7 1, msgId := fieldAt bs 8 6,
    attempt := fieldAt bs 14 1 % 16, kind := kind, offset := fieldAt bs 16 4, total := fieldAt bs 20 4, plen := plen,
    salt := fieldAt bs 26 3 % 2 ^ 20, op := if kind = 1 then OpHdr.ofBytes (bs.drop 32) else { op := 0 },
    payload := (bs.drop at_).take plen, tag := if enc then (bs.drop (at_ + plen)).take 16 else [],
    rsvd := decide (fieldAt bs 4 1 ≥ 16) || decide (fieldAt bs 14 1 ≥ 16) || fieldAt bs 29 3 != 0 ||
      decide (fieldAt bs 26 3 ≥ 2 ^ 20) ||
      (kind == 1 && (decide (fieldAt bs 51 1 ≥ 8) || decide (fieldAt bs 52 2 ≥ 4096) || fieldAt bs 55 1 != 0)) }

/-! ### Flits as bytes (R305, Table 13.3) -/

/-- The TYPE code of a flit. -/
def FlitType.code : FlitType → Nat
  | .data => 1
  | .idle => 2
  | .param => 3
  | .turn => 4

/-- The header of a flit as one number, bits as Table 13.3 numbers them. -/
def Flit.header (f : Flit) : Nat :=
  f.ty.code * 2 ^ 60 + f.seq % 4096 * 2 ^ 48 + f.ack % 4096 * 2 ^ 36 + b2n f.nak * 2 ^ 35 + b2n f.sop * 2 ^ 34 + f.tc % 8 * 2 ^ 31 +
    f.creditTc % 8 * 2 ^ 28 + f.credits % 4096 * 2 ^ 16 + f.bodyLen % 256 * 2 ^ 8 + f.tack % 256

/-- The 256 bytes of a flit: header, body and CRC-64 over bytes 247:0. -/
def Flit.bytes (f : Flit) : List Byte :=
  let bs := leBytes 8 f.header ++ (f.body ++ List.replicate 240 0).take 240
  bs ++ leBytes 8 (Config.crc64 bs).toNat

/-- A flit's CRC-64 is correct (R305). -/
def flitCrcOk (bs : List Byte) : Bool := fieldAt bs 248 8 == (Config.crc64 (bs.take 248)).toNat

/-- The TYPE of a flit's bytes is the one given. -/
def isFlit (ty : FlitType) (bs : List Byte) : Bool := bitsOf (fieldAt bs 0 8) 60 4 == ty.code

/-- A flit of a TYPE read from its bytes; a TURN flit's TSEQ is eight bits. -/
def Flit.ofBytes (ty : FlitType) (bs : List Byte) : Flit :=
  let v := fieldAt bs 0 8
  { ty := ty, seq := bitsOf v 48 (if ty = .turn then 8 else 12), ack := bitsOf v 36 12, nak := bitOf v 35, sop := bitOf v 34,
    tc := bitsOf v 31 3, creditTc := bitsOf v 28 3, credits := bitsOf v 16 12, bodyLen := bitsOf v 8 8, tack := bitsOf v 0 8,
    body := (bs.drop 8).take 240 }

end Sys2Proof

namespace Sys2Proof.Machine

/-! ### Routing maps (R322 to R328) -/

/-- The bank in use. -/
def Device.activeBank (d : Device) : MapBank := if d.on F.FAB_ROUTE_STATUS.ACTIVE_BANK then d.rt.bank1 else d.rt.bank0
/-- The bank not in use. -/
def Device.otherBank (d : Device) : MapBank := if d.on F.FAB_ROUTE_STATUS.ACTIVE_BANK then d.rt.bank0 else d.rt.bank1
/-- Replace the bank not in use. -/
def Device.setOther (d : Device) (b : MapBank) : Device :=
  if d.on F.FAB_ROUTE_STATUS.ACTIVE_BANK then { d with rt.bank0 := b } else { d with rt.bank1 := b }

/-- A node's map entry (Table 14.2). -/
def MapBank.entry (b : MapBank) (node : Nat) : Nat := sget 0 b.entries node
/-- An entry with a route: VALID set and DEAD clear (R323). -/
def MapBank.hasRoute (b : MapBank) (node : Nat) : Bool := (b.entry node).testBit 31 && !(b.entry node).testBit 30
/-- The links allowed for a node and class: SET_A for classes 1 to 3, SET_B for classes 4 to 6 (Table 14.2). -/
def MapBank.links (b : MapBank) (node cls : Nat) : Nat :=
  sget 0 b.sets (if cls ≤ 3 then b.entry node % 4096 else b.entry node / 4096 % 4096)

/-- The bank that routes a packet of an epoch: the ACTIVE bank, or the other while ARMED or RETAINED (R328). -/
def Device.bankFor (d : Device) (epoch : Nat) : Option MapBank :=
  let st := d.fld F.FAB_ROUTE_STATUS.OTHER_STATE
  if d.activeBank.epoch = epoch then some d.activeBank
  else if (st = 3 ∨ st = 4) ∧ d.otherBank.epoch = epoch then some d.otherBank
  else none

/-- The packet is routed by the RETAINED bank. -/
def Device.oldRouted (d : Device) (epoch : Nat) : Bool :=
  d.fld F.FAB_ROUTE_STATUS.OTHER_STATE == 4 && d.activeBank.epoch != epoch && d.otherBank.epoch == epoch

/-! ### Links -/

/-- A link's state beside its registers. -/
def Device.link (d : Device) (l : Nat) : Link := sget {} d.fab.links l
/-- Replace a link's state. -/
def Device.setLink (d : Device) (l : Nat) (k : Link) : Device := { d with fab.links := sput {} d.fab.links l k }
/-- A link's state code (Table 13.4). -/
def Device.linkState (d : Device) (l : Nat) : Nat := d.fld F.FAB_LINK_STATUS.STATE l
/-- A link is ACTIVE. -/
def Device.linkActive (d : Device) (l : Nat) : Bool := d.linkState l == 5
/-- A link exists: its port is present and its mode gives it lanes (Table 13.1). -/
def Device.linkExists (d : Device) (l : Nat) : Bool :=
  d.part.link l && (let m := d.fld F.FAB_LINK_CFG.MODE l; m == 2 || m == 1 && l % 2 == 0)

/-- The flits that a packet of some bytes fills (R305). -/
def flitsOf (bytes : Nat) : Nat := ceilDiv bytes 240
/-- Flits waiting on a link. -/
def Link.waiting (k : Link) : Nat :=
  (k.queue.map fun t => flitsOf t.pkt.wireLen).sum + flitsOf k.sending.length

/-- Send a class 0 message on link 2k of a port (R302, R330): one packet in one TURN flit; lost when the link is not
ACTIVE (R320). -/
def Device.sendTurn (d : Device) (port : Nat) (payload : List Byte) : Device :=
  let l := 2 * port
  let (id, d) := d.newMsgId
  if d.linkActive l then
    let p : Packet := { dest := d.fld F.FAB_LINK_STATUS.PEER_NODE l, src := d.node, tc := 0, epoch := d.activeBank.epoch,
                        msgId := id, kind := 2, total := payload.length, plen := payload.length, payload := payload,
                        salt := d.fld F.FAB_CTRL.SALT }
    d.setLink l { d.link l with turnQueue := (d.link l).turnQueue ++ [p.bytes] }
  else d

/-- The ports of a children register that are present. -/
def Device.children (d : Device) (f : Field) : List Nat :=
  (List.range 56).filter fun k => (d.fld f).testBit k && d.part.port k

/-- A link that leads to a seal child is not ACTIVE before the device has sent its SEAL (R47): that part has failed. -/
def Device.noteSealLink (d : Device) (l : Nat) : Device :=
  let k := l / 2
  if l % 2 = 0 && (d.children F.TURN_SEAL_CHILDREN.PORTS).contains k && !d.turn.sealSent && !d.turn.linkDown.contains k then
    { d with turn.linkDown := k :: d.turn.linkDown }
  else d

/-- The neighbour of a link is dead once every link its map entry allows is down (R269). -/
def Device.neighbourLost (d : Device) (node : Nat) : Bool :=
  let b := d.activeBank
  b.hasRoute node && ((List.range 112).all fun l =>
    !(((b.links node 1).testBit l || (b.links node 4).testBit l) && d.linkActive l))

/-- The direct neighbours that a link that has gone down leaves without a port of their map entry up (R269): a neighbour is a node that is
known as the peer of some link (the link has agreed a version with it). -/
def Device.lostBy (d : Device) (l : Nat) : List Nat :=
  let peers := ((List.range 112).filter fun k => d.fld F.FAB_LINK_STATUS.VERSION k != 0).map fun k => d.fld F.FAB_LINK_STATUS.PEER_NODE k
  peers.eraseDups.filter fun n =>
    let b := d.activeBank
    ((b.links n 1).testBit l || (b.links n 4).testBit l) && d.neighbourLost n && !d.rt.dead.contains n

/-- What going DOWN discards and re-routes (R312); `next` is the state the link then has. WIDTH, PEER_NODE and VERSION: DESIGN CHOICE,
log entry 212. -/
def Device.linkFall (d : Device) (l reason next : Nat) : Device :=
  let k := d.link l
  let wasActive := d.linkActive l
  let d := (d.setFld F.FAB_LINK_STATUS.STATE next l).setFld F.FAB_LINK_STATUS.DOWN_REASON reason l
  let d := d.setFld F.FAB_LINK_STATUS.WIDTH 0 l
  let d := d.setLink l { outFlits := k.outFlits, inFlits := k.inFlits }
  let d := { d with rt.wait := d.rt.wait ++ k.queue.map fun (t : TxPacket) => { t with own := false } }
  let d := d.count F.FAB_LINK_REPLAY.DOWNS 1 l
  let d := d.eventSig F.FAB_EVENTS.LINK_DOWN F.FAB_VECTOR.VECTOR
  let d := d.noteSealLink l
  if wasActive then (d.lostBy l).foldl Device.declareDead d else d

/-- A link goes DOWN with a reason (R311, R312). -/
def Device.linkDown (d : Device) (l reason : Nat) : Device := d.linkFall l reason 6

/-- The PARAM flit body a link sends (Table 13.5). -/
def Device.paramBody (d : Device) (l : Nat) : List Byte :=
  let credits := (List.range 8).map fun c => (2, if c = 0 then 16 else if c = 7 then 0 else 18)
  let bs := pack ([(4, 0x5A54414C), (1, 0x10), (1, 0x10), (2, d.node), (1, l), (1, d.fld F.FAB_LINK_STATUS.WIDTH l),
    (1, b2n (d.link l).peerSeen), (1, 0)] ++ credits ++ [(2, 1024)])
  bs ++ List.replicate (240 - bs.length) 0

/-- A link becomes ACTIVE (R309): credits and identity of the peer, sequence numbers at their start (log entry 17), the
mark of a dead neighbour cleared (R269). -/
def Device.linkUp (d : Device) (l : Nat) : Device :=
  let k := d.link l
  let body := k.lastParam
  let d := d.setLink l { k with credits := (List.range 7).map fun c => fieldAt body (12 + 2 * c) 2,
                                txSeq := 0, rxAck := 4095, turnSeq := 0, rxTack := 255, nak := false, discarding := false }
  let d := (d.setFld F.FAB_LINK_STATUS.STATE 5 l).setFld F.FAB_LINK_STATUS.PEER_NODE (fieldAt body 6 2) l
  let d := (d.setFld F.FAB_LINK_STATUS.PEER_LINK (fieldAt body 8 1) l).setFld F.FAB_LINK_STATUS.VERSION
    (min 0x10 (fieldAt body 4 1)) l
  (d.reviveNode (fieldAt body 6 2)).eventSig F.FAB_EVENTS.LINK_UP F.FAB_VECTOR.VECTOR

/-- The versions of two PARAM bodies agree (R309): one major, and the lower HIGHEST at least both LOWEST. -/
def versionsAgree (body : List Byte) : Bool :=
  let hi := fieldAt body 4 1
  let lo := fieldAt body 5 1
  let v := min 0x10 hi
  hi / 16 == 1 && decide (v ≥ 0x10) && decide (v ≥ lo)

/-- A link may join PARAM to ACTIVE: a PARAM with PEER_SEEN received and one sent (R309). -/
def Link.ready (k : Link) : Bool := k.sentSeen && (fieldAt k.lastParam 10 1).testBit 0

/-- Drop the kept flits up to the one acknowledged. -/
def ackTo (seq : Nat) (kept : List (Nat × Flit)) : List (Nat × Flit) :=
  if kept.any fun x => x.2.seq == seq then (kept.dropWhile fun x => x.2.seq != seq).drop 1 else kept

/-- What every flit with a correct CRC tells an ACTIVE link's transmitter (R306, R307): ACK, NAK, TACK and credits. -/
def Device.rxCommon (d : Device) (l : Nat) (f : Flit) : Device :=
  let k := d.link l
  let replay := ackTo f.ack k.replay
  let turnReplay := ackTo f.tack k.turnReplay
  let credits := k.credits.modify f.creditTc (· + f.credits)
  let k := { k with replay := replay, turnReplay := turnReplay, credits := credits,
                    resend := if f.nak then replay else k.resend.filter fun x => replay.any fun y => y.2.seq == x.2.seq,
                    turnResend := k.turnResend.filter fun x => turnReplay.any fun y => y.2.seq == x.2.seq }
  let d := d.setLink l k
  if f.nak then d.count F.FAB_LINK_REPLAY.REPLAYS 1 l else d

/-- A flit with a failed CRC (R306): counted, and NAK goes in the next flit. -/
def Device.rxBad (d : Device) (l : Nat) : Device :=
  (d.setLink l { d.link l with nak := true, discarding := true }).count F.FAB_LINK_REPLAY.CRC_FAIL 1 l

end Sys2Proof.Machine
end

