-- ==== Sys2Proof/Machine/Certs.lean ====
section
/-! DEFINITION. Sys2Proof/Machine/Certs.lean: certificates (R398), chains and the verifying of signed objects (R399), the outer form of
firmware and metergate images (R402), the header, directory, set record and KEYS section of Damrus images (R377, R380, R381, R409),
and the certificates that a part was made with (R403, R420). -/

namespace Sys2Proof.Machine

/-! ### Certificates and chains -/

/-- A certificate (Table 17.2); `signed` is what its signature covers, bytes 159:0. -/
structure Cert where
  magic : Nat
  usage : Nat
  serial : Nat
  issuerId : Nat
  subjectId : Nat
  publicKey : List Byte
  signature : List Byte
  signed : List Byte
  deriving DecidableEq, Repr

/-- The certificate that 256 bytes hold (R398). -/
def Cert.ofBytes (bs : List Byte) : Cert :=
  { magic := fieldAt bs 0 4, usage := fieldAt bs 4 1, serial := fieldAt bs 8 8, issuerId := fieldAt bs 16 16,
    subjectId := fieldAt bs 32 16, publicKey := fit 97 (bs.drop 48), signature := fit 96 (bs.drop 160), signed := fit 160 bs }

/-- The ID of a public key: the first 16 bytes of SHA-384 over it (R398). -/
def subjectOf (key : List Byte) : Nat := (Config.sha384 key).toNat % 2 ^ 128

/-- One certificate of a chain, issued by the holder of `issuer`: it is a certificate (its MAGIC; log entry 190), its SUBJECT_ID matches
its key, its ISSUER_ID the issuer's, and its signature verifies under the issuer's key (R399). -/
def Cert.holds (c : Cert) (issuer : List Byte) : Bool :=
  c.magic == 0x5A544345 && c.subjectId == subjectOf c.publicKey && c.issuerId == subjectOf issuer &&
    Config.ecdsaVerify issuer c.signed c.signature

/-- Every certificate of a list holds, each issued by the one after it and the last by the root key; all but the first have USAGE CA
(R399). -/
def certsHold (root : List Byte) (first : Bool) : List Cert → Bool
  | [] => true
  | c :: cs =>
    c.holds ((cs.head?.map (·.publicKey)).getD root) && (first || c.usage == 1) && certsHold root false cs

/-- ROOT_KEY of a chain: bytes 104:8. -/
def chainRoot (chain : List Byte) : List Byte := fit 97 (chain.drop 8)

/-- The certificates of a chain, the signer's first: COUNT of them from byte 128. -/
def chainCerts (chain : List Byte) : List Cert :=
  (List.range (fieldAt chain 0 1)).map fun i => Cert.ofBytes (chain.drop (128 + 256 * i))

/-- An object verifies for a purpose (R399): `root` is the purpose's root fuse and `usage` its USAGE. -/
def verifies (root : BitVec 384) (usage : Nat) (object signature chain : List Byte) : Bool :=
  decide (1 ≤ fieldAt chain 0 1) && decide (fieldAt chain 0 1 ≤ 3) && decide (chain.length ≥ 128 + 256 * fieldAt chain 0 1) &&
    Config.sha384 (chainRoot chain) == root && certsHold (chainRoot chain) true (chainCerts chain) &&
    match chainCerts chain with
    | signer :: _ => signer.usage == usage && Config.ecdsaVerify signer.publicKey object signature
    | [] => false

/-! ### Firmware and metergate images (R402) -/

/-- The body of an image in the form of R402. -/
def outerBody (file : List Byte) : List Byte := file.take (fieldAt file 8 4)

/-- An image in the form of R402 has its MAGIC and lengths, and verifies under R399; `limit` bounds TOTAL_BYTES. An image that breaks
the form does not verify (log entry 190). -/
def outerOk (part : Part) (magic usage limit : Nat) (file : List Byte) : Bool :=
  let n := fieldAt file 8 4
  fieldAt file 0 4 == magic && decide (64 ≤ n) && n % 64 == 0 && fieldAt file 12 4 == file.length &&
    decide (file.length ≤ limit) && verifies (Config.rootFuse part.uid usage) usage (outerBody file) (fit 96 (file.drop n)) (file.drop (n + 96))

/-- A firmware image of bytes: SVN is six bits (Table 17.3). -/
def fwOfBytes (file : List Byte) : FwImage :=
  { file := file, svn := fieldAt file 4 1 % 64, digest := Config.sha384 (outerBody file) }

/-- A firmware image verifies (R399). -/
def fwVerifies (part : Part) (im : FwImage) : Bool := outerOk part 0x5A544657 2 0xC00000 im.file

/-- A metergate image of bytes, with its configuration block (R416): INTERVAL, and AUDIT_COUNT audit nodes of at most 8. -/
def mtrOfBytes (file : List Byte) : MtrImage :=
  { file := file, svn := fieldAt file 4 1 % 64, digest := Config.sha384 (outerBody file), interval := fieldAt file 64 2,
    audit := (List.range (min 8 (fieldAt file 66 1))).map fun i => fieldAt file (68 + 2 * i) 2 }

/-- A metergate image verifies (R399). -/
def mtrVerifies (part : Part) (im : MtrImage) : Bool := outerOk part 0x5A544D47 4 0x400000 im.file

/-! ### Damrus images (R377 to R381) -/

/-- BODY_BYTES of a Damrus image. -/
def bodyLen (file : List Byte) : Nat := fieldAt file 12 4

/-- SIGNED_BYTES of a Damrus image. -/
def signedLen (file : List Byte) : Nat := fieldAt file 20 4

/-- The set record of a Damrus image: it follows the body, with its MEMBERS digests (R380). -/
def setRecord (file : List Byte) : List Byte :=
  let s := file.drop (bodyLen file)
  s.take (64 + 48 * fieldAt s 6 2)

/-- The directory of a Damrus image: TYPE, FLAGS, OFFSET and LENGTH of each section (R377). -/
def sectionsOf (file : List Byte) : List (Nat × Nat × Nat × Nat) :=
  (List.range (fieldAt file 16 2)).map fun i =>
    let b := 64 + 16 * i
    (fieldAt file b 2, fieldAt file (b + 2) 1, fieldAt file (b + 4) 4, fieldAt file (b + 8) 4)

/-- The bytes of the section of a TYPE. -/
def sectionBytes (file : List Byte) (type : Nat) : List Byte :=
  match (sectionsOf file).find? fun x => x.1 == type with
  | some (_, _, off, len) => (file.drop off).take len
  | none => []

/-- A Damrus image of bytes, with what its sections fix. -/
def imageOfBytes (file : List Byte) (secs : Sections) : Image :=
  let keys := sectionBytes file 0x0A
  { toSections := secs, file := file, partCode := fieldAt file 6 2, archGen := fieldAt file 8 1 % 16, steppings := fieldAt file 10 2,
    home := (fieldAt file 9 1).testBit 0, shadow := (fieldAt file 9 1).testBit 1, primary := fieldAt file 18 2,
    roleTag := fieldAt file 28 4, epoch := fieldAt (setRecord file) 4 2, bodyDigest := Config.sha384 (file.take (bodyLen file)),
    cfgDigest := Config.sha384 (setRecord file), kmHash := fieldAt keys 0 48, keyFlags := fieldAt keys 48 1 % 8,
    slotLimit := fieldAt keys 50 2 }

/-- Two ranges of a list overlap. -/
def overlaps : List (Nat × Nat) → Bool
  | [] => false
  | (b, n) :: rest => rest.any (fun r => decide (b < r.1 + r.2) && decide (r.1 < b + n)) || overlaps rest

/-- Check 1, SIGNATURE (Table 16.4): the signature over bytes 0 to SIGNED_BYTES − 1 verifies under the configuration root. -/
def imageSigned (part : Part) (file : List Byte) : Bool :=
  let n := signedLen file
  verifies (Config.rootFuse part.uid 3) 3 (file.take n) (fit 96 (file.drop n)) (file.drop (n + 96))

/-- The reserved fields of a Damrus image's header and directory are zero. -/
def reservedZero (file : List Byte) : Bool :=
  bitsOf (fieldAt file 8 1) 4 4 == 0 && bitsOf (fieldAt file 9 1) 2 6 == 0 && bitsOf (fieldAt file 10 2) 3 13 == 0 &&
    fieldAt file 32 32 == 0 && (List.range (fieldAt file 16 2)).all fun i =>
      let b := 64 + 16 * i
      bitsOf (fieldAt file (b + 2) 1) 1 7 == 0 && fieldAt file (b + 3) 1 == 0 && fieldAt file (b + 12) 4 == 0

/-- Check 2, FORMAT (Table 16.4): MAGIC, FORMAT, the reserved fields, the lengths of R377, and sections inside the body that do not
overlap. -/
def imageFormed (file : List Byte) : Bool :=
  let secs := sectionsOf file
  fieldAt file 0 4 == 0x5A544449 && fieldAt file 4 2 == 1 && reservedZero file && bodyLen file % 64 == 0 &&
    decide (1 ≤ secs.length) && decide (secs.length ≤ 64) && decide (64 + 16 * secs.length ≤ bodyLen file) &&
    signedLen file == bodyLen file + 64 + 48 * fieldAt file (bodyLen file + 6) 2 &&
    fieldAt file 24 4 == file.length && decide (file.length ≤ 0x3800000) &&
    secs.all (fun (_, _, off, len) => off % 64 == 0 && decide (off + len ≤ bodyLen file)) &&
    !overlaps ((secs.map fun (_, _, off, len) => (off, len)).filter fun r => r.2 != 0)

/-- Check 5, SET (Table 16.4): the set record is well made (its MAGIC, 1 to 16 members, its reserved bytes zero), and the body digest is
among its members. -/
def imageInSet (im : Image) : Bool :=
  let s := setRecord im.file
  fieldAt s 0 4 == 0x5A545352 && decide (1 ≤ fieldAt s 6 2) && decide (fieldAt s 6 2 ≤ 16) && fieldAt s 8 56 == 0 &&
    (List.range (fieldAt s 6 2)).any fun i => fieldAt s (64 + 48 * i) 48 == im.bodyDigest.toNat

/-- The sections of Table 16.3 each appear exactly once, and no section of a reserved TYPE has CRITICAL set (R378). -/
def imageSections (im : Image) : Bool :=
  let secs := sectionsOf im.file
  (List.range 10).all (fun i => (secs.filter fun x => x.1 == i + 1).length == 1) &&
    secs.all (fun x => decide (1 ≤ x.1) && decide (x.1 ≤ 10) || !x.2.1.testBit 0) && im.wellMade

/-! ### The certificates of a part (R403, R420) -/

/-- The names of a part's private keys. -/
def partKey (uid : Nat) (label : String) : List Byte := ascii label ++ leBytes 8 uid

/-- The name of the private key of a CA above a part: CA 0 is Brynend's device CA (log entry 35). -/
def caKey (uid i : Nat) : List Byte := ascii "CA" ++ leBytes 8 uid ++ leBytes 1 i

/-- A public key, by what names its private key. -/
def keyOf (name : List Byte) : List Byte := leBytes 97 (Config.publicKey name).toNat

/-- The 256 bytes of a certificate that one key issued over another (Table 17.2). -/
def certBytes (usage serial : Nat) (issuer subject : List Byte) : List Byte :=
  let body := pack [(4, 0x5A544345), (1, usage), (3, 0), (8, serial), (16, subjectOf (keyOf issuer)), (16, subjectOf (keyOf subject))] ++
    fit 112 (keyOf subject)
  body ++ leBytes 96 (Config.ecdsaSign issuer body).toNat

/-- The serial number of a part's certificate (log entry 35). -/
def certSerial (uid usage : Nat) : Nat := (Config.certSerial uid usage).toNat

/-- The IDENTITY certificate, issued by the device CA (R403). -/
def identityCert (uid : Nat) : List Byte := certBytes 5 (certSerial uid 5) (caKey uid 0) (partKey uid "IDENTITY")

/-- The WRAP certificate, issued by the IDENTITY key (R403). -/
def wrapCert (uid : Nat) : List Byte := certBytes 6 (certSerial uid 6) (partKey uid "IDENTITY") (partKey uid "WRAP")

/-- The METER certificate, issued by the IDENTITY key (R403). -/
def meterCert (uid : Nat) : List Byte := certBytes 7 (certSerial uid 7) (partKey uid "IDENTITY") (partKey uid "METER")

/-- The CA certificates of a part, up to two (R403). -/
def caCerts (uid : Nat) : List Byte :=
  (List.range (min 2 (Config.caCount uid))).flatMap fun i => certBytes 1 (certSerial uid (256 + i)) (caKey uid (i + 1)) (caKey uid i)

/-- The identity record, 4 KiB (R403), its certificates in the order in which R403 lists them (log entry 35). -/
def identityRecord (uid : Nat) : List Byte := fit 4096 (identityCert uid ++ wrapCert uid ++ meterCert uid ++ caCerts uid)

/-- The certificate window of BAR4, 4 KiB (Table 17.14): METER, IDENTITY, and the CAs from 0x1200. -/
def certificateWindow (uid : Nat) : List Byte := fit 4096 (meterCert uid ++ identityCert uid ++ caCerts uid)

/-- The device ID: SUBJECT_ID of the IDENTITY certificate (R403). -/
def deviceId (uid : Nat) : Nat := subjectOf (keyOf (partKey uid "IDENTITY"))

end Sys2Proof.Machine
end

