-- ==== Sys2Proof/Machine/Layouts.lean ====
section
/-! DEFINITION. Sys2Proof/Machine/Layouts.lean: records that reach the device as bytes, by the layouts of the spec. -/

namespace Sys2Proof

/-- A record's bytes as one number, little-endian (R7): bit n of the record is bit n of it. -/
def recordOf (bytes : List Byte) (at_ n : Nat) : Nat := leValue ((bytes.drop at_).take n)

/-- A rota entry (Table 2.5). -/
def RotaEntry.ofBytes (bytes : List Byte) : RotaEntry :=
  let v := recordOf bytes 0 32
  { plotMask := BitVec.ofNat 64 (bitsOf v 192 64), program := bitsOf v 160 32, arg := bitsOf v 128 32, jst := bitsOf v 104 24,
    prefill := bitsOf v 72 24, pim := bitsOf v 48 16, kind := bitsOf v 28 4, cls := bitsOf v 24 4, specCap := bitsOf v 20 4,
    noSample := bitOf v 16, slot := bitsOf v 0 12,
    rsvd := bitsOf v 96 8 != 0 || bitsOf v 64 8 != 0 || bitsOf v 32 16 != 0 || bitsOf v 17 3 != 0 || bitsOf v 12 4 != 0 }

/-- The entries of a rota, 32 bytes each (R33). -/
def rotaEntries (bytes : List Byte) (count : Nat) : List RotaEntry :=
  (List.range count).map fun k => RotaEntry.ofBytes ((bytes.drop (32 * k)).take 32)

/-- A reservoir command descriptor (Table 6.3). -/
def PimDesc.ofBytes (bytes : List Byte) : PimDesc :=
  let v := recordOf bytes 0 32
  { a := bitsOf v 208 48, b := bitsOf v 160 48, c := bitsOf v 112 48, entry := bitsOf v 96 16, count := bitsOf v 72 16, frame := bitsOf v 57 15,
    slot := bitsOf v 55 2, topn := bitsOf v 48 7, qn := bitsOf v 45 3, dsz := bitsOf v 43 2, aspace := bitOf v 42, irq := bitOf v 41,
    opcode := bitsOf v 32 8, owner := bitsOf v 20 12, channel := bitsOf v 0 9,
    rsvd := bitsOf v 88 8 != 0 || bitOf v 40 || bitsOf v 9 11 != 0 }

/-- One byte more of a CRC-32 with the IEEE 802.3 polynomial, least significant bit first. -/
def crc32Byte (c : Nat) (b : Byte) : Nat :=
  (List.range 8).foldl (fun c _ => if c % 2 = 1 then (c / 2) ^^^ 0xEDB88320 else c / 2) (c ^^^ b.toNat)

/-- The CRC-32 of IEEE 802.3 (log entry 191). -/
def crc32 (bytes : List Byte) : Nat := bytes.foldl crc32Byte 0xFFFFFFFF ^^^ 0xFFFFFFFF

/-- A map image (R322, Tables 14.1 and 14.2): MAGIC, the CRC-32 and the header's reserved fields are checked here (R327). An entry that the
image's bytes do not reach is none (log entry 191). -/
def MapImage.ofBytes (bytes : List Byte) : MapImage :=
  let sets := recordOf bytes 6 2
  let base := 64 + 16 * sets
  { epoch := recordOf bytes 4 1, setCount := sets, sets := (List.range sets).map fun i => recordOf bytes (64 + 16 * i) 16,
    entries := (List.range (min 65536 ((bytes.length - base) / 4))).map fun n => (n, BitVec.ofNat 32 (recordOf bytes (base + 4 * n) 4)),
    ok := recordOf bytes 0 4 == 0x5A54524D && recordOf bytes 8 4 == crc32 (bytes.drop 64) && recordOf bytes 5 1 == 0 &&
      recordOf bytes 12 52 == 0 }

/-- A furrow descriptor image (Table 7.1); its reserved bits are ignored (R8). -/
def Furrow.ofBytes (bytes : List Byte) : Furrow :=
  let at_ := recordOf bytes
  { id := at_ 0 4, base := at_ 4 4, length := at_ 8 4, pushed := at_ 12 4, ppsM1 := at_ 16 2, layersM1 := at_ 18 1, headsM1 := at_ 19 1,
    rankStream := at_ 20 2, home := at_ 22 2, state := at_ 24 1 % 8, openHw := bitOf (at_ 24 1) 3, mode := bitsOf (at_ 24 1) 4 2,
    spillHome := bitOf (at_ 24 1) 6, sink := at_ 25 1 % 16, recent := at_ 26 1 % 64, top := at_ 27 1 % 128, fmt := at_ 28 1 % 16,
    dsz := bitsOf (at_ 28 1) 4 2, dM32 := at_ 29 1 % 4, owner := at_ 30 2 % 4096, scBase := at_ 32 2 % 512, scCount := at_ 34 2 % 512,
    indexAddr := at_ 36 6, openScore := at_ 42 4, lastUse := at_ 48 8 }

/-- The OPCODE of a furrow command (Table 7.2). -/
def furOpcode (bytes : List Byte) : Nat := recordOf bytes 56 8 % 256
/-- The INDEX of a furrow command (Table 7.2). -/
def furIndex (bytes : List Byte) : Nat := bitsOf (recordOf bytes 56 8) 16 18

/-- A sluice descriptor (Table 11.2). -/
def Desc.ofBytes (bytes : List Byte) : Desc :=
  let v := recordOf bytes 0 64
  { opcode := bitsOf v 0 8, chain := bitOf v 8, order := bitOf v 9, stopOnError := bitOf v 10, atPlacement := bitOf v 11, quiet := bitOf v 12,
    shared := bitOf v 13, cls := bitsOf v 16 3, coding := bitsOf v 24 2, tables := bitsOf v 26 2, owner := bitsOf v 32 12, node := bitsOf v 48 16,
    tag := bitsOf v 64 64, loc := bitsOf v 128 64, locHost := bitOf v 192, remHost := bitOf v 193, func := bitsOf v 194 5, subop := bitsOf v 200 8,
    region := bitsOf v 208 16, length := bitsOf v 224 32, remote := bitsOf v 256 64, key := bitsOf v 320 64, operand := bitsOf v 384 64,
    compare := bitsOf v 448 64,
    rsvd := bitsOf v 14 2 != 0 || bitsOf v 19 5 != 0 || bitsOf v 28 4 != 0 || bitsOf v 44 4 != 0 || bitOf v 199 }

/-- A slot image (Table 8.1); its reserved bits are ignored (R8). -/
def SlotImg.ofBytes (bytes : List Byte) : SlotImg :=
  let at_ := recordOf bytes
  { state := at_ 0 1 % 8, pendingV := bitOf (at_ 0 1) 3, cls := bitsOf (at_ 0 1) 4 2, handoff := bitOf (at_ 0 1) 6, reason := at_ 1 1,
    depth := at_ 2 1 % 16, held := at_ 2 1 / 16, ckptK := at_ 3 1 % 128, ckptLag := bitOf (at_ 3 1) 7, furrow := at_ 4 4, draft := at_ 8 4,
    jst := at_ 12 3, ckptPhase := at_ 15 1 % 64, seed := at_ 16 8, pending := at_ 24 4, temperature := at_ 28 4, topP := at_ 32 4,
    topK := at_ 36 2, flume := at_ 38 2, end0 := at_ 40 4, end1 := at_ 44 4, outLimit := at_ 48 4, outCount := at_ 52 4,
    promptCount := at_ 56 4, specProposed := at_ 60 4, specRejected := at_ 64 4,
    screenState := at_ 68 4 % 2 ^ 20 + 2 ^ 31 * (at_ 68 4 / 2 ^ 31), screenTable := at_ 72 2,
    proposals := (List.range 8).map fun i => at_ (80 + 4 * i) 4, turn := at_ 112 8 }

/-- A command of a SLOT queue (R196). -/
structure SlotCmd where
  opcode : Nat
  slot : Nat
  handle : Nat
  addr : Nat
  count : Nat
  deriving DecidableEq, Repr

/-- The 64 bytes of a slot command. -/
def SlotCmd.ofBytes (bytes : List Byte) : SlotCmd :=
  { opcode := recordOf bytes 0 1, slot := recordOf bytes 2 2 % 4096, handle := recordOf bytes 4 4, addr := recordOf bytes 8 8,
    count := recordOf bytes 16 4 }

/-- The fields of a handoff command that the device reads (Table 12.9). -/
structure HandoffCmd where
  opcode : Nat
  furrow : Nat
  node : Nat
  addr : Nat
  deriving DecidableEq, Repr

/-- The 64 bytes of a handoff command (Table 12.9). -/
def HandoffCmd.ofBytes (bytes : List Byte) : HandoffCmd :=
  { opcode := recordOf bytes 0 1, furrow := recordOf bytes 4 4, node := recordOf bytes 8 2, addr := recordOf bytes 16 8 }

/-- A flume table entry (Table 10.1); its reserved bits are ignored (R8). -/
def FlumeEntry.ofBytes (bytes : List Byte) : FlumeEntry :=
  let at_ := recordOf bytes
  { ring := at_ 0 8, log2 := at_ 8 1 % 32, valid := bitOf (at_ 8 1) 7, vf := at_ 9 1 % 32, vector := at_ 10 2 % 2048, modCount := at_ 12 1,
    modTime := at_ 14 2 }

/-- The JST of a CANCEL doorbell value (Table 10.6). -/
def cancelJst (v : Nat) : Nat := bitsOf v 16 24
/-- The SLOT of a CANCEL doorbell value (Table 10.6). -/
def cancelSlotNo (v : Nat) : Nat := bitsOf v 0 12

end Sys2Proof
end

