-- ==== Sys2Proof/Machine/ProgOps.lean ====
section
/-! DEFINITION. Sys2Proof/Machine/ProgOps.lean: the check of a plot's program image (R68, R69, R83). -/

namespace Sys2Proof.Machine

/-- A headwater address and, for a limit, the first byte after headwater (R83). -/
def progRangeOk (base limit : Nat) : Bool := decide (base < 0xC0000000) && decide (limit ≤ 0xC0000000) && decide (base < limit)

/-- The checks of R68 over the program image between two addresses. -/
def Device.programOk (d : Device) (im : Image) (base limit : Nat) : Bool :=
  let n := d.load (base + 6) 2
  let code := d.load (base + 8) 4
  progRangeOk base limit && decide (base + 64 ≤ limit) && d.load base 4 == 0x5A545031 && d.load (base + 4) 2 == 1 &&
    decide (1 ≤ n) && decide (n ≤ 4096) && code % 8 == 0 && decide (base + 64 + 8 * n + code ≤ limit) &&
    d.load (base + 12) 4 == crc32 (d.bytes (base + 64 + 8 * n) code) &&
    d.load (base + 16) 8 == im.bodyDigest.toNat % 2 ^ 64 && d.load (base + 24) 2 == im.epoch

/-- A plot checks the program image that takes effect (R68): its entry points are taken, or PROG_CHECK is set. -/
def Device.checkProgram (d : Device) (p : Nat) : Device :=
  let base := d.fld F.PLOT_PROG_BASE.ADDR p * 4096
  let limit := d.fld F.PLOT_PROG_LIMIT.ADDR p * 4096
  let plot : PlotState := sget {} d.plots p
  let ok := match d.cfg.image with
    | some im => d.programOk im base limit
    | none => false
  if ok then
    let n := d.load (base + 6) 2
    let entries := (List.range n).map fun i =>
      (d.load (base + 68 + 8 * i) 4, bitsOf (d.load (base + 64 + 8 * i) 4) 16 5)
    let plot : PlotState := { plot with progOk := true, code := base + 64 + 8 * n, entries := entries }
    { d with plots := sput {} d.plots p plot }
  else
    let plot : PlotState := { plot with progOk := false, entries := [], code := 0 }
    ({ d with plots := sput {} d.plots p plot } : Device).setFld F.PLOT_EVENTS.PROG_CHECK 1 p

end Sys2Proof.Machine
end

