-- ==== Sys2Proof/Machine/Stage.lean ====
section
/-! DEFINITION. Sys2Proof/Machine/Stage.lean: staged fields and their commits (R387 to R389): the in-use and the staged
values, the snapshot of a commit write, every rule that names PAIR_MISMATCH, and putting a snapshot into use. -/

namespace Sys2Proof.Machine

/-- The bits of a register that are staged (access ST). -/
def Reg.stMask (r : Reg) : Word := r.fields.foldl (fun m f => if f.acc = .st then m ||| f.mask else m) 0

/-- The BAR offset of a register copy. -/
def Reg.offset (r : Reg) (i : Nat) : Nat := r.place.base + r.place.s1 * (i / r.place.c2) + r.place.s2 * (i % r.place.c2)

/-- The register of a key of the register table. -/
def regOfKey (k : Nat) : Reg := Reg.all.getD (k / 0x10000) .ID_REV

/-- The register is committed by WEIR_COMMIT (R388). -/
def Reg.isWeir : Reg → Bool
  | .WEIR_CTRL | .WEIR_CLASS_CFG | .WEIR_CLASS_ARB | .WEIR_OWNER_CFG => true
  | _ => false

/-- A register copy that describes absent units only (R394, Table 16.11): its writes are ignored and it takes no part in
a commit. -/
def Part.absent (p : Part) (r : Reg) (i : Nat) : Bool :=
  match r with
  | .PIM_CAPS | .PIM_CTRL | .PIM_EVENTS | .PIM_TURN_STATS | .PIM_DQ_BASE | .PIM_DQ_CTRL | .PIM_DQ_TAIL | .PIM_DQ_HEAD => p.isL
  | .PIM_CH_STATUS | .PIM_CH_WINDOWS | .PIM_CH_WAIT | .PIM_CH_REFRESH => !p.channel i
  | .SCR_CAPS | .SCR_AREA | .SCR_RES_AREA | .SCR_MASK_BASE | .SCR_CMD | .SCR_CMD_ADDR | .SCR_CMD_STATUS | .SCR_SCRUB
  | .SCR_EVENTS | .SCR_TURN_STATS | .SCR_TABLE => p.isL
  | .FAB_LINK_CFG | .FAB_LINK_CTRL | .FAB_LINK_STATUS | .FAB_LINK_FEC | .FAB_LINK_REPLAY | .FAB_LINK_TRAFFIC => !p.link i
  | .NVM_PORT_CFG | .NVM_PORT_CTRL | .NVM_PORT_STATUS | .NVM_PORT_STATS | .NVM_PORT_ERRORS => !p.root i
  | _ => false

/-- The staged value of a register copy: its reset value until it is written (R387). -/
def Device.stagedReg (d : Device) (r : Reg) (i : Nat) : Word := sget (regReset d.part r i) d.staged (regKey r i)

/-- Replace a staged value. -/
def Device.setStaged (d : Device) (r : Reg) (i : Nat) (v : Word) : Device :=
  { d with staged := sput (regReset d.part r i) d.staged (regKey r i) v }

/-- Put the staged bits of a snapshot into use in one register copy. -/
def Device.applyKey (snap : SMap Word) (d : Device) (k : Nat) : Device :=
  let r := regOfKey k
  let i := k % 0x10000
  let m := r.stMask
  d.setReg r i ((d.reg r i &&& ~~~m) ||| (sget (regReset d.part r i) snap k &&& m))

/-- Put a snapshot of one kind into use, whole (R388). Every copy that the snapshot or the register table lists is
covered; any other holds its reset value in both. -/
def Device.applySnap (weir : Bool) (snap : SMap Word) (d : Device) : Device :=
  let keys := (snap.map (·.1) ++ d.regs.map (·.1)).filter fun k =>
    let r := regOfKey k
    r.isWeir == weir && r.stMask != 0 && !d.part.absent r (k % 0x10000)
  keys.foldl (fun d k => Device.applyKey snap d k) d

/-- The copies of a register that hold other than their reset value. -/
def Device.listed (d : Device) (r : Reg) : List Nat :=
  (d.regs.filter fun x => x.1 / 0x10000 == r.ctorIdx).map fun x => x.1 % 0x10000

/-- The retry span (R266): the sum of the LIMIT + 1 waits. -/
def retrySpan (base cap limit : Nat) : Nat := ((List.range (limit + 1)).map fun i => min (base * 2 ^ i) cap).sum

/-- An offset that a failed rule names. -/
def failIf (c : Bool) (r : Reg) (i : Nat := 0) : List Nat := if c then [r.offset i] else []

/-- The commit margin C, µs (Table 2.2). -/
def commitUs : Nat := 4

/-- The extent rules of R372 for one slot: `n` with the snapshot in use, `o` as it stands. -/
def extentFault (o n : Device) (e : Nat) : Bool :=
  let changed := o.reg .NVM_EXT_CFG e &&& ~~~F.NVM_EXT_CFG.LOST.mask != n.reg .NVM_EXT_CFG e &&& ~~~F.NVM_EXT_CFG.LOST.mask ||
    o.reg .NVM_EXT_ADDR e != n.reg .NVM_EXT_ADDR e || o.reg .NVM_EXT_FRAMES e != n.reg .NVM_EXT_FRAMES e ||
    o.reg .NVM_EXT_CRC e != n.reg .NVM_EXT_CRC e
  let oFirst := o.fld F.NVM_EXT_FRAMES.FIRST e
  let used := o.on F.NVM_EXT_CFG.ENABLE e && o.mem5.flashOwners.any fun x =>
    decide (oFirst ≤ x.1) && decide (x.1 < oFirst + o.fld F.NVM_EXT_FRAMES.FRAMES e) && entryValid x.2
  let first := n.fld F.NVM_EXT_FRAMES.FIRST e
  let count := n.fld F.NVM_EXT_FRAMES.FRAMES e
  let overlap := (n.listed .NVM_EXT_CFG).any fun g => g != e && n.on F.NVM_EXT_CFG.ENABLE g &&
    decide (n.fld F.NVM_EXT_FRAMES.FIRST g < first + count) &&
    decide (first < n.fld F.NVM_EXT_FRAMES.FIRST g + n.fld F.NVM_EXT_FRAMES.FRAMES g)
  let port := n.fld F.NVM_EXT_CFG.PORT e
  let space := (sget [] n.host.spaces port).find? fun s => s.nsid == n.fld F.NVM_EXT_CFG.NSID e
  let addr := n.fld F.NVM_EXT_ADDR.ADDR e
  let bad :=
    if n.fld F.NVM_EXT_CFG.KIND e = 1 then
      n.fld F.NVM_PORT_STATUS.STATE port != 3 || addr % 16 != 0 ||
      (match space with
       | some s => !s.ok || decide (addr + 16 * count > s.lbas)
       | none => true)
    else if n.fld F.NVM_EXT_CFG.KIND e = 2 then
      let vf := n.fld F.NVM_EXT_CFG.FUNCTION e
      addr % 65536 != 0 || (vf != 0 && !n.host.vfEnabled.contains (port * 32 + vf))
    else false
  (changed && used) ||
    (n.on F.NVM_EXT_CFG.ENABLE e && (overlap || decide (first + count > n.fld F.NVM_CAPS.FLASH_FRAMES) || bad))

/-- The offsets of the registers whose PAIR_MISMATCH rules a turn-coupled snapshot breaks (R24, R31, R83, R157, R187, R191,
R280, R300, R344, R372, R375, R460 and the rule of Table 9.11): `o` as it stands, `n` with the snapshot in use. No other value is
refused or changed (log entry 162). -/
def turnFaults (o n : Device) : List Nat :=
  let p := n.fld F.TURN_TIMING.PERIOD
  let w := n.fld F.TURN_TIMING.SEAL_WINDOW
  let m := ceilDiv (p * n.fld F.TURN_TIMING.MARGIN_PM) 1000
  let src := n.fld F.TURN_JOB.SOURCE
  let root := n.fld F.TURN_JOB.TURN_ROOT
  let cap := n.fld F.SLU_RETRY.CAP_US
  let kib := n.fld F.SLU_RETRY.MSG_KIB
  let rank := n.fld F.FUR_TIMING.RANK_CUT
  let fetch := n.fld F.FUR_TIMING.FETCH_CUT
  failIf (src == 2 && root == 0 || root == 1 && src == 0) .TURN_JOB ++
  failIf (decide (p < 100) || decide (p > 50000) || decide (w < 20) || decide (m < ceilDiv p 20 + 4) ||
    decide (n.fld F.TURN_TIMING.SEAL_CUTOFF ≥ w) || decide (p < w + m + 10)) .TURN_TIMING ++
  ((n.listed .PLOT_PROG_LIMIT ++ n.listed .PLOT_PROG_BASE ++ o.listed .PLOT_PROG_LIMIT ++ o.listed .PLOT_PROG_BASE).flatMap
    fun i =>
      let b := n.fld F.PLOT_PROG_BASE.ADDR i * 4096
      let l := n.fld F.PLOT_PROG_LIMIT.ADDR i * 4096
      let moved := b != o.fld F.PLOT_PROG_BASE.ADDR i * 4096 || l != o.fld F.PLOT_PROG_LIMIT.ADDR i * 4096
      failIf (moved && !progRangeOk b l) .PLOT_PROG_BASE i) ++
  (if n.part.isL then [] else
    failIf (decide (n.fld F.PIM_CTRL.WINDOW_LIMIT < 2000) || decide (n.fld F.PIM_CTRL.WINDOW_LIMIT > 40000)) .PIM_CTRL ++
    failIf (decide (1 ≤ n.fld F.SCR_SCRUB.INTERVAL) && decide (n.fld F.SCR_SCRUB.INTERVAL ≤ 249)) .SCR_SCRUB) ++
  failIf (decide (rank ≥ fetch) || decide (fetch + w + commitUs ≥ p)) .FUR_TIMING ++
  ([0, 1, 2, 3].flatMap fun i =>
    failIf (decide (n.fld F.FUR_POOL_CFG.LOW i > n.fld F.FUR_POOL_CFG.HIGH i) ||
      decide (n.fld F.FUR_POOL_CFG.HIGH i > n.fld F.FUR_POOL_STATUS.TOTAL i)) .FUR_POOL_CFG i) ++
  failIf (n.fld F.SLU_RETRY.BASE_US == 0 || decide (n.fld F.SLU_RETRY.BASE_US > cap) || decide (cap > 8000) ||
    !(List.range 9).any fun k => kib == 2 ^ (k + 2)) .SLU_RETRY ++
  failIf (decide (n.fld F.SLU_TARGET_CTRL.MEMORY_US < retrySpan (n.fld F.SLU_RETRY.BASE_US) cap (n.fld F.SLU_RETRY.LIMIT) + 1000) ||
    decide (n.fld F.SLU_TARGET_CTRL.REASSEMBLY_US < 100)) .SLU_TARGET_CTRL ++
  failIf (decide (n.fld F.SLU_ODP.STALL_US > 1000)) .SLU_ODP ++
  failIf (n.fld F.FUR_HO_TIMING.TIMEOUT_TURNS == 0 || n.fld F.FUR_HO_TIMING.QUERY_TURNS == 0 ||
    decide (n.fld F.FUR_HO_TIMING.QUERY_TURNS ≥ n.fld F.FUR_HO_TIMING.TIMEOUT_TURNS)) .FUR_HO_TIMING ++
  ((n.listed .HG_REQ_CFG).flatMap fun i =>
    failIf (decide (n.fld F.HG_REQ_CFG.BURST i < n.fld F.HG_REQ_CFG.RATE i)) .HG_REQ_CFG i) ++
  ((n.listed .HG_PROMPT_CFG).flatMap fun i =>
    failIf (decide (n.fld F.HG_PROMPT_CFG.BURST i < n.fld F.HG_PROMPT_CFG.RATE i)) .HG_PROMPT_CFG i) ++
  failIf (n.fld F.NVM_TIMING.IO_MS == 0 || decide (n.fld F.NVM_TIMING.ADMIN_MS < n.fld F.NVM_TIMING.IO_MS)) .NVM_TIMING ++
  ((List.range 64).flatMap fun e =>
    failIf (((n.listed .NVM_EXT_CFG).contains e || (o.listed .NVM_EXT_CFG).contains e) && extentFault o n e) .NVM_EXT_CFG e) ++
  failIf (decide (n.fld F.PWR_LIMIT.LIMIT_W < 600) || decide (n.fld F.PWR_LIMIT.LIMIT_W > 1850) ||
    decide (n.fld F.PWR_LIMIT.HEADROOM_W < 10) || decide (n.fld F.PWR_LIMIT.HEADROOM_W > 200)) .PWR_LIMIT ++
  failIf (decide (n.fld F.PWR_CTRL.CEIL_STEP > n.fld F.PWR_CTRL.FLOOR_STEP) || decide (n.fld F.PWR_CTRL.FLOOR_STEP > 6)) .PWR_CTRL ++
  failIf (decide (n.fld F.PWR_THERM_CFG.ALERT_C > n.fld F.PWR_THERM_CFG.THROTTLE_C) ||
    decide (n.fld F.PWR_THERM_CFG.THROTTLE_C ≥ n.fld F.PWR_THERM_CFG.EMERG_C) ||
    decide (n.fld F.PWR_THERM_CFG.EMERG_C > 112)) .PWR_THERM_CFG

/-- The offsets of the registers whose rules a WEIR_COMMIT snapshot breaks (R344). -/
def weirFaults (n : Device) : List Nat :=
  let low := 4192 + n.fld F.WEIR_CTRL.OVERHEAD
  let bad := fun (rate burst : Nat) => rate == 0 || decide (burst < rate) || decide (burst < low)
  ([1, 2, 3, 4, 5, 6].flatMap fun c =>
    failIf (bad (n.fld F.WEIR_CLASS_CFG.RATE c) (n.fld F.WEIR_CLASS_CFG.BURST c)) .WEIR_CLASS_CFG c ++
    failIf (n.fld F.WEIR_CLASS_ARB.QUANTUM c == 0) .WEIR_CLASS_ARB c) ++
  ((n.listed .WEIR_OWNER_CFG).flatMap fun i =>
    failIf (bad (n.fld F.WEIR_OWNER_CFG.RATE i) (n.fld F.WEIR_OWNER_CFG.BURST i)) .WEIR_OWNER_CFG i)

/-- The FLASH pool counts the frames of enabled slots that are not LOST (R370). -/
def Device.recountFlash (d : Device) : Device :=
  let slots := (d.listed .NVM_EXT_CFG).filter fun e => d.on F.NVM_EXT_CFG.ENABLE e && !d.on F.NVM_EXT_CFG.LOST e
  let total := (slots.map fun e => d.fld F.NVM_EXT_FRAMES.FRAMES e).sum
  let used := (d.mem5.flashOwners.filter fun x => entryValid x.2 && slots.any fun e =>
    decide (d.fld F.NVM_EXT_FRAMES.FIRST e ≤ x.1) && decide (x.1 < d.fld F.NVM_EXT_FRAMES.FIRST e + d.fld F.NVM_EXT_FRAMES.FRAMES e)).length
  (d.setFld F.FUR_POOL_STATUS.TOTAL total 3).setFld F.FUR_POOL_STATUS.FREE (total - used) 3

/-- The plots whose program range a snapshot changes (R68). -/
def progMoved (o n : Device) : List Nat :=
  (List.range 64).filter fun p =>
    o.fld F.PLOT_PROG_BASE.ADDR p != n.fld F.PLOT_PROG_BASE.ADDR p || o.fld F.PLOT_PROG_LIMIT.ADDR p != n.fld F.PLOT_PROG_LIMIT.ADDR p

/-- The free-running timer's next tick (R28): a whole number of periods after it last started, and after the ticks that have been
taken or have passed. -/
def Device.nextTick (d : Device) : Nat :=
  let p := 1000 * d.fld F.TURN_TIMING.PERIOD
  d.turn.idleFrom + ((d.turn.idleSeen - d.turn.idleFrom) / p + 1) * p

/-- The timer's ticks are the local turn starts (R28; while INCONSISTENT, log entry 54). -/
def Device.freeRuns (d : Device) : Bool :=
  let st := d.fld F.TURN_STATUS.STATE
  st == 0 || st == 3 || (st == 1 && !(d.turn.started || d.turn.due.isSome))

/-- A change of PERIOD restarts the timer at the moment it takes effect; a tick that fell due before keeps its time (R28). -/
def Device.restartTimer (o d : Device) : Device :=
  if d.fld F.TURN_TIMING.PERIOD = o.fld F.TURN_TIMING.PERIOD then d
  else { d with turn.idleFrom := d.now, turn.idleSeen := d.now,
                turn.idleOwed := if o.freeRuns && decide (o.nextTick ≤ d.now) then some o.nextTick else o.turn.idleOwed }

/-- Put the pending turn-coupled snapshot into use (R389): LOST clears in a disabled slot (R373), the plots whose program range
changed check it (R68), and STAGE_RESULT reads applied. -/
def Device.commitTurnSnap (d : Device) : Device :=
  match d.snapTurn with
  | none => d
  | some snap =>
    let o := d
    let d := Device.applySnap false snap { d with snapTurn := none, turn.applied := true }
    let d := (d.listed .NVM_EXT_CFG).foldl
      (fun d e => if d.on F.NVM_EXT_CFG.ENABLE e then d else d.setFld F.NVM_EXT_CFG.LOST 0 e) d
    let d := (progMoved o d).foldl (fun d p => d.checkProgram p) d
    Device.restartTimer o ((if d.listed .NVM_EXT_CFG = [] then d else d.recountFlash).setFld F.TURN_STATUS.STAGE_RESULT 2)


/-- A TURN_COMMIT write (R388, R389): the staged values are checked and the snapshot waits for its boundary, or takes
effect at once. -/
def Device.stageTurn (d : Device) : Device :=
  match lowest (turnFaults d (Device.applySnap false d.staged d)) with
  | some off =>
    ((d.setFld F.TURN_STATUS.STAGE_RESULT 3).setFld F.CFG_STAGE_FAULT.OFFSET off).event F.TURN_EVENTS.PAIR_MISMATCH
  | none =>
    let idle := d.idleForCommit
    let d := ({ d with snapTurn := some d.staged } : Device).setFld F.TURN_STATUS.STAGE_RESULT 1
    if idle then d.commitTurnSnap else d

/-- A WEIR_COMMIT write (R344, R388). -/
def Device.stageWeir (d : Device) : Device :=
  match lowest (weirFaults (Device.applySnap true d.staged d)) with
  | some off => (d.setFld F.WEIR_STATUS.STAGE_RESULT 3).setFld F.CFG_STAGE_FAULT.OFFSET off
  | none => ({ d with snapWeir := some d.staged } : Device).setFld F.WEIR_STATUS.STAGE_RESULT 1

end Sys2Proof.Machine
end

