-- ==== Sys2Proof/Machine/ImageOps.lean ====
section
/-! DEFINITION. Sys2Proof/Machine/ImageOps.lean: Damrus images (spec/16): the checks of Table 16.4, what an image gives the fields
that it fixes (Table 16.3, R387), the state without an image (R383), and what a switch replaces (Table 16.6). -/

namespace Sys2Proof.Machine

/-! ### Checks (R379, Table 16.4) -/

/-- The part's PCI device ID (R377). -/
def Part.deviceCode (p : Part) : Nat := if p.isL then 0x4097 else 0x4096

/-- The bit of STEPPINGS for the part's stepping: A0, A1 or B0. -/
def Part.steppingBit (p : Part) : Nat := if p.stepping = 0 then 0 else if p.stepping = 1 then 1 else 2

/-- Check 6, CONTENT. -/
def contentOk (p : Part) (im : Image) : Bool :=
  let ranges := (im.areas.map (·.2)).filter fun r => r.2 != 0
  imageSections im &&
    p.fusedCores.all (fun c => let u := im.unmapped.getD (c / 66) (64, 65); c % 66 == u.1 || c % 66 == u.2) &&
    decide (im.pimAllot ≤ 160) && im.scoreSize.all (fun x => decide (x.2 ≤ 32)) &&
    ranges.all (fun r => decide (r.1 + r.2 ≤ 0xC0000000)) && !overlaps ranges && !(im.shadow && im.primary == 0xFFFF)

/-- Check 7, ABSENT_UNIT. -/
def unitsOk (p : Part) (im : Image) : Bool :=
  !(p.isL && (im.pimAllot != 0 || im.scoreSize.any (fun x => x.2 != 0) || im.screenMib != 0)) &&
    (List.range 56).all fun k => p.port k || (im.ports.getD k (0, 0)).1 == 0

/-- The result code of an image (Table 16.4): that of the first check that fails. -/
def imageCheck (p : Part) (im : Image) : Nat :=
  if !imageSigned p im.file then 2
  else if !imageFormed im.file then 3
  else if im.partCode ≠ p.deviceCode ∨ im.archGen ≠ 1 then 4
  else if !im.steppings.testBit p.steppingBit then 5
  else if !imageInSet im then 6
  else if !contentOk p im then 7
  else if !unitsOk p im then 8
  else 1

/-! ### Fields an image fixes -/

/-- The fields whose reset the register tables call "image" and that read 0 without one (R383). -/
def imageFields : List Field :=
  [F.ROTA_LIMITS.PIM_ALLOT, F.PLOT_ID.SPARES, F.PLOT_ID.ROLE, F.PLOT_SPARE_MAP.UNMAPPED_A, F.PLOT_SPARE_MAP.UNMAPPED_B,
   F.PLOT_SPARE_MAP.FUSED_A, F.PLOT_SPARE_MAP.FUSED_B, F.PLOT_CORE_STATE.LOGICAL, F.PLOT_CORE_STATE.STATE,
   F.PIM_CH_STATUS.SCORE_SIZE, F.FUR_DESC_BASE.ADDR, F.FUR_DIR_BASE.ADDR, F.FUR_BUILD_BASE.ADDR, F.FUR_FLASH_TABLE.ADDR,
   F.FUR_POOL_CFG.HIGH, F.FUR_POOL_CFG.LOW, F.FUR_POOL_STATUS.TOTAL, F.FUR_POOL_STATUS.FREE, F.SCR_AREA.SIZE_MIB,
   F.SCR_AREA.ADDR, F.SCR_RES_AREA.SIZE_MIB, F.SCR_RES_AREA.ADDR, F.SCR_MASK_BASE.ADDR, F.SLU_REGION_BASE.ADDR,
   F.FUR_HO_BASE.ADDR, F.FUR_HO_BASE.HOME, F.FAB_LINK_CFG.REACH, F.FAB_LINK_CFG.MODE, F.NVM_CAPS.FLASH_FRAMES,
   F.CFG_STATUS.CFG_EPOCH, F.CFG_DIGEST.DIGEST, F.SEC_KEY_POLICY.KM_ID, F.SEC_KEY_POLICY.FLAGS, F.SEC_KEY_POLICY.SLOT_LIMIT]

/-- Every copy of some fields reads 0; copies of absent units stay as Table 16.11 gives them. -/
def Device.clearFields (d : Device) (fs : List Field) : Device :=
  fs.foldl (fun d f => (d.listed f.reg).foldl (fun d i => if d.part.absent f.reg i then d else d.setFld f 0 i) d) d

/-- Replace a field's in-use and staged values (R387). -/
def Device.setBoth (d : Device) (f : Field) (v : Nat) (i : Nat := 0) : Device :=
  (d.setFld f v i).setStaged f.reg i (f.set (d.stagedReg f.reg i) v)

/-- A register of the extents, which a switch keeps (Table 16.6). -/
def Reg.isExtent : Reg → Bool
  | .NVM_EXT_CFG | .NVM_EXT_ADDR | .NVM_EXT_FRAMES | .NVM_EXT_CRC => true
  | _ => false

/-- Every staged field takes its reset value, in use and staged, and pending snapshots are discarded (R387); a switch keeps the extents'
(Table 16.6). -/
def Device.resetStaged (d : Device) (keepExtents : Bool) : Device :=
  let kept := fun (r : Reg) => keepExtents && r.isExtent
  let d := { d with snapTurn := none, snapWeir := none, staged := d.staged.filter fun x => kept (regOfKey x.1) }
  let d : Device := (d.regs.map (·.1)).foldl (fun (d : Device) k =>
    let r := regOfKey k
    let i := k % 0x10000
    if kept r then d.setStaged r i (d.reg r i)
    else d.setReg r i ((d.reg r i &&& ~~~r.stMask) ||| (regReset d.part r i &&& r.stMask))) d
  let d := if d.fld F.TURN_STATUS.STAGE_RESULT = 1 then d.setFld F.TURN_STATUS.STAGE_RESULT 0 else d
  if d.fld F.WEIR_STATUS.STAGE_RESULT = 1 then d.setFld F.WEIR_STATUS.STAGE_RESULT 0 else d

/-- An area of an image: its base and size. -/
def imageArea (im : Image) (a : Area) : Nat × Nat :=
  match im.areas.find? fun x => decide (x.1 = a) with
  | some x => x.2
  | none => (0, 0)

/-- One plot's role, spare map and core states (R80, Tables 3.15 to 3.21). -/
def Device.applyPlot (im : Image) (d : Device) (p : Nat) : Device :=
  let u := im.unmapped.getD p (64, 65)
  let fused := fun c => d.part.fusedCores.contains (66 * p + c)
  let d := d.setFld F.PLOT_ID.ROLE (im.roles.getD p 0) p
  let d := d.setFld F.PLOT_ID.SPARES (2 - b2n (fused u.1) - b2n (fused u.2)) p
  let d := (d.setFld F.PLOT_SPARE_MAP.UNMAPPED_A u.1 p).setFld F.PLOT_SPARE_MAP.UNMAPPED_B u.2 p
  let d := (d.setFld F.PLOT_SPARE_MAP.FUSED_A (b2n (fused u.1)) p).setFld F.PLOT_SPARE_MAP.FUSED_B (b2n (fused u.2)) p
  (List.range 66).foldl (fun d c =>
    let i := 66 * p + c
    let unmapped := c == u.1 || c == u.2
    let logical := if unmapped then 255 else c - b2n (decide (u.1 < c)) - b2n (decide (u.2 < c))
    (d.setFld F.PLOT_CORE_STATE.LOGICAL logical i).setFld F.PLOT_CORE_STATE.STATE
      (if unmapped then (if fused c then 2 else 1) else 0) i) d

/-- One channel's score size: a change passes through CLEARING (R138, Table 16.6), and a size of 0 leaves the channel BARRED. -/
def Device.applyChannel (im : Image) (d : Device) (k : Nat) : Device :=
  if !d.part.channel k then d
  else
    let n := sget 0 im.scoreSize k
    if n ≠ d.fld F.PIM_CH_STATUS.SCORE_SIZE k then
      (d.setFld F.PIM_CH_STATUS.SCORE_SIZE n k).setFld F.PIM_CH_STATUS.MODE 6 k
    else if n = 0 then d.setFld F.PIM_CH_STATUS.MODE 5 k
    else d.setFld F.PIM_CH_STATUS.CLEARS (d.pim.awaiting.filter fun f => f.1 == k).length k

/-- The fields that the headwater, reservoir, screen, pool and key sections fix. -/
def Device.applyAreas (im : Image) (d : Device) : Device :=
  let base := fun a => (imageArea im a).1 / 65536
  let d := (d.setFld F.FUR_DESC_BASE.ADDR (base .descriptors)).setFld F.FUR_DIR_BASE.ADDR (base .directory)
  let d := (d.setFld F.FUR_BUILD_BASE.ADDR (base .build)).setFld F.FUR_FLASH_TABLE.ADDR (base .flashTable)
  let d := (d.setFld F.SLU_REGION_BASE.ADDR (base .regions)).setFld F.FUR_HO_BASE.ADDR (base .handoff)
  let d := d.setFld F.FUR_HO_BASE.HOME (b2n im.home)
  let d := if d.part.isL then d else
    let d := (d.setFld F.SCR_AREA.ADDR (base .screen)).setFld F.SCR_AREA.SIZE_MIB im.screenMib
    let d := (d.setFld F.SCR_RES_AREA.ADDR (im.screenRes.1 / 65536)).setFld F.SCR_RES_AREA.SIZE_MIB im.screenRes.2
    d.setFld F.SCR_MASK_BASE.ADDR (base .masks)
  let d := (d.setFld F.ROTA_LIMITS.PIM_ALLOT im.pimAllot).setFld F.NVM_CAPS.FLASH_FRAMES im.flashFrames
  let d := d.setFld F.FAB_CTRL.MAX_HOPS (im.maxHops.getD F.FAB_CTRL.MAX_HOPS.reset)
  let d := d.setFld F.FAB_ROUTE_CTRL.HOLD_US (im.holdUs.getD F.FAB_ROUTE_CTRL.HOLD_US.reset)
  let d := (d.setFld F.SEC_KEY_POLICY.KM_ID im.kmHash).setFld F.SEC_KEY_POLICY.FLAGS im.keyFlags
  let d := d.setFld F.SEC_KEY_POLICY.SLOT_LIMIT im.slotLimit
  let d := d.setFld F.CFG_STATUS.CFG_EPOCH im.epoch
  (List.range 6).foldl (fun d k => d.setFld F.CFG_DIGEST.DIGEST (bitsOf im.cfgDigest.toNat (64 * k) 64) k) d

/-- The score frames of channels that have passed CLEARING and neither await their clear nor are withdrawn. -/
def Device.scoreFree (d : Device) : Nat :=
  (((List.range 320).filter fun k => d.part.channel k && d.fld F.PIM_CH_STATUS.MODE k != 6).map fun k =>
    1024 * d.fld F.PIM_CH_STATUS.SCORE_SIZE k - ((d.pim.awaiting ++ d.pim.bad).filter fun f => f.1 == k).length).sum

/-- The pools (R123): their watermarks, in use and staged, their totals, and every frame free. -/
def Device.applyPools (im : Image) (d : Device) : Device :=
  let d := (List.range 4).foldl (fun d i =>
    (d.setBoth F.FUR_POOL_CFG.HIGH (im.poolHigh.getD i 0) i).setBoth F.FUR_POOL_CFG.LOW (im.poolLow.getD i 0) i) d
  let total := fun (d : Device) (i n free : Nat) => (d.setFld F.FUR_POOL_STATUS.TOTAL n i).setFld F.FUR_POOL_STATUS.FREE free i
  let hw := (im.hwFrames.map fun (b, n) => hwCount (b / frameBytes) n).sum
  let res := (im.resFrames.map (·.2)).sum
  let d := total (total d poolHw hw hw) poolRes res res
  (total d poolScore (1024 * (im.scoreSize.map (·.2)).sum) d.scoreFree).recountFlash

/-- The values of the ROTA section: each register copy takes them in use and staged. -/
def Device.applyRota (im : Image) (d : Device) : Device :=
  im.rota.foldl (fun d x =>
    let r := regOfKey x.1
    let i := x.1 % 0x10000
    let m := r.stMask
    (d.setReg r i ((d.reg r i &&& ~~~m) ||| (x.2 &&& m))).setStaged r i ((d.stagedReg r i &&& ~~~m) ||| (x.2 &&& m))) d

/-- The state a link takes once its reset completes: DETECT, or DISABLED with no mode or with ENABLE 0 (Table 13.4). -/
def Device.linkAfterReset (d : Device) (l : Nat) : Nat := if d.linkExists l && d.on F.FAB_LINK_CTRL.ENABLE l then 1 else 0

/-- A link is reset (R319): DOWN with reason RESET under R312, its buffers cleared; `next` is the state it then has. -/
def Device.linkReset (d : Device) (l next : Nat) : Device :=
  if !d.part.link l then d
  else if d.linkActive l then d.linkFall l 6 next
  else
    let d := ({ d with rt.wait := d.rt.wait ++ (d.link l).queue.map fun (t : TxPacket) => { t with own := false } } : Device).setLink l {}
    (d.setFld F.FAB_LINK_STATUS.STATE next l).setFld F.FAB_LINK_STATUS.DOWN_REASON 6 l

/-- A port's mode and reach: a change resets the port and its links retrain (Table 16.6). -/
def Device.applyPort (im : Image) (d : Device) (k : Nat) : Device :=
  if !d.part.port k then d
  else
    let m := im.ports.getD k (0, 0)
    if d.fld F.FAB_LINK_CFG.MODE (2 * k) = m.1 ∧ d.fld F.FAB_LINK_CFG.REACH (2 * k) = m.2 then d
    else
      [2 * k, 2 * k + 1].foldl (fun (d : Device) l =>
        let d := if d.linkState l = 0 then d else d.linkReset l 0
        let d := (d.setFld F.FAB_LINK_CFG.MODE m.1 l).setFld F.FAB_LINK_CFG.REACH m.2 l
        d.setFld F.FAB_LINK_STATUS.STATE (d.linkAfterReset l) l) d

/-- Every plot is as after a plot reset: OFF with role OFF, else READY (Table 3.13), and it checks its program image (R68). -/
def Device.restartPlots (d : Device) : Device :=
  let d := { d with cores := [], plots := [] }
  (List.range 64).foldl (fun d p =>
    (d.setFld F.PLOT_STATUS.STATE (if d.fld F.PLOT_ID.ROLE p = 0 then 0 else 1) p).checkProgram p) d

/-- An image becomes active: every field that it fixes takes its value (R383, R387), channels, pools, ports and plots follow. -/
def Device.applyImage (d : Device) (im : Image) : Device :=
  let d := { d with cfg.image := some im }
  let d := (List.range 64).foldl (Device.applyPlot im) d
  let d := (List.range 320).foldl (Device.applyChannel im) d
  let d := (d.applyAreas im).applyPools im
  let d := (d.applyRota im)
  let d := (List.range 56).foldl (Device.applyPort im) d
  d.restartPlots.setFld F.CFG_STATUS.STATE 1

/-- No image is active (R383): every field with reset "image" reads 0, every staged field holds its table value (log entry 161), every
port mode is OFF and every plot is OFF. -/
def Device.noImage (d : Device) : Device :=
  let d := (List.range 112).foldl (fun (d : Device) l => if d.linkState l = 0 ∨ d.linkState l = 7 then d else d.linkReset l 0) d
  let d := ({ d with cfg.image := none, cores := [], plots := [] } : Device).clearFields imageFields |>.resetStaged false
  let d := (d.listed .PLOT_STATUS).foldl (fun d p => d.setFld F.PLOT_STATUS.STATE 0 p) d
  (d.setFld F.CFG_STATUS.STATE 0).event F.CFG_EVENTS.NO_IMAGE

/-- The result of loading a profile slot (R383, Table 16.4): 0x0C when the configuration flash does not read. -/
def Device.slotResult (d : Device) (slot : Nat) (flashOk : Bool := true) : Nat :=
  match sget none d.cfg.slots slot with
  | none => 0x0D
  | some im => if flashOk then imageCheck d.part im else 0x0C

/-- CFG_SLOT_INFO of a slot shows its image and the result of its last check: EMPTY, VALID or INVALID. -/
def Device.showSlot (d : Device) (slot result : Nat) : Device :=
  let d := d.setFld F.CFG_SLOT_INFO.LAST_RESULT result slot
  match sget none d.cfg.slots slot with
  | none =>
    ((d.setFld F.CFG_SLOT_INFO.STATE 0 slot).setFld F.CFG_SLOT_INFO.ROLE_TAG 0 slot).setFld F.CFG_SLOT_INFO.CFG_EPOCH 0 slot
  | some im =>
    ((d.setFld F.CFG_SLOT_INFO.STATE (if result = 1 then 1 else 2) slot).setFld F.CFG_SLOT_INFO.ROLE_TAG im.roleTag slot).setFld
      F.CFG_SLOT_INFO.CFG_EPOCH im.epoch slot

/-- The rider loads the image of the slot in ACTIVE_SLOT (R383). -/
def Device.loadActive (d : Device) (flashOk : Bool := true) : Device :=
  let slot := d.fld F.CFG_STATUS.ACTIVE_SLOT
  let result := d.slotResult slot flashOk
  let d := d.setFld F.CFG_STATUS.RESULT result
  Device.restartTimer d (match sget none d.cfg.slots slot with
    | none => d.noImage
    | some im => if result = 1 then d.applyImage im else d.noImage)

/-- The load of a boot (R383): each slot is checked and its result recorded, then the active one is loaded. -/
def Device.loadAtBoot (d : Device) (flashOk : Bool := true) : Device :=
  ((List.range 4).foldl (fun (d : Device) s => d.showSlot s (d.slotResult s flashOk)) d).loadActive flashOk

/-! ### What is lost with memory -/

/-- Frame owner entries are cleared, and the tables that go with them: regions FREE with GENERATION 0 (R254), the handoff table
(R281), and pool places. A score frame that awaits its clear still awaits it, and so do those that R134 kept (R120). -/
def Device.clearOwners (d : Device) : Device :=
  let d := { d with mem5.owners := [], mem5.flashOwners := [], mem5.leaving := [], mem5.leavingFlash := [], mem5.hwTaken := [],
                    slu.regions := [], ho.entries := [], ho.locals := [], ho.park := [] }
  { d with pim.awaiting := d.pim.awaiting ++ d.pim.toFree.map fun f => (f / 32768, f % 32768), pim.toFree := [] }

/-- Every structure that lives in headwater is lost with it: furrows, pages, slots' records, screen tables. -/
def Device.clearTables (d : Device) : Device :=
  let d := { d with fur := { nextRank := d.fur.nextRank }, gen.slots := [], gen.staging := [], gen.stageFill := 0, scr := {} }
  { d with regs := d.regs.filter fun x => x.1 / 0x10000 != Reg.SCR_TABLE.ctorIdx }

/-- What a switch clears at step 4 (Table 16.6) before the new image applies: all headwater with the retention area, frame owner
entries and the tables, the staged fields, and the sentinel counters (Table 18.8). -/
def Device.clearForSwitch (d : Device) : Device :=
  let d := (d.zero 0 0xC1000000).clearOwners.clearTables.resetStaged true
  let d := (d.setFld F.SCR_CMD_STATUS.ACTIVE 0)
  { d with err.sentBins := [], regs := d.regs.filter fun x => x.1 / 0x10000 != Reg.ERR_SENT_BIN.ctorIdx && x.1 / 0x10000 != Reg.ERR_SENT_CORE.ctorIdx }

end Sys2Proof.Machine
end

