-- ==== Sys2Proof/Machine/DumpOps.lean ====
section
/-! DEFINITION. Sys2Proof/Machine/DumpOps.lean: the retention area (R105, Table 5.4), the crash dump (R432, Table 18.6) and the push
of the area to its targets (R433). -/

namespace Sys2Proof.Machine

/-- The crash dump's place in the retention area (Table 5.3). -/
def dumpBase : Nat := retention + 0x400000

/-- PUSHED of the retention header (Table 5.4). -/
def Device.pushed (d : Device) : Nat := d.load (retention + 36) 1

/-- The retention header at power-on: MAGIC, everything else 0 (Tables 5.4 and 5.5). -/
def Device.initRetention (d : Device) : Device := (d.zero retention 0x1000000).storeVal retention 4 0x5A545254

/-- A warm reset or a PERST0_N reset counts in the retention header. -/
def Device.countReset (d : Device) : Device := d.storeVal (retention + 4) 4 (d.load (retention + 4) 4 + 1)

/-- Place a pair in a list by rising first component. -/
def insertPair (x : Nat × Nat) : List (Nat × Nat) → List (Nat × Nat)
  | [] => [x]
  | y :: ys => if x.1 ≤ y.1 then x :: y :: ys else y :: insertPair x ys

/-- A list of pairs by rising first component. -/
def sortPairs : List (Nat × Nat) → List (Nat × Nat)
  | [] => []
  | x :: xs => insertPair x (sortPairs xs)

/-- The registers that a crash dump leaves out (Table 18.6). -/
def Reg.undumped : Reg → Bool
  | .SEC_KEY_ID | .HG_REQ_CFG | .HG_PROMPT_CFG | .HG_LEVEL | .WEIR_OWNER_CFG => true
  | _ => false

/-- The BAR0 register copies of a crash dump in offset order, as offset and key. -/
def dumpRegs : List (Nat × Nat) :=
  sortPairs ((Reg.all.filter fun r => r.place.bar == 0 && !r.undumped).flatMap fun r =>
    (List.range (r.place.c1 * r.place.c2)).map fun i => (r.offset i, regKey r i))

/-- The 64 bytes of a turn in section TURNS. -/
def Device.turnRecord (d : Device) : List Byte :=
  pack [(8, (d.reg .TURN_STATUS 0).toNat), (8, (d.reg .ROTA_RESULT 0).toNat), (8, (d.reg .TURN_SKEW 0).toNat),
    (8, d.fld F.TURN_STATUS.LAST_REASON), (32, 0)]

/-- Keep the record of the turn that ends; a dump holds the last 256. -/
def Device.keepTurn (d : Device) : Device := { d with err.lastTurns := (d.err.lastTurns ++ [d.turnRecord]).drop (d.err.lastTurns.length - 255) }

/-- The sections of a dump: TYPE, offset and bytes (Table 18.6). -/
def dumpSections : List (Nat × Nat × Nat) :=
  [(1, 0x1000, 0x200000), (2, 0x201000, 0x210000), (3, 0x411000, 0x100000), (4, 0x511000, 0x4000), (5, 0x515000, 0x400000),
   (6, 0x915000, 0x100000)]

/-- Free bytes: the parts of a dump whose byte layout the spec does not give (log entry 34). -/
def Device.openBytes (d : Device) (n : Nat) : List Byte := (List.range n).map fun i => Config.freeByte d.freeCount i

/-- The error unit takes a crash dump (R432): TRIGGER and the step or domain that failed; not while one is held. -/
def Device.takeDump (d : Device) (trigger what : Nat) : Device :=
  if d.err.dumpHeld then
    (d.countSat F.ERR_COUNTS.DUMPS_DROPPED).eventSig F.ERR_EVENTS.DUMP_DROPPED F.ERR_CTRL.VECTOR
  else
    let dir := (dumpSections.flatMap fun x => pack [(4, x.1), (4, x.2.1), (4, x.2.2), (4, 0)]) ++ List.replicate 32 0
    let header := pack [(4, 0x5A544344), (1, trigger), (1, what), (2, 0), (8, d.turnNo), (8, d.now / 1000), (40, 0)] ++ dir
    let regs := dumpRegs.flatMap fun x => leBytes 8 (d.reg (regOfKey x.2) (x.2 % 0x10000)).toNat
    let d := (d.zero dumpBase 0xC00000).store dumpBase header
    let d := (d.store (dumpBase + 0x1000) (regs.take 0x200000)).store (dumpBase + 0x201000) (d.openBytes 0x210000)
    let d := (d.drew.store (dumpBase + 0x411000) (d.bytes (d.areaBase .slotTable) 0x100000)).store (dumpBase + 0x511000)
      d.err.lastTurns.flatten
    let d := (d.store (dumpBase + 0x515000) (d.openBytes 0x500000)).drew
    let d := (d.storeVal (retention + 24) 8 d.turnNo).storeVal (retention + 32) 4 0xA15000
    let d := ({ d with err.dumpHeld := true } : Device).storeVal (retention + 36) 1 0
    d.eventSig F.ERR_EVENTS.DUMP_TAKEN F.ERR_CTRL.VECTOR

/-- One Write of a push to flash: 32 LBAs in plaintext, without CRC-64s (R364, R433). -/
def Device.pushPart (d : Device) (root i : Nat) (bs : List Byte) : Device :=
  let (id, d) := d.nextNvme root
  (d.emit (.flashData root id bs [])).emit (.nvme root 1 1 (d.fld F.RIDE_DUMP_FLASH.NSID) (d.fld F.RIDE_DUMP_LBA.LBA + 32 * i) 32 id)

/-- Push the retention area (R433): to the host through the PF of a port, and to 4,096 LBAs of a root port's namespace. `hostOk` and
`flashOk` say whether each target took it. A held dump is released once every enabled target has it (R432). -/
def Device.pushRetention (d : Device) (hostOk flashOk : Bool) : Device :=
  let all := d.bytes retention 0x1000000
  let toHost := d.on F.ERR_DUMP_HOST.ENABLE
  let toFlash := d.on F.RIDE_DUMP_FLASH.ENABLE
  let port := d.fld F.ERR_DUMP_HOST.PORT
  let root := d.fld F.RIDE_DUMP_FLASH.PORT
  let d :=
    if !toHost then d
    else if hostOk && d.portUp port then
      let d := d.hostWrite ⟨port, 0⟩ (d.fld F.ERR_DUMP_HOST.ADDR * 4096) all
      (d.storeVal (retention + 36) 1 (d.pushed % 256 ||| 1)).event F.RIDE_EVENTS.PUSH_HOST
    else d.event F.RIDE_EVENTS.PUSH_FAILED
  let d :=
    if !toFlash then d
    else if flashOk && d.part.root root then
      let d := if d.fld F.NVM_PORT_STATUS.STATE root = 0 then
          (d.setFld F.NVM_PORT_CFG.ENABLE 1 root).setFld F.NVM_PORT_STATUS.STATE 3 root
        else d
      let d := (List.range 128).foldl (fun (d : Device) i => d.pushPart root i ((all.drop (0x20000 * i)).take 0x20000)) d
      (d.storeVal (retention + 36) 1 (d.pushed ||| 2)).event F.RIDE_EVENTS.PUSH_FLASH
    else d.event F.RIDE_EVENTS.PUSH_FAILED
  let need := b2n toHost + 2 * b2n toFlash
  let d := { d with err.pushing := false, err.pushSwitch := false }
  if need != 0 && d.pushed &&& need == need then { d with err.dumpHeld := false } else d

end Sys2Proof.Machine
end

