-- ==== Sys2Proof/Machine/Fp.lean ====
section
/-! DEFINITION. Sys2Proof/Machine/Fp.lean: numbers as the cores compute with them (spec/03): exact values, the formats of
Table 3.4, rounding and conversion (R58 to R61), MX blocks (R60) and FP32 arithmetic, each operation rounded once. -/

namespace Sys2Proof.Machine

/-- An exact value: (−1)^neg × m × 2^e, an infinity, or NaN. -/
inductive Fv where
  | fin (neg : Bool) (m : Nat) (e : Int)
  | inf (neg : Bool)
  | nan
  deriving DecidableEq, Repr

/-- Zero. -/
def Fv.zero : Fv := .fin false 0 0

/-- The value of an integer. -/
def Fv.ofInt (x : Int) : Fv := .fin (decide (x < 0)) x.natAbs 0

/-- A value times 2^k. -/
def Fv.shift (k : Int) : Fv → Fv
  | .fin s m e => .fin s m (e + k)
  | x => x

/-- The negation of a value. -/
def Fv.neg : Fv → Fv
  | .fin s m e => .fin (!s) m e
  | .inf s => .inf (!s)
  | .nan => .nan

/-- The magnitude of a value. -/
def Fv.abs : Fv → Fv
  | .fin _ m e => .fin false m e
  | .inf _ => .inf false
  | .nan => .nan

/-- The integer m × 2^(e − q) of a mantissa at a lower exponent `q`. -/
def alignTo (m : Nat) (e q : Int) : Nat := m * 2 ^ (e - q).toNat

/-- The exact sum; an exact zero is +0 unless both terms are −0. -/
def Fv.add : Fv → Fv → Fv
  | .nan, _ => .nan
  | _, .nan => .nan
  | .inf s, .inf t => if s = t then .inf s else .nan
  | .inf s, .fin .. => .inf s
  | .fin .., .inf t => .inf t
  | .fin s m e, .fin t n f =>
    let q := min e f
    let a : Int := alignTo m e q
    let b : Int := alignTo n f q
    let x := (if s then -a else a) + (if t then -b else b)
    if x = 0 then .fin (s && t) 0 q else .fin (decide (x < 0)) x.natAbs q

/-- The exact product; an infinity times zero is NaN. -/
def Fv.mul : Fv → Fv → Fv
  | .nan, _ => .nan
  | _, .nan => .nan
  | .inf s, .inf t => .inf (s != t)
  | .inf s, .fin t n _ => if n = 0 then .nan else .inf (s != t)
  | .fin s m _, .inf t => if m = 0 then .nan else .inf (s != t)
  | .fin s m e, .fin t n f => .fin (s != t) (m * n) (e + f)

/-- The exact sum of a list. -/
def Fv.sum (xs : List Fv) : Fv := xs.foldl Fv.add (.fin true 0 0)

/-- Whether one value is below another; false with NaN. -/
def Fv.lt (a b : Fv) : Bool :=
  match a, b with
  | .nan, _ => false
  | _, .nan => false
  | .inf s, .inf t => s && !t
  | .inf s, .fin .. => s
  | .fin .., .inf t => !t
  | .fin s m e, .fin t n f =>
    let q := min e f
    let x : Int := alignTo m e q
    let y : Int := alignTo n f q
    decide ((if s then -x else x) < (if t then -y else y))

/-- The value is zero. -/
def Fv.isZero : Fv → Bool
  | .fin _ m _ => m == 0
  | _ => false

/-- Division by 2^k, rounded to nearest, ties to even. -/
def rneShift (m k : Nat) : Nat :=
  let q := m / 2 ^ k
  let r := m % 2 ^ k
  if 2 * r > 2 ^ k ∨ (2 * r = 2 ^ k ∧ q % 2 = 1) then q + 1 else q

/-- A positive value m × 2^e as a whole number of 2^q, rounded to nearest, ties to even. -/
def rneAt (m : Nat) (e q : Int) : Nat := if e ≥ q then alignTo m e q else rneShift m (q - e).toNat

/-! ### Formats (Table 3.4) -/

/-- A format of Table 3.4: bits of an element, exponent and fraction bits, bias, the magnitude pattern of the largest
finite value, whether it has infinities and NaN, whether it is an integer format and its scaling, and whether blocks
carry a scale. -/
structure Fmt where
  bits : Nat
  eb : Nat := 0
  mb : Nat := 0
  bias : Nat := 0
  maxMag : Nat := 0
  hasInf : Bool := false
  hasNan : Bool := false
  int : Bool := false
  unit : Int := 0
  scaled : Bool := false
  emax : Int := 0

/-- The format of a code; none for the reserved codes. -/
def fmtOf : Nat → Option Fmt
  | 0x0 => some { bits := 8, eb := 4, mb := 3, bias := 7, maxMag := 0x7E, hasNan := true, emax := 8 }
  | 0x1 => some { bits := 8, eb := 5, mb := 2, bias := 15, maxMag := 0x7B, hasInf := true, hasNan := true, emax := 15 }
  | 0x2 => some { bits := 8, eb := 4, mb := 3, bias := 7, maxMag := 0x7E, hasNan := true, scaled := true, emax := 8 }
  | 0x3 => some { bits := 8, eb := 5, mb := 2, bias := 15, maxMag := 0x7B, hasInf := true, hasNan := true, scaled := true, emax := 15 }
  | 0x4 => some { bits := 6, eb := 3, mb := 2, bias := 3, maxMag := 0x1F, scaled := true, emax := 4 }
  | 0x5 => some { bits := 6, eb := 2, mb := 3, bias := 1, maxMag := 0x1F, scaled := true, emax := 2 }
  | 0x6 => some { bits := 4, eb := 2, mb := 1, bias := 1, maxMag := 0x7, scaled := true, emax := 2 }
  | 0x7 => some { bits := 8, int := true, unit := -6, scaled := true, emax := 0 }
  | 0x8 => some { bits := 16, eb := 8, mb := 7, bias := 127, maxMag := 0x7F7F, hasInf := true, hasNan := true }
  | 0x9 => some { bits := 16, eb := 5, mb := 10, bias := 15, maxMag := 0x7BFF, hasInf := true, hasNan := true }
  | 0xA => some { bits := 32, eb := 8, mb := 23, bias := 127, maxMag := 0x7F7FFFFF, hasInf := true, hasNan := true }
  | 0xB => some { bits := 8, int := true }
  | 0xC => some { bits := 32, int := true }
  | _ => none

/-- The exponent of a format's smallest step. -/
def Fmt.qmin (f : Fmt) : Int := 1 - f.bias - f.mb

/-- The value of an element pattern, before any block scale (R58, R61). -/
def Fmt.value (f : Fmt) (v : Nat) : Fv :=
  if f.int then (Fv.ofInt (signedOf f.bits v)).shift f.unit
  else
    let neg := v.testBit (f.bits - 1)
    let mag := v % 2 ^ (f.bits - 1)
    if mag > f.maxMag then (if f.hasInf && mag == f.maxMag + 1 then .inf neg else .nan)
    else
      let ex := mag / 2 ^ f.mb
      let fr := mag % 2 ^ f.mb
      if ex = 0 then .fin neg fr f.qmin else .fin neg (2 ^ f.mb + fr) (f.qmin + ex - 1)

/-- A NaN pattern of a format: its bits are open (log entry 31). -/
def Fmt.nanBits (f : Fmt) (ops : List Nat) : Nat :=
  let x := (Config.openResult f.bits ops).toNat % 2 ^ f.bits
  let low := f.maxMag + 1 + b2n f.hasInf
  if x % 2 ^ (f.bits - 1) ≥ low then x else x / 2 ^ (f.bits - 1) * 2 ^ (f.bits - 1) + low

/-- What a conversion gives: the pattern, whether it saturated, and whether it is NaN. -/
structure Conv where
  bits : Nat
  sat : Bool := false
  isNan : Bool := false

/-- Conversion of a value to a format by R59: round to nearest, ties to even; overflow saturates, or gives infinity in
E5M2, BF16 and FP16 with NONSAT set and in FP32, which no conversion here narrows to; NaN converts to NaN where there is
one and to 0 in INT8; elsewhere its pattern is open (log entry 31). An infinity overflows as any value above the largest finite
(log entry 32). -/
def Fmt.convert (f : Fmt) (nonsat : Bool) (ops : List Nat) (x : Fv) : Conv :=
  let sign := fun (neg : Bool) => b2n neg * 2 ^ (f.bits - 1)
  let beyond := fun (neg : Bool) =>
    if f.hasInf && (nonsat || f.bits == 32) then ({ bits := sign neg + f.maxMag + 1 } : Conv)
    else { bits := sign neg + f.maxMag, sat := true }
  let top := 2 ^ (f.bits - 1)
  let intOver := fun (neg : Bool) => ({ bits := if neg then top else top - 1, sat := true } : Conv)
  match x with
  | .nan =>
    if f.hasNan then { bits := f.nanBits ops, isNan := true }
    else if f.int && f.bits == 8 && !f.scaled then { bits := 0 }
    else { bits := (Config.openResult f.bits ops).toNat % 2 ^ f.bits }
  | .inf neg => if f.int then intOver neg else beyond neg
  | .fin neg m e =>
    if f.int then
      let n := rneAt m e f.unit
      if n > (if neg then top else top - 1) then intOver neg
      else { bits := twosOf f.bits (if neg then -(n : Int) else n) }
    else if m = 0 then { bits := sign neg }
    else
      let q := max (e + Nat.log2 m - f.mb) f.qmin
      let mag := (q - f.qmin).toNat * 2 ^ f.mb + rneAt m e q
      if mag > f.maxMag then beyond neg else { bits := sign neg + mag }

/-! ### FP32 -/

/-- FP32. -/
def fp32 : Fmt := { bits := 32, eb := 8, mb := 23, bias := 127, maxMag := 0x7F7FFFFF, hasInf := true, hasNan := true }
/-- BF16. -/
def bf16 : Fmt := { bits := 16, eb := 8, mb := 7, bias := 127, maxMag := 0x7F7F, hasInf := true, hasNan := true }

/-- The value of an FP32 pattern. -/
def val32 (v : Nat) : Fv := fp32.value v
/-- A value rounded once to FP32, to nearest, ties to even. -/
def round32 (ops : List Nat) (x : Fv) : Nat := (fp32.convert true ops x).bits
/-- The pattern is a NaN. -/
def nan32 (v : Nat) : Bool := decide (v % 2 ^ 31 > 0x7F800000)

/-- FP32 sum, product and fused multiply-add, each rounded once. -/
def add32 (a b : Nat) : Nat := round32 [1, a, b] ((val32 a).add (val32 b))
/-- FP32 product. -/
def mul32 (a b : Nat) : Nat := round32 [2, a, b] ((val32 a).mul (val32 b))
/-- FP32 fused multiply-add. -/
def fma32 (a b c : Nat) : Nat := round32 [3, a, b, c] (((val32 a).mul (val32 b)).add (val32 c))
/-- FP32 negation: the sign bit changes. -/
def neg32 (a : Nat) : Nat := if a < 2 ^ 31 then a + 2 ^ 31 else a - 2 ^ 31
/-- FP32 one. -/
def one32 : Nat := 0x3F800000
/-- The larger of two FP32 values; with a NaN the result is open. -/
def max32 (a b : Nat) : Nat :=
  if nan32 a || nan32 b then (Config.openResult 0x40 [a, b]).toNat else if (val32 a).lt (val32 b) then b else a
/-- The smaller of two FP32 values; with a NaN the result is open. -/
def min32 (a b : Nat) : Nat :=
  if nan32 a || nan32 b then (Config.openResult 0x41 [a, b]).toNat else if (val32 b).lt (val32 a) then b else a

/-! ### MX blocks -/

/-- The factor of a scale byte as an exponent; none for NaN (0xFF). -/
def scaleExp (b : Nat) : Option Int := if b = 0xFF then none else some ((b : Int) - 127)

/-- An element of a scaled block. -/
def Fmt.scaledValue (f : Fmt) (v scale : Nat) : Fv :=
  if f.scaled then
    match scaleExp scale with
    | none => .nan
    | some k => (f.value v).shift k
  else f.value v

/-- ⌊log2⌋ of a finite magnitude. -/
def floorLog2 (m : Nat) (e : Int) : Int := e + Nat.log2 m

/-- The shared exponent of an MX block (R60), from the largest magnitude among its values that are not NaN; with none but
NaN it is that of a block of zeros (log entry 173). -/
def Fmt.blockExp (f : Fmt) (xs : List Fv) : Int :=
  let top := xs.foldl (fun (acc : Option Fv) x =>
    match x, acc with
    | .nan, _ => acc
    | x, none => some x.abs
    | x, some y => if y.lt x.abs then some x.abs else some y) none
  match top with
  | some (.inf _) => 127
  | some (.fin _ m e) => if m = 0 then -127 else max (-127) (min 127 (floorLog2 m e - f.emax))
  | _ => -127

/-- An MX block formed from values (R60): the elements and the scale byte, which is 0xFF when a target without NaN meets one (R59). -/
def Fmt.block (f : Fmt) (nonsat : Bool) (xs : List Fv) : List Conv × Nat :=
  let x := f.blockExp xs
  (xs.map fun v => f.convert nonsat [(x + 127).toNat] (v.shift (-x)),
   if xs.contains .nan && !f.hasNan then 0xFF else (x + 127).toNat)

/-! ### Packed elements -/

/-- Elements of `w` bits laid end to end, the first in the lowest bits (R7). -/
def packBitsLe (w : Nat) : List Nat → Nat
  | [] => 0
  | x :: xs => x % 2 ^ w + 2 ^ w * packBitsLe w xs

/-- Element i of `w` bits of a packed value. -/
def unpackAt (w v i : Nat) : Nat := v / 2 ^ (w * i) % 2 ^ w

/-! ### Lists of scores (R145, R173) -/

/-- Insert an entry into a list in descending score, equal scores (+0 and -0 among them) in ascending tag. -/
def insertBest (e : Nat × Nat) : List (Nat × Nat) → List (Nat × Nat)
  | [] => [e]
  | x :: xs =>
    if (val32 x.2).lt (val32 e.2) ∨ ((val32 e.2).lt (val32 x.2) = false ∧ e.1 < x.1) then e :: x :: xs else x :: insertBest e xs

end Sys2Proof.Machine
end

