-- ==== Sys2Proof/Machine/KeyOps.lean ====
section
/-! DEFINITION. Sys2Proof/Machine/KeyOps.lean: owner keys, the keys derived from them (R407) and the sealing of packets
(R316). -/

namespace Sys2Proof.Machine

/-- The IV of a packet (R316), 96 bits, big-endian. -/
def pktIv (p : Packet) : List Byte :=
  (leBytes 12 (p.src * 2 ^ 80 + p.salt % 2 ^ 20 * 2 ^ 60 + p.msgId % 2 ^ 48 * 2 ^ 12 + p.attempt % 16 * 2 ^ 8 +
    p.offset / 4096 % 256)).reverse

/-- The additional data of a packet (R316): the routing header with HOPS 0 and the operation header. -/
def pktAad (p : Packet) : List Byte := ({ p with hops := 0 } : Packet).header ++ p.op.bytes

/-- Seal a packet's payload under its owner slot's fabric key, when it is to be encrypted (R316). -/
def Device.sealPkt (d : Device) (p : Packet) : Packet :=
  if p.enc then
    let c := Config.gcmSeal (d.fabricKey p.op.owner) (pktIv p) (pktAad p) p.payload
    { p with payload := fit p.payload.length c, tag := fit 16 (c.drop p.payload.length) }
  else p

/-- The plaintext of an encrypted packet, none when its tag fails. -/
def Device.openPkt (d : Device) (p : Packet) : Option (List Byte) :=
  (Config.gcmOpen (d.fabricKey p.op.owner) (pktIv p) (pktAad p) (p.payload ++ p.tag)).map (fit p.plen)

end Sys2Proof.Machine
end

