-- ==== Sys2Proof/Machine/Routing.lean ====
section
/-! DEFINITION. Sys2Proof/Machine/Routing.lean: routing maps and their epochs, routing notices, the headgate, the weirs
and queue telemetry: the commands of spec/14 and PACKET_TRANSMIT. -/

namespace Sys2Proof.Machine

/-! ### Routing a packet (R323, R325, R328, R329) -/

/-- Where a packet goes. -/
inductive Route where
  | stale
  | none
  | hold
  | link (l : Nat)
  deriving DecidableEq, Repr

/-- The usable link with the fewest flits queued, the lowest number on ties (R317). -/
def Device.bestLink (d : Device) (mask : Nat) : Option Nat :=
  (List.range 112).foldl (fun best l =>
    if mask.testBit l && d.linkActive l then
      match best with
      | some b => if (d.link l).waiting < (d.link b).waiting then some l else best
      | none => some l
    else best) none

/-- The route of a packet of class 1 to 6 under an epoch. -/
def Device.routeOf (d : Device) (dest cls epoch : Nat) : Route :=
  match d.bankFor epoch with
  | none => .stale
  | some b =>
    if b.hasRoute dest then
      match d.bestLink (b.links dest cls) with
      | some l => .link l
      | none => .hold
    else .none

/-- The payload of a routing notice (Table 14.3). -/
def noticePayload (ty epoch reporter : Nat) (p : Packet) : List Byte :=
  pack [(1, ty), (1, if ty = 0x41 then 3 else 4), (1, epoch), (1, 0), (2, reporter), (2, p.dest), (6, p.msgId),
    (1, p.attempt % 16), (17, 0)]

/-- Answer a packet with a routing notice (R326): only an OPERATION packet draws one, and at most one for each source,
message and transmission. -/
def Device.notice (d : Device) (ty : Nat) (p : Packet) : Device :=
  if p.kind ≠ 1 ∨ d.rt.notices.contains (p.src, p.msgId, p.attempt) = true then d
  else
    let d := { d with rt.notices := (p.src, p.msgId, p.attempt) :: d.rt.notices }
    let d := if ty = 0x42 then d.count F.FAB_ROUTE_STATS.UNREACH_SENT else d
    d.sendBare p.src 4 (noticePayload ty p.epoch d.node p)

/-- A packet is itself a routing notice. -/
def isNotice (p : Packet) : Bool :=
  p.kind == 2 && p.tc == 4 && p.payload.length == 32 && (fieldAt p.payload 0 1 == 0x41 || fieldAt p.payload 0 1 == 0x42)

/-- Put a packet on a link's queue (R317). -/
def Device.enqueue (d : Device) (l : Nat) (t : TxPacket) : Device :=
  d.setLink l { d.link l with queue := (d.link l).queue ++ [t] }

/-- A transit packet is dropped (R323, R325). -/
def Device.dropTransit (d : Device) (p : Packet) : Device := (d.count F.FAB_ROUTE_STATS.HELD_DROPS).notice 0x42 p

/-- Forward a packet that is not for this device (R318, R323, R325, R329). Where HOPS reaches MAX_HOPS: DEDUCED, log entry 208. -/
def Device.transit (d : Device) (p : Packet) : Device :=
  if d.fld F.FAB_CTRL.MAX_HOPS ≤ p.hops + 1 then (d.count F.FAB_RX_STATS.HOPS).event F.FAB_EVENTS.HOPS
  else
    let p := { p with hops := p.hops + 1 }
    match d.routeOf p.dest p.tc p.epoch with
    | .stale => (d.count F.FAB_ROUTE_STATS.STALE_SENT).notice 0x41 p
    | .none => d.dropTransit p
    | .hold =>
      { d with rt.wait := d.rt.wait ++
          [{ pkt := p, own := false, heldUntil := some (d.now + 1000 * d.fld F.FAB_ROUTE_CTRL.HOLD_US) }] }
    | .link l =>
      let d := if d.oldRouted p.epoch then d.count F.FAB_ROUTE_STATS.OLD_ROUTED else d
      d.enqueue l { pkt := p, own := false }

/-! ### Weirs (R340, R341) -/

/-- A weir's level at power-on, at which nothing is listed: the reset value of BURST (log entry 19). -/
def weirFull : Int := 0xFFFFFFFF

/-- A class weir's level. -/
def Device.classLevel (d : Device) (c : Nat) : Int := sget weirFull d.rt.classLevel c
/-- An owner weir's level. -/
def Device.ownerLevel (d : Device) (o : Nat) : Int := sget weirFull d.rt.ownerLevel o

/-- The weir queue of a packet: its owner slot, or the queue of packets sealed under none. -/
def TxPacket.ownerQueue (t : TxPacket) : Nat := if t.pkt.enc then t.pkt.op.owner % 4096 else 4096

/-- The counted length of a packet (R340). -/
def Device.countedLength (d : Device) (p : Packet) : Nat := p.wireLen + d.fld F.WEIR_CTRL.OVERHEAD

/-- The class weir holds packets of a class. -/
def Device.classHeld (d : Device) (c : Nat) : Bool := d.on F.WEIR_CTRL.ENABLE && decide (d.classLevel c < 0)
/-- The owner weir holds a packet. -/
def Device.ownerHeld (d : Device) (t : TxPacket) : Bool :=
  d.on F.WEIR_CTRL.ENABLE && t.pkt.enc && decide (d.ownerLevel t.ownerQueue < 0)

/-- Count the packets of a class that a weir holds, each once. -/
def Device.countWaits (d : Device) (c : Nat) : Device :=
  let isNew := fun (t : TxPacket) => t.own && t.pkt.tc == c
  let byClass := fun (t : TxPacket) => isNew t && d.classHeld c && !t.waitedClass
  let byOwner := fun (t : TxPacket) => isNew t && d.ownerHeld t && !t.waitedOwner
  let nc := (d.rt.wait.filter byClass).length
  let no := (d.rt.wait.filter byOwner).length
  let wait := d.rt.wait.map fun (t : TxPacket) => { t with waitedClass := t.waitedClass || byClass t, waitedOwner := t.waitedOwner || byOwner t }
  let d := { d with rt.wait := wait }
  let d := if nc = 0 then d else d.count F.WEIR_STATS.CLASS_WAITS nc
  if no = 0 then d else d.count F.WEIR_STATS.OWNER_WAITS no

/-- Charge a packet that joins a link queue to its weirs (R340). -/
def Device.charge (d : Device) (t : TxPacket) : Device :=
  let n : Int := d.countedLength t.pkt
  let d := { d with rt.classLevel := sput weirFull d.rt.classLevel t.pkt.tc (d.classLevel t.pkt.tc - n) }
  if t.pkt.enc then
    { d with rt.ownerLevel := sput weirFull d.rt.ownerLevel t.ownerQueue (d.ownerLevel t.ownerQueue - n) }
  else d

/-! ### PACKET_TRANSMIT (R317, R325, R328, R340, R341) -/

/-- The epoch under which a waiting packet routes: a packet of this device takes the active epoch when it joins a link
queue, a transit packet keeps its own (R328). -/
def Device.epochOf (d : Device) (t : TxPacket) : Nat := if t.pkt.src = d.node then d.activeBank.epoch else t.pkt.epoch

/-- A waiting packet that something can be done with now: any but one held for a link that is still missing. -/
def Device.movable (d : Device) (t : TxPacket) : Bool :=
  match d.routeOf t.pkt.dest t.pkt.tc (d.epochOf t) with
  | .hold => t.heldUntil.isNone
  | _ => true

/-- The head packet of an owner's queue in a class. -/
def Device.ownerHead (d : Device) (c o : Nat) : Option TxPacket :=
  d.rt.wait.find? fun t => t.own && t.pkt.tc == c && t.ownerQueue == o && d.movable t

/-- The packet of a class that goes next: a packet that has passed its weirs, oldest first, then in round robin by owner the
head packets that the weirs allow (R341; which of the two comes first is log entry 20). -/
def Device.nextPacket (d : Device) (c : Nat) : Option TxPacket :=
  match d.rt.wait.find? fun t => !t.own && t.pkt.tc == c && d.movable t with
  | some t => some t
  | none =>
    if d.classHeld c then none
    else
      let owners := ((d.rt.wait.filter fun t => t.own && t.pkt.tc == c).map (·.ownerQueue)).eraseDups
      let ok := owners.filter fun o => match d.ownerHead c o with
        | some t => !d.ownerHeld t
        | none => false
      let last := sget 0 d.rt.rr c
      match lowest (ok.filter (last ≤ ·)) with
      | some o => d.ownerHead c o
      | none => (lowest ok).bind (d.ownerHead c)

/-- Remove a waiting packet. -/
def Device.unwait (d : Device) (t : TxPacket) : Device := { d with rt.wait := d.rt.wait.erase t }

/-- The packet chosen takes its way. -/
def Device.sendWaiting (d : Device) (t : TxPacket) : Device :=
  let p := t.pkt
  let own := p.src == d.node
  match d.routeOf p.dest p.tc (d.epochOf t) with
  | .stale => ((d.unwait t).count F.FAB_ROUTE_STATS.STALE_SENT).notice 0x41 p
  | .none =>
    let d := d.unwait t
    if !own then d.dropTransit p else if isNotice p then d else (d.responseCut p.msgId).declareDead p.dest
  | .hold =>
    let u := some (d.now + 1000 * d.fld F.FAB_ROUTE_CTRL.HOLD_US)
    { d with rt.wait := d.rt.wait.map fun (x : TxPacket) => if x = t then { x with heldUntil := u } else x }
  | .link l =>
    let d := d.unwait t
    let d := if d.oldRouted (d.epochOf t) then d.count F.FAB_ROUTE_STATS.OLD_ROUTED else d
    if own then
      let q := d.sealPkt { p with epoch := d.activeBank.epoch, salt := d.fld F.FAB_CTRL.SALT, payload := t.clear, tag := [] }
      let d := d.enqueue l { t with pkt := q, heldUntil := none }
      let d := if t.own then
          ({ d.charge t with rt.rr := sput 0 d.rt.rr p.tc (t.ownerQueue + 1) })
        else d
      d.departed p.msgId
    else d.enqueue l { t with heldUntil := none }

/-- PACKET_TRANSMIT: the next packet of a class that may leave joins a link queue. -/
def execPacketTransmit (at_ cls : Nat) (s : State) : Host.Outcome State Fault Refusal :=
  s.act fun d =>
    let d := (d.at_ at_).countWaits cls
    match d.nextPacket cls with
    | some t => d.sendWaiting t
    | none => d

/-- ROUTE_HOLD_EXPIRY (R325): every packet whose hold has run out is dropped; a transit OPERATION packet draws
UNREACHABLE. -/
def execRouteHoldExpiry (at_ : Nat) (s : State) : Host.Outcome State Fault Refusal :=
  s.act fun d =>
    let d := d.at_ at_
    let out := fun (t : TxPacket) => match t.heldUntil with
      | some u => decide (u ≤ d.now) && !d.movable t
      | none => false
    (d.rt.wait.filter out).foldl (fun d t =>
      let d := d.unwait t
      if t.pkt.src = d.node then (d.count F.FAB_ROUTE_STATS.HELD_DROPS).responseCut t.pkt.msgId else d.dropTransit t.pkt) d

/-! ### Loading and switching (Table 14.4) -/

/-- ROUTE_LOAD (R327): the fetch of a map image starts, or BUSY while the other bank drains; while one runs nothing changes (DESIGN
CHOICE, log entry 209). -/
def routeLoadEff (port bytes : Nat) (d : Device) : Device :=
  match d.fld F.FAB_ROUTE_STATUS.OTHER_STATE with
  | 4 => d.setFld F.FAB_ROUTE_STATUS.LOAD_RESULT 2
  | 1 => d
  | _ =>
    (d.setFld F.FAB_ROUTE_STATUS.OTHER_STATE 1).emit
      (.hostRead ⟨port, 0⟩ (d.fld F.FAB_ROUTE_LOAD_ADDR.ADDR * 64) bytes)

/-- ROUTE_LOAD. -/
def execRouteLoad (port bytes : Nat) (s : State) : Host.Outcome State Fault Refusal :=
  s.act fun d => d.asHolder port (routeLoadEff port bytes)

/-- The load checks of R327. -/
def Device.mapOk (d : Device) (m : MapImage) : Bool :=
  m.ok && decide (1 ≤ m.setCount) && decide (m.setCount ≤ 4096) && decide (m.epoch < 256) &&
  m.epoch != d.rt.bank0.epoch && m.epoch != d.rt.bank1.epoch &&
  (m.sets.all fun x => decide (x < 2 ^ 112)) &&
  m.entries.all fun (_, e) =>
    decide (e.toNat % 4096 < m.setCount) && decide (e.toNat / 4096 % 4096 < m.setCount) && bitsOf e.toNat 24 6 == 0

/-- The bank that a map image gives. -/
def mapBank (m : MapImage) : MapBank :=
  { epoch := m.epoch,
    sets := ((List.range m.setCount).zip m.sets).foldl (fun b (i, x) => sput 0 b i x) [],
    entries := m.entries.foldl (fun b (n, e) => sput 0 b n e.toNat) [] }

/-- ROUTE_LOAD_DONE (Table 14.4). -/
def routeLoadDoneEff (image : List Byte) (ok : Bool) (d : Device) : Device :=
  let m := MapImage.ofBytes image
  if d.fld F.FAB_ROUTE_STATUS.OTHER_STATE ≠ 1 then d
  else if !ok then
    ((d.setFld F.FAB_ROUTE_STATUS.OTHER_STATE 0).setFld F.FAB_ROUTE_STATUS.LOAD_RESULT 4).hostErr
  else if d.mapOk m then
    (((d.setOther (mapBank m)).setFld F.FAB_ROUTE_STATUS.OTHER_STATE 2).setFld F.FAB_ROUTE_STATUS.LOAD_RESULT 1).setFld
      F.FAB_ROUTE_STATUS.OTHER_EPOCH m.epoch
  else (d.setFld F.FAB_ROUTE_STATUS.OTHER_STATE 0).setFld F.FAB_ROUTE_STATUS.LOAD_RESULT 3

/-- ROUTE_LOAD_DONE. -/
def execRouteLoadDone (image : List Byte) (ok : Bool) (s : State) : Host.Outcome State Fault Refusal :=
  s.act (routeLoadDoneEff image ok)

/-- The ARMED bank becomes ACTIVE and the old one RETAINED; dead nodes that the new map lists are no longer marked (R269,
R327). -/
def Device.mapSwitch (d : Device) : Device :=
  let old := d.activeBank.epoch
  let d := d.setFld F.FAB_ROUTE_STATUS.ACTIVE_BANK (1 - d.fld F.FAB_ROUTE_STATUS.ACTIVE_BANK)
  let d := (d.setFld F.FAB_ROUTE_STATUS.ACTIVE_EPOCH d.activeBank.epoch).setFld F.FAB_ROUTE_STATUS.OTHER_EPOCH old
  let d := (d.setFld F.FAB_ROUTE_STATUS.OTHER_STATE 4).setFld F.FAB_ROUTE_STATUS.SWITCH_RESULT 2
  let b := d.activeBank
  { d with rt.retainedStarts := 0, rt.dead := d.rt.dead.filter fun n => !(b.entry n).testBit 31 }

/-- ARM with IMMEDIATE clear (Table 14.4); outside LOADED it reads not loaded (DESIGN CHOICE, log entry 209). -/
def armRouteEff (d : Device) : Device :=
  if d.fld F.FAB_ROUTE_STATUS.OTHER_STATE ≠ 2 then d.setFld F.FAB_ROUTE_STATUS.SWITCH_RESULT 4
  else if d.fld F.FAB_ROUTE_SWITCH_TURN.TURN > d.turnNo then
    (d.setFld F.FAB_ROUTE_STATUS.OTHER_STATE 3).setFld F.FAB_ROUTE_STATUS.SWITCH_RESULT 1
  else d.setFld F.FAB_ROUTE_STATUS.SWITCH_RESULT 3

/-- ARM. -/
def execArmRoute (port : Nat) (s : State) : Host.Outcome State Fault Refusal := s.act fun d => d.asHolder port armRouteEff

/-- ARM with IMMEDIATE (Table 14.4). -/
def armImmediateEff (d : Device) : Device :=
  if d.fld F.FAB_ROUTE_STATUS.OTHER_STATE ≠ 2 then d.setFld F.FAB_ROUTE_STATUS.SWITCH_RESULT 4 else d.mapSwitch

/-- IMMEDIATE. -/
def execArmImmediate (port : Nat) (s : State) : Host.Outcome State Fault Refusal :=
  s.act fun d => d.asHolder port armImmediateEff

/-- DRAIN_WINDOW_END: 2 × PERIOD after the switch of an IDLE device (Table 14.4). -/
def execDrainWindowEnd (s : State) : Host.Outcome State Fault Refusal :=
  s.act fun d =>
    if d.fld F.FAB_ROUTE_STATUS.OTHER_STATE = 4 ∧ d.fld F.TURN_STATUS.STATE = 0 then
      d.setFld F.FAB_ROUTE_STATUS.OTHER_STATE 0
    else d

/-- What a local turn start does to the banks (Table 14.4). -/
def Device.routeBoundary (d : Device) (turn : Nat) : Device :=
  if d.fld F.FAB_ROUTE_STATUS.OTHER_STATE = 3 ∧ d.fld F.FAB_ROUTE_SWITCH_TURN.TURN = turn then d.mapSwitch
  else if d.fld F.FAB_ROUTE_STATUS.OTHER_STATE = 4 then
    if d.rt.retainedStarts ≥ 1 then d.setFld F.FAB_ROUTE_STATUS.OTHER_STATE 0
    else { d with rt.retainedStarts := d.rt.retainedStarts + 1 }
  else d

/-- ROUTING_NOTICE (R268, R326): the source resends a STALE message once, and fails it with STALE_EPOCH at a second such
answer; UNREACHABLE declares the destination dead. The notice is the 32 bytes of Table 14.3. -/
def routingNoticeEff (payload host : List Byte) (d : Device) : Device :=
  let ty := fieldAt payload 0 1
  let dest := fieldAt payload 6 2
  let msgId := fieldAt payload 8 6
  let attempt := fieldAt payload 14 1
  if ty = 0x42 then d.declareDead dest
  else if ty = 0x41 then
    match d.outMsg msgId with
    | none => d
    | some o =>
      if o.node ≠ dest ∨ attempt ≠ o.attempt % 16 then d
      else if o.stale then (d.settle o 3).event F.SLU_EVENTS.STALE_EPOCH
      else
        let o := { o with stale := true }
        ({ d with slu.msgs := d.slu.msgs.map fun (x : OutMsg) => if x.msgId = msgId then o else x } : Device).resend o host
  else d

/-- ROUTING_NOTICE. -/
def execRoutingNotice (payload host : List Byte) (s : State) : Host.Outcome State Fault Refusal :=
  s.act (routingNoticeEff payload host)

/-! ### Headgate (R337 to R339) -/

/-- This device is a shadow (R379): it applies no headgate (R338). -/
def Device.isShadow (d : Device) : Bool := match d.cfg.image with
  | some im => im.shadow
  | none => false

/-- The headgate charges and drops. -/
def Device.policing (d : Device) : Bool := d.on F.HG_CTRL.ENABLE && !d.isShadow

/-- The owner slots whose buckets hold or take anything. -/
def Device.hgOwners (d : Device) : List Nat := (d.listed .HG_REQ_CFG ++ d.listed .HG_PROMPT_CFG ++ d.listed .HG_LEVEL).eraseDups

/-- HG_ENABLE: written from 0 to 1 every level takes its BURST. -/
def hgEnableEff (value : Bool) (d : Device) : Device :=
  let was := d.on F.HG_CTRL.ENABLE
  let d := d.setFld F.HG_CTRL.ENABLE (b2n value)
  if value && !was then
    d.hgOwners.foldl (fun d o =>
      (d.setFld F.HG_LEVEL.REQ (d.fld F.HG_REQ_CFG.BURST o) o).setFld F.HG_LEVEL.PROMPT (d.fld F.HG_PROMPT_CFG.BURST o) o) d
  else d

/-- HG_ENABLE. -/
def execHgEnable (port : Nat) (value : Bool) (s : State) : Host.Outcome State Fault Refusal :=
  s.act fun d => d.asHolder port (hgEnableEff value)

/-- The refill at a local turn start (R337). -/
def Device.hgRefill (d : Device) : Device :=
  if d.on F.HG_CTRL.ENABLE then
    d.hgOwners.foldl (fun d o =>
      (d.setFld F.HG_LEVEL.REQ (min (d.fld F.HG_LEVEL.REQ o + d.fld F.HG_REQ_CFG.RATE o) (d.fld F.HG_REQ_CFG.BURST o)) o).setFld
        F.HG_LEVEL.PROMPT (min (d.fld F.HG_LEVEL.PROMPT o + d.fld F.HG_PROMPT_CFG.RATE o) (d.fld F.HG_PROMPT_CFG.BURST o)) o) d
  else d

/-- HG_DROP_BASE_WRITE (R339): the drop ring is live again, through the writing PF. -/
def hgDropBaseEff (port addr : Nat) (d : Device) : Device :=
  let d := d.setReg .HG_DROP_BASE 0 (F.HG_DROP_BASE.ADDR.place (addr / 4096))
  { d with rt.dropLive := true, host.writer := sput 0 d.host.writer (regKey .HG_DROP_BASE 0) (port + 1) }

/-- HG_DROP_BASE_WRITE. -/
def execHgDropBaseWrite (port addr : Nat) (s : State) : Host.Outcome State Fault Refusal :=
  s.act fun d => d.asHolder port (hgDropBaseEff port addr)

/-- Write a drop record (R339, Table 14.7): kind 1 REQUEST, 2 PROMPT. -/
def Device.dropRecord (d : Device) (owner kind slot jst amount level : Nat) : Device :=
  let lost := d.count F.HG_STATS.LOST
  if !d.rt.dropLive then lost
  else
    let bs := pack [(8, d.turnNo), (2, owner), (1, kind), (1, 0), (2, slot), (3, jst), (3, 0), (4, amount), (4, level), (3, 0), (1, 0)]
    let p := d.fld F.HG_DROP_PRODUCED.PRODUCED
    let (d', ok) := d.ringPut (d.ringFn .HG_DROP_BASE) (d.fld F.HG_DROP_BASE.ADDR * 4096) (2 ^ d.fld F.HG_CTRL.LOG2_SIZE)
      p (d.fld F.HG_DROP_CONSUMED.CONSUMED) 32 bs
    if ok then (d'.setFld F.HG_DROP_PRODUCED.PRODUCED (p + 1)).signal (d.fld F.HG_CTRL.VECTOR) else lost

/-- Charge a bucket (R338): true when the charge was taken; a refusal writes a drop record. -/
def Device.hgCharge (d : Device) (level : Field) (drops : Field) (kind owner slot jst amount : Nat) : Device × Bool :=
  if !d.policing then (d, true)
  else if amount ≤ d.fld level owner then (d.setFld level (d.fld level owner - amount) owner, true)
  else ((d.count drops).dropRecord owner kind slot jst amount (d.fld level owner), false)

/-! ### Weir refill and telemetry -/

/-- The owners whose weirs do not stand at their reset level and settings. -/
def Device.weirOwners (d : Device) : List Nat := (d.rt.ownerLevel.map (·.1) ++ d.listed .WEIR_OWNER_CFG).eraseDups

/-- A refilled level. -/
def refilled (level : Int) (rate burst : Nat) : Int := min (level + rate) burst

/-- WEIR_REFILL (R340, R389): a pending WEIR_COMMIT snapshot takes effect, then every weir refills. -/
def weirRefillEff (d : Device) : Device :=
  let d := match d.snapWeir with
    | some snap => (Device.applySnap true snap { d with snapWeir := none }).setFld F.WEIR_STATUS.STAGE_RESULT 2
    | none => d
  let d := [1, 2, 3, 4, 5, 6].foldl (fun (d : Device) c =>
    { d with rt.classLevel := sput weirFull d.rt.classLevel c
                                     (refilled (d.classLevel c) (d.fld F.WEIR_CLASS_CFG.RATE c) (d.fld F.WEIR_CLASS_CFG.BURST c)) }) d
  d.weirOwners.foldl (fun (d : Device) o =>
    { d with rt.ownerLevel := sput weirFull d.rt.ownerLevel o
                                     (refilled (d.ownerLevel o) (d.fld F.WEIR_OWNER_CFG.RATE o) (d.fld F.WEIR_OWNER_CFG.BURST o)) }) d

/-- WEIR_REFILL. -/
def execWeirRefill (at_ : Nat) (s : State) : Host.Outcome State Fault Refusal := s.act fun d => weirRefillEff (d.at_ at_)

/-- WEIR_COMMIT (R344, R388). -/
def execWeirCommit (port : Nat) (s : State) : Host.Outcome State Fault Refusal := s.act fun d => d.asHolder port Device.stageWeir

/-- Flits of a class waiting at a source: a link's queue, or the weir queues (127). -/
def Device.telFlits (d : Device) (source c : Nat) : Nat :=
  let flits := fun (ts : List TxPacket) => ((ts.filter fun t => t.pkt.tc == c).map fun t => flitsOf t.pkt.wireLen).sum
  if source = 127 then flits (d.rt.wait.filter (·.own))
  else
    let k := d.link source
    if c = 0 then k.turnQueue.length else flits k.queue + (if k.sendingTc = c then flitsOf k.sending.length else 0)

/-- A telemetry record (Table 14.8). -/
def Device.telRecord (d : Device) (ages : List (Nat × Nat × Nat)) (source : Nat) : List Byte :=
  let age := fun c => match ages.find? fun x => x.1 == source && x.2.1 == c with
    | some x => x.2.2
    | none => 0
  let bs := pack ([(8, d.turnNo), (4, d.now - d.turn.start), (1, source), (3, 0)] ++
    (List.range 7).flatMap fun c => [(2, min (d.telFlits source c) 65535), (2, min (age c) 65535)])
  bs ++ List.replicate (64 - bs.length) 0

/-- The sources that are sampled (R342). -/
def Device.telSources (d : Device) : List Nat :=
  ((List.range 112).filter fun l => d.part.link l &&
    (if l < 64 then (d.fld F.WEIR_TEL_LINKS0.LINKS).testBit l else (d.fld F.WEIR_TEL_LINKS1.LINKS).testBit (l - 64))) ++
  (if d.on F.WEIR_TEL_LINKS1.WEIRS then [127] else [])

/-- A sampling round (R342). -/
def telemetryEff (ages : List (Nat × Nat × Nat)) (d : Device) : Device :=
  if !d.on F.WEIR_TEL_CTRL.ENABLE then d
  else
    let d := d.telSources.foldl (fun d src =>
      let p := d.fld F.WEIR_TEL_PRODUCED.PRODUCED
      let (d', ok) := d.ringPut (d.ringFn .WEIR_TEL_BASE) (d.fld F.WEIR_TEL_BASE.ADDR * 4096)
        (2 ^ d.fld F.WEIR_TEL_CTRL.LOG2_SIZE) p (d.fld F.WEIR_TEL_CONSUMED.CONSUMED) 64 (d.telRecord ages src)
      if ok then d'.setFld F.WEIR_TEL_PRODUCED.PRODUCED (p + 1) else d.count F.WEIR_TEL_LOST.LOST) d
    d.signal (d.fld F.WEIR_TEL_CTRL.VECTOR)

/-- TELEMETRY_SAMPLE. -/
def execTelemetrySample (at_ : Nat) (ages : List (Nat × Nat × Nat)) (s : State) : Host.Outcome State Fault Refusal :=
  s.act fun d => telemetryEff ages (d.at_ at_)

end Sys2Proof.Machine
end

