-- ==== Sys2Proof/Machine/FurOps.lean ====
section
/-! DEFINITION. Sys2Proof/Machine/FurOps.lean: what other units need of the furrow unit (spec/07): descriptors, the page
table, frames of pages, read copies and fetches, page lists, degraded and held-out entries. -/

namespace Sys2Proof.Machine

/-! ### Furrow descriptors (Table 7.1) -/

/-- The 64 bytes of a descriptor. -/
def furrowBytes (f : Furrow) : List Byte :=
  pack [(4, f.id), (4, f.base), (4, f.length), (4, f.pushed), (2, f.ppsM1), (1, f.layersM1), (1, f.headsM1), (2, f.rankStream),
    (2, f.home), (1, f.state + 8 * b2n f.openHw + 16 * f.mode + 64 * b2n f.spillHome), (1, f.sink), (1, f.recent), (1, f.top),
    (1, f.fmt + 16 * f.dsz), (1, f.dM32), (2, f.owner), (2, f.scBase), (2, f.scCount), (6, f.indexAddr), (4, f.openScore),
    (2, 0), (8, f.lastUse), (8, 0)]

/-- Descriptor i; one not listed is FREE. -/
def Device.furrow (d : Device) (i : Nat) : Furrow := sget {} d.fur.desc i
/-- Replace a descriptor. -/
def Device.setFurrow (d : Device) (i : Nat) (f : Furrow) : Device :=
  ({ d with fur.desc := sput {} d.fur.desc i f } : Device).mirror (d.fld F.FUR_DESC_BASE.ADDR * 65536 + 64 * i) (furrowBytes f)

/-- The descriptor that holds a FURROW_ID. -/
def Device.furById (d : Device) (id : Nat) : Option Nat :=
  (d.fur.desc.find? fun x => x.2.state != 0 && x.2.id == id).map (·.1)

/-- The OWNED descriptor of a FURROW_ID. -/
def Device.ownedById (d : Device) (id : Nat) : Option Nat :=
  (d.fur.desc.find? fun x => x.2.state == 1 && x.2.id == id).map (·.1)

/-- The committed length of a FURROW_ID's furrow. -/
def Device.furLen (d : Device) (id : Nat) : Nat := match d.furById id with
  | some i => (d.furrow i).length
  | none => 0

/-- Pages per stream. -/
def pps (f : Furrow) : Nat := f.ppsM1 + 1
/-- Streams of a furrow. -/
def streams (f : Furrow) : Nat := (f.layersM1 + 1) * (f.headsM1 + 1)
/-- The sequence page of a page of a stream (R159). -/
def seqPage (f : Furrow) (s p : Nat) : Nat := f.base + s * pps f + p
/-- The granules of a furrow's region. -/
def granules (f : Furrow) : Nat := ceilDiv (streams f * pps f) 4096
/-- Bytes of one element of a page format: codes 0 and 1 of Table 3.4 are 8 bits wide, 8 and 9 are 16. -/
def elemBytes (fmt : Nat) : Nat := if fmt < 8 then 1 else 2
/-- D of a furrow. -/
def headDim (f : Furrow) : Nat := 32 * (f.dM32 + 1)
/-- D_s of a score-width code (Table 6.3). -/
def scoreDim (dsz : Nat) : Nat := 64 * 2 ^ dsz
/-- Score forms of one frame (Table 6.2). -/
def slotsPerFrame (dsz : Nat) : Nat := 4 / 2 ^ dsz

/-! ### The page table (Table 7.3) -/

/-- The 128-bit value of a page-table entry. -/
def pteValue (e : Pte) : Nat :=
  e.tier * 2 ^ 124 + b2n e.isOpen * 2 ^ 123 + b2n e.coded * 2 ^ 122 + b2n e.moving * 2 ^ 121 + b2n e.scored * 2 ^ 120 +
    b2n e.copy * 2 ^ 119 + e.span * 2 ^ 108 + e.node * 2 ^ 92 + e.frame * 2 ^ 64 + e.lastUse % 2 ^ 32 * 2 ^ 32 +
    e.scCh * 2 ^ 17 + e.scFrame * 4 + e.scSlot

/-- The page-table entry of a sequence page. -/
def Device.pte (d : Device) (g : Nat) : Pte := sget {} d.fur.pte g

/-- Replace a page-table entry; its granule's page-table frame follows, where there is one (R158). -/
def Device.setPte (d : Device) (g : Nat) (e : Pte) : Device :=
  let w := sget 0 d.fur.dir (g / 4096)
  let d := { d with fur.pte := sput {} d.fur.pte g e }
  if w.testBit 31 then d.postWrite (frameAddr (w % 2 ^ 24) + 16 * (g % 4096)) (leBytes 16 (pteValue e)) else d

/-- LAST_USE as a page-table entry holds it (bits 37:6 of the turn number). -/
def Device.useStamp (d : Device) : Nat := d.turnNo / 64 % 2 ^ 32

/-- Give a granule its page-table frame when it has none (R158): every entry of it is NONE. None with the RESERVOIR pool empty. -/
def Device.granuleFrame (d : Device) (g owner die : Nat) : Option Device :=
  if (sget 0 d.fur.dir g).testBit 31 then some d
  else
    (d.allocFrame poolRes die owner).map fun (a, d) =>
      let w := 2 ^ 31 + frameOf a
      ({ d.formatFrame (frameOf a) with fur.dir := sput 0 d.fur.dir g w } : Device).mirror (d.fld F.FUR_DIR_BASE.ADDR * 65536 + 4 * g) (leBytes 4 w)

/-- The headwater address of a page's primary frame or read copy, if one is complete. -/
def Device.pageAddr (d : Device) (g : Nat) : Option Nat :=
  let e := d.pte g
  if e.tier = 1 then some (e.frame * frameBytes)
  else
    let c := sget 0 d.fur.copies g
    if e.copy && c != 0 && !(d.fur.fetches.any fun f => f.page == g) then some (c - 1) else none

/-- Free a page's primary frame. -/
def Device.freePlace (d : Device) (tier frame : Nat) : Device :=
  match tier with
  | 1 => d.freeHw (frame * frameBytes)
  | 2 => d.freeRes (frameAddr frame)
  | 4 => d.freeFlash frame
  | _ => d

/-- Drop a read copy. -/
def Device.dropCopy (d : Device) (g : Nat) : Device :=
  let c := sget 0 d.fur.copies g
  if c = 0 then d
  else
    let d := ({ d with fur.copies := sput 0 d.fur.copies g 0,
                       fur.fetches := d.fur.fetches.filter fun f => f.page != g } : Device).freeHw (c - 1)
    d.setPte g { d.pte g with copy := false }

/-- Free the raw frames that the index builder has kept of some coded pages (R167). -/
def Device.freeRaw (d : Device) (test : Nat → Bool) : Device :=
  (d.fur.kept.filter fun x => test x.1).foldl (fun d x => d.freePlace x.2.1 x.2.2)
    { d with fur.kept := d.fur.kept.filter fun x => !test x.1 }

/-- Free everything that one page of a furrow holds: its frames, its copy and its score form's frame (R162). -/
def Device.freePage (d : Device) (g : Nat) : Device :=
  let e := d.pte g
  let d := ((d.dropCopy g).freePlace e.tier e.frame).freeRaw (· == g)
  let d := if e.scored then d.freeScore (e.scCh * 32768 + e.scFrame) else d
  d.setPte g {}

/-- Open a frame for a page that takes appends (R164, R165): the tier as OPEN_HW chooses. -/
def Device.openPage (d : Device) (f : Furrow) (g plot : Nat) : Option Device :=
  (d.granuleFrame (g / 4096) f.owner (plot / 32)).bind fun d =>
    (d.allocFrame (if f.openHw then poolHw else poolRes) (if f.openHw then plot else plot / 32) f.owner).map fun (a, d) =>
      let tier := if f.openHw then 1 else 2
      d.setPte g { tier := tier, isOpen := true, span := 1024, frame := if f.openHw then a / frameBytes else frameOf a,
                   lastUse := d.useStamp }

/-- Open every page of a list that has no frame; none when a frame cannot be had (frames already taken stay). -/
def Device.openPages (d : Device) (f : Furrow) (plot : Nat) : List Nat → Device × Bool
  | [] => (d, true)
  | g :: gs =>
    if (d.pte g).tier ≠ 0 then d.openPages f plot gs
    else match d.openPage f g plot with
      | some d => d.openPages f plot gs
      | none => (d, false)

/-- The pages, in every stream, that an entry may append into (R165). -/
def appendPages (f : Furrow) (a : Nat) : List Nat :=
  if a = 0 then []
  else
    let p0 := f.length / 256
    let n := (f.length + a - 1) / 256 + 1 - p0
    (List.range (streams f)).flatMap fun s => (List.range n).map fun i => seqPage f s (p0 + i)

/-! ### Furrow reads (R182) -/

/-- The 256 bytes of a handoff entry (Table 12.1). -/
def hoBytes (e : HoEntry) : List Byte :=
  pack [(8, e.gen), (2, e.owner), (2, e.pending), (1, e.homeState), (1, e.localState), (1, e.kind), (1, 0), (8, e.since), (4, e.held),
    (4, e.furrow), (8, e.heldTurn), (8, e.offerLength), (16, 0), (16, 0), (16, 0), (16, 0), (16, 0)] ++
    (e.image ++ List.replicate 128 0).take 128

/-- The handoff entry of a descriptor. -/
def Device.hoEntry (d : Device) (i : Nat) : HoEntry := sget {} d.ho.entries i
/-- Replace a handoff entry; its bytes in headwater follow (R281). -/
def Device.setHoEntry (d : Device) (i : Nat) (e : HoEntry) : Device :=
  ({ d with ho.entries := sput {} d.ho.entries i e } : Device).mirror (d.fld F.FUR_HO_BASE.ADDR * 65536 + 256 * i) (hoBytes e)

/-- The device is the furrow's home: its image enables the home table, and the furrow's HOME is its node (R15, R281). -/
def Device.isHome (d : Device) (i : Nat) : Bool := d.on F.FUR_HO_BASE.HOME && (d.furrow i).home == d.node

/-- The owner that the home's ownership record names, as this device knows it: the home by its record, none while it has none; another
device by its view, none until it has one. -/
def Device.recordOwner (d : Device) (i : Nat) : Option Nat :=
  let e := d.hoEntry i
  if if d.isHome i then e.homeState = 0 else e.gen = 0 then none else some e.owner

/-- The descriptor that a furrow read of a page by a node is served from: OWNED or HOSTED under that FURROW_ID, the page in
its region and held here, the requester the owner that the device's record or view names. -/
def Device.furrowServes (d : Device) (src window owner : Nat) : Option Nat :=
  match d.furById (window / 2 ^ 32) with
  | none => none
  | some i =>
    let f := d.furrow i
    let g := f.base + window % 2 ^ 32
    let tier := (d.pte g).tier
    if (f.state = 1 ∨ f.state = 2) ∧ d.recordOwner i = some src ∧ f.owner = owner ∧ window % 2 ^ 32 < streams f * pps f ∧
        (tier = 1 ∨ tier = 2 ∨ tier = 4) then some i
    else none

/-- The bytes of a frame in headwater or the reservoir: `n` of them; a flash frame's are read by their own commands. -/
def Device.tierBytes (d : Device) (tier frame n : Nat) : List Byte :=
  match tier with
  | 1 => d.readMem (frame * frameBytes) n
  | 2 => d.readMem (frameAddr frame) n
  | _ => []

/-- The bytes of a page in the form it is stored in: `n` bytes of its primary frame (R98, R182). -/
def Device.pageBytes (d : Device) (g n : Nat) : List Byte := d.tierBytes (d.pte g).tier (d.pte g).frame n

/-! ### Fetches (R179, R180) -/

/-- The copies that may be dropped: complete, and of no page pinned in this turn. -/
def Device.spareCopies (d : Device) : List Nat :=
  (d.fur.copies.map (·.1)).filter fun g => !d.fur.pins.contains g && !(d.fur.fetches.any fun f => f.page == g)

/-- The pages of a list whose LAST_USE is lowest. -/
def Device.oldest (d : Device) (gs : List Nat) : List Nat :=
  let m := gs.foldl (fun m g => min m (d.pte g).lastUse) (2 ^ 32)
  gs.filter fun g => (d.pte g).lastUse == m

/-- A headwater frame for a copy: with the pool empty, an unpinned copy is dropped first (R190). -/
def Device.copyFrame (d : Device) (plot owner : Nat) : Option (Nat × Device) :=
  (d.allocFrame poolHw plot owner).orElse fun _ =>
    match d.oldest d.spareCopies with
    | g :: _ => (d.dropCopy g).allocFrame poolHw plot owner
    | [] => none

/-- The descriptor, and the function it goes through, of the operation that moves a page's SPAN × 64 bytes between a device address and its
flash frame: an NVMe read or write, or a copy from or to a host spill area (R275, R370, R371). -/
def Device.flashDesc (d : Device) (write : Bool) (frame addr span owner : Nat) : Option (Desc × Fn) :=
  (d.extentOf frame).bind fun x =>
    let n := span * 64
    let k := frame - d.fld F.NVM_EXT_FRAMES.FIRST x
    if d.fld F.NVM_EXT_CFG.KIND x = 1 then
      some ({ opcode := if write then 7 else 6, owner := owner, loc := addr, length := n, subop := d.fld F.NVM_EXT_CFG.PORT x,
              key := d.fld F.NVM_EXT_CFG.NSID x, remote := d.fld F.NVM_EXT_ADDR.ADDR x + 16 * k }, ⟨0, 0⟩)
    else if d.on F.NVM_EXT_CFG.LOST x then none
    else
      let host := d.fld F.NVM_EXT_ADDR.ADDR x + 65536 * k
      some ({ opcode := 1, owner := owner, loc := if write then host else addr, locHost := write,
              remote := if write then addr else host, remHost := !write, length := n },
            ⟨d.fld F.NVM_EXT_CFG.PORT x, d.fld F.NVM_EXT_CFG.FUNCTION x⟩)

/-- Start the fetch of a page into a read copy: from the reservoir directly, from its holder by a furrow read, from flash by
a flash read. With no headwater frame or no context the page stays pending. -/
def Device.startFetch (d : Device) (i g plot : Nat) : Device :=
  let f := d.furrow i
  let e := d.pte g
  if e.tier = 0 ∨ e.tier = 1 ∨ sget 0 d.fur.copies g ≠ 0 then d
  else
    match d.copyFrame plot f.owner with
    | none => d
    | some (a, d) =>
      let mark := fun (d : Device) (src : Nat) =>
        ({ d with fur.copies := sput 0 d.fur.copies g (a + 1),
                  fur.fetches := d.fur.fetches ++ [{ page := g, desc := i, addr := a, src := src }] } : Device).setPte g
          { d.pte g with copy := true }
      let run := fun (d : Device) (x : Desc × Fn) => (mark d 0).issue (hwDie (a / frameBytes)) x.1 (.furrow i (.fetch g)) x.2
      match e.tier with
      | 2 => mark d (frameAddr e.frame)
      | 3 => run d ({ opcode := 3, cls := 2, owner := f.owner, node := e.node, loc := a, region := 0xFFFF,
                      length := e.span * 64, remote := f.id * 2 ^ 32 + (g - f.base) }, ⟨0, 0⟩)
      | _ =>
        match d.flashDesc false e.frame a e.span f.owner with
        | some x => run d x
        | none => d.freeHw a

/-! ### Selection areas and lists (R170 to R174) -/

/-- The selection area of a slot's DECODE or PREFILL entry, or of its DRAFT entry (R171). -/
def Device.selArea (d : Device) (slot : Nat) (draft : Bool) : Nat :=
  d.fld F.FUR_SEL_BASE.ADDR * 65536 + (if draft then 0x800000 else 0) + 2048 * slot

/-- The attending entry of an area. -/
def Device.attendOf (d : Device) (slot : Nat) (draft : Bool) : Option Attend :=
  d.fur.attend.find? fun x => x.slot == slot && x.draft == draft

/-- Replace an attending entry. -/
def Device.setAttend (d : Device) (x : Attend) : Device :=
  { d with fur.attend := d.fur.attend.map fun (y : Attend) => if y.slot = x.slot ∧ y.draft = x.draft then x else y }

/-- Committed positions of a page. -/
def positionsIn (f : Furrow) (p : Nat) : Nat := min 256 (f.length - 256 * p)

/-- The state of a list entry: 0 pending, 1 present, 2 missing (Table 7.5). -/
def Device.entryState (d : Device) (x : Attend) (g : Nat) : Nat :=
  if x.lost.contains g then 2 else if (d.pageAddr g).isSome then 1 else 0

/-- The 8 bytes of a frame list entry (Table 7.5). -/
def Device.listEntry (d : Device) (x : Attend) (f : Furrow) (s p : Nat) : Nat :=
  let g := seqPage f s p
  let e := d.pte g
  (match d.pageAddr g with
   | some a => a / frameBytes
   | none => sget 0 d.fur.copies g / frameBytes) * 2 ^ 48 + positionsIn f p * 2 ^ 31 +
    (if e.coded then e.span else 0) * 2 ^ 20 + p % 65536 * 16 + d.entryState x g

/-- Write every stream's list into the list area. -/
def Device.writeLists (d : Device) (x : Attend) : Device :=
  let f := d.furrow x.desc
  (List.range (streams f)).foldl (fun d s =>
    d.store (x.listAddr + 2048 * s) (x.pages.flatMap fun p => leBytes 8 (d.listEntry x f s p))) d

/-- Rewrite the entries of one page in every list that shows it. -/
def Device.refreshEntry (d : Device) (g : Nat) : Device :=
  d.fur.attend.foldl (fun d x =>
    let f := d.furrow x.desc
    if x.final && decide (f.base ≤ g) && decide (g < f.base + streams f * pps f) then
      let s := (g - f.base) / pps f
      let p := (g - f.base) % pps f
      match x.pages.findIdx? (· == p) with
      | some k => d.store (x.listAddr + 2048 * s + 8 * k) (leBytes 8 (d.listEntry x f s p))
      | none => d
    else d) d

/-- Insert into a rising list. -/
def insertNat (x : Nat) : List Nat → List Nat
  | [] => [x]
  | y :: ys => if x ≤ y then x :: y :: ys else y :: insertNat x ys

/-- Sort by ascending value. -/
def sortNat : List Nat → List Nat
  | [] => []
  | x :: xs => insertNat x (sortNat xs)

/-- The pages of a list in every stream, in access order (R180). -/
def accessOrder (f : Furrow) (pages : List Nat) : List Nat :=
  (List.range (streams f)).flatMap fun s => pages.map (seqPage f s)

/-- Pin pages, mark their use and fetch those that are neither in headwater nor copied (R179, R180). -/
def Device.listPages (d : Device) (i plot : Nat) (pages : List Nat) : Device :=
  (accessOrder (d.furrow i) pages).foldl (fun d g =>
    let d := if (d.pte g).tier = 0 then d else d.setPte g { d.pte g with lastUse := d.useStamp }
    ({ d with fur.pins := g :: d.fur.pins } : Device).startFetch i g plot) d

/-- Write RESULT and FLAGS of a selection area. -/
def Device.writeResult (d : Device) (x : Attend) : Device :=
  let r := if x.heldOut then 3 else if x.final then (if x.degraded then 2 else 1) else 0
  (d.storeVal (d.selArea x.slot x.draft + 2) 1 r).storeVal (d.selArea x.slot x.draft + 4) 1 (b2n x.fallback + 2 * b2n x.previous)

/-- An entry is held out (R186): it stops, its sequence is SKIPPED in the seal. -/
def Device.holdOut (d : Device) (x : Attend) : Device :=
  let d := (d.stopQuiet x.entry).event F.FUR_EVENTS.SKIPPED
  let d := match d.admittedAt x.entry with
    | some a => d.tag 2 a.e.jst
    | none => d
  let x := { x with heldOut := true }
  ({ d with fur.nSkipped := d.fur.nSkipped + 1 } : Device).setAttend x |>.writeResult x

/-- The owner's entries are held out rather than degraded. -/
def Device.strict (d : Device) (owner : Nat) : Bool := (d.fld F.FUR_STRICT.STRICT (owner / 64)).testBit (owner % 64)

/-- An attending entry becomes degraded, or is held out (R186). -/
def Device.degrade (d : Device) (slot : Nat) (draft : Bool) : Device :=
  match d.attendOf slot draft with
  | none => d
  | some x =>
    if x.degraded || x.heldOut then d
    else if d.strict (d.furrow x.desc).owner then d.holdOut x
    else
      let x := { x with degraded := true }
      let d := ({ d with fur.nDegraded := d.fur.nDegraded + 1 } : Device).event F.FUR_EVENTS.DEGRADED
      let d := (d.modAdmitted x.entry fun a => { a with degraded := true }).setAttend x
      d.writeResult x

/-- A selection becomes final (R174): the ranked pages join the sinks and the recent window, the lists are written, and
absent pages are fetched. -/
def Device.finalise (d : Device) (x : Attend) (ranked : List Nat) (previous : Bool) : Device :=
  let f := d.furrow x.desc
  let n := ceilDiv (f.length + x.a) 256
  let pages := sortNat ((List.range (min f.sink n)) ++ ranked ++ (List.range f.recent).map fun k => n - f.recent + k)
  let x := { x with final := true, previous := previous, pages := pages }
  let d := (d.setAttend x).listPages x.desc x.plot (sortNat ranked)
  let area := d.selArea x.slot x.draft
  let d := d.storeVal (area + 5) 2 pages.length
  (d.writeLists x).writeResult x

/-- The entries of a selection record (Table 6.7): tags and scores. -/
def Device.selection (d : Device) (slot : Nat) (draft : Bool) : List (Nat × Nat) :=
  let a := d.selArea slot draft + 0x500
  (List.range (min 64 (d.load (a + 9) 1))).map fun i => (d.load (a + 16 + 8 * i) 3, d.load (a + 20 + 8 * i) 4)

/-- Write a selection record. -/
def Device.writeSelection (d : Device) (slot : Nat) (draft : Bool) (outcome listed : Nat) (es : List (Nat × Nat)) : Device :=
  d.store (d.selArea slot draft + 0x500)
    (pack ([(4, listed), (4, listed), (1, outcome), (1, es.length), (2, 0), (4, 0)] ++ es.flatMap fun (t, s) => [(3, t), (1, 0), (4, s)]))

/-- The first entries of a record whose tags are candidates and new, at most TOP (R172). -/
def keepCandidates (first last top : Nat) (es : List (Nat × Nat)) : List Nat :=
  (es.foldl (fun (acc : List Nat) x =>
    if decide (first ≤ x.1) && decide (x.1 < last) && !acc.contains x.1 && decide (acc.length < top) then acc ++ [x.1] else acc) [])

/-- A record becomes the turn's selection (R173, R174, R178): the first TOP entries that are candidates and new are written into SELECTION,
and the lists follow. `partialOut`: the ranking is partial; `previous`: the record is that of an earlier turn (Table 7.8). -/
def Device.takeRanking (d : Device) (x : Attend) (es : List (Nat × Nat)) (partialOut : Bool) (previous : Bool := false) : Device :=
  let f := d.furrow x.desc
  let ranked := keepCandidates x.candFirst x.candEnd f.top es
  let d := if partialOut || previous then d.degrade x.slot x.draft else d
  match d.attendOf x.slot x.draft with
  | some y =>
    if y.heldOut || y.final then d
    else
      let kept := ranked.map fun t => (t, ((es.find? fun e => e.1 == t).map (·.2)).getD 0)
      (d.writeSelection x.slot x.draft (b2n (partialOut || previous)) (x.candEnd - x.candFirst) kept).finalise y ranked previous
  | none => d

/-- Finish with the previous selection's pages that are still candidates, or none (Table 7.8). -/
def Device.fallBackPrevious (d : Device) (x : Attend) : Device := d.takeRanking x (d.selection x.slot x.draft) false true

/-- The best entries of a ranking's fenced results: descending score, equal scores in ascending tag, at most TOP (R173). -/
def Ranking.merged (r : Ranking) : List (Nat × Nat) := (r.results.foldl (fun xs e => insertBest e xs) []).take r.top

/-- A RANK_REPLY (Table 7.7). -/
def Device.rankReply (d : Device) (node turn id owner outcome scored : Nat) (es : List (Nat × Nat)) : Device :=
  let body := pack ([(8, turn), (4, id), (2, d.node), (1, 0x22), (1, outcome), (4, scored), (1, es.length), (11, 0), (16, 0), (16, 0)] ++
    es.flatMap fun (t, s) => [(3, t), (1, 0), (4, s)])
  d.internalSend 0 (.furrow (((d.furById id)).getD 0) .none) node owner 4 body

/-- A ranking ends with what has fenced: it becomes a selection of this device, or the answer to its requester. -/
def Device.endRanking (d : Device) (r : Ranking) (short : Bool) : Device :=
  let d := { d with fur.rankings := d.fur.rankings.erase r }
  let part := short || r.partialOut
  match r.requester with
  | some n => d.rankReply n r.turn (d.furrow r.desc).id (d.furrow r.desc).owner (b2n part) r.scored r.merged
  | none =>
    match d.attendOf r.slot r.draft with
    | some x => if x.final || x.heldOut || decide (r.turn ≠ d.turnNo) then d else d.takeRanking x r.merged part
    | none => d

/-- The merge of a ranking at a cutoff covers what has fenced; with nothing new the home answers PARTIAL, and a ranking of this device ends
without a result (R173, Table 7.8). -/
def Device.cutRanking (d : Device) (r : Ranking) : Device :=
  if r.requester.isSome || r.results != [] || decide (r.scored > 0) then d.endRanking r (r.waiting != [])
  else { d with fur.rankings := d.fur.rankings.erase r }

/-- An entry's selection is cut: its ranking's merge covers what has fenced; with nothing new the previous selection serves (Table 7.8). -/
def Device.cutSelection (d : Device) (x : Attend) : Device :=
  let d := (d.fur.rankings.filter fun r => r.requester.isNone && r.slot == x.slot && r.draft == x.draft).foldl (fun d r => d.cutRanking r) d
  match d.attendOf x.slot x.draft with
  | some y => if y.final || y.heldOut then d else d.fallBackPrevious y
  | none => d

/-- Pages of a list turn missing, and their entry is degraded or held out (Table 7.8). -/
def Device.losePages (d : Device) (x : Attend) (gone : List Nat) : Device :=
  if gone.isEmpty then d
  else (gone.foldl (fun d g => d.refreshEntry g) (d.setAttend { x with lost := gone ++ x.lost })).degrade x.slot x.draft

/-- Admission of an attending entry (R165, R170 to R172): its open frames, its list space, its header and what of its list is
known; none when it is unfit. `a` is what it may append. -/
def Device.attendAdmit (d : Device) (slot : Nat) (draft : Bool) (entry i a plot : Nat) : Device × Bool :=
  let f := d.furrow i
  let (d, ok) := d.openPages f plot (appendPages f a)
  if !ok then (d.event F.FUR_EVENTS.NO_FRAME, false)
  else
    let n := ceilDiv (f.length + a) 256
    let all := f.mode == 0 || decide (n ≤ f.sink + f.recent + f.top)
    if all && decide (n > 256) then (d, false)
    else if d.fur.listFill + 2048 * streams f > d.fld F.FUR_LIST.SIZE * 0x100000 then (d.event F.FUR_EVENTS.LIST_FULL, false)
    else
      let cf := if all then 0 else f.sink
      let ce := if all then 0 else n - f.recent
      let unscored := (List.range (ce - cf)).any fun k => !(d.pte (seqPage f f.rankStream (cf + k))).scored
      let fall := !all && f.mode == 2 && unscored
      let mode := if fall then 1 else f.mode
      let x : Attend := { slot := slot, draft := draft, entry := entry, desc := i, a := a, mode := mode, plot := plot,
                          listAddr := d.fld F.FUR_LIST.ADDR * 65536 + d.fur.listFill, candFirst := cf, candEnd := ce,
                          final := all, fallback := fall, pages := if all then List.range n else [] }
      let d := { d with fur.attend := d.fur.attend ++ [x], fur.listFill := d.fur.listFill + 2048 * streams f,
                        fur.nFallback := d.fur.nFallback + b2n fall,
                        fur.pins := appendPages f a ++ d.fur.pins }
      let d := if fall then d.event F.FUR_EVENTS.FALLBACK else d
      let area := d.selArea slot draft
      let d := (d.store area (pack [(1, mode), (1, 0), (1, 0)])).store (area + 4)
        (pack [(1, b2n fall), (2, x.pages.length), (1, 0), (4, cf), (4, ce), (6, x.listAddr), (2, 0), (8, d.turnNo)])
      let d := d.setFurrow i { f with lastUse := d.turnNo }
      let known := if all then x.pages else List.range (min f.sink n) ++ (List.range f.recent).map fun k => n - f.recent + k
      let d := d.listPages i plot known
      (if all then (d.writeLists x).writeResult x else d, true)

/-! ### Destroying (R162) -/

/-- The pages of a furrow's region that hold anything. -/
def Device.regionPages (d : Device) (f : Furrow) : List Nat :=
  (d.fur.pte.map (·.1)).filter fun g => decide (f.base ≤ g) && decide (g < f.base + granules f * 4096)

/-- No operation of a furrow is in flight: no fetch, read of its own, move, furrow read served, manifest transfer (on its way, or waiting for a context or
for a HELLO) or reservoir command. -/
def Device.furrowQuiet (d : Device) (i : Nat) : Bool :=
  let f := d.furrow i
  let mine := fun (x : SluCtx) => match x.iss with
    | .furrow j _ => j == i
    | .handoff j _ => j == i
    | _ => false
  !(d.fur.fetches.any fun x => x.desc == i) && !(d.fur.loads.any fun x => x.desc == i) && !(d.fur.moves.any fun m => m.desc == i) &&
  !(d.slu.ctxs.any mine) && !(d.slu.waiting.any mine) && !(d.ho.peers.any fun p => p.2.held.any fun h => h.desc == i) &&
  !(d.fur.builds.any fun b => b.desc == i) && !(d.fur.rankings.any fun r => r.desc == i) &&
  !(d.slu.inbox.any fun m => m.hdr.region == 0xFFFF && m.hdr.offset / 2 ^ 32 == f.id)

/-- Free all that a furrow holds, its page-table frames and its granules with it. -/
def Device.freeFurrow (d : Device) (i : Nat) : Device :=
  let f := d.furrow i
  let coded := d.fur.coding.filter fun x => x.desc == i
  let d := coded.foldl (fun d x => match x.ready with
    | some r => d.freePlace (d.pte x.page).tier r.1
    | none => d) { d with fur.coding := d.fur.coding.filter fun x => x.desc != i }
  let d := (d.regionPages f).foldl (fun d g => d.freePage g) d
  let d := if f.openScore.testBit 31 then d.freeScore (bitsOf f.openScore 15 9 * 32768 + f.openScore % 32768) else d
  let d := (List.range (granules f)).foldl (fun d k =>
    let g := f.base / 4096 + k
    let w := sget 0 d.fur.dir g
    if w.testBit 31 then
      (({ d with fur.dir := sput 0 d.fur.dir g 0 } : Device).freeRes (frameAddr (w % 2 ^ 24))).mirror
        (d.fld F.FUR_DIR_BASE.ADDR * 65536 + 4 * g) (leBytes 4 0)
    else d) d
  { d with fur.unscored := d.fur.unscored.filter fun x => x.1 != i }.setFurrow i {}

end Sys2Proof.Machine
end

