-- ==== Sys2Proof/Machine/SlotOps.lean ====
section
/-! DEFINITION. Sys2Proof/Machine/SlotOps.lean: flume rings, their records and interrupts, and the
effects of a cancel (spec/10). -/

namespace Sys2Proof.Machine

/-! ### Flumes (R232 to R239) -/

/-- A flume. -/
def Device.flume (d : Device) (h : Nat) : Flume := sget {} d.flu.flumes h
/-- Replace a flume. -/
def Device.setFlume (d : Device) (h : Nat) (f : Flume) : Device := { d with flu.flumes := sput {} d.flu.flumes h f }

/-- Stop a flume (R238): the error record names the slot and the flume; nothing more is written to it. -/
def Device.stopFlume (d : Device) (h : Nat) : Device :=
  let f := d.flume h
  if !f.isOpen || f.stopped then d
  else
    (d.setFlume h { f with stopped := true, fresh := false }).record
      { cause := 0x0A, severity := 1, slot := f.slot, jst := (d.slot f.slot).img.jst, detail := [(2, h), (8, d.turnNo)] }

/-- Records go to a flume (R235): one that is open and not stopped, on a device that is not a shadow. -/
def Device.takesRecords (d : Device) (h : Nat) : Bool := h != 0xFFFF && !d.isShadow && (d.flume h).isOpen && !(d.flume h).stopped

/-- The slot's commits are counted by the metergate (R236). -/
def Device.metered (d : Device) (i : Nat) : Bool := (d.slot i).img.flume != 0xFFFF && !d.isShadow

/-- Write a record to a flume: `body` is bytes 30:0 by SEQ; KIND goes with PHASE (R234). -/
def Device.flumePut (d : Device) (h kind : Nat) (body : Nat → List (Nat × Nat)) : Device :=
  if !d.takesRecords h then d
  else
    let f := d.flume h
    let size := 2 ^ f.log2
    let bs := pack (body (f.produced % 2 ^ 32) ++ [(1, phase f.produced size + kind)])
    let d := d.hostWrite ⟨f.port, f.vf⟩ (f.ring + 64 + 32 * (f.produced % size)) bs
    d.setFlume h { f with produced := f.produced + 1, since := f.since + 1, fresh := true, status := f.status || kind == 2,
                          firstAt := if f.since = 0 then d.now else f.firstAt }

/-- The turn a status record names (Table 10.4): at a boundary the turn that begins there, while the job is RUNNING; otherwise the
current one. -/
def Device.recordTurn (d : Device) : Nat := match d.turn.due with
  | some s => if d.running then s.turn else d.turnNo
  | none => d.turnNo

/-- A token record (Table 10.3). `code` is 0 without a screen FLAG, else 256 plus its CODE. -/
def Device.tokenRecord (d : Device) (i turn token position outIndex code : Nat) (degraded previous ending : Bool) : Device :=
  d.flumePut (d.slot i).img.flume 1 fun seq =>
    [(8, turn), (4, seq), (4, token), (4, position), (4, outIndex), (4, 0), (1, code % 256),
     (1, b2n degraded + 2 * b2n (code != 0) + 4 * b2n previous + 8 * b2n ending), (1, 0)]

/-- What a status record says of a slot (Table 10.4). -/
def Device.statusNote (d : Device) (i event : Nat) : StatusNote :=
  let s := (d.slot i).img
  { slot := i, flume := s.flume, turn := d.recordTurn, length := d.furLen s.furrow, outCount := s.outCount, promptCount := s.promptCount,
    event := event, state := s.state, reason := s.reason }

/-- Write a status record. -/
def Device.putNote (d : Device) (n : StatusNote) : Device :=
  d.flumePut n.flume 2 fun seq =>
    [(8, n.turn), (4, seq), (4, n.length), (4, n.outCount), (4, n.promptCount), (3, 0), (1, n.event), (1, n.state), (1, n.reason), (1, 0)]

/-- Write a status record of a slot (Table 10.4). -/
def Device.statusRecord (d : Device) (i event : Nat) : Device := d.putNote (d.statusNote i event)

/-- A note takes its place among those of a boundary, in ascending slot number; a slot has one (log entry 185). -/
def insertNote (n : StatusNote) : List StatusNote → List StatusNote
  | [] => [n]
  | x :: xs =>
    if n.slot = x.slot ∧ n.flume = x.flume then n :: xs
    else if n.slot < x.slot then n :: x :: xs
    else x :: insertNote n xs

/-- A PAUSE or RESUME has changed a slot's STATE (R235): the record is written with the others of its boundary, at once while IDLE. -/
def Device.stateChanged (d : Device) (i : Nat) : Device :=
  if d.fld F.TURN_STATUS.STATE = 0 then d.statusRecord i 1
  else { d with flu.notes := insertNote (d.statusNote i 1) d.flu.notes }

/-- The interrupt condition of a flume (R239), over records that PRODUCED covers. -/
def Flume.due (f : Flume) (now : Nat) : Bool :=
  f.isOpen && !f.fresh && f.modCount != 0 && f.since != 0 &&
    (f.status || decide (f.since ≥ f.modCount) || decide (now ≥ f.firstAt + 1000 * f.modTime))

/-- Test flumes and signal those whose condition holds, each vector once (R239). -/
def Device.testFlumes (d : Device) (hs : List Nat) : Device :=
  let due := hs.filter fun h => (d.flume h).due d.now
  let keys := (due.map fun h => let f := d.flume h; (f.port, f.vf, f.vector)).eraseDups
  let d := keys.foldl (fun d (p, v, n) => d.msix ⟨p, v⟩ n) d
  due.foldl (fun d h => d.setFlume h { d.flume h with since := 0, status := false }) d

/-- PRODUCED is written of every flume that took records, and their interrupt conditions are tested (R235, R239). -/
def Device.flushRecords (d : Device) : Device :=
  let hs := (d.flu.flumes.filter fun x => x.2.fresh).map (·.1)
  let d := hs.foldl (fun d h =>
    let f := d.flume h
    (d.hostWrite ⟨f.port, f.vf⟩ f.ring (leBytes 8 f.produced)).setFlume h { f with fresh := false }) d
  d.testFlumes hs

/-- After the records of one commit instant or boundary: those that wait are written, then PRODUCED; the flumes of slots that were closed
go. -/
def Device.flushFlumes (d : Device) : Device :=
  let d := (d.flu.notes.foldl Device.putNote { d with flu.notes := [] }).flushRecords
  ((d.flu.flumes.filter fun x => x.2.closing).map (·.1)).foldl (fun (d : Device) h => d.setFlume h {}) d

/-- Read CONSUMED of every open flume that is not stopped (R237): `reads` is what their headers hold, those not named what they held
before. -/
def Device.readConsumed (d : Device) (reads : List (Nat × Nat)) : Device :=
  ((d.flu.flumes.filter fun x => x.2.isOpen && !x.2.stopped && !x.2.closing).map (·.1)).foldl (fun (d : Device) h =>
    let f := d.flume h
    let d := d.emit (.hostRead ⟨f.port, f.vf⟩ (f.ring + 8) 8)
    match reads.find? fun x => x.1 == h with
    | some x => d.setFlume h { f with consumed := min x.2 f.produced }
    | none => d) d

/-- The room of a slot's flume admits an entry of some tokens (R237). -/
def Device.flumeRoom (d : Device) (i tokens : Nat) : Bool :=
  let h := (d.slot i).img.flume
  if h = 0xFFFF then true
  else
    let f := d.flume h
    f.stopped || decide (tokens + 3 + (f.produced - f.consumed) ≤ 2 ^ f.log2)

/-- Stop the flumes of a function (R353). -/
def Device.stopFlumesOf (d : Device) (which : Flume → Bool) : Device :=
  ((d.flu.flumes.filter fun x => x.2.isOpen && which x.2).map (·.1)).foldl (fun d h => d.stopFlume h) d

/-! ### Slot state changes -/

/-- A slot image in another state: PENDING_V is set only while ACTIVE or PAUSED (R195). -/
def inState (s : Sys2Proof.SlotImg) (state reason : Nat) : Sys2Proof.SlotImg :=
  { s with state := state, reason := reason, pendingV := s.pendingV && (state == 2 || state == 3) }

/-- Change a slot's state and reason. -/
def Device.moveSlot (d : Device) (i state reason : Nat) : Device := d.modImg i fun s => inState s state reason

/-- Free a slot (R196): its flume closes with it, once the records of its boundary are written. -/
def Device.freeSlot (d : Device) (i : Nat) : Device :=
  let h := (d.slot i).img.flume
  let f := d.flume h
  let late := f.fresh || d.flu.notes.any fun n => n.flume == h
  let d := if h = 0xFFFF then d else d.setFlume h (if late then { f with closing := true } else {})
  d.setSlot i {}

/-- The slot becomes CANCELLED (R241): its record is written. -/
def Device.cancelled (d : Device) (i : Nat) : Device := (d.moveSlot i 6 9).statusRecord i 4

/-- Cancelling slots become CANCELLED at the verdict of their cancel turn (R241). -/
def Device.finishCancels (d : Device) : Device :=
  (d.liveSlots.filter fun i => d.slotState i == 4).foldl (fun d i => d.cancelled i) d

/-- The positions of the running entries that serve a slot. -/
def Device.entriesOf (d : Device) (slot : Nat) : List Nat :=
  (d.turn.admitted.filter fun a => a.e.slot == slot && a.e.kind != 3 && a.e.kind != 4 && decide (a.state = .running)).map (·.index)

/-- What an accepted cancel does at once (R241): CANCELLING, entries stopped, sampler requests and staging dropped. -/
def Device.cancelSlot (d : Device) (i : Nat) : Device :=
  let d := (d.entriesOf i).foldl (fun d k => d.stopQuiet k) d
  let d := { d with gen.staging := d.gen.staging.filter fun x => x.slot != i }
  let d := if d.cfg.image.isSome then d.postIdle i else d
  let d := d.moveSlot i 4 (d.slot i).img.reason
  if d.running then d else (d.cancelled i).flushRecords

end Sys2Proof.Machine
end

