-- ==== Sys2Proof/Machine/HostOps.lean ====
section
/-! DEFINITION. Sys2Proof/Machine/HostOps.lean: holding and its change (R350 to R353), lost ports and extents, stopped
rings (R358, R463), and the NVMe root ports (R361 to R369). -/

namespace Sys2Proof.Machine

/-- Signal HQ_EVENTS. -/
def Device.hqEvent (d : Device) (f : Field) : Device := d.eventSig f F.HQ_VECTOR.VECTOR

/-- A rota fetch ends with an error (R43, R352). -/
def Device.rotaFetchFailed (d : Device) : Device :=
  if d.turn.fetch.isSome then ({ d with turn.fetch := none } : Device).setFld F.ROTA_STATUS.FETCH 3 else d

/-- The old holder wrote a ring's base. -/
def Device.wroteBase (d : Device) (old : Nat) (base : Reg) (i : Nat := 0) : Bool := sget 0 d.host.writer (regKey base i) == old + 1

/-- Clear an ENABLE whose ring's base the old holder wrote. -/
def Device.dropRing (d : Device) (old : Nat) (base : Reg) (enable : Field) (i : Nat := 0) : Device :=
  if d.wroteBase old base i then d.setFld enable 0 i else d

/-- What a change of holder does at once (R352). The new lease starts here: DEDUCED, log entry 210. -/
def Device.holderChange (d : Device) (old : Option Nat) (new : Nat) : Device :=
  let d := match old with
    | none => d
    | some o =>
      let d := (d.listed .HQ_Q_CTRL).foldl (fun (d : Device) q => d.dropRing o .HQ_Q_BASE F.HQ_Q_CTRL.ENABLE q) d
      let d := (d.dropRing o .FUR_CQ_BASE F.FUR_CQ_CTRL.ENABLE).dropRing o .SLU_EV_BASE F.SLU_EV_CTRL.ENABLE
      let d := d.dropRing o .WEIR_TEL_BASE F.WEIR_TEL_CTRL.ENABLE
      let d := if d.part.isL then d else d.dropRing o .PIM_DQ_BASE F.PIM_DQ_CTRL.ENABLE
      let d := if d.wroteBase o .HG_DROP_BASE then { d with rt.dropLive := false } else d
      let d := d.setFld F.HQ_FLUME_CTRL.ENABLE 0
      match d.turn.fetch with
      | some (_, _, fn) => if fn.port = o then d.rotaFetchFailed else d
      | none => d
  let d := (d.setFld F.HQ_CONTROL.HOLDER new).setFld F.HQ_CONTROL.LAPSED 0
  { d with host.leaseFrom := d.now }.hqEvent F.HQ_EVENTS.HOLDER_CHANGE

/-- An extent becomes LOST (R373): a record for each furrow with a page whose primary place lies in it. -/
def Device.loseExtent (d : Device) (e : Nat) : Device :=
  if !d.on F.NVM_EXT_CFG.ENABLE e || d.on F.NVM_EXT_CFG.LOST e then d
  else
    let first := d.fld F.NVM_EXT_FRAMES.FIRST e
    let inExt := fun (p : Pte) => p.tier == 4 && decide (first ≤ p.frame) && decide (p.frame < first + d.fld F.NVM_EXT_FRAMES.FRAMES e)
    let hit := d.fur.desc.filter fun x => x.2.state != 0 && (d.regionPages x.2).any fun g => inExt (d.pte g)
    let d := d.setFld F.NVM_EXT_CFG.LOST 1 e
    let d := hit.foldl (fun d x => d.record { cause := 0x0D, severity := 1, unitKind := 9, furrow := x.2.id, owner := x.2.owner,
                                              detail := [(1, e)] }) d
    (d.eventSig F.NVM_EVENTS.EXTENT_LOST F.NVM_CTRL.VECTOR).recountFlash

/-- The enabled SPILL extents through functions that a test picks. -/
def Device.spills (d : Device) (f : Nat → Nat → Bool) : List Nat :=
  (d.listed .NVM_EXT_CFG).filter fun e => d.on F.NVM_EXT_CFG.ENABLE e && d.fld F.NVM_EXT_CFG.KIND e == 2 &&
    f (d.fld F.NVM_EXT_CFG.PORT e) (d.fld F.NVM_EXT_CFG.FUNCTION e)

/-- A prefill staging copy ends on a host error (R200): its entry stops, its sequence is LATE, a record is written. -/
def Device.stagingFailed (d : Device) (x : Staging) : Device :=
  let d := { d with gen.staging := d.gen.staging.filter (· != x) }
  let arg := ((d.admittedAt x.entry).map (·.e.arg)).getD 0
  let d := d.record { cause := 9, severity := 1, status := 0x10, slot := x.slot, jst := (d.slot x.slot).img.jst, unitKind := 8,
                      detail := [(2, arg)] }
  d.stopLate x.entry

/-- The outstanding host accesses of a sluice context go through a port. -/
def usesPort (x : SluCtx) (port : Nat) : Bool := (x.desc.locHost || x.desc.remHost) && x.fn.port == port && !x.done

/-- A host port is lost (R353): 0 its link went down or PERST# was asserted, 1 its PF was reset, 2 its PF entered D3hot. -/
def Device.portLost (d : Device) (port cause : Nat) : Device :=
  let reg := if port = 0 then F.HQ_PORT_STATUS.H0 else F.HQ_PORT_STATUS.H1
  let v := d.fld reg
  let d := if cause = 0 then d.setFld reg 0 else if cause = 2 then d.setFld reg (v ||| 0x40) else d
  let d := if cause ≠ 2 ∧ d.holder = some port then { d with host.msix := d.host.msix.filter fun x => decide (x.1 ≥ 8192) } else d
  let d := if d.holder = some port then d.holderChange (some port) 0 else d
  let d := if cause = 2 then d else { d with host.msix := d.host.msix.filter fun x => x.1 / 8192 / 32 != port || x.1 / 8192 == 0 }
  let d := if cause = 2 then d else { d with host.vfEnabled := d.host.vfEnabled.filter fun x => x / 32 != port }
  let hit := d.slu.ctxs.filter fun x => usesPort x port
  let d := hit.foldl (fun d x => (d.hostErr).endCtx x.eng x.id 0x10 0) d
  let st := d.gen.staging.filter fun x =>
    let arg := ((d.admittedAt x.entry).map (·.e.arg)).getD 0
    (sget {} d.gen.bufs arg).port == port
  let d := st.foldl (fun d x => d.hostErr.stagingFailed x) d
  let d := d.stopFlumesOf fun f => f.port == port
  let d := (d.spills fun p _ => p == port).foldl (fun d e => d.loseExtent e) d
  d.hqEvent F.HQ_EVENTS.PORT_DOWN

/-- Stop a host queue (R358). -/
def Device.stopQueue (d : Device) (q : Nat) : Device :=
  let d := (d.setFld F.HQ_Q_CTRL.ENABLE 0 q).setFld F.HQ_Q_STATUS.STOPPED 1 q
  (d.hqEvent F.HQ_EVENTS.QUEUE_ERROR).record { cause := 9, severity := 1, status := 0x10, unitKind := 7, detail := [(2, q)] }

/-- Stop a device-written host ring (R463): PRODUCED does not count the record that was lost, and the loss is reported where the ring
reports losses. -/
def Device.stopRing (d : Device) (r : Nat) : Device :=
  let note := fun (d : Device) (base : Reg) =>
    d.record { cause := 9, severity := 1, status := 0x10, unitKind := 7, detail := [(4, base.offset 0)] }
  let lose := fun (d : Device) (f : Field) => d.setFld f (d.fld f - 1)
  match r with
  | 0 => note (((lose d F.ERR_RING_PRODUCED.PRODUCED).setFld F.ERR_RING_CTRL.ENABLE 0).event F.ERR_EVENTS.RING_OVERFLOW) .ERR_RING_BASE
  | 1 => note (((lose d F.SLU_EV_PRODUCED.PRODUCED).setFld F.SLU_EV_CTRL.ENABLE 0).event F.SLU_EVENTS.EV_OVERFLOW) .SLU_EV_BASE
  | 2 => note ((lose { d with rt.dropLive := false } F.HG_DROP_PRODUCED.PRODUCED).count F.HG_STATS.LOST) .HG_DROP_BASE
  | 3 => note (((lose d F.WEIR_TEL_PRODUCED.PRODUCED).setFld F.WEIR_TEL_CTRL.ENABLE 0).count F.WEIR_TEL_LOST.LOST) .WEIR_TEL_BASE
  | _ => d

/-! ### Root ports -/

/-- Signal NVM_EVENTS. -/
def Device.nvmEvent (d : Device) (f : Field) : Device := d.eventSig f F.NVM_CTRL.VECTOR

/-- A root port's state (Table 15.6). -/
def Device.rootState (d : Device) (p : Nat) : Nat := d.fld F.NVM_PORT_STATUS.STATE p

/-- A root port goes FAILED. -/
def Device.rootFailed (d : Device) (p : Nat) : Device := (d.setFld F.NVM_PORT_STATUS.STATE 5 p).nvmEvent F.NVM_EVENTS.PORT_FAILED

/-- Forget an outstanding command; its DMA windows close with it (R365), and the entries of frames that were freed while it was in
flight clear (R117). -/
def Device.dropNvme (d : Device) (c : NvmeCmd) : Device :=
  let d := { d with host.nvme := d.host.nvme.filter (· != c) }
  let d := d.mem5.leavingFlash.foldl (fun d f => d.freeFlash f) d
  d.setFld F.NVM_PORT_STATS.OUTSTANDING (d.nvmeOf c.port).length c.port

/-- Submit an admin command of the device's own, with so many 4 KiB buffers. -/
def Device.setup (d : Device) (p opcode dwords buffers : Nat) : Device :=
  d.submit { port := p, id := 0, kind := .setup, lba := dwords, count := buffers } opcode 0

/-- A root port enters INIT (Table 15.5, Table 15.6, R375): it identifies the controller and its active namespaces, sets the number of
queues, and creates each I/O queue pair, with the queue settings as written. The drive reads the entries from the admin queue; ROOT_INIT_DONE
says that it has answered them. The codes are the base specification's (log entry 22). -/
def Device.enterInit (d : Device) (p : Nat) : Device :=
  let n := d.fld F.NVM_PORT_CFG.IO_QUEUES p
  let depth := d.fld F.NVM_PORT_CFG.QDEPTH p
  let d := { d.setFld F.NVM_PORT_STATUS.STATE 2 p with host.initQueues := sput 0 d.host.initQueues p n }
  let d := ((d.setup p 6 1 1).setup p 6 2 1).setup p 9 (7 + ((n - 1) * 0x10001) * 2 ^ 32) 0
  (List.range n).foldl (fun (d : Device) i =>
    let q := i + 1 + (depth - 1) * 65536
    (d.setup p 5 (q + (i * 65536 + 3) * 2 ^ 32) 0).setup p 1 (q + ((i + 1) * 65536 + 1) * 2 ^ 32) 0) d

/-- The device reads the error information of a drive that has answered with an error status (Table 15.5). -/
def Device.readErrorLog (d : Device) (p : Nat) : Device := if d.rootState p = 3 then d.setup p 2 (1 + 1023 * 65536) 1 else d

/-- The flash frames that LBAs of a namespace behind a root port lie in. -/
def Device.flashFrames (d : Device) (port nsid lba count : Nat) : List Nat :=
  (d.listed .NVM_EXT_CFG).flatMap fun e =>
    let addr := d.fld F.NVM_EXT_ADDR.ADDR e
    let frames := d.fld F.NVM_EXT_FRAMES.FRAMES e
    if d.on F.NVM_EXT_CFG.ENABLE e && d.fld F.NVM_EXT_CFG.KIND e == 1 && d.fld F.NVM_EXT_CFG.PORT e == port &&
        d.fld F.NVM_EXT_CFG.NSID e == nsid then
      let lo := max lba addr
      let hi := min (lba + count) (addr + 16 * frames)
      if lo < hi then (List.range ((hi - 1 - addr) / 16 + 1 - (lo - addr) / 16)).map fun i =>
        d.fld F.NVM_EXT_FRAMES.FIRST e + (lo - addr) / 16 + i
      else []
    else []

/-- The owner key under which an LBA is encrypted: that of the slot its flash frame's owner entry names (R119); an LBA outside the flash
tier has no entry, and takes the descriptor's owner (log entry 179). -/
def Device.flashKey (d : Device) (port nsid lba owner : Nat) : List Byte :=
  d.ownerKey (match d.flashFrames port nsid lba 1 with
    | f :: _ => entrySlot (sget 0 d.mem5.flashOwners f)
    | [] => owner)

/-- The units of a flash transfer as they are stored, and their CRC-64s (R114, R119). -/
def Device.sealFlash (d : Device) (port nsid lba owner : Nat) (bs : List Byte) : List Byte × List Byte :=
  (((unitsOf bs).zipIdx).flatMap fun (u, i) => sealUnit (d.flashKey port nsid (lba + i) owner) (lba + i) (flashLocation nsid) u, unitCrcs bs)

/-- Put encrypted units and their CRC-64s into a command's staging and metadata buffers (R364). -/
def Device.stageUnits (d : Device) (c : NvmeCmd) (bs crcs : List Byte) : Device :=
  match c.windows with
  | [(a, _), (b, _)] => (d.store a bs).store b crcs
  | _ => d

/-- Issue a Write of encrypted units and their CRC-64s (R364). -/
def Device.submitWrite (d : Device) (c : NvmeCmd) (nsid : Nat) (units : List Byte × List Byte) : Device :=
  let id := sget 0 d.host.nvmeNext c.port
  let d := (d.emit (.flashData c.port id units.1 units.2)).submit c 1 nsid
  match d.host.nvme.getLast? with
  | some c => d.stageUnits c units.1 units.2
  | none => d

/-- A unit that a Read has brought into staging, decrypted and checked (R364); none where it fails its CRC-64. -/
def Device.stagedUnit (d : Device) (c : NvmeCmd) (i : Nat) : Option (List Byte) :=
  match c.windows with
  | [(a, _), (b, _)] =>
    openUnit (d.flashKey c.port c.nsid (c.lba + i) c.owner) (c.lba + i) (flashLocation c.nsid) (d.bytes (a + 4096 * i) 4096) (d.bytes (b + 8 * i) 8)
  | _ => none

/-- The SPILL extent that a host address of a function lies in. -/
def Device.spillExtent (d : Device) (fn : Fn) (addr : Nat) : Option Nat :=
  (d.listed .NVM_EXT_CFG).find? fun e => d.on F.NVM_EXT_CFG.ENABLE e && d.fld F.NVM_EXT_CFG.KIND e == 2 &&
    d.fld F.NVM_EXT_CFG.PORT e == fn.port && d.fld F.NVM_EXT_CFG.FUNCTION e == fn.vf &&
    decide (d.fld F.NVM_EXT_ADDR.ADDR e ≤ addr) && decide (addr < d.fld F.NVM_EXT_ADDR.ADDR e + 65536 * d.fld F.NVM_EXT_FRAMES.FRAMES e)

/-- The owner key of the spill frame that a host address lies in, and the host address of its unit's CRC-64 (R119, R371). -/
def Device.spillUnit (d : Device) (x addr : Nat) : List Byte × Nat :=
  let u := (addr - d.fld F.NVM_EXT_ADDR.ADDR x) / 4096
  (d.ownerKey (entrySlot (sget 0 d.mem5.flashOwners (d.fld F.NVM_EXT_FRAMES.FIRST x + u / 16))), d.fld F.NVM_EXT_CRC.ADDR x * 8 + 8 * u)

/-- Write units to a host spill area: encrypted, and their CRC-64s beside them (R114, R119, R371). -/
def Device.spillWrite (d : Device) (x : Nat) (fn : Fn) (addr : Nat) (bs : List Byte) : Device :=
  let (key, crcAt) := d.spillUnit x addr
  (d.hostWrite fn addr (sealUnits key (addr / 4096) (spillLocation fn.vf) bs)).hostWrite fn crcAt (unitCrcs bs)

/-- Read `n` units of a host spill area: the first of the reads, of which each after the first is a replay, whose units all pass their
CRC-64 (R113, R114). A read's bytes are the units followed by their CRC-64s. -/
def Device.spillRead (d : Device) (x : Nat) (fn : Fn) (addr n : Nat) : List (List Byte) → Nat → Device × Option (List Byte)
  | [], _ => (d, none)
  | bs :: more, k =>
    let (key, crcAt) := d.spillUnit x addr
    let d := (d.emit (.hostRead fn addr (n * 4096))).emit (.hostRead fn crcAt (n * 8))
    match openUnits key (addr / 4096) (spillLocation fn.vf) n bs (bs.drop (n * 4096)) with
    | some u => (if k = 0 then d else d.count F.ERR_COUNTS.REPLAYED, some u)
    | none => if k ≥ 3 then (d, none) else d.spillRead x fn addr n more (k + 1)

/-- A unit of flash or of a spill area whose last read again has failed its CRC-64 (R114): uncorrectable, and NVM_EVENTS shows it. -/
def Device.crcFailed (d : Device) (owner address : Nat) (root : Option Nat) : Device :=
  let d := match root with
    | some p => (d.count F.NVM_PORT_ERRORS.CRC_FAIL 1 p).nvmEvent F.NVM_EVENTS.CRC
    | none => d.nvmEvent F.NVM_EVENTS.CRC
  d.uncorrectable { cause := 1, severity := 2, status := 0x0C, replays := 3, persistent := true,
                    unitKind := if root.isSome then 6 else 7, unit := root.getD 0, owner := owner, address := address }

/-- The number that an NVMe command of the handoff logic names in place of an engine. -/
def hoEngine : Nat := 33

/-- One command of a flash descriptor has ended: the descriptor ends at its last one, with the first failure. A failed write of the handoff
logic (`hoEngine`) fails its transfer. -/
def Device.flashEnded (d : Device) (c : NvmeCmd) (status : Nat) : Device :=
  match d.ctx c.eng c.ctx with
  | none => if c.eng = hoEngine ∧ status ≠ 0 then { d with ho.placeFailed := c.ctx :: d.ho.placeFailed } else d
  | some x =>
    let x := { x with pending := x.pending - 1, status := if x.status = 0 then status else x.status }
    let d := d.modCtx c.eng c.ctx fun _ => x
    if x.pending = 0 then (if x.done then d.closeCtx c.eng c.ctx else d.endCtx c.eng c.ctx x.status (if x.status = 0 then x.result else 0)) else d

/-! ### Flash reads of the device's own (R182, R270) -/

/-- Answer a read with its data (R263, R249): coded where the request asks and the class may be coded. The count of its region is held
until the response has left (R259). -/
def Device.respond (d : Device) (m : Msg) (region : Nat) (bs : List Byte) (seen : List Byte := []) : Device :=
  let (id, d) := d.newMsgId
  let code := if m.hdr.codedWire ∧ (m.tc = 2 ∨ m.tc = 5) ∧ region ≠ 0xFFFF then encodePasses m.hdr.tables seen bs else none
  let h : OpHdr := { op := 3, owner := m.hdr.owner, reqId := m.msgId, codedWire := code.isSome,
                     tables := if code.isSome then m.hdr.tables else 0 }
  let data := code.getD bs
  let d := (d.sentBytes ((m.src + m.msgId) % 32) data.length).sendData m.src m.tc id 0 true 1 h data
  if region = 0xFFFF then d
  else if m.src = d.node then d.regionDone region
  else { d with slu.serving := d.slu.serving ++ [{ resp := id, m := m }] }

/-- Start a read of the units of a flash frame for the device itself; none where the frame lies in no NVME extent. -/
def Device.startJob (d : Device) (use : FlashUse) (frame units : Nat) : Option Device :=
  (d.extentOf frame).bind fun x =>
    if d.fld F.NVM_EXT_CFG.KIND x ≠ 1 then none
    else
      let j : FlashJob := { id := d.slu.nextJob, use := use, left := 1 }
      let d := { d with slu.jobs := d.slu.jobs ++ [j], slu.nextJob := d.slu.nextJob + 1 }
      some (d.submit { port := d.fld F.NVM_EXT_CFG.PORT x, id := 0, kind := .page, ctx := j.id, count := units,
                       lba := d.fld F.NVM_EXT_ADDR.ADDR x + 16 * (frame - d.fld F.NVM_EXT_FRAMES.FIRST x) } 2 (d.fld F.NVM_EXT_CFG.NSID x))

/-- Change a flash read of the device's own. -/
def Device.modJob (d : Device) (id : Nat) (f : FlashJob → FlashJob) : Device :=
  { d with slu.jobs := d.slu.jobs.map fun (j : FlashJob) => if j.id = id then f j else j }

/-- The bytes that a flash read of the device's own has brought, `n` of them. -/
def FlashJob.bytes (j : FlashJob) (n : Nat) : List Byte := fit n (j.units.flatMap (·.2))

/-- A flash read of the device's own has ended: the ODP page waits for ODP_PAGE_READY, and a read of the furrow unit's for FETCH_DONE; the
furrow read is answered, an error with its status. -/
def Device.jobDone (d : Device) (j : FlashJob) : Device :=
  let d := { d with slu.jobs := d.slu.jobs.filter fun x => x.id != j.id }
  match j.use with
  | .odp a => { d with slu.odp := d.slu.odp.map fun (x : OdpFetch) =>
      if x.entryAddr = a then { x with ended := some j.status, data := j.bytes frameBytes } else x }
  | .serve m n => if j.status = 0 then d.respond m 0xFFFF ((j.bytes n).drop m.hdr.compare) else d.answer m 7 j.status 0
  | .load id => { d with fur.loads := d.fur.loads.map fun (x : PageLoad) =>
      if x.id = id then { x with ended := some j.status, data := j.bytes (64 * x.span) } else x }

/-- One command of a flash read of the device's own has ended. -/
def Device.jobEnded (d : Device) (c : NvmeCmd) (status : Nat) : Device :=
  let d := d.modJob c.ctx fun j => { j with left := j.left - 1, status := if j.status = 0 then status else j.status }
  match d.slu.jobs.find? fun j => j.id == c.ctx && j.left == 0 with
  | some j => d.jobDone j
  | none => d

/-- End a command with a status code of Table 11.11: the pass-through command ends with NVME_ERROR or TIMEOUT, a flash
descriptor, or a flash read of the device's own, with the status. -/
def Device.failNvme (d : Device) (c : NvmeCmd) (status : Nat) : Device :=
  let d := d.dropNvme c
  match c.kind with
  | .read | .write => d.flashEnded c status
  | .page => d.jobEnded c status
  | .admin =>
    ((d.setFld F.NVM_ADMIN_STATUS.ACTIVE 0).setFld F.NVM_ADMIN_STATUS.RESULT (if status = 2 then 5 else 6)).nvmEvent
      F.NVM_EVENTS.ADMIN_DONE
  | _ => d

/-- End every outstanding command of a root port FLASH_ERROR, its windows closed (Table 15.6). -/
def Device.endNvme (d : Device) (p : Nat) : Device :=
  let d := (d.nvmeOf p).foldl (fun d c => d.failNvme c 0x11) d
  ({ d with host.nvme := d.host.nvme.filter fun c => c.port != p } : Device).setFld F.NVM_PORT_STATS.OUTSTANDING 0 p

/-- The ladder step that a reset of a root port is (R368): an engine reset of kind 5. -/
def rootReset (p cause : Nat) : Ladder := { step := 1, kind := 5, index := p, cause := cause }

/-- A root port begins its reset (Table 15.6). -/
def Device.resetRoot (d : Device) (p cause : Nat) : Device :=
  if d.rootState p = 2 ∨ d.rootState p = 3 ∨ d.rootState p = 5 then
    ((d.endNvme p).setFld F.NVM_PORT_STATUS.STATE 4 p).beginStep (rootReset p cause)
  else d

/-- The command of a root port with an identifier. -/
def Device.nvmeBy (d : Device) (p id : Nat) : Option NvmeCmd := d.host.nvme.find? fun c => c.port == p && c.id == id

/-- An open DMA window covers a request (R365): the port's queues while it is in INIT or READY, or a command's buffers. -/
def Device.dmaOpen (d : Device) (p addr n : Nat) : Bool :=
  let (base, size) := d.rootArea p
  let within := fun (w : Nat × Nat) => decide (w.1 ≤ addr) && decide (addr + n ≤ w.1 + w.2)
  ((d.rootState p == 2 || d.rootState p == 3) && within (base, size / 2)) || (d.nvmeOf p).any fun c => c.windows.any within

end Sys2Proof.Machine
end

