-- ==== Sys2Proof/Machine/PimOps.lean ====
section
/-! DEFINITION. Sys2Proof/Machine/PimOps.lean: reservoir commands as they are queued and as they end (R132, R139, R142,
Table 6.9), and what a stopped entry does to its commands (R135). -/

namespace Sys2Proof.Machine

/-- D_s of a command. -/
def PimCmd.dim (x : PimCmd) : Nat := 64 * 2 ^ x.dsz
/-- Page slots of a score frame (Table 6.2). -/
def PimCmd.slots (x : PimCmd) : Nat := 4 / 2 ^ x.dsz

/-- The grant of an entry, and whether it is spent (R132). -/
def Device.grantSpent (d : Device) (entry : Nat) : Bool :=
  match d.admittedAt entry with
  | some a => decide (sget 0 d.pim.opened entry ≥ a.e.pim)
  | none => true

/-- The bytes of a result area (Table 6.7). -/
def resultBytes (x : PimCmd) (outcome : Nat) : List Byte :=
  pack ([(4, x.count), (4, x.scored), (1, outcome), (1, x.best.length), (2, x.unranked), (4, 0)] ++
    x.best.flatMap fun (t, s) => [(3, t), (1, 0), (4, s)])

/-- Write a command's results: to headwater, or to the host through the PF that owns the driver ring (R141). -/
def Device.pimWrite (d : Device) (x : PimCmd) (a : Nat) (bs : List Byte) : Device :=
  if x.aspace then d.hostWrite (d.ringFn .PIM_DQ_BASE) a bs
  else if inHeadwater a bs.length then d.store a bs else d

/-- The event bits and turn counts of an outcome (Tables 6.9, 6.15, 6.16). -/
def Device.pimOutcome (d : Device) (outcome : Nat) : Device :=
  match outcome with
  | 1 => ({ d with pim.nCut := d.pim.nCut + 1 } : Device).event F.PIM_EVENTS.CUT
  | 2 => ({ d with pim.nNoWindow := d.pim.nNoWindow + 1 } : Device).event F.PIM_EVENTS.NO_WINDOW
  | 3 => d.event F.PIM_EVENTS.REFUSED
  | 5 => d.event F.PIM_EVENTS.UNCORRECTABLE
  | _ => d

/-- Commands that a queue of a channel holds (R139). -/
def pimDepth (q : Nat) : Nat := if q = 0 then 256 else 64

/-- A score form's write did not run: the page stays unscored until a later close (R169), and its frame is freed unless another form
stands in it or is being written there. -/
def Device.buildFailed (d : Device) (g : Nat) : Device :=
  match d.fur.builds.find? fun b => b.page == g with
  | none => d
  | some b =>
    let rest := d.fur.builds.filter fun (x : Build) => x.page != g
    let d := { d with fur.builds := rest, fur.unscored := d.fur.unscored ++ [(b.desc, g)] }
    if (rest.any fun x => x.channel == b.channel && x.frame == b.frame) ||
        (d.fur.pte.any fun x => x.2.scored && x.2.scCh == b.channel && x.2.scFrame == b.frame) then d
    else
      let f : Furrow := sget {} d.fur.desc b.desc
      let d := if f.openScore = 2 ^ 31 + b.channel * 32768 + b.frame then
          { d with fur.desc := sput {} d.fur.desc b.desc { f with openScore := 0 } } else d
      d.freeScore (b.channel * 32768 + b.frame)

/-- A command of queue q of channel k ends with an outcome: it leaves its queue, counts towards the queue's next fence (R148), and
a RANK's result is written; a ranking of the furrow unit keeps it until its fence, a score form's write is noted. -/
def Device.endPim (d : Device) (k q : Nat) (x : PimCmd) (outcome : Nat) : Device :=
  let c := d.chan k
  let c := if q = 0 then { c with entryQ := c.entryQ.erase x, hold0 := c.hold0.erase x, cmds0 := c.cmds0 + 1, worst0 := max c.worst0 outcome }
    else { c with maintQ := c.maintQ.erase x, hold1 := c.hold1.erase x, cmds1 := c.cmds1 + 1, worst1 := max c.worst1 outcome }
  let c := match x.rank with
    | some id => if x.opcode = 1 then { c with pend := c.pend ++ [(id, x.best, x.scored)] } else c
    | none => c
  let d := (d.setChan k c).pimOutcome outcome
  let d := match x.rank with
    | some id =>
      if outcome = 0 then d
      else { d with fur.rankings := d.fur.rankings.map fun (r : Ranking) => if r.id = id then { r with partialOut := true } else r }
    | none => if x.opcode = 1 ∧ x.rsvd = false ∧ x.c % 64 = 0 then d.pimWrite x x.c (resultBytes x outcome) else d
  match x.build with
  | some g =>
    if x.opcode ≠ 2 then d
    else if outcome = 0 then { d with fur.builds := d.fur.builds.map fun (b : Build) => if b.page = g then { b with written := true } else b }
    else d.buildFailed g
  | none => d

/-- Put a command into its queue: on a BARRED or absent channel it ends REFUSED at once (R142, R156), and one of an entry whose grant is
spent ends NO_WINDOW (R132). -/
def Device.enqueuePim (d : Device) (q : Nat) (x : PimCmd) : Device :=
  let x := { x with seq := d.pim.seq }
  let d := { d with pim.seq := d.pim.seq + 1 }
  let k := x.channel
  let c := d.chan k
  let d := if q = 0 then d.setChan k { c with entryQ := c.entryQ ++ [x] } else d.setChan k { c with maintQ := c.maintQ ++ [x] }
  let mode := d.fld F.PIM_CH_STATUS.MODE k
  if d.part.isL || !d.part.channel k || mode == 5 || mode == 7 then d.endPim k q x 3
  else if q = 0 ∧ d.grantSpent x.entry = true ∧ (c.win.any fun w => w.entry == x.entry && !w.self) = false then d.endPim k q x 2
  else d

/-- The commands of a queue, and those of the furrow unit that wait for room in it. -/
def PimChan.queue (c : PimChan) (q : Nat) : List PimCmd := if q = 0 then c.entryQ else c.maintQ
/-- The furrow unit's commands that wait for room in a queue. -/
def PimChan.hold (c : PimChan) (q : Nat) : List PimCmd := if q = 0 then c.hold0 else c.hold1
/-- A queue of a channel has no room (R139). -/
def PimChan.isFull (c : PimChan) (q : Nat) : Bool := decide ((c.queue q).length ≥ pimDepth q) || c.hold q != []

/-- Queue a command of the furrow unit: while the queue is full it waits for room (R139; log entry 73). -/
def Device.queuePim (d : Device) (q : Nat) (x : PimCmd) : Device :=
  let c := d.chan x.channel
  if !c.isFull q then d.enqueuePim q x
  else d.setChan x.channel (if q = 0 then { c with hold0 := c.hold0 ++ [x] } else { c with hold1 := c.hold1 ++ [x] })

/-- Commands that wait for room in a queue of a channel enter it, oldest first, while it has room. -/
def Device.refillQ (d : Device) (k q : Nat) : List PimCmd → Device
  | [] => d
  | x :: xs =>
    let c := d.chan k
    if (c.queue q).length ≥ pimDepth q then d
    else ((d.setChan k (if q = 0 then { c with hold0 := c.hold0.erase x } else { c with hold1 := c.hold1.erase x })).enqueuePim q x).refillQ k q xs

/-- Fill both queues of a channel from what waits for room in them. -/
def Device.refill (d : Device) (k : Nat) : Device :=
  let d := d.refillQ k 0 (d.chan k).hold0
  d.refillQ k 1 (d.chan k).hold1

/-- The channels that hold commands. -/
def Device.pimChans (d : Device) : List Nat := d.pim.chans.map (·.1)

/-- An entry stops, or its turn ends: its commands that have not started end CUT without running, and a RANK that has run in part
ends CUT with what it has (R133, R135). -/
def Device.pimCut (d : Device) (entry : Nat) : Device :=
  d.pimChans.foldl (fun d k =>
    (((d.chan k).entryQ ++ (d.chan k).hold0).filter fun x => x.entry == entry).foldl (fun d x => d.endPim k 0 x 1) d |>.refill k) d

/-- Commands of entries whose grant is spent and that hold no window of the channel end NO_WINDOW, or CUT when a RANK has run in
part (R132, R133). -/
def Device.pimSweep (d : Device) : Device :=
  d.pimChans.foldl (fun d k =>
    let c := d.chan k
    (c.entryQ.filter fun x => d.grantSpent x.entry && !(c.win.any fun w => w.entry == x.entry && !w.self)).foldl
      (fun d x => d.endPim k 0 x (if x.started then 1 else 2)) d |>.refill k) d

/-- Every command of a channel ends with an outcome (R155). -/
def Device.pimDrop (d : Device) (k outcome : Nat) : Device :=
  let c := d.chan k
  let d := (c.entryQ ++ c.hold0).foldl (fun d x => d.endPim k 0 x outcome) d
  (c.maintQ ++ c.hold1).foldl (fun d x => d.endPim k 1 x outcome) d

end Sys2Proof.Machine
end

