-- ==== Sys2Proof/Machine/Pim.lean ====
section
/-! DEFINITION. Sys2Proof/Machine/Pim.lean: processing in the reservoir (spec/06): memory-mode accesses and refresh, windows and
their planner, the reservoir commands with their exact times, and the driver ring. -/

namespace Sys2Proof.Machine

/-! ### Channels (Table 6.1) -/

/-- Change MODE. -/
def Device.setMode (d : Device) (k m : Nat) : Device := d.setFld F.PIM_CH_STATUS.MODE m k

/-- tREFI of an MR4 rate (Table 6.11). -/
def trefi (rate : Nat) : Nat := if rate = 0 then 3904 else if rate = 1 then 1952 else 976
/-- tRFCpb. -/
def trfc : Nat := 140

/-- Refreshes that a bank has postponed. -/
def PimChan.debt (c : PimChan) (bank : Nat) : Nat := c.debts.getD bank 0
/-- The most that any bank has postponed. -/
def PimChan.maxDebt (c : PimChan) : Nat := (List.range 16).foldl (fun m b => max m (c.debt b)) 0

/-- Replace what the banks owe; DEBT follows, and a bank that reaches four sets DEBT_MAX (R151). -/
def Device.setDebts (d : Device) (k : Nat) (xs : List Nat) : Device :=
  let c := { d.chan k with debts := if xs.all (· == 0) then [] else xs }
  let d := (d.setChan k c).setFld F.PIM_CH_STATUS.DEBT c.maxDebt k
  if xs.any (· == 4) then d.event F.PIM_EVENTS.DEBT_MAX else d

/-- REFRESH_DUE: in memory mode the controller issues `issue` refreshes, or postpones this one while fewer than four are owed
(R110, R151); a bank unit takes its refreshes between its scans (R150), and a stack in self-refresh needs none. -/
def refreshEff (k bank issue : Nat) (d : Device) : Device :=
  let m := d.chMode k
  if !d.part.channel k || decide (bank ≥ 16) || m == 2 || d.mem5.selfRefresh.contains (k / 40) then d
  else
    let c := d.chan k
    let owed := c.debt bank + 1
    let n := if owed > 4 then max issue 1 else issue
    let n := min n owed
    let xs := (List.range 16).map fun b => if b = bank then owed - n else c.debt b
    let d := if n = 0 then d.count F.PIM_CH_REFRESH.POSTPONED 1 k else d.count F.PIM_CH_REFRESH.REFPB n k
    (if n = 0 then d else d.emit (.dram k 1 bank n)).setDebts k xs

/-- REFRESH_DUE. -/
def execRefreshDue (k bank issue : Nat) (s : State) : Host.Outcome State Fault Refusal := s.act (refreshEff k bank issue)

/-- RFM_REQUEST (R110). -/
def execRfmRequest (k bank : Nat) (s : State) : Host.Outcome State Fault Refusal :=
  s.act fun d => if d.part.channel k then (d.count F.PIM_CH_REFRESH.RFM 1 k).emit (.dram k 2 bank 0) else d

/-- Refreshes that fall due in a segment when tREFI shortens (R151): each counts once as postponed by every bank, and is paid before the
next scan. -/
def Device.shorten (d : Device) (k old new : Nat) : Device :=
  let c := d.chan k
  match c.win with
  | none => d
  | some w =>
    let due := if trefi new < trefi old ∧ w.refreshed then w.seg / trefi new else 0
    if due ≤ w.owed then d
    else ((d.setChan k { c with win := some { w with owed := due } }).count F.PIM_CH_REFRESH.POSTPONED (16 * (due - w.owed)) k).setDebts k
      (List.replicate 16 due)

/-- Show a rate and its segment limit. -/
def Device.showRate (d : Device) (k rate : Nat) : Device :=
  let d := d.setFld F.PIM_CH_STATUS.RATE rate k
  if rate < 3 then d.setFld F.PIM_CH_STATUS.SEG_LIMIT (trefi rate - trfc) k else d

/-- MR4_READ (R128, R151, R152): not while EXITING. -/
def mr4Eff (k rate : Nat) (d : Device) : Device :=
  let m := d.chMode k
  if !d.part.channel k || m == 3 || decide (rate > 3) then d
  else
    let old := d.fld F.PIM_CH_STATUS.RATE k
    let d := if rate < 3 then d.shorten k old rate else d
    let d := d.showRate k rate
    let c := d.chan k
    if rate = 3 then
      match m with
      | 0 => (d.setChan k { c with cool := 0 }).setMode k 4
      | 2 => (d.setChan k { c with win := c.win.map fun w => { w with heat := true } })
      | _ => d.setChan k { c with cool := 0 }
    else if m = 4 then
      if c.cool ≥ 1 then (d.setChan k { c with cool := 0 }).setMode k 0 else d.setChan k { c with cool := c.cool + 1 }
    else d

/-- MR4_READ. -/
def execMr4Read (k rate : Nat) (s : State) : Host.Outcome State Fault Refusal := s.act (mr4Eff k rate)

/-! ### Memory-mode accesses -/

/-- A burst of a memory-mode write leaves for the dies, as they store it and with its parity (R110, R112, R119). -/
def Device.writeBurst (d : Device) (k a : Nat) : Device :=
  let stored := storedUnit (a / 64) (sget 0 d.mem5.unitKey ((a - resvBase) / 64)) (d.bytes a 64)
  d.emit (.burst k a stored (burstParity stored))

/-- Carry out a memory-mode access (R111, R119): its bursts leave for the dies; a write changes the bytes, and reads each burst that it
covers in part before it writes it. -/
def Device.access (d : Device) (k : Nat) (x : MemAcc) : Device :=
  let first := x.addr / 64
  let stop := x.addr + max x.len 1
  let bursts := (List.range ((stop - 1) / 64 + 1 - first)).map fun i => (first + i) * 64
  let read := bursts.filter fun a => !x.write || decide (a < x.addr) || decide (stop < a + 64)
  let d := read.foldl (fun (d : Device) a => d.emit (.dram k 4 (bankOf a) a)) d
  if x.write then bursts.foldl (fun d a => d.writeBurst k a) (d.writeMem x.addr (fit x.len x.data)) else d

/-- MEMORY_ACCESS (R107, R109, R113, R118, R130): a range outside the memory regions is refused under R102, a frame its owner context may
not touch under R118; while the channel is in processor mode or its stack in self-refresh the access waits in arrival order. -/
def memoryAccessEff (at_ addr len owner : Nat) (write pfq : Bool) (data : List Byte) (parity : Nat) (d : Device) : Device :=
  let d := d.at_ at_
  let k := (addr - resvBase) / channelBytes
  let x : MemAcc := { at_ := d.now, addr := addr, len := len, owner := owner, write := write, pfq := pfq, data := data }
  if addr < resvBase then d
  else
    match d.check addr len owner write pfq with
    | .reserved => d.record { cause := 6, severity := 1, status := 1, unitKind := 3, unit := k, owner := owner, address := addr }
    | .owner e => d.record { cause := 3, severity := 1, status := 1, unitKind := 3, unit := k, owner := owner, address := addr,
                             detail := [(2, e)] }
    | .ok =>
      let d := if 1 ≤ parity ∧ parity ≤ 3 then d.count F.ERR_COUNTS.REPLAYED else d
      if parity > 3 then
        d.uncorrectable { cause := 1, severity := 2, status := 0x0C, replays := 3, persistent := !write, unitKind := 3, unit := k, owner := owner,
                          address := addr, detail := [(4, 0)] }
      else if d.chWaits k then (d.setChan k { d.chan k with waiting := (d.chan k).waiting ++ [x] }).noteWait addr 1
      else d.access k x

/-- MEMORY_ACCESS. -/
def execMemoryAccess (at_ addr len owner : Nat) (write pfq : Bool) (data : List Byte) (parity : Nat) (s : State) :
    Host.Outcome State Fault Refusal := s.act (memoryAccessEff at_ addr len owner write pfq data parity)

/-! ### The planner -/

/-- The deadline D of the current turn: P − W − C after its local start, in ns (R44). -/
def Device.deadlineAt (d : Device) : Nat :=
  d.turn.start + 1000 * (d.fld F.TURN_TIMING.PERIOD - d.fld F.TURN_TIMING.SEAL_WINDOW - commitUs)

/-- Tracks in use (R131). -/
def Device.tracks (d : Device) : Nat :=
  ((List.range 320).filter fun k => d.chMode k == 1 || d.chMode k == 2 || d.chMode k == 3).length

/-- Entries that may still open a window: admitted, not stopped, with grant left. -/
def Device.granted (d : Device) : List Admitted :=
  d.turn.admitted.filter fun a => (decide (a.state = .running) || decide (a.state = .finished)) && !d.grantSpent a.index

/-- An age, a rota position, a channel and whether the window is one of R136. -/
abbrev Bid := Nat × Nat × Nat × Bool

/-- The older of two. -/
def olderBid (a : Option Bid) (b : Bid) : Option Bid :=
  match a with
  | some x => if b.1 < x.1 then some b else some x
  | none => some b

/-- A channel on which a window may open (R128, R130). -/
def Device.opensOn (d : Device) (k : Nat) : Bool := d.chMode k == 0 && (d.chan k).waiting == []

/-- The window that the planner opens first (R132, R136). -/
def Device.bestBid (d : Device) : Option Bid :=
  let gs := d.granted
  let node := d.node
  d.pimChans.foldl (fun (acc : Option Bid) k =>
    if !d.opensOn k then acc
    else
      let c := d.chan k
      let acc := c.entryQ.foldl (fun (acc : Option Bid) x =>
        if gs.any fun a => a.index == x.entry then olderBid acc (x.seq, x.entry, k, false) else acc) acc
      match gs.find? fun a => a.e.kind == 4 && a.e.arg % 65536 == node with
      | none => acc
      | some a =>
        let acc := match c.maintQ with
          | x :: _ => olderBid acc (x.seq, a.index, k, true)
          | [] => acc
        if d.pim.awaiting.any fun f => f.1 == k then olderBid acc (c.clearSince, a.index, k, true) else acc) none

/-- WINDOW_OPEN (R131 to R136). -/
def windowOpenEff (at_ : Nat) (d : Device) : Device :=
  let d := d.at_ at_
  let limit := min (d.fld F.PIM_CTRL.WINDOW_LIMIT) (d.deadlineAt - 2000 - d.now)
  if d.part.isL || !d.running || d.turn.unexamined != [] || decide (limit ≤ 500) || decide (d.tracks ≥ d.fld F.ROTA_LIMITS.PIM_ALLOT) then d
  else
    match d.bestBid with
    | none => d
    | some (_, entry, k, self) =>
      let w : PimWin := { entry := entry, self := self, opened := d.now, limit := limit,
                          clears := min 128 (d.pim.awaiting.filter fun f => f.1 == k).length }
      let d := (d.setChan k { d.chan k with win := some w }).setMode k 1
      let d := { d with pim.opened := sput 0 d.pim.opened entry (sget 0 d.pim.opened entry + 1), pim.nWindows := d.pim.nWindows + 1 }
      let d := d.count F.PIM_CH_WINDOWS.WINDOWS 1 k
      { d with pim.peak := max d.pim.peak d.tracks }

/-- WINDOW_OPEN. -/
def execWindowOpen (at_ : Nat) (s : State) : Host.Outcome State Fault Refusal := s.act (windowOpenEff at_)

/-- Clear the first `n` frames of a channel that await it (R120, R133): they return to the SCORE pool unless withdrawn. -/
def Device.clearAwaiting (d : Device) (k n : Nat) : Device :=
  let fs := ((d.pim.awaiting.filter fun f => f.1 == k).take n)
  let d := { d with pim.awaiting := d.pim.awaiting.filter fun f => !fs.contains f }
  let d := fs.foldl (fun (d : Device) f =>
    let d := (d.clearRange (frameAddr (k * 32768 + f.2)) frameBytes).emit (.dram k 3 0 f.2)
    if d.pim.bad.contains f then d else d.count F.FUR_POOL_STATUS.FREE 1 poolScore) d
  d.setFld F.PIM_CH_STATUS.CLEARS (d.pim.awaiting.filter fun f => f.1 == k).length k

/-- Free the score frames that R134 kept allocated, now that the channel's window has opened. -/
def Device.freeKept (d : Device) (k : Nat) : Device :=
  let fs := d.pim.toFree.filter fun f => f / 32768 == k
  fs.foldl (fun d f => d.freeScore f) { d with pim.toFree := d.pim.toFree.filter fun f => f / 32768 != k }

/-- ENTERING_DONE (R128, R133): MR4 is read, the clears run first. -/
def enteringEff (k rate : Nat) (d : Device) : Device :=
  if d.chMode k ≠ 1 ∨ rate > 3 then d
  else
    match (d.chan k).win with
    | none => d
    | some w =>
      let d := (d.showRate k rate).setMode k 2
      let d := d.setChan k { d.chan k with win := some { w with t := 500 + 250 * w.clears, heat := rate == 3 } }
      (d.clearAwaiting k w.clears).freeKept k

/-- ENTERING_DONE. -/
def execEnteringDone (k rate : Nat) (s : State) : Host.Outcome State Fault Refusal := s.act (enteringEff k rate)

/-! ### What a window runs next -/

/-- The next command of a queue that the window may run: the oldest of its entry, or, with none left, of maintenance (R133). -/
def Device.nextPim (d : Device) (k : Nat) : Option (Nat × PimCmd) :=
  let c := d.chan k
  match c.win with
  | none => none
  | some w =>
    match (if w.self then none else c.entryQ.find? fun x => x.entry == w.entry) with
    | some x => some (0, x)
    | none => (c.maintQ.head?).map fun x => (1, x)

/-- The page list entry n of a RANK (Table 6.6): tag, scale, slot and frame. -/
def pageEntry (list : List Byte) (n : Nat) : Nat × Nat × Nat × Nat :=
  let v := leValue ((list.drop (8 * n)).take 8)
  (bitsOf v 40 24, bitsOf v 24 16, bitsOf v 15 2, bitsOf v 0 15)

/-- A score frame index lies in the channel's score region. -/
def Device.scoreFrame (d : Device) (k f : Nat) : Bool := decide (d.scoreStart k / frameBytes ≤ f) && decide (f < 32768)

/-- The frames and slots that a command names. -/
def PimCmd.names (x : PimCmd) (list : List Byte) : List (Nat × Nat) :=
  match x.opcode with
  | 1 => (List.range x.count).map fun n => let e := pageEntry list n; (e.2.2.2, e.2.2.1)
  | 2 | 3 => [(x.frame, x.slot)]
  | 4 => (List.range x.count).map fun n => (x.frame + n, 0)
  | _ => []

/-- An opcode of Table 6.4. -/
def pimOpcode (n : Nat) : Bool := n == 1 || n == 2 || n == 3 || n == 4 || n == 15

/-- R142: the command is refused. -/
def Device.pimRefused (d : Device) (k q : Nat) (x : PimCmd) (list : List Byte) : Bool :=
  let addr := fun (a n : Nat) => a % 64 != 0 || (!x.aspace && !inHeadwater a n)
  let internal := x.query != []
  x.rsvd || decide (x.dsz > 2) || decide (x.owner > 4095) || !pimOpcode x.opcode ||
  (q == 1 && x.entry != 0xFFFF) || (x.names list).any (fun f => !d.scoreFrame k f.1 || decide (f.2 ≥ x.slots)) ||
  (match x.opcode with
   | 1 => x.count == 0 || decide (x.count > 4096) || x.topn == 0 || decide (x.topn > 64) || x.qn == 0 || decide (x.qn > 4) ||
          decide (x.qn * x.dim > 1024) || (!internal && (addr x.a (64 + x.qn * x.dim) || addr x.b (8 * x.count) || addr x.c (16 + 8 * x.topn)))
   | 2 => x.count != 0 || (x.build.isNone && addr x.a (256 * x.dim))
   | 3 => x.count != 0 || x.aspace || addr x.a (256 * x.dim)
   | 4 => x.count == 0 || decide (x.count > 256) || x.aspace
   | _ => x.count != 0 || (x.rank.isNone && x.build.isNone && addr x.a 16)) || (q == 0 && x.aspace)

/-- R143: the owner entry of the first frame that the command may not touch. -/
def Device.pimOwner (d : Device) (k : Nat) (x : PimCmd) (list : List Byte) : Option Nat :=
  let write := x.opcode == 2 || x.opcode == 4
  ((x.names list).find? fun f => !entryAllows (d.ownerEntry (k * 32768 + f.1)) x.owner write x.pfq).map
    fun f => d.ownerEntry (k * 32768 + f.1)

/-- The context of a command's error record. -/
def pimRec (k : Nat) (x : PimCmd) (r : ErrRec) : ErrRec := { r with unitKind := 3, unit := k, owner := x.owner, pcDesc := x.entry }

/-- Read the query block and page list of a ring command that lie in host memory (R141), through the PF that owns the ring. -/
def Device.pimReads (d : Device) (x : PimCmd) : Device :=
  if !x.aspace || x.query != [] then d
  else
    let fn := d.ringFn .PIM_DQ_BASE
    match x.opcode with
    | 1 => (d.emit (.hostRead fn x.a (64 + x.qn * x.dim))).emit (.hostRead fn x.b (8 * x.count))
    | 2 => d.emit (.hostRead fn x.a (256 * x.dim))
    | _ => d

/-- A command once it begins to run: its query block and page list have been read. -/
def Device.pimBegun (d : Device) (x : PimCmd) : Device := if x.started then d else d.pimReads x

/-- A RANK's query block: the furrow unit's own, the host's, or headwater's. -/
def Device.queryOf (d : Device) (x : PimCmd) (host : List Byte) : List Byte :=
  let n := 64 + x.qn * x.dim
  if x.query ≠ [] then x.query else if x.aspace then host.take n else d.bytes x.a n

/-- A RANK's page list. -/
def Device.listOf (d : Device) (x : PimCmd) (host : List Byte) : List Byte :=
  if x.query ≠ [] then x.list else if x.aspace then (host.drop (64 + x.qn * x.dim)).take (8 * x.count) else d.bytes x.b (8 * x.count)

/-- Carry out the command that channel k runs next, when it is of queue q and has the opcode: refused and disowned commands end
without running, one of a reserved opcode whichever command comes. -/
def Device.runPim (d : Device) (k q opcode : Nat) (host : List Byte) (f : PimWin → PimCmd → List Byte → Device → Device) : Device :=
  if d.chMode k ≠ 2 then d
  else
    match (d.chan k).win, d.nextPim k with
    | some w, some (q', x) =>
      if q' ≠ q ∨ (x.opcode ≠ opcode ∧ pimOpcode x.opcode = true) ∨ w.heat then d
      else
        let d := d.pimBegun x
        let list := if opcode ≠ 1 then [] else d.listOf x host
        if d.pimRefused k q x list then (d.endPim k q x 3).refill k
        else
          match d.pimOwner k x list with
          | some e => ((d.record (pimRec k x { cause := 3, severity := 1, detail := [(2, e)] })).endPim k q x 4).refill k
          | none => (f w x (if opcode = 1 then d.queryOf x host ++ list else host) d).refill k
    | _, _ => d

/-- The window's clock after a command. -/
def Device.setWin (d : Device) (k : Nat) (w : PimWin) : Device := d.setChan k { d.chan k with win := some w }

/-! ### RANK -/

/-- The within-frame byte of element e of the key at position p of a slot (R137). -/
def scoreByte (dim slot p e : Nat) : Nat :=
  let o := (16 * slot + p % 16) * dim + e
  o / 2048 * 32768 + p / 16 * 2048 + o % 2048

/-- The row scans of a page (Table 6.2). -/
def scanCount (dsz : Nat) : Nat := if dsz = 2 then 2 else 1

/-- The positions of a page that row scan `n` reads: at D_s = 256 half of each bank's sixteen, else all (R137). -/
def scanned (dsz n : Nat) : List Nat := (List.range 256).filter fun p => dsz != 2 || p % 16 / 8 == n

/-- The exact dot product of a query and a key (R127). -/
def Device.keyDot (d : Device) (base dim slot p : Nat) (q : List Int) : Int :=
  ((List.range dim).zip q).foldl (fun (s : Int) (e, x) => s + x * signedOf 8 (d.readByte (base + scoreByte dim slot p e)).toNat) 0

/-- What a row scan leaves of each query's largest product (R127): over the positions it reads and what the scans before have seen. -/
def Device.scanMax (d : Device) (k : Nat) (x : PimCmd) (qb : List Byte) (slot frame n : Nat) (seen : List Int) : List Int :=
  let base := frameAddr (k * 32768 + frame)
  (List.range x.qn).map fun j =>
    let q := (List.range x.dim).map fun e => signedOf 8 (qb.getD (64 + j * x.dim + e) 0).toNat
    let ms := (scanned x.dsz n).map fun p => d.keyDot base x.dim slot p q
    (seen[j]?.toList ++ ms).tail.foldl max ((seen[j]?.toList ++ ms).headD 0)

/-- A page's score (R145): the largest over the queries of RN(RN(fp32(m) × QSCALE) × SCALE). -/
def pageScore (qn : Nat) (qb : List Byte) (maxima : List Int) (scale : Nat) : Nat :=
  let ss := (List.range qn).map fun j =>
    mul32 (mul32 (round32 [] (Fv.ofInt (maxima.getD j 0))) (leValue ((qb.drop (4 * j)).take 4))) (scale * 65536)
  ss.tail.foldl max32 (ss.headD 0)

/-- A SCALE that keeps its page out of the list: negative, zero or not finite. -/
def unrankedScale (s : Nat) : Bool := decide (s ≥ 0x8000) || s == 0 || decide (s ≥ 0x7F80)

/-- The time of a row scan after a row change (R127, Table 6.2); the row change is its first 24 ns. -/
def scanTime (dsz qn : Nat) : Nat := 24 + (if dsz = 0 then 128 else 256) * qn

/-- One row scan: the refreshes that must come first, then the scan (R149 to R151); a half-row scan of the row that is open needs no row
change (Table 6.2). Answers the clock and the refreshes of one bank. -/
def scanStep (limit dsz qn row : Nat) (w : PimWin) : PimWin × Nat :=
  let s := scanTime dsz qn
  if dsz = 0 ∧ w.row = some row ∧ w.refreshed ∧ w.owed = 0 ∧ w.seg + (s - 24) ≤ limit then
    ({ w with t := w.t + (s - 24), seg := w.seg + (s - 24) }, 0)
  else
    let n := w.owed + (if !w.refreshed || decide (w.seg + s > limit) then 1 else 0)
    let w := if n = 0 then w else { w with t := w.t + trfc * n, seg := 0, refreshed := true, owed := 0 }
    ({ w with t := w.t + s, seg := w.seg + s, row := some row }, n)

/-- How far the last bank trails bank 0: 8 ns a bank, and what it owes at the opening of the window (R146, R150). -/
def PimChan.lead (c : PimChan) : Nat := (List.range 16).foldl (fun m b => max m (8 * b + trfc * c.debt b)) 0

/-- What the merge, the result and a fence take after the last scan (R146). -/
def rankTail : Nat := 250

/-- The progress of a RANK: the window's clock, the pages scored, the pages unranked, the best entries, the row scans of the page under
way and what they have left of each query's largest product, the refreshes of one bank, the page whose frame fails its parity, and whether
the next scan does not fit. -/
structure RankRun where
  w : PimWin
  scored : Nat
  unranked : Nat
  best : List (Nat × Nat)
  scan : Nat := 0
  maxima : List Int := []
  refs : Nat := 0
  failed : Option Nat := none
  full : Bool := false

/-- One row scan of a RANK, while it fits (R133, R145); the last scan of a page scores it. `bad` is the page that fails its last
replay. -/
def Device.rankScan (d : Device) (k : Nat) (x : PimCmd) (qb list : List Byte) (bad : Option Nat) (r : RankRun) : RankRun :=
  if r.full || r.failed.isSome || decide (r.scored ≥ x.count) then r
  else
    let (tag, scale, slot, frame) := pageEntry list r.scored
    let (w, refs) := scanStep (d.fld F.PIM_CH_STATUS.SEG_LIMIT k) x.dsz x.qn (2 * frame + slot / 2) r.w
    if w.t + w.lead + rankTail > w.limit then { r with full := true }
    else
      let r := { r with w := w, refs := r.refs + refs, scan := r.scan + 1, maxima := d.scanMax k x qb slot frame r.scan r.maxima }
      if bad = some r.scored then { r with failed := bad }
      else if r.scan < scanCount x.dsz then r
      else
        let u := unrankedScale scale
        { r with scored := r.scored + 1, unranked := r.unranked + b2n u, scan := 0, maxima := [],
                 best := if u then r.best else (insertBest (tag, pageScore x.qn qb r.maxima scale) r.best).take x.topn }

/-- A RANK at its next scan in a window (R144, R146): the first one of a window loads the queries into the bank units' buffers, and scans
the page under way from its start; a later one goes on where the scan before stopped. -/
def PimChan.rankStart (c : PimChan) (x : PimCmd) (w : PimWin) : RankRun :=
  let at_ : RankRun := { w := w, scored := x.scored, unranked := x.unranked, best := x.best, scan := x.scan, maxima := c.maxima }
  if w.loaded = some x.seq then at_
  else { at_ with scan := 0, maxima := [],
                  w := { w with t := w.t + 250, loaded := some x.seq, row := none, lead := if w.refreshed then 120 else c.lead } }

/-- What a RANK has done after at most `scans` row scans more (R133, R145). -/
def Device.rankRun (d : Device) (k : Nat) (x : PimCmd) (qb list : List Byte) (bad : Option Nat) (w : PimWin) (scans : Nat) : RankRun :=
  (List.range scans).foldl (fun r _ => d.rankScan k x qb list bad r) ((d.chan k).rankStart x w)

/-- Replays of the segment under way (R154): each takes a refresh and the segment's scans again. -/
def PimWin.replayed (w : PimWin) (n : Nat) : PimWin := { w with t := w.t + n * (trfc + w.seg) }

/-- A score frame fails its last replay (R154): it is withdrawn, once, until the channel passes through CLEARING again. -/
def Device.badFrame (d : Device) (k : Nat) (x : PimCmd) (frame bank : Nat) : Device :=
  let d := d.uncorrectable (pimRec k x
    { cause := 1, severity := 2, replays := 3, persistent := true, address := frameAddr (k * 32768 + frame) + 2048 * bank,
      detail := [(4, 0)] })
  if d.pim.bad.contains (k, frame) then d
  else ({ d with pim.bad := d.pim.bad ++ [(k, frame)] } : Device).count F.PIM_CH_STATUS.BAD_FRAMES 1 k

/-- A bank unit's query buffer fails its parity check while a RANK runs (Table 18.1): uncorrectable at once. -/
def Device.badQuery (d : Device) (k : Nat) (x : PimCmd) : Device :=
  d.uncorrectable (pimRec k x { cause := 1, severity := 2, detail := [(4, 0)] })

/-- The page at which a check fails for good: the one named, when the command's scans reach it. -/
def badPage (parity badAt : Nat) : Option Nat := if parity > 3 then some badAt else none

/-- The replays that a RANK's scans took: three where the last one failed. -/
def RankRun.replays (r : RankRun) (parity : Nat) : Nat := if r.failed.isSome then 3 else if parity ≤ 3 then parity else 0

/-- Count the refreshes and the replays of a RANK's scans; what the banks owed at the window's opening has been paid (R150, R154). -/
def Device.rankCounted (d : Device) (k : Nat) (w : PimWin) (r : RankRun) (replays : Nat) : Device :=
  let opening := if w.refreshed || decide (r.refs = 0) then 0 else ((List.range 16).map (d.chan k).debt).sum
  let d := if 1 ≤ replays ∧ r.failed = none then d.count F.ERR_COUNTS.REPLAYED else d
  let refs := r.refs + replays
  let d := if refs = 0 then d else d.count F.PIM_CH_REFRESH.REFPB (16 * refs + opening) k
  if r.refs = 0 then d else d.setDebts k []

/-- A RANK's command as its scans have left it. -/
def RankRun.cmd (r : RankRun) (x : PimCmd) : PimCmd :=
  { x with started := true, scan := r.scan, scored := r.scored, unranked := r.unranked, best := r.best }

/-- The channel after a RANK's scans: the window's clock, the query buffers and what the command has reached. -/
def Device.rankKept (d : Device) (k : Nat) (x : PimCmd) (qb : List Byte) (r : RankRun) (w : PimWin) : Device :=
  let c := d.chan k
  let f := fun (z : PimCmd) => if z = x then r.cmd x else z
  d.setChan k { c with win := some w, query := qb, maxima := r.maxima, entryQ := c.entryQ.map f, maintQ := c.maintQ.map f }

/-- RANK (R144 to R146, R150, R154): at most `scans` row scans of the list, as many as fit. A RANK that has scanned its last page writes its
result; one whose next scan does not fit ends CUT when the grant is spent, and otherwise resumes in the entry's next window. -/
def rankEff (k q scans parity badAt badBank : Nat) (w : PimWin) (x : PimCmd) (data : List Byte) (d : Device) : Device :=
  let qb := data.take (64 + x.qn * x.dim)
  let list := data.drop (64 + x.qn * x.dim)
  let r := d.rankRun k x qb list (badPage parity badAt) w scans
  let w' := r.w.replayed (r.replays parity)
  let d := d.rankCounted k w r (r.replays parity)
  let done := d.rankKept k x qb r { w' with t := w'.t + w'.lead + 200 }
  if r.failed.isSome then
    (if parity > 4 then done.badQuery k x else done.badFrame k x (pageEntry list badAt).2.2.2 badBank).endPim k q (r.cmd x) 5
  else if r.scored ≥ x.count then done.endPim k q (r.cmd x) 0
  else if !r.full then d.rankKept k x qb r w'
  else if r.refs = 0 ∧ r.w.t = ((d.chan k).rankStart x w).w.t ∧ w.loaded ≠ some x.seq then d.setWin k { w with limit := w.t }
  else if q = 0 ∧ d.grantSpent x.entry then done.endPim k q (r.cmd x) 1
  else d.rankKept k x qb r { w' with limit := w'.t }

/-- RANK. -/
def execPimRank (k q scans : Nat) (host : List Byte) (parity badAt badBank : Nat) (s : State) : Host.Outcome State Fault Refusal :=
  s.act fun d => d.runPim k q 1 host (rankEff k q scans parity badAt badBank)

/-! ### The other commands -/

/-- Run a step of a fixed time; one that does not fit closes the window to further steps (R133). -/
def Device.fitStep (d : Device) (k n : Nat) (w : PimWin) (f : Device → Device) : Device :=
  if w.t + n > w.limit then d.setWin k { w with limit := w.t } else f (d.setWin k { w with t := w.t + n })

/-- Run an SWRITE or SREAD that fits, with its replays (R113, R154): each takes its time again; a check that the last one fails ends the
command UNCORRECTABLE and withdraws the frame. -/
def Device.replayStep (d : Device) (k q parity bank n : Nat) (w : PimWin) (x : PimCmd) (f : Device → Device) : Device :=
  d.fitStep k n w fun d =>
    let d := d.setWin k { w with t := w.t + n * (1 + min parity 3) }
    if parity > 3 then (d.badFrame k x x.frame bank).endPim k q x 5
    else f (if parity = 0 then d else d.count F.ERR_COUNTS.REPLAYED)

/-- The time of an SWRITE or SREAD (Table 6.8). -/
def swTime (dsz : Nat) : Nat := if dsz = 0 then 868 else if dsz = 1 then 1636 else 3172

/-- The bytes of one score-form page, position by position, put into the frame and slot that a command names (R137). -/
def Device.putForm (d : Device) (k : Nat) (x : PimCmd) (src : List Byte) : Device :=
  (List.range 256).foldl (fun (d : Device) p =>
    d.writeMem (frameAddr (k * 32768 + x.frame) + scoreByte x.dim x.slot p 0) (fit x.dim ((src.drop (p * x.dim)).take x.dim))) d

/-- SWRITE (R137, R141): one score-form page from its source into a frame and slot. -/
def swriteEff (k q parity badBank : Nat) (w : PimWin) (x : PimCmd) (host : List Byte) (d : Device) : Device :=
  d.replayStep k q parity badBank (swTime x.dsz) w x fun d =>
    let src := if x.list ≠ [] then x.list else if x.aspace then host else d.bytes x.a (256 * x.dim)
    (d.putForm k x src).endPim k q x 0

/-- SWRITE. -/
def execSwrite (k q : Nat) (host : List Byte) (parity badBank : Nat) (s : State) : Host.Outcome State Fault Refusal :=
  s.act fun d => d.runPim k q 2 host (swriteEff k q parity badBank)

/-- SREAD: a page into headwater. -/
def sreadEff (k q parity badBank : Nat) (w : PimWin) (x : PimCmd) (_host : List Byte) (d : Device) : Device :=
  d.replayStep k q parity badBank (swTime x.dsz) w x fun d =>
    let base := frameAddr (k * 32768 + x.frame)
    let bs := (List.range 256).flatMap fun p => d.readMem (base + scoreByte x.dim x.slot p 0) x.dim
    (d.store x.a bs).endPim k q x 0

/-- SREAD. -/
def execSread (k q parity badBank : Nat) (s : State) : Host.Outcome State Fault Refusal :=
  s.act fun d => d.runPim k q 3 [] (sreadEff k q parity badBank)

/-- The first `n` frames of a command become zero. -/
def Device.zeroFrames (d : Device) (k : Nat) (x : PimCmd) (n : Nat) : Device :=
  (List.range n).foldl (fun (d : Device) i =>
    (d.clearRange (frameAddr (k * 32768 + x.frame + i)) frameBytes).emit (.dram k 3 0 (x.frame + i))) d

/-- SCLEAR: frames become zero, 250 ns each; those that do not fit are cleared in a later window. -/
def sclearEff (k q : Nat) (w : PimWin) (x : PimCmd) (_host : List Byte) (d : Device) : Device :=
  let n := min x.count ((w.limit - w.t) / 250)
  let d := (d.zeroFrames k x n).setWin k { w with t := w.t + 250 * n }
  if n = x.count then d.endPim k q x 0
  else
    let y := { x with frame := x.frame + n, count := x.count - n, started := true }
    let c := d.chan k
    let f := fun (z : PimCmd) => if z = x then y else z
    d.setChan k { c with win := some { w with t := w.t + 250 * n, limit := w.t + 250 * n }, entryQ := c.entryQ.map f, maintQ := c.maintQ.map f }

/-- SCLEAR. -/
def execSclear (k q : Nat) (s : State) : Host.Outcome State Fault Refusal := s.act fun d => d.runPim k q 4 [] (sclearEff k q)

/-- A fence of a ranking gives it the channel's results (R173); one of a score form sets SCORED (R169). -/
def Device.fenced (d : Device) (k : Nat) (x : PimCmd) : Device :=
  let d := match x.rank with
    | none => d
    | some id =>
      let c := d.chan k
      let got := c.pend.filter fun p => p.1 == id
      let d := d.setChan k { c with pend := c.pend.filter fun p => p.1 != id }
      { d with fur.rankings := d.fur.rankings.map fun (r : Ranking) =>
          if r.id = id then { r with waiting := r.waiting.filter (· != k), results := r.results ++ got.flatMap (·.2.1),
                                     scored := r.scored + (got.map (·.2.2)).sum } else r }
  match x.build with
  | none => d
  | some g =>
    match d.fur.builds.find? fun b => b.page == g && b.written with
    | none => d
    | some b =>
      let d := { d with fur.builds := d.fur.builds.erase b }
      let w := sget 0 d.fur.dir (g / 4096)
      let p : Pte := sget {} d.fur.pte g
      let e : Pte := { p with scored := true, scCh := k, scFrame := b.frame, scSlot := b.slot }
      let d := { d with fur.pte := sput {} d.fur.pte g e }
      if w.testBit 31 then d.writeVal (frameAddr (w % 2 ^ 24) + 16 * (g % 4096)) 4 (e.scCh * 2 ^ 17 + e.scFrame * 4 + e.scSlot) else d

/-- PIM_FENCE (R147, R148): its record counts the commands of its queue since the one before, itself included, and their worst
outcome. -/
def fenceEff (k q : Nat) (w : PimWin) (x : PimCmd) (_host : List Byte) (d : Device) : Device :=
  d.fitStep k 50 w fun d =>
    let c := d.chan k
    let n := (if q = 0 then c.cmds0 else c.cmds1) + 1
    let worst := if q = 0 then c.worst0 else c.worst1
    let d := if x.rank.isNone && x.build.isNone then d.pimWrite x x.a (pack [(6, x.b), (2, 0), (4, n), (1, worst), (3, 0)]) else d
    let d := (d.endPim k q x 0).fenced k x
    let c := d.chan k
    let d := d.setChan k (if q = 0 then { c with cmds0 := 0, worst0 := 0 } else { c with cmds1 := 0, worst1 := 0 })
    if x.pfq && x.irq then (d.event F.PIM_EVENTS.DQ_FENCE).msix (d.ringFn .PIM_DQ_BASE) (d.fld F.PIM_DQ_CTRL.VECTOR) else d

/-- PIM_FENCE. -/
def execPimFence (k q : Nat) (s : State) : Host.Outcome State Fault Refusal := s.act fun d => d.runPim k q 15 [] (fenceEff k q)

/-! ### The end of a window -/

/-- The next step of the command that comes next does not fit (R133); a command of a reserved opcode takes no time. -/
def Device.stepEnds (d : Device) (k : Nat) (w : PimWin) (x : PimCmd) : Bool :=
  let beyond := fun (n : Nat) => decide (w.t + n > w.limit)
  match x.opcode with
  | 1 =>
    let list := if x.query != [] then x.list else if x.aspace then [] else d.bytes x.b (8 * x.count)
    let r := (d.chan k).rankStart x w
    let e := pageEntry list r.scored
    let s := (scanStep (d.fld F.PIM_CH_STATUS.SEG_LIMIT k) x.dsz x.qn (2 * e.2.2.2 + e.2.2.1 / 2) r.w).1
    decide (s.t + s.lead + rankTail > w.limit)
  | 2 | 3 => beyond (swTime x.dsz)
  | 4 => beyond 250
  | 15 => beyond 50
  | _ => false

/-- WINDOW_END (R133, R152): nothing remains that the window may run, the next step does not fit, or MR4 has read beyond 4×; then a
RANK that has run in part ends HOT. -/
def windowEndEff (k : Nat) (d : Device) : Device :=
  match (d.chan k).win with
  | none => d
  | some w =>
    let done := match d.nextPim k with
      | none => true
      | some (_, x) => d.stepEnds k w x
    if d.chMode k ≠ 2 ∨ (w.heat = false ∧ done = false) then d
    else
      let d := d.setMode k 3
      let d :=
        if w.heat then
          let part := ((d.chan k).entryQ.filter fun x => x.started).map fun x => (0, x)
          let part := part ++ ((d.chan k).maintQ.filter fun x => x.started).map fun x => (1, x)
          (part.foldl (fun (d : Device) x => d.endPim k x.1 x.2 6) d).event F.PIM_EVENTS.HOT
        else d
      let d := (d.setChan k { d.chan k with win := some { w with entry := 0xFFFF, self := true } }).pimSweep
      d.setChan k { d.chan k with win := some w }

/-- WINDOW_END. -/
def execWindowEnd (k : Nat) (s : State) : Host.Outcome State Fault Refusal := s.act (windowEndEff k)

/-- The bank units of a channel are cleared and its banks precharged (R122). -/
def Device.clearUnits (d : Device) (k : Nat) : Device :=
  (d.setChan k { d.chan k with query := [], maxima := [] }).emit (.dram k 9 0 0)

/-- CLEARING_DONE (R128, R138): the whole score region is zero and its frames enter the pool; with no score region the channel is
BARRED. -/
def clearingDoneEff (k : Nat) (d : Device) : Device :=
  if d.chMode k ≠ 6 then d
  else
    let n := d.fld F.PIM_CH_STATUS.SCORE_SIZE k
    if n = 0 then d.setMode k 5
    else
      let d := d.clearRange (resvBase + k * channelBytes + d.scoreStart k) (n * 0x4000000)
      let first := d.scoreStart k / frameBytes
      let d := { d with
        mem5.owners := d.mem5.owners.filter fun x => !(x.1 / 32768 == k && decide (first ≤ x.1 % 32768))
        pim.awaiting := d.pim.awaiting.filter fun f => f.1 != k
        pim.bad := d.pim.bad.filter fun f => f.1 != k
        pim.toFree := d.pim.toFree.filter fun f => f / 32768 != k }
      let d := (d.setFld F.PIM_CH_STATUS.CLEARS 0 k).setFld F.PIM_CH_STATUS.BAD_FRAMES 0 k
      (d.count F.FUR_POOL_STATUS.FREE (1024 * n) poolScore).setMode k 0

/-- CLEARING_DONE. -/
def execClearingDone (k : Nat) (s : State) : Host.Outcome State Fault Refusal := s.act (clearingDoneEff k)

/-! ### The driver ring (R140) -/

/-- PIM_DQ_TAIL_WRITE: the device fetches the descriptors up to the new TAIL, through the function that wrote the base. -/
def pimDqTailEff (tail : Nat) (d : Device) : Device :=
  if d.part.isL then d
  else
    let size := 2 ^ d.fld F.PIM_DQ_CTRL.LOG2_SIZE
    let from_ := d.fld F.PIM_DQ_TAIL.TAIL
    let d := d.setFld F.PIM_DQ_TAIL.TAIL tail
    if !d.on F.PIM_DQ_CTRL.ENABLE || d.on F.PIM_DQ_HEAD.STOPPED then d
    else (List.range ((tail + size - from_) % size)).foldl (fun (d : Device) i =>
      d.emit (.hostRead (d.ringFn .PIM_DQ_BASE) (d.fld F.PIM_DQ_BASE.ADDR * 4096 + 32 * ((from_ + i) % size)) 32)) d

/-- PIM_DQ_TAIL_WRITE. -/
def execPimDqTailWrite (port tail : Nat) (s : State) : Host.Outcome State Fault Refusal :=
  s.act fun d => d.asHolder port (pimDqTailEff tail)

/-- A ring command as its maintenance queue takes it. -/
def pimOfDesc (x : PimDesc) : PimCmd :=
  { opcode := x.opcode, channel := x.channel, entry := x.entry, count := x.count, frame := x.frame, slot := x.slot, topn := x.topn,
    qn := x.qn, dsz := x.dsz, aspace := x.aspace, irq := x.irq, owner := x.owner, a := x.a, b := x.b, c := x.c, rsvd := x.rsvd,
    pfq := true }

/-- PIM_DQ_FETCH: the descriptor at HEAD, 32 bytes (Table 6.3), goes into its channel's maintenance queue; a full queue of 64 holds the
ring. -/
def pimDqFetchEff (bytes : List Byte) (d : Device) : Device :=
  let x := PimDesc.ofBytes bytes
  let head := d.fld F.PIM_DQ_HEAD.HEAD
  let size := 2 ^ d.fld F.PIM_DQ_CTRL.LOG2_SIZE
  if d.part.isL || !d.on F.PIM_DQ_CTRL.ENABLE || d.on F.PIM_DQ_HEAD.STOPPED || head == d.fld F.PIM_DQ_TAIL.TAIL then d
  else if (d.chan x.channel).isFull 1 then d
  else (d.setFld F.PIM_DQ_HEAD.HEAD ((head + 1) % size)).queuePim 1 (pimOfDesc x)

/-- PIM_DQ_FETCH. -/
def execPimDqFetch (bytes : List Byte) (s : State) : Host.Outcome State Fault Refusal := s.act (pimDqFetchEff bytes)

end Sys2Proof.Machine
end

