-- ==== Sys2Proof/Machine/Furrows.lean ====
section
/-! DEFINITION. Sys2Proof/Machine/Furrows.lean: furrows (spec/07): closing, indexing, coding and scoring of
pages, the turn's rankings, fetches and cutoffs, and the spillway. -/

namespace Sys2Proof.Machine

/-! ### The coarse index (R168) -/

/-- Round a quotient of naturals to nearest, ties to even. -/
def rneQuot (a b : Nat) : Nat :=
  let q := a / b
  let r := a % b
  if 2 * r > b ∨ (2 * r = b ∧ q % 2 = 1) then q + 1 else q

/-- The least BF16 pattern whose value is at least a / 127. -/
def scaleUp (a : Fv) : Nat :=
  let below := fun (n : Nat) => ((bf16.value n).mul (Fv.ofInt 127)).lt a
  let top := (List.range 15).foldl (fun n i => if below (n + 2 ^ (14 - i)) then n + 2 ^ (14 - i) else n) 0
  if below top then top + 1 else top

/-- RN(v / S), clamped to ±127, as an INT8 pattern; 0 for a scale of 0. -/
def quantise (v : Fv) (scale : Nat) : Nat :=
  match v, bf16.value scale with
  | .fin neg m e, .fin _ ms es =>
    if ms = 0 then 0
    else
      let q := min 127 (rneQuot (alignTo m e (min e es)) (alignTo ms es (min e es)))
      if neg ∧ q ≠ 0 then 256 - q else q
  | _, _ => 0

/-- The largest magnitude of a list. -/
def maxAbs (xs : List Fv) : Fv := xs.foldl (fun a x => if a.lt x.abs then x.abs else a) Fv.zero

/-- A value is finite. -/
def Fv.isFin : Fv → Bool
  | .fin _ _ _ => true
  | _ => false

/-- Summarise values under one scale: the INT8 patterns and the BF16 scale. With a value that is not finite the spec states no scale:
the result is open (log entry 31). -/
def quantised (xs : List Fv) : List Nat × Nat :=
  if xs.all Fv.isFin then
    let s := scaleUp (maxAbs xs)
    (xs.map fun v => quantise v s, s)
  else
    let o := fun n => (Config.openResult (0x70 + n) []).toNat
    ((List.range xs.length).map fun i => o (i + 1) % 256, o 0 % 65536)

/-- Bytes of a raw page (R163). -/
def rawBytes (f : Furrow) : Nat := 512 * headDim f * elemBytes f.fmt

/-- What the index builder reads of a page's stored form: a raw page as it stands, a coded one as an operand port's decoder expands it (R85,
R98; log entry 181). -/
def plainOf (f : Furrow) (coded : Bool) (stored : List Byte) : Option (List Byte) :=
  if coded then
    match expandAll stored (rawBytes f) with
    | .ok bs => some bs
    | .error _ => none
  else some (fit (rawBytes f) stored)

/-- The frame that the index builder reads of a page (tier, frame, span, coded): the raw one while it stands (R167), else its primary. -/
def Device.builderFrame (d : Device) (g : Nat) : Nat × Nat × Nat × Bool :=
  match d.fur.kept.find? fun x => x.1 == g with
  | some x => (x.2.1, x.2.2, 1024, false)
  | none => let e := d.pte g; (e.tier, e.frame, e.span, e.coded)

/-- A page of headwater, or of a reservoir channel whose accesses do not wait, can be read at once. -/
def Device.readable (d : Device) (tier frame n : Nat) : Bool := tier == 1 || tier == 2 && !d.waits (frameAddr frame) n

/-- Begin to read a page's stored form for the device itself: a flash frame's units, or a reservoir frame in its turn (R130). `op` names the
offer or push whose manifest lists it, 0 the index builder. -/
def Device.beginLoad (d : Device) (i g tier frame span : Nat) (coded : Bool) (op : Nat) : Device :=
  let id := d.fur.nextLoad
  let x : PageLoad := { id := id, page := g, desc := i, tier := tier, frame := frame, span := span, coded := coded, op := op }
  let d := { d with fur.loads := d.fur.loads ++ [x], fur.nextLoad := id + 1 }
  if tier = 4 then (d.startJob (.load id) frame (ceilDiv (64 * span) 4096)).getD d
  else d.postRead (frameAddr frame) (64 * span) (d.furrow i).owner (.load id)

/-- The keys of a page, position by position: D values each. -/
def pageKeys (f : Furrow) (bs : List Byte) : List (List Fv) :=
  match fmtOf f.fmt with
  | none => []
  | some t =>
    let b := elemBytes f.fmt
    (List.range 256).map fun p => (List.range (headDim f)).map fun e =>
      t.value (leValue ((bs.drop ((p * headDim f + e) * b)).take b))

/-- The FP32 mean of each element over the page's keys: summed in ascending position with rounding at each addition, then times 2^-8
exactly. -/
def keyMeans (dim : Nat) (keys : List (List Fv)) : List Fv :=
  (List.range dim).map fun e =>
    let xs := keys.map fun k => k.getD e Fv.zero
    let s := xs.tail.foldl (fun s x => round32 [] ((val32 s).add x)) (round32 [] (xs.headD Fv.zero))
    (val32 s).shift (-8)

/-- A vector of INT8 patterns padded with zeros to D_s. -/
def padTo (n : Nat) (xs : List Nat) : List Byte := ((xs ++ List.replicate n 0).take n).map fun x => BitVec.ofNat 8 x

/-- Where the arrays of the coarse index lie: summaries, index scales, score scales. -/
def indexAt (f : Furrow) : Nat × Nat × Nat :=
  let n := pps f * scoreDim f.dsz
  (f.indexAddr, f.indexAddr + n, f.indexAddr + n + 2 * pps f)

/-- Write a part of a coarse index, which lies in headwater (R102). -/
def Device.putIndex (d : Device) (a : Nat) (bs : List Byte) : Device := if inHeadwater a bs.length then d.store a bs else d

/-- Write the coarse-index entry of page p of the ranking stream. -/
def Device.indexPage (d : Device) (f : Furrow) (p : Nat) (bs : List Byte) : Device :=
  let (q, s) := quantised (keyMeans (headDim f) (pageKeys f bs))
  let (a, b, _) := indexAt f
  (d.putIndex (a + p * scoreDim f.dsz) (padTo (scoreDim f.dsz) q)).putIndex (b + 2 * p) (leBytes 2 s)

/-! ### Score forms (R137, R169) -/

/-- Note a page as unscored: the furrow unit retries it at each later close (R169). -/
def Device.noteUnscored (d : Device) (i g : Nat) : Device :=
  if d.fur.unscored.contains (i, g) then d else { d with fur.unscored := d.fur.unscored ++ [(i, g)] }

/-- A page stays unscored for want of a score frame or of scratch (R169). -/
def Device.leaveUnscored (d : Device) (i g : Nat) : Device := (d.event F.FUR_EVENTS.SCORE_FULL).noteUnscored i g

/-- The score frame in which the form of page p belongs: that of another page of its group, or a new one of the channel, held in
OPEN_SCORE. -/
def Device.scoreFrameFor (d : Device) (i p k : Nat) : Option (Nat × Device) :=
  let f := d.furrow i
  let n := slotsPerFrame f.dsz
  let group := (List.range n).map fun j => seqPage f f.rankStream (p / n * n + j)
  match group.findSome? fun g => ((d.fur.builds.find? fun b => b.page == g).map (·.frame)).orElse fun _ =>
      if (d.pte g).scored then some (d.pte g).scFrame else none with
  | some fr => some (fr, d)
  | none =>
    (d.allocFrame poolScore k f.owner).map fun (a, d) =>
      let fr := frameOf a % 32768
      (fr, d.setFurrow i { d.furrow i with openScore := 2 ^ 31 + k * 32768 + fr })

/-- The last slot of a score frame has been given to its page: OPEN_SCORE lets it go (R169). -/
def Device.closeScoreFrame (d : Device) (i p fr k : Nat) : Device :=
  let f := d.furrow i
  if p % slotsPerFrame f.dsz + 1 = slotsPerFrame f.dsz ∧ f.openScore = 2 ^ 31 + k * 32768 + fr then d.setFurrow i { f with openScore := 0 } else d

/-- Page p's score form is wanted and neither stands nor is being built. -/
def Device.scoreDue (d : Device) (i g : Nat) : Bool :=
  (d.furrow i).scCount != 0 && !(d.pte g).scored && !(d.fur.builds.any fun b => b.page == g)

/-- Build the score form of page p of the ranking stream from its bytes: its scale into the index, its vectors into the scratch, and an
SWRITE and its fence into the channel's maintenance queue. -/
def Device.buildScore (d : Device) (i p : Nat) (bs : List Byte) : Device :=
  let f := d.furrow i
  let g := seqPage f f.rankStream p
  if !d.scoreDue i g then d
  else
    let n := slotsPerFrame f.dsz
    let k := f.scBase + p / n % f.scCount
    match firstFrom (fun s => !(d.fur.builds.any fun b => b.scratch == s)) 0 64 with
    | none => d.leaveUnscored i g
    | some scratch =>
      match d.scoreFrameFor i p k with
      | none => d.leaveUnscored i g
      | some (fr, d) =>
        let keys := pageKeys f bs
        let (q, s) := quantised keys.flatten
        let dim := headDim f
        let list := (List.range 256).flatMap fun r => padTo (scoreDim f.dsz) ((q.drop (r * dim)).take dim)
        let d := d.putIndex ((indexAt f).2.2 + 2 * p) (leBytes 2 s)
        let at_ := d.fld F.FUR_BUILD_BASE.ADDR * 65536 + 65536 * scratch
        let d := d.store at_ list
        let b : Build := { page := g, desc := i, channel := k, frame := fr, slot := p % n, scratch := scratch }
        let d := { d with
          fur.builds := d.fur.builds ++ [b]
          fur.unscored := d.fur.unscored.filter fun x => x != (i, g) }
        let c : PimCmd := { opcode := 2, channel := k, frame := fr, slot := p % n, dsz := f.dsz, owner := f.owner, a := at_,
                            list := list, build := some g }
        ((d.queuePim 1 c).queuePim 1 { c with opcode := 15, list := [] }).closeScoreFrame i p fr k

/-- The index builder has a page's bytes: its index entry, and its score form where it is due. -/
def Device.buildPage (d : Device) (i p : Nat) (bs : List Byte) : Device := (d.indexPage (d.furrow i) p bs).buildScore i p bs

/-- Index and score a closed page of the ranking stream (R167, R169): at once, or when the read of it has ended. -/
def Device.indexAndScore (d : Device) (i p : Nat) : Device :=
  let f := d.furrow i
  let g := seqPage f f.rankStream p
  let (tier, frame, span, coded) := d.builderFrame g
  if d.fur.loads.any fun x => x.page == g && x.op == 0 then d
  else if d.readable tier frame (64 * span) then
    match plainOf f coded (d.tierBytes tier frame (64 * span)) with
    | some bs => d.buildPage i p bs
    | none => d.noteUnscored i g
  else if tier = 2 ∨ tier = 4 then d.beginLoad i g tier frame span coded 0
  else d

/-- The furrow unit retries the unscored pages of every furrow (R169). -/
def Device.retryScores (d : Device) : Device :=
  d.fur.unscored.foldl (fun (d : Device) (x : Nat × Nat) =>
    let f := d.furrow x.1
    if d.scoreDue x.1 x.2 then d.indexAndScore x.1 (x.2 - seqPage f f.rankStream 0) else d) d

/-! ### Closing and coding (R99, R167) -/

/-- A page closes in every stream (R167). -/
def Device.closePage (d : Device) (i p : Nat) : Device :=
  let f := d.furrow i
  let d := (List.range (streams f)).foldl (fun (d : Device) s =>
    let g := seqPage f s p
    let d := d.setPte g { d.pte g with isOpen := false, lastUse := d.useStamp }
    if (d.pte g).tier = 0 then d else { d with fur.coding := d.fur.coding ++ [{ page := g, desc := i }] }) d
  d.indexAndScore i p

/-- The commit instant moves LENGTH of a furrow (R52, R167): the pages it moves past close. -/
def Device.advance (d : Device) (i n : Nat) : Device :=
  let f := d.furrow i
  let d := d.setFurrow i { f with length := f.length + n }
  let first := f.length / 256
  let closed := (List.range ((f.length + n) / 256 - first)).map (first + ·)
  let d := closed.foldl (fun d p => d.closePage i p) d
  if closed.isEmpty then d else d.retryScores

/-- A memory access of the furrow unit to a reservoir frame that its owner context may not touch (R118): the record, and the entry that
bars it. -/
def Device.furrowBarred (d : Device) (f : Furrow) (frame : Nat) (write : Bool) : Option Device :=
  let e := d.ownerEntry frame
  if entryAllows e f.owner write false then none
  else some (d.record { cause := 3, severity := 1, status := 1, unitKind := 3, unit := frame / 32768, owner := f.owner, furrow := f.id,
                        address := frameAddr frame, detail := [(2, e)] })

/-- The coded object of a page's raw bytes goes into another frame of its tier (R99); one that coding does not shorten stays raw; with no
frame free the page waits. -/
def Device.placeCoded (d : Device) (x : Coding) (bs : List Byte) : Device :=
  let f := d.furrow x.desc
  let e := d.pte x.page
  match encodeObject (if f.fmt < 8 then 0 else 1) bs with
  | none => { d with fur.coding := d.fur.coding.erase x }
  | some o =>
    let hw := e.tier == 1
    match d.allocFrame (if hw then poolHw else poolRes) (if hw then hwPlot e.frame else e.frame / 32768 / 160) f.owner with
    | none => d
    | some (a, d) =>
      let y := { x with ready := some (if hw then a / frameBytes else frameOf a, o.length / 64) }
      ({ d with fur.coding := d.fur.coding.map fun (z : Coding) => if z = x then y else z } : Device).postWrite a o

/-- CODED_FRAME_READY (R85, R92 to R94, R99): the encoder has read a closed page, which no move has under way and whose channel's accesses do
not wait, and its frame is one that its owner may read (R118). A read that fails its last replay leaves the page raw (R113). -/
def codedFrameEff (g parity : Nat) (d : Device) : Device :=
  match d.fur.coding.find? fun x => x.page == g && x.ready.isNone with
  | none => d
  | some x =>
    let f := d.furrow x.desc
    let e := d.pte g
    let drop := fun (d : Device) => { d with fur.coding := d.fur.coding.erase x }
    if e.moving then d
    else if !d.readable e.tier e.frame (rawBytes f) then
      (if e.tier = 2 then d.postRead (frameAddr e.frame) (rawBytes f) f.owner (.coding g) else drop d)
    else
      match if e.tier = 2 then d.furrowBarred f e.frame false else none with
      | some d => drop d
      | none =>
        let d := if 1 ≤ parity ∧ parity ≤ 3 then d.count F.ERR_COUNTS.REPLAYED else d
        let a := if e.tier = 1 then e.frame * frameBytes else frameAddr e.frame
        if parity > 3 then
          drop (d.uncorrectable { cause := 1, severity := 2, status := if e.tier = 2 then 0x0C else 0x0D, replays := 3, persistent := true,
                                  unitKind := if e.tier = 2 then 3 else 9, unit := if e.tier = 2 then e.frame / 32768 else 0,
                                  owner := f.owner, furrow := f.id, address := a })
        else d.placeCoded x (d.pageBytes g (rawBytes f))

/-- CODED_FRAME_READY. -/
def execCodedFrameReady (page parity : Nat) (s : State) : Host.Outcome State Fault Refusal := s.act (codedFrameEff page parity)

/-- The index builder has still to read a page: its score form is unscored or being built. -/
def Device.builderNeeds (d : Device) (g : Nat) : Bool :=
  (d.fur.unscored.any fun x => x.2 == g) || (d.fur.builds.any fun b => b.page == g) || d.fur.loads.any fun x => x.page == g

/-- Free the raw frames of coded pages that the index builder has read (R167). -/
def Device.freeRead (d : Device) : Device := d.freeRaw fun g => !d.builderNeeds g

/-- At a turn boundary the page-table entries of coded pages change to their coded frames; the raw frames are freed once the index builder
has read them (R99, R167), and no other read of them is under way. A copy of the raw form is dropped. -/
def Device.switchCoded (d : Device) : Device :=
  let d := d.fur.coding.foldl (fun (d : Device) (x : Coding) =>
    match if d.fur.loads.any fun y => y.page == x.page && y.op != 0 then none else x.ready with
    | none => d
    | some (fr, span) =>
      let d := d.dropCopy x.page
      let e := d.pte x.page
      { d.setPte x.page { e with coded := true, span := span, frame := fr, copy := false } with
        fur.coding := d.fur.coding.erase x
        fur.kept := d.fur.kept ++ [(x.page, e.tier, e.frame)] }) d
  d.freeRead

/-! ### Rankings (R172 to R178) -/

/-- The entry of an area still runs. -/
def Device.attendRuns (d : Device) (x : Attend) : Bool :=
  match d.admittedAt x.entry with
  | some a => decide (a.state = .running)
  | none => false

/-- Queue a RANK and its fence on every channel that holds score forms of the candidates (R172), under an entry's grant. -/
def Device.queueRanks (d : Device) (r : Ranking) (entry cf ce qn : Nat) (query : List Byte) : Device :=
  let f := d.furrow r.desc
  let cand := (List.range (ce - cf)).map (cf + ·)
  let place := fun (p : Nat) => d.pte (seqPage f f.rankStream p)
  let chans := (cand.map fun p => (place p).scCh).eraseDups
  let scales := (indexAt f).2.2
  let d := { d with fur.rankings := d.fur.rankings ++ [{ r with waiting := chans }] }
  chans.foldl (fun (d : Device) k =>
    let mine := cand.filter fun p => (place p).scCh == k
    let list := mine.flatMap fun p =>
      let e := place p
      leBytes 8 (p % 2 ^ 24 * 2 ^ 40 + d.load (scales + 2 * p) 2 * 2 ^ 24 + e.scSlot * 2 ^ 15 + e.scFrame)
    let c : PimCmd := { opcode := 1, channel := k, entry := entry, count := mine.length, topn := r.top, qn := qn, dsz := f.dsz,
                        owner := f.owner, query := query, list := list, rank := some r.id }
    (d.queuePim 0 c).queuePim 0 { c with opcode := 15, count := 0, query := [], list := [] }) d

/-- A new ranking number. -/
def Device.newRank (d : Device) : Nat × Device := (d.fur.nextRank, { d with fur.nextRank := d.fur.nextRank + 1 })

/-- QUERY_POST (R172, R176): RESERVOIR queues the RANKs, REMOTE sends a ranking request to HOME. -/
def queryPostEff (slot : Nat) (draft : Bool) (d : Device) : Device :=
  match d.attendOf slot draft with
  | none => d
  | some x =>
    let area := d.selArea slot draft
    if x.final || x.heldOut || x.queried || !d.attendRuns x || d.load (area + 1) 1 != 1 || !(x.mode == 2 || x.mode == 3) then d
    else
      let f := d.furrow x.desc
      let qn := d.load (area + 3) 1
      let query := d.bytes (area + 0x40) (min 1088 (64 + qn * scoreDim f.dsz))
      let d := d.setAttend { x with queried := true }
      if x.mode = 2 then
        let (id, d) := d.newRank
        d.queueRanks { id := id, slot := slot, draft := draft, turn := d.turnNo, desc := x.desc, top := f.top } x.entry x.candFirst
          x.candEnd qn query
      else
        let body := pack [(8, d.turnNo), (4, f.id), (2, d.node), (1, 0x21), (1, f.top), (4, x.candFirst), (4, x.candEnd), (1, qn),
          (1, f.dsz), (6, 0), (16, 0), (16, 0)] ++ query
        d.internalSend (x.plot / 32) (.furrow x.desc .none) f.home f.owner 4 body

/-- QUERY_POST. -/
def execQueryPost (slot : Nat) (draft : Bool) (s : State) : Host.Outcome State Fault Refusal := s.act (queryPostEff slot draft)

/-- SELECTION_POST (R172, R174): INDEX keeps the first TOP entries that are candidates and new. -/
def selectionPostEff (slot : Nat) (draft : Bool) (d : Device) : Device :=
  match d.attendOf slot draft with
  | none => d
  | some x =>
    if x.final || x.heldOut || !d.attendRuns x || x.mode != 1 || d.load (d.selArea slot draft + 1) 1 != 2 then d
    else d.takeRanking x (d.selection slot draft) false

/-- SELECTION_POST. -/
def execSelectionPost (slot : Nat) (draft : Bool) (s : State) : Host.Outcome State Fault Refusal := s.act (selectionPostEff slot draft)

/-- RESERVOIR_MERGE (R173). -/
def reservoirMergeEff (id : Nat) (d : Device) : Device :=
  match d.fur.rankings.find? fun r => r.id == id && r.waiting == [] with
  | none => d
  | some r => d.endRanking r false

/-- RESERVOIR_MERGE. -/
def execReservoirMerge (id : Nat) (s : State) : Host.Outcome State Fault Refusal := s.act (reservoirMergeEff id)

/-- A message leaves those delivered to the device's units. -/
def Device.took (d : Device) (m : Msg) : Device := { d with slu.delivered := d.slu.delivered.erase m }

/-- RANK_REQUEST (R177): the checks in the rule's order, then the RANKs under the requester's RANK_SERVICE grant. -/
def rankRequestEff (m : Msg) (d : Device) : Device :=
  let d := d.took m
  let at_ := fun (o n : Nat) => leValue ((m.data.drop o).take n)
  let turn := at_ 0 8
  let id := at_ 8 4
  let node := at_ 12 2
  let cf := at_ 16 4
  let ce := at_ 20 4
  if at_ 14 1 ≠ 0x21 then d
  else if turn ≠ d.turnNo then d.rankReply node turn id m.hdr.owner 5 0 []
  else
    match d.fur.desc.find? fun x => x.2.state == 2 && x.2.id == id && d.isHome x.1 && d.recordOwner x.1 == some node with
    | none => d.rankReply node turn id m.hdr.owner 3 0 []
    | some (i, f) =>
      if ce > pps f ∨ ((List.range (ce - cf)).any fun k => !(d.pte (seqPage f f.rankStream (cf + k))).scored) = true then
        d.rankReply node turn id f.owner 4 0 []
      else
        match d.granted.find? fun a => a.e.kind == 4 && a.e.arg % 65536 == node with
        | none => d.rankReply node turn id f.owner 2 0 []
        | some a =>
          let (rid, d) := d.newRank
          d.queueRanks { id := rid, requester := some node, msgId := m.msgId, turn := turn, desc := i, top := at_ 15 1 } a.index cf ce
            (at_ 24 1) (m.data.drop 64)

/-- RANK_REQUEST. -/
def execRankRequest (m : Msg) (s : State) : Host.Outcome State Fault Refusal := s.act (rankRequestEff m)

/-- The entries of a ranking reply. -/
def replyEntries (data : List Byte) : List (Nat × Nat) :=
  (List.range (min 64 (leValue ((data.drop 20).take 1)))).map fun i =>
    (leValue ((data.drop (64 + 8 * i)).take 3), leValue ((data.drop (68 + 8 * i)).take 4))

/-- RANK_REPLY (R178): DONE is final, PARTIAL final and degraded; any other outcome leaves no new selection; a reply after the cutoff
or of another turn is discarded. -/
def rankReplyEff (m : Msg) (d : Device) : Device :=
  let d := d.took m
  let at_ := fun (o n : Nat) => leValue ((m.data.drop o).take n)
  if at_ 14 1 ≠ 0x22 then d
  else if at_ 0 8 ≠ d.turnNo then d.event F.FUR_EVENTS.RANK_LATE
  else
    match d.fur.attend.find? fun x => x.mode == 3 && x.queried && (d.furrow x.desc).id == at_ 8 4 with
    | none => d.event F.FUR_EVENTS.RANK_LATE
    | some x =>
      if x.final || x.heldOut || !d.attendRuns x then d.event F.FUR_EVENTS.RANK_LATE
      else if at_ 15 1 ≤ 1 then d.takeRanking x (replyEntries m.data) (at_ 15 1 == 1)
      else d.fallBackPrevious x

/-- RANK_REPLY. -/
def execRankReply (m : Msg) (s : State) : Host.Outcome State Fault Refusal := s.act (rankReplyEff m)

/-! ### Cutoffs (R186) -/

/-- RANK_CUT_EXPIRY: a merge covers what has fenced; with nothing new the previous selection serves; the home answers PARTIAL. -/
def rankCutEff (at_ : Nat) (d : Device) : Device :=
  let d := d.at_ at_
  if !d.running || !d.turn.started || decide (d.now < d.turn.start + 1000 * d.fld F.FUR_TIMING.RANK_CUT) then d
  else
    let d := d.fur.rankings.foldl (fun (d : Device) (r : Ranking) => d.cutRanking r) d
    d.fur.attend.foldl (fun (d : Device) (x : Attend) => if d.attendRuns x then d.cutSelection x else d) d

/-- RANK_CUT_EXPIRY. -/
def execRankCutExpiry (at_ : Nat) (s : State) : Host.Outcome State Fault Refusal := s.act (rankCutEff at_)

/-- Page indices of a list turn missing in every stream (Table 7.8). -/
def Device.loseListed (d : Device) (x : Attend) (ps : List Nat) : Device :=
  d.losePages x (ps.flatMap fun p => (List.range (streams (d.furrow x.desc))).map fun s => seqPage (d.furrow x.desc) s p)

/-- The listed page indices of an entry with a page that is not present. -/
def Device.absentPages (d : Device) (x : Attend) : List Nat :=
  let f := d.furrow x.desc
  x.pages.filter fun p => (List.range (streams f)).any fun s => d.entryState x (seqPage f s p) != 1

/-- FETCH_CUT_EXPIRY: listed pages not present turn missing; MISSING counts each page index once (Table 7.19). -/
def fetchCutEff (at_ : Nat) (d : Device) : Device :=
  let d := d.at_ at_
  if !d.running || !d.turn.started || decide (d.now < d.turn.start + 1000 * d.fld F.FUR_TIMING.FETCH_CUT) then d
  else
    d.fur.attend.foldl (fun (d : Device) (x : Attend) =>
      match d.attendOf x.slot x.draft with
      | none => d
      | some x =>
        if x.cut || x.heldOut then d
        else
          let gone := d.absentPages x
          let x := { x with cut := true }
          let d := (d.setAttend x)
          let missing := (gone.map fun p => x.desc * 65536 + p).foldl (fun (acc : List Nat) k => if acc.contains k then acc else k :: acc) d.fur.missing
          let d := { d with fur.missing := missing }
          if d.attendRuns x then d.loseListed x (gone.filter fun p =>
            (List.range (streams (d.furrow x.desc))).any fun s => !x.lost.contains (seqPage (d.furrow x.desc) s p)) else d) d

/-- FETCH_CUT_EXPIRY. -/
def execFetchCutExpiry (at_ : Nat) (s : State) : Host.Outcome State Fault Refusal := s.act (fetchCutEff at_)

/-! ### Fetches -/

/-- The sequence page that a furrow read asks for. -/
def Device.askedPage (d : Device) (m : Msg) : Option Nat :=
  (d.furById (m.hdr.offset / 2 ^ 32)).map fun i => (d.furrow i).base + m.hdr.offset % 2 ^ 32

/-- A read of a page's frame is in flight: a fetch, a read of the furrow unit's own, or a furrow read that it serves. -/
def Device.pageBeingRead (d : Device) (g : Nat) : Bool :=
  (d.fur.fetches.any fun f => f.page == g) || (d.fur.loads.any fun f => f.page == g) || d.slu.jobs.any fun j =>
    match j.use with
    | .serve m _ => d.askedPage m == some g
    | _ => false

/-- Free the sources of switched moves that no read in flight still uses (R184). -/
def Device.freeSources (d : Device) : Device :=
  d.fur.toFree.foldl (fun (d : Device) (x : Nat × Nat × Nat) =>
    if d.pageBeingRead x.1 then d
    else ({ d with fur.toFree := d.fur.toFree.erase x } : Device).freePlace x.2.1 x.2.2) d

/-- A fetch has failed with a status: the copy goes, the page turns missing in the lists that show it, and an uncorrectable target
error fails the seal (Table 7.8, R113). -/
def Device.fetchFailed (d : Device) (x : Fetch) (status : Nat) : Device :=
  let d := (d.dropCopy x.page).freeSources
  let d := if status = 0xC then d.failUncorrectable else d
  let f := d.furrow x.desc
  let p := (x.page - f.base) % pps f
  d.fur.attend.foldl (fun (d : Device) (a : Attend) =>
    match d.attendOf a.slot a.draft with
    | some y => if y.desc = x.desc ∧ y.heldOut = false ∧ d.attendRuns y = true ∧ (y.pages.contains p ∨ y.final = false ∧ d.fur.pins.contains x.page = true)
                then d.loseListed y [p] else d
    | none => d) d

/-- What a fetch has brought of a REMOTE page of unknown span says what its form is: less than a whole frame is a coded object (R84, R189;
log entry 83). -/
def Device.learnSpan (d : Device) (x : Fetch) : Device :=
  let e := d.pte x.page
  if e.tier = 3 ∧ e.coded = false ∧ 0 < x.got ∧ x.got < frameBytes then d.setPte x.page { e with coded := true, span := ceilDiv x.got 64 } else d

/-- A copy is complete: its list entries turn present, unless they are missing already (R180). -/
def Device.fetchEnds (d : Device) (x : Fetch) : Device :=
  ((({ d with fur.fetches := d.fur.fetches.erase x } : Device).learnSpan x).freeSources).refreshEntry x.page

/-- Bytes of a direct fetch. -/
def Device.fetchLen (d : Device) (x : Fetch) : Nat := 64 * (d.pte x.page).span

/-- A direct fetch has waited for its channel, and its read is carried out. -/
def Device.fetchRead (d : Device) (g : Nat) : Device :=
  match d.fur.fetches.find? fun f => f.page == g && f.src != 0 && !f.read with
  | none => d
  | some x =>
    { d.store x.addr (d.readMem x.src (d.fetchLen x)) with
      fur.fetches := d.fur.fetches.map fun (f : Fetch) => if f = x then { x with read := true } else f }

/-- A fetch that may end does (R179, R180): one that a descriptor brings with its status; a direct one by a read of the frame, which its
owner must be able to read (R118), and which waits while its channel's accesses do (R130). -/
def Device.fetchDone (d : Device) (x : Fetch) (ok : Bool) : Device :=
  let f := d.furrow x.desc
  match x.ctx, x.ended with
  | some _, _ => d
  | none, some 0 => d.fetchEnds x
  | none, some st => d.fetchFailed x st
  | none, none =>
    if x.src = 0 then d
    else
      match if x.read then none else d.furrowBarred f (frameOf x.src) false with
      | some d => d.fetchFailed x 1
      | none =>
        if !x.read && d.waits x.src (d.fetchLen x) then d.postRead x.src (d.fetchLen x) f.owner (.fetch x.page)
        else if ok then (if x.read then d else d.store x.addr (d.readMem x.src (d.fetchLen x))).fetchEnds x
        else
          (d.uncorrectable { cause := 1, severity := 2, status := 0xC, replays := 3, persistent := true, unitKind := 3,
                             unit := (x.src - resvBase) / channelBytes, owner := f.owner, furrow := f.id, address := x.src }).fetchFailed x 0xC

/-- Prefetch what a furrow's next turn will list (R181): the sinks, the recent window for the new LENGTH and the ranked pages just
used; with no ranking, every page. -/
def Device.prefetch (d : Device) (i plot : Nat) (ranked : List Nat) : Device :=
  let f := d.furrow i
  let n := ceilDiv f.length 256
  let pages := if f.mode = 0 ∨ n ≤ f.sink + f.recent + f.top then List.range n
    else sortNat ((List.range (min f.sink n) ++ ranked ++ (List.range f.recent).map fun k => n - f.recent + k).eraseDups)
  (accessOrder f pages).foldl (fun (d : Device) g => d.startFetch i g plot) d

/-! ### The spillway (R183, R184) -/

/-- The descriptor whose region holds a sequence page. -/
def Device.descOfPage (d : Device) (g : Nat) : Option Nat :=
  (d.fur.desc.find? fun x => x.2.state != 0 && decide (x.2.base ≤ g) && decide (g < x.2.base + granules x.2 * 4096)).map (·.1)

/-- The closed, unpinned pages of a tier that may move. -/
def Device.movablePages (d : Device) (tier : Nat) : List Nat :=
  (d.fur.pte.filter fun x => x.2.tier == tier && !x.2.isOpen && !x.2.moving && !d.fur.pins.contains x.1 &&
    !(d.fur.coding.any fun c => c.page == x.1 && c.ready.isSome) && !(d.fur.fetches.any fun f => f.page == x.1)).map (·.1)

/-- Insert by ascending LAST_USE, after those of equal age. -/
def insertAge (age : Nat → Nat) (g : Nat) : List Nat → List Nat
  | [] => [g]
  | x :: xs => if age g < age x then g :: x :: xs else x :: insertAge age g xs

/-- Pages in ascending LAST_USE; `pick` says how far those of equal age are turned. -/
def Device.byAge (d : Device) (gs : List Nat) (pick : Nat) : List Nat :=
  let age := fun g => (d.pte g).lastUse
  let turned := gs.drop (pick % max 1 gs.length) ++ gs.take (pick % max 1 gs.length)
  turned.foldl (fun acc g => insertAge age g acc) []

/-- Note a move that has begun. -/
def Device.beginMove (d : Device) (m : Move) : Device :=
  ({ d with fur.moves := d.fur.moves ++ [m] } : Device).setPte m.page { d.pte m.page with moving := true }

/-- The die of an address of headwater or the reservoir. -/
def addrDie (a : Nat) : Nat := if a < resvBase then hwDie (a / frameBytes) else (a - resvBase) / channelBytes / 160

/-- Begin a page's move to flash; none with no flash frame free. -/
def Device.moveToFlash (d : Device) (i g src : Nat) : Option Device :=
  let f := d.furrow i
  let e := d.pte g
  (d.allocFrame poolFlash 0 f.owner).bind fun (fr, d) =>
    (d.flashDesc true fr src e.span f.owner).map fun x =>
      (d.beginMove { page := g, tier := 4, frame := fr, desc := i }).issue (addrDie src) x.1 (.furrow i (.move g)) x.2

/-- Begin a page's move out of headwater: to the reservoir. -/
def Device.moveToReservoir (d : Device) (i g : Nat) : Option Device :=
  let f := d.furrow i
  let e := d.pte g
  (d.allocFrame poolRes (hwDie e.frame) f.owner).map fun (a, d) =>
    (d.beginMove { page := g, tier := 2, frame := frameOf a, desc := i }).issue (hwDie e.frame)
      { opcode := 1, owner := f.owner, loc := a, remote := e.frame * frameBytes, length := 64 * e.span } (.furrow i (.move g)) ⟨0, 0⟩

/-- Begin a page's move to its furrow's home: a WRITE of the furrow unit (Table 11.1). No rule gives the region it names at the home, its key
or its offset: they are open values (log entry 80). -/
def Device.moveToHome (d : Device) (i g : Nat) : Device :=
  let f := d.furrow i
  let e := d.pte g
  let o := fun (k : Nat) => (Config.openResult 0x74 [k, f.home, f.id, g - f.base]).toNat
  (d.beginMove { page := g, tier := 3, node := f.home, desc := i }).issue (addrDie (frameAddr e.frame))
    { opcode := 2, cls := 2, owner := f.owner, node := f.home, loc := frameAddr e.frame, region := o 0 % 65536, key := o 1, remote := o 2,
      length := 64 * e.span, atPlacement := true } (.furrow i (.move g)) ⟨0, 0⟩

/-- The first page of a list that can move does (R183). -/
def Device.spill (d : Device) (pool : Nat) : List Nat → Device
  | [] => d
  | g :: gs =>
    match d.descOfPage g with
    | none => d.spill pool gs
    | some i =>
      let f := d.furrow i
      if pool = 0 then
        match d.moveToReservoir i g with
        | some d => d
        | none => d.spill pool gs
      else if f.spillHome = true ∧ f.home ≠ d.node then d.moveToHome i g
      else
        match d.moveToFlash i g (frameAddr (d.pte g).frame) with
        | some d => d
        | none => (d.event F.FUR_EVENTS.FLASH_FULL).spill pool gs

/-- Frames of a pool that moves under way will free. -/
def Device.leaving (d : Device) (pool : Nat) : Nat :=
  (d.fur.moves.filter fun m => (d.pte m.page).tier == (if pool = 0 then 1 else 2)).length

/-- SPILLWAY_EVICT (R183): one step while a pool that has fallen below LOW has fewer than HIGH frames free. -/
def spillwayEff (pool pick : Nat) (d : Device) : Device :=
  if pool > 1 then d
  else
    let free := d.fld F.FUR_POOL_STATUS.FREE pool
    let evicting := d.fur.evicting.contains pool || decide (free < d.fld F.FUR_POOL_CFG.LOW pool)
    if !evicting then d
    else if free + d.leaving pool ≥ d.fld F.FUR_POOL_CFG.HIGH pool then
      { d with fur.evicting := if free ≥ d.fld F.FUR_POOL_CFG.HIGH pool then d.fur.evicting.filter (· != pool) else d.fur.evicting }
    else
      let d := if d.fur.evicting.contains pool then d else { d with fur.evicting := pool :: d.fur.evicting }
      match if pool = 0 then d.byAge d.spareCopies pick else [] with
      | g :: _ => d.dropCopy g
      | [] => d.spill pool (d.byAge (d.movablePages (pool + 1)) pick)

/-- SPILLWAY_EVICT. -/
def execSpillwayEvict (pool pick : Nat) (s : State) : Host.Outcome State Fault Refusal := s.act (spillwayEff pool pick)

/-- A move ends without its switch: the source stays (R115, R184). -/
def Device.moveFailed (d : Device) (m : Move) : Device :=
  let d := ({ d with fur.moves := d.fur.moves.erase m } : Device).setPte m.page { d.pte m.page with moving := false }
  (d.freePlace m.tier m.frame).event F.FUR_EVENTS.MOVE_FAILED

/-- A move that the home has refused for want of frames goes to local flash (R183). -/
def Device.moveRefused (d : Device) (m : Move) : Device :=
  let d := { d with fur.moves := d.fur.moves.erase m }
  match d.moveToFlash m.desc m.page (frameAddr (d.pte m.page).frame) with
  | some d => d
  | none => (d.setPte m.page { d.pte m.page with moving := false }).event F.FUR_EVENTS.FLASH_FULL

/-- MOVE_DONE (R183, R184): a move whose descriptor has ended waits for its switch at the next boundary, or fails. Of a move to the home,
`refused` says whether its failure was for want of frames. -/
def moveDoneEff (g : Nat) (refused : Bool) (d : Device) : Device :=
  match d.fur.moves.find? fun m => m.page == g && !m.done with
  | none => d
  | some m =>
    match m.ctx, m.ended with
    | none, some 0 => { d with fur.moves := d.fur.moves.map fun (x : Move) => if x = m then { m with done := true } else x }
    | none, some _ => if m.tier = 3 ∧ refused = true then d.moveRefused m else d.moveFailed m
    | _, _ => d

/-- MOVE_DONE. -/
def execMoveDone (page : Nat) (refused : Bool) (s : State) : Host.Outcome State Fault Refusal := s.act (moveDoneEff page refused)

/-- At a turn boundary the completed moves switch; a source that is still being read is freed after it (R184). A page that leaves the tiers
of R99 stays as it is: it is coded no more (log entry 182). -/
def Device.switchMoves (d : Device) : Device :=
  d.fur.moves.foldl (fun (d : Device) (m : Move) =>
    if !m.done then d
    else
      let e := d.pte m.page
      let d := d.setPte m.page { e with tier := m.tier, frame := m.frame, node := m.node, moving := false }
      let coding := d.fur.coding.filter fun (c : Coding) => c.page != m.page || m.tier == 2
      ({ d with fur.moves := d.fur.moves.erase m, fur.coding := coding, fur.toFree := d.fur.toFree ++ [(m.page, e.tier, e.frame)] } : Device).freeSources) d

/-- What the furrow unit does at each turn boundary before its commands and the admission (R99, R184). -/
def Device.furrowBoundary (d : Device) : Device := d.switchCoded.switchMoves

/-- At the end of a turn its statistics are written, and its selections, pins and rankings end (Table 7.19, R179, R190). -/
def Device.furrowTurnEnd (d : Device) : Device :=
  let d := (((d.setFld F.FUR_TURN_STATS.DEGRADED d.fur.nDegraded).setFld F.FUR_TURN_STATS.SKIPPED d.fur.nSkipped).setFld
    F.FUR_TURN_STATS.FALLBACK d.fur.nFallback).setFld F.FUR_TURN_STATS.MISSING d.fur.missing.length
  { d with fur.nDegraded := 0, fur.nSkipped := 0, fur.nFallback := 0, fur.missing := [], fur.attend := [], fur.pins := [],
           fur.listFill := 0, fur.rankings := [] }

end Sys2Proof.Machine
end

