-- ==== Sys2Proof/Machine/Sluice.lean ====
section
/-! DEFINITION. Sys2Proof/Machine/Sluice.lean: the sluice engines as senders (spec/11): descriptor fetch and checks, the
opcodes of Table 11.3, answers, timeouts and retransmissions. -/

namespace Sys2Proof.Machine

/-! ### Descriptor checks (R250) -/

/-- The opcode moves LENGTH bytes. -/
def movesBytes (op : Nat) : Bool := op == 1 || op == 2 || op == 3 || op == 6 || op == 7

/-- SUBOP holds a value that the opcode gives a meaning. -/
def subopOk (op subop : Nat) : Bool :=
  if op = 4 then decide (1 ≤ subop) && decide (subop ≤ 3)
  else if op = 6 ∨ op = 7 then decide (subop < 8)
  else if op = 0x0A then decide (subop < 4)
  else subop == 0

/-- A descriptor of a host queue that ends INVALID without effect (R250). -/
def Device.descInvalid (d : Device) (x : Desc) : Bool :=
  let op := x.opcode
  x.rsvd || op == 0 || op == 0x0E || decide (op > 0x0F) || x.coding == 3 || x.tables == 3 || !subopOk op x.subop ||
  (x.compare != 0 && !(op == 4 && x.subop == 3)) ||
  !(x.cls == 2 || x.cls == 3 || x.cls == 5) || (x.shared && op != 0x0A) ||
  (movesBytes op && (x.length == 0 || decide (x.length > 0x10000000))) || (op == 4 && x.length != 8) ||
  ((op == 6 || op == 7) && x.length % 4096 != 0) ||
  (op == 4 && x.remote % 8 != 0) || (op == 9 && x.loc % 8 != 0) ||
  ((op == 2 || op == 3 || op == 4) && x.node == d.node && (d.region x.region).state != 1)

/-! ### Fetching (R356, R357) -/

/-- Room in a queue's completion ring for a descriptor's two records (R357). -/
def Device.cplRoom (d : Device) (q : Nat) : Bool :=
  let h := d.hq q
  decide ((h.written + 2 ^ 32 - h.consumed % 2 ^ 32) % 2 ^ 32 + h.reserved + 2 ≤ 2 * 2 ^ d.fld F.HQ_Q_CTRL.LOG2_SIZE q)

/-- A SLUICE queue may fetch its next entry now. -/
def Device.mayFetch (d : Device) (q : Nat) : Bool :=
  let e := d.fld F.HQ_Q_CTRL.ENGINE q
  d.on F.HQ_Q_CTRL.ENABLE q && d.fld F.HQ_Q_CTRL.KIND q == 2 && d.fld F.HQ_Q_STATUS.HEAD q != (d.hq q).tail &&
    d.fld F.CFG_STATUS.STATE != 2 && d.cplRoom q && (d.freeCtx e).isSome && d.fld F.SLU_ENG_STATUS.STATE e == 0

/-- SLUICE_FETCH (R248, R251, R356, R357): the descriptor of 64 bytes takes its place in its queue's program and passes to the queue's
engine; one that R250 or R251 refuses ends INVALID. -/
def sluiceFetchEff (q : Nat) (bytes : List Byte) (d : Device) : Device :=
  if !d.mayFetch q then d
  else
    let desc := Desc.ofBytes bytes
    let index := d.fld F.HQ_Q_STATUS.HEAD q
    let prog := sget 0 d.slu.progs q
    let pos := sget 0 d.slu.progLen q
    let e := d.fld F.HQ_Q_CTRL.ENGINE q
    let fn : Fn := ⟨(d.ringFn .HQ_Q_BASE q).port, desc.func⟩
    let d := d.hqTake q
    let d := d.setHq q { d.hq q with reserved := (d.hq q).reserved + 2 }
    let d := { d with
      slu.progs := if desc.chain then d.slu.progs else sput 0 d.slu.progs q (prog + 1)
      slu.progLen := sput 0 d.slu.progLen q (if desc.chain then pos + 1 else 0) }
    match d.openCtx e desc (.hostQ q index prog pos) fn with
    | none => d
    | some (c, d) => if d.descInvalid desc || decide (pos ≥ 64) then d.endCtx e c 0x0E 0 else d

/-- SLUICE_FETCH. -/
def execSluiceFetch (q : Nat) (bytes : List Byte) (s : State) : Host.Outcome State Fault Refusal := s.act (sluiceFetchEff (q % 256) bytes)

/-! ### Starting a descriptor -/

/-- The descriptors of a program start in queue order, and one with ORDER waits for those before it; programs are not ordered with one
another (R251). -/
def Device.mayStart (d : Device) (x : SluCtx) : Bool :=
  match x.iss with
  | .hostQ q _ prog pos => d.slu.ctxs.all fun y =>
      match y.iss with
      | .hostQ q' _ prog' pos' =>
        let earlier := q' == q && prog' == prog && decide (pos' < pos)
        !earlier || ((y.started || y.done) && !(x.desc.order && !y.done))
      | _ => true
  | _ => true

/-- STOP_ON_ERROR ends the descriptor before it starts: an earlier one of its program has failed (R251). -/
def Device.stoppedBy (d : Device) (x : SluCtx) : Bool :=
  match x.iss with
  | .hostQ q _ prog pos =>
    let e := sget 0 d.slu.progErr (progKey q prog)
    x.desc.stopOnError && e != 0 && decide (e ≤ pos)
  | _ => false

/-- The ranges of device memory that a descriptor reads or writes as it starts. -/
def descRanges (x : Desc) : List (Nat × Nat) :=
  let loc := fun (n : Nat) => if x.locHost then [] else [(x.loc, n)]
  match x.opcode with
  | 1 => loc x.length ++ (if x.remHost then [] else [(x.remote, x.length)])
  | 2 | 7 => loc x.length
  | 8 | 9 => loc 8
  | 0x0C => loc 32
  | _ => []

/-- A range of the descriptor lies in a channel whose accesses wait (R130). -/
def Device.descWaits (d : Device) (x : Desc) : Bool := (descRanges x).any fun r => d.waits r.1 r.2

/-- Start the descriptor of a context for the command that carries out its opcode; one whose accesses wait in a channel's queue is carried
out after they are served (R130). -/
def Device.startCtx (d : Device) (e c op : Nat) (f : SluCtx → Device → Device) : Device :=
  match d.ctx e c with
  | none => d
  | some x =>
    if x.desc.opcode != op || x.started || x.done || !d.mayStart x then d
    else if d.stoppedBy x then d.endCtx e c 0x12 0
    else if d.descWaits x.desc then (descRanges x.desc).foldl (fun d r => d.noteWait r.1 r.2) d
    else f x (d.modCtx e c fun y => { y with started := true })

/-- The issuer is a PF's host queue (R106, R118). -/
def fromQueue (x : SluCtx) : Bool := match x.iss with
  | .hostQ .. => true
  | _ => false

/-- A local range that a descriptor may not touch ends it REMOTE_ACCESS_VIOLATION with an error record (R102, R106, R118,
R250); a host port that is down ends it HOST_ERROR. None: the access goes on. -/
def Device.localFault (d : Device) (x : SluCtx) (host : Bool) (a n : Nat) (write : Bool) : Option Device :=
  if host then (if d.portUp x.fn.port then none else some (d.hostErr.endCtx x.eng x.id 0x10 0))
  else
    let r : ErrRec := { cause := 6, severity := 1, status := 1, unitKind := 2, unit := x.eng, owner := x.desc.owner, address := a }
    match d.check a n x.desc.owner write (fromQueue x) with
    | .ok => none
    | .reserved => some ((d.record r).endCtx x.eng x.id 1 0)
    | .owner entry =>
      let r := { r with cause := 3, detail := [(2, entry)] }
      let d := match x.iss with
        | .furrow .. => d.uncorrectable r
        | _ => d.record r
      some (d.endCtx x.eng x.id 1 0)

/-- Bytes from a descriptor's source, the host's answer `hd` for host memory; a host read leaves the device. -/
def Device.takeSource (d : Device) (x : SluCtx) (host : Bool) (a n : Nat) (hd : List Byte) : Device × List Byte :=
  (if host then d.emit (.hostRead x.fn a n) else d, (d.sourceBytes host a n hd ++ List.replicate n 0).take n)

/-- The parity checks of an access of a sluice engine (R112, R113, R421): passed, passed at one of up to three replays, or failed at the last
(4 and above): an uncorrectable error, with which the descriptor ends. A memory-mode access to the reservoir ends it as an uncorrectable
target error (0x0C, Table 5.8), another as an uncorrectable error of the sender (0x0D). -/
def Device.sluCheck (d : Device) (x : SluCtx) (parity : Nat) (host : Bool) (a : Nat) (f : Device → Device) : Device :=
  if parity = 0 then f d
  else if parity ≤ 3 then f (d.count F.ERR_COUNTS.REPLAYED)
  else
    let st := if !host && decide (resvBase ≤ a) then 0x0C else 0x0D
    (d.uncorrectable { cause := 1, severity := 2, status := st, replays := 3, unitKind := 2, unit := x.eng, owner := x.desc.owner,
                       address := a }).endCtx x.eng x.id st 0

/-- Place bytes at a descriptor's destination. -/
def Device.putLocal (d : Device) (x : SluCtx) (host : Bool) (a : Nat) (bs : List Byte) : Device :=
  if host then d.hostWrite x.fn a bs else d.writeMem a bs

/-! ### Local operations (Table 11.3) -/

/-- Bytes that COPY reads from host memory: those of a host spill area that the furrow unit reads are encrypted units with their CRC-64s,
which up to three replays may bring again (`again`; R113, R114, R119). None: their last replay has failed. -/
def Device.copySource (d : Device) (x : SluCtx) (hd : List Byte) (again : List (List Byte)) : Device × Option (List Byte) :=
  let n := x.desc.length
  match (if x.desc.remHost && !fromQueue x then d.spillExtent x.fn x.desc.remote else none) with
  | some e => let r := d.spillRead e x.fn x.desc.remote (ceilDiv n 4096) (hd :: again) 0
    (r.1, r.2.map (fit n))
  | none => let r := d.takeSource x x.desc.remHost x.desc.remote n hd
    (r.1, some r.2)

/-- Place what COPY moves: into a host spill area, that the furrow unit writes, as encrypted units with their CRC-64s. -/
def Device.copyPut (d : Device) (x : SluCtx) (bs : List Byte) : Device :=
  match (if x.desc.locHost && !fromQueue x then d.spillExtent x.fn x.desc.loc else none) with
  | some e => d.spillWrite e x.fn x.desc.loc bs
  | none => d.putLocal x x.desc.locHost x.desc.loc bs

/-- COPY (R249): the bytes, or their coded object where CODE_STORE asks for it and the destination is device memory
(Table 4.1); `seen` is what the counting pass read of a source that has changed since (R95). `parity` is that of its source's read, 5 that of its destination's write. -/
def copyEff (hd seen : List Byte) (again : List (List Byte)) (parity : Nat) (x : SluCtx) (d : Device) : Device :=
  let n := x.desc.length
  match d.localFault x x.desc.remHost x.desc.remote n false with
  | some d => d
  | none =>
    match d.localFault x x.desc.locHost x.desc.loc n true with
    | some d => d
    | none =>
      let r := d.copySource x hd again
      match r.2 with
      | none => (r.1.crcFailed x.desc.owner x.desc.remote none).endCtx x.eng x.id 0x0C 0
      | some bs =>
        r.1.sluCheck x (if parity < 5 then parity else 0) x.desc.remHost x.desc.remote fun d =>
        d.sluCheck x (if parity < 5 then 0 else parity) x.desc.locHost x.desc.loc fun d =>
        match (if x.desc.coding = 2 ∧ x.desc.locHost = false then encodePasses x.desc.tables seen bs else none) with
        | some o => (d.putLocal x false x.desc.loc o).endCtx x.eng x.id 0 (o.length + 2 ^ 63)
        | none => (d.copyPut x bs).endCtx x.eng x.id 0 n

/-- COPY. -/
def execSluCopy (e c : Nat) (host seen : List Byte) (again : List (List Byte)) (parity : Nat) (s : State) : Host.Outcome State Fault Refusal :=
  s.act fun d => d.startCtx e c 1 (copyEff host seen again parity)

/-- SIGNAL (R249). -/
def signalEff (parity : Nat) (x : SluCtx) (d : Device) : Device :=
  match d.localFault x x.desc.locHost x.desc.loc 8 true with
  | some d => d
  | none => d.sluCheck x parity x.desc.locHost x.desc.loc fun d =>
    (d.putLocal x x.desc.locHost x.desc.loc (leBytes 8 x.desc.operand)).endCtx x.eng x.id 0 0

/-- SIGNAL. -/
def execSignalWord (e c parity : Nat) (s : State) : Host.Outcome State Fault Refusal := s.act fun d => d.startCtx e c 8 (signalEff parity)

/-- One test of a WAIT_VALUE's word (R249): equal, and the descriptor ends; otherwise the value read is kept. -/
def waitTest (hd : List Byte) (parity : Nat) (x : SluCtx) (d : Device) : Device :=
  match d.localFault x x.desc.locHost x.desc.loc 8 false with
  | some d => d
  | none => d.sluCheck x parity x.desc.locHost x.desc.loc fun d =>
    let (d, bs) := d.takeSource x x.desc.locHost x.desc.loc 8 hd
    let v := leValue bs
    if v = x.desc.operand then d.endCtx x.eng x.id 0 v else d.modCtx x.eng x.id fun y => { y with result := v }

/-- WAIT_VALUE: started, or tested again. -/
def waitValueEff (e c : Nat) (hd : List Byte) (parity : Nat) (d : Device) : Device :=
  match d.ctx e c with
  | some x =>
    if x.desc.opcode = 9 ∧ x.started = true ∧ x.done = false then
      if d.descWaits x.desc then d.noteWait x.desc.loc 8 else waitTest hd parity x d
    else d.startCtx e c 9 (waitTest hd parity)
  | none => d

/-- WAIT_VALUE. -/
def execWaitValue (e c : Nat) (host : List Byte) (parity : Nat) (s : State) : Host.Outcome State Fault Refusal :=
  s.act (waitValueEff e c host parity)

/-- WAIT_VALUE_TIMEOUT (R249, Table 11.11): the descriptor ends TIMEOUT_EXHAUSTED with the value read last. -/
def waitValueTimeoutEff (e c : Nat) (d : Device) : Device :=
  match d.ctx e c with
  | some x => if x.desc.opcode = 9 ∧ x.started = true ∧ x.done = false then d.endCtx e c 2 x.result else d
  | none => d

/-- WAIT_VALUE_TIMEOUT. -/
def execWaitValueTimeout (e c : Nat) (s : State) : Host.Outcome State Fault Refusal := s.act (waitValueTimeoutEff e c)

/-- ALLOC (R276): the frame is taken near the engine's die (log entry 26). -/
def allocEff (x : SluCtx) (d : Device) : Device :=
  let die := x.eng / 16
  let near := match x.desc.subop with
    | 0 => die * 32
    | 2 => die * 160
    | _ => die
  match d.allocFrame x.desc.subop near x.desc.owner x.desc.shared with
  | some (a, d) => d.endCtx x.eng x.id 0 a
  | none => d.endCtx x.eng x.id 0x0F 0

/-- ALLOC. -/
def execAllocFrame (e c : Nat) (s : State) : Host.Outcome State Fault Refusal := s.act fun d => d.startCtx e c 0x0A allocEff

/-- FREE (R276): a headwater frame has no owner entry; a reservoir frame's must name the descriptor's owner. -/
def freeEff (x : SluCtx) (d : Device) : Device :=
  let a := x.desc.loc
  if a < resvBase then (if inHeadwater a 1 then (d.freeHw a).endCtx x.eng x.id 0 0
                        else match d.localFault x false a 1 true with
                          | some d => d
                          | none => d)
  else
    let f := frameOf a
    let e := d.ownerEntry f
    match d.place a with
    | .reserved => (match d.localFault x false a 1 true with
        | some d => d
        | none => d)
    | p =>
      if entryValid e && entrySlot e == x.desc.owner then
        (match p with
         | .scoreRegion _ => d.freeScore f
         | _ => d.freeRes a).endCtx x.eng x.id 0 0
      else
        (d.record { cause := 3, severity := 1, status := 1, unitKind := 2, unit := x.eng, owner := x.desc.owner, address := a,
                    detail := [(2, e)] }).endCtx x.eng x.id 1 0

/-- FREE. -/
def execFreeFrame (e c : Nat) (s : State) : Host.Outcome State Fault Refusal := s.act fun d => d.startCtx e c 0x0B freeEff

/-- NOP. -/
def execSluNop (e c : Nat) (s : State) : Host.Outcome State Fault Refusal :=
  s.act fun d => d.startCtx e c 0x0F fun x d => d.endCtx x.eng x.id 0 0

/-! ### Regions (R255 to R260) -/

/-- The region image of REGISTER (R257): the fields it takes of the layout of Table 11.5. -/
def Region.ofImage (bs : List Byte) (port : Nat) : Region :=
  let v := leValue (bs.take 32)
  { base := bitsOf v 208 48, length := bitsOf v 160 48, scopeNode := bitsOf v 80 16, owner := bitsOf v 52 12,
    fn := bitsOf v 47 5, host := v.testBit 46, scope := bitsOf v 44 2, odp := v.testBit 43, perm := bitsOf v 40 3,
    odpTable := bitsOf v 0 32, port := port }

/-- A range lies in headwater addresses, so within one slice short of its last 4 KiB (R101), or in the present reservoir (R257). -/
def Device.rangePresent (d : Device) (a n : Nat) : Bool :=
  inHeadwater a n ||
  (decide (resvBase ≤ a) && decide (a + n ≤ resvBase + 320 * channelBytes) &&
    (List.range 320).all fun k => d.part.channel k || decide (a + n ≤ resvBase + k * channelBytes) ||
      decide (resvBase + (k + 1) * channelBytes ≤ a))

/-- The image is one that REGISTER refuses (R257). A host region's range is host memory and is not held to the device's
addresses; SCOPE 3 is reserved (R250). -/
def Device.regionInvalid (d : Device) (g : Region) : Bool :=
  g.length == 0 || g.scope == 3 ||
  (!g.host && !d.rangePresent g.base g.length) ||
  (g.host && (g.odp || g.perm.testBit 2)) ||
  (g.odp && (g.base % 65536 != 0 || g.length % 65536 != 0 || !inHeadwater (g.odpTable * 64) (4 * (g.length / 65536)))) ||
  d.ownerKey g.owner == []

/-- The access key of a region (R256). -/
def Region.accessKey (g : Region) : Nat := g.gen * 2 ^ 48 + g.secret

/-- REGISTER (R255, R257): a FREE region becomes VALID under a SECRET of the security unit's generator. -/
def registerEff (hd : List Byte) (parity : Nat) (x : SluCtx) (d : Device) : Device :=
  match d.localFault x x.desc.locHost x.desc.loc 32 false with
  | some d => d
  | none => d.sluCheck x parity x.desc.locHost x.desc.loc fun d =>
    let (d, bs) := d.takeSource x x.desc.locHost x.desc.loc 32 hd
    let old := d.region x.desc.region
    let g := Region.ofImage bs x.fn.port
    if x.desc.region = 0xFFFF then d.endCtx x.eng x.id 0x0E 0
    else if old.state ≠ 0 then d.endCtx x.eng x.id 0x13 0
    else if d.regionInvalid g then d.endCtx x.eng x.id 0x0E 0
    else
      let g := { g with gen := old.gen, secret := d.rand 48, state := 1 }
      (d.rolled.setRegion x.desc.region g).endCtx x.eng x.id 0 g.accessKey

/-- REGISTER. -/
def execRegisterRegion (e c : Nat) (host : List Byte) (parity : Nat) (s : State) : Host.Outcome State Fault Refusal :=
  s.act fun d => d.startCtx e c 0x0C (registerEff host parity)

/-- REVOKE (R255, R260): a VALID region becomes REVOKING; the descriptor waits for REVOKE_COMPLETE. -/
def revokeEff (x : SluCtx) (d : Device) : Device :=
  let g := d.region x.desc.region
  if g.state = 1 then d.setRegion x.desc.region { g with state := 2 } else d.endCtx x.eng x.id 0x13 0

/-- REVOKE. -/
def execRevokeRegion (e c : Nat) (s : State) : Host.Outcome State Fault Refusal := s.act fun d => d.startCtx e c 0x0D revokeEff

/-- REVOKE_COMPLETE (R255, R260, R261): IN_FLIGHT of a REVOKING region has reached 0. -/
def revokeCompleteEff (r : Nat) (d : Device) : Device :=
  let g := d.region r
  if g.state = 2 ∧ g.inFlight = 0 then
    let gen := (g.gen + 1) % 65536
    let d := d.setRegion r { g with state := 0, gen := gen }
    let d := (d.regionEvent { src := d.node, msgId := 0, hdr := { op := 0, region := r } } 0 4 0 g.gen).event F.SLU_EVENTS.REVOKE_DONE
    (d.slu.ctxs.filter fun x => x.desc.opcode == 0x0D && x.started && !x.done && x.desc.region == r).foldl
      (fun (d : Device) x => d.endCtx x.eng x.id 0 gen) d
  else d

/-- REVOKE_COMPLETE. -/
def execRevokeComplete (region : Nat) (s : State) : Host.Outcome State Fault Refusal := s.act (revokeCompleteEff region)

/-! ### Messages out (R262 to R264, R273, R274) -/

/-- The message size M (R262). -/
def Device.msgBytes (d : Device) : Nat := 1024 * d.fld F.SLU_RETRY.MSG_KIB

/-- The payload of a class that may be coded when the descriptor asks (Table 4.1). -/
def wireCode (x : Desc) : Nat := if x.coding = 1 ∧ (x.cls = 2 ∨ x.cls = 5) then 1 + x.tables else 0

/-- Register the messages of a transfer as pending. -/
def Device.expect (d : Device) (x : SluCtx) (n length : Nat) : Device :=
  d.modCtx x.eng x.id fun y => { y with pending := n, result := length, placed := length }

/-- What a put's messages carry of its counter (R274; log entry 27): OPERAND the counter's region offset plus 1, COMPARE the
first message's ID and the number of messages less one. -/
def putFields (x : Desc) (firstId n : Nat) : Nat × Nat := if x.compare = 0 then (0, 0) else (x.compare, firstId + (n - 1) * 2 ^ 48)

/-- The KEY of a descriptor's messages: 0 to the furrow window (Table 11.9). -/
def windowKey (x : Desc) : Nat := if x.region = 0xFFFF then 0 else x.key

/-- WRITE (R262, R264, R274); to the device itself it completes as its messages are posted (log entry 163). -/
def writeEff (hd seen : List Byte) (parity : Nat) (x : SluCtx) (d : Device) : Device :=
  let y := x.desc
  match d.localFault x y.locHost y.loc y.length false with
  | some d => d
  | none =>
    if d.rt.dead.contains y.node then d.endCtx x.eng x.id 4 0
    else d.sluCheck x parity y.locHost y.loc fun d =>
      let m := d.msgBytes
      let n := ceilDiv y.length m
      let (d, bs) := d.takeSource x y.locHost y.loc y.length hd
      let (opd, cmp) := putFields y d.fab.msgId n
      let d := d.expect x n y.length
      let d := (List.range n).foldl (fun (d : Device) i =>
        let part := (bs.drop (i * m)).take m
        let off := if y.region = 0xFFFF then y.remote else y.remote + i * m
        d.post { msgId := 0, eng := x.eng, ctx := x.id, node := y.node, cls := y.cls,
                 hdr := { key := windowKey y, offset := off, region := y.region, op := 1, owner := y.owner, operand := opd, compare := cmp },
                 src := y.loc + i * m, srcHost := y.locHost, len := part.length, code := wireCode y } part ((seen.drop (i * m)).take m)) d
      if y.node = d.node ∧ y.atPlacement = false then d.endCtx x.eng x.id 0 y.length else d

/-- WRITE. -/
def execSluWrite (e c : Nat) (host seen : List Byte) (parity : Nat) (s : State) : Host.Outcome State Fault Refusal :=
  s.act fun d => d.startCtx e c 2 (writeEff host seen parity)

/-- READ (R262). The messages of one transfer to the furrow window keep the window OFFSET, which names a page; COMPARE then says how far
into the page's bytes the message begins (log entry 178). -/
def readEff (x : SluCtx) (d : Device) : Device :=
  let y := x.desc
  match d.localFault x y.locHost y.loc y.length true with
  | some d => d
  | none =>
    if d.rt.dead.contains y.node then d.endCtx x.eng x.id 4 0
    else
      let m := d.msgBytes
      let n := ceilDiv y.length m
      let d := d.modCtx x.eng x.id fun z => { z with pending := n }
      (List.range n).foldl (fun (d : Device) i =>
        let len := min m (y.length - i * m)
        d.post { msgId := 0, eng := x.eng, ctx := x.id, node := y.node, cls := y.cls,
                 hdr := { key := windowKey y, offset := if y.region = 0xFFFF then y.remote else y.remote + i * m, region := y.region, op := 2,
                          codedWire := wireCode y != 0, tables := y.tables, owner := y.owner, operand := len,
                          compare := if y.region = 0xFFFF then i * m else 0 },
                 dst := y.loc + i * m, len := len } []) d

/-- READ. -/
def execSluRead (e c : Nat) (s : State) : Host.Outcome State Fault Refusal := s.act fun d => d.startCtx e c 3 readEff

/-- ATOMIC (R273). -/
def atomicEff (x : SluCtx) (d : Device) : Device :=
  let y := x.desc
  if d.rt.dead.contains y.node then d.endCtx x.eng x.id 4 0
  else
    (d.modCtx x.eng x.id fun z => { z with pending := 1 }).post
      { msgId := 0, eng := x.eng, ctx := x.id, node := y.node, cls := y.cls, len := 8,
        hdr := { key := windowKey y, offset := y.remote, region := y.region, op := 4, owner := y.owner, subop := y.subop,
                 operand := y.operand, compare := y.compare } } []

/-- ATOMIC. -/
def execSluAtomic (e c : Nat) (s : State) : Host.Outcome State Fault Refusal := s.act fun d => d.startCtx e c 4 atomicEff

/-- SLUICE_SEND (R249): the message of an internal SEND. -/
def sendEff (x : SluCtx) (d : Device) : Device :=
  let y := x.desc
  if d.rt.dead.contains y.node then d.endCtx x.eng x.id 4 0
  else
    (d.modCtx x.eng x.id fun z => { z with pending := 1 }).post
      { msgId := 0, eng := x.eng, ctx := x.id, node := y.node, cls := y.cls, len := x.payload.length,
        hdr := { op := 9, owner := y.owner }, data := x.payload } x.payload

/-- SLUICE_SEND. -/
def execSluiceSend (e c : Nat) (s : State) : Host.Outcome State Fault Refusal := s.act fun d => d.startCtx e c 0x0E sendEff

/-- The messages to a node that no answer has ended. -/
def Device.unanswered (d : Device) (node : Nat) : List Nat := (d.slu.msgs.filter fun o => o.node == node).map (·.msgId)

/-- FLUSH (R265). -/
def flushEff (x : SluCtx) (d : Device) : Device :=
  if d.rt.dead.contains x.desc.node then d.endCtx x.eng x.id 4 0
  else
    match d.unanswered x.desc.node with
    | [] => d.endCtx x.eng x.id 0 0
    | ids => d.modCtx x.eng x.id fun y => { y with watch := ids }

/-- FLUSH. -/
def execSluFlush (e c : Nat) (s : State) : Host.Outcome State Fault Refusal := s.act fun d => d.startCtx e c 5 flushEff

/-- SLU_FLUSH_START (R265): ignored while a flush is active. -/
def sluFlushStartEff (node : Nat) (d : Device) : Device :=
  if d.on F.SLU_FLUSH_STATUS.ACTIVE then d
  else
    let d := d.setFld F.SLU_FLUSH_STATUS.NODE node
    if d.rt.dead.contains node then d.setFld F.SLU_FLUSH_STATUS.STATUS 4
    else
      match d.unanswered node with
      | [] => d.setFld F.SLU_FLUSH_STATUS.STATUS 0
      | ids => { d.setFld F.SLU_FLUSH_STATUS.ACTIVE 1 with slu.flushWatch := ids, slu.flushStatus := 0 }

/-- SLU_FLUSH_START. -/
def execSluFlushStart (port node : Nat) (s : State) : Host.Outcome State Fault Refusal :=
  s.act fun d => d.asHolder port (sluFlushStartEff (node % 65536))

/-! ### Flash (R275, R364) -/

/-- A flash descriptor is refused: a frame of the flash tier fails R118, or the root port is not READY (log entry 28). -/
def Device.flashFault (d : Device) (x : SluCtx) (write : Bool) : Option Device :=
  let y := x.desc
  let nsid := y.key % 2 ^ 32
  match (d.flashFrames y.subop nsid y.remote (ceilDiv y.length 4096)).find? fun f =>
      !entryAllows (sget 0 d.mem5.flashOwners f) y.owner write (fromQueue x) with
  | some f =>
    let r : ErrRec := { cause := 3, severity := 1, status := 1, unitKind := 2, unit := x.eng, owner := y.owner, address := y.remote,
                        detail := [(2, sget 0 d.mem5.flashOwners f)] }
    some ((match x.iss with
      | .furrow .. => d.uncorrectable r
      | _ => d.record r).endCtx x.eng x.id 1 0)
  | none => if d.part.root y.subop && d.rootState y.subop == 3 then none else some (d.endCtx x.eng x.id 0x11 0)

/-- Issue the commands of a flash transfer, at most 32 LBAs each (R364): a Write's units encrypted, with their CRC-64s (R114, R119). -/
def Device.flashCommands (d : Device) (x : SluCtx) (kind : NvmeKind) (bs : List Byte) (length : Nat) : Device :=
  let y := x.desc
  let nsid := y.key % 2 ^ 32
  let lbas := ceilDiv length 4096
  let n := ceilDiv lbas 32
  let d := d.modCtx x.eng x.id fun z => { z with pending := n, result := length }
  (List.range n).foldl (fun (d : Device) i =>
    let count := min 32 (lbas - 32 * i)
    let c : NvmeCmd := { port := y.subop, id := 0, kind := kind, eng := x.eng, ctx := x.id, owner := y.owner, lba := y.remote + 32 * i,
                         count := count, offset := i * 131072 }
    if kind = .write then d.submitWrite c nsid (d.sealFlash y.subop nsid c.lba y.owner ((bs.drop (i * 131072)).take (count * 4096)))
    else d.submit c 2 nsid) d

/-- FLASH_READ (R275). -/
def flashReadEff (x : SluCtx) (d : Device) : Device :=
  match d.localFault x x.desc.locHost x.desc.loc x.desc.length true with
  | some d => d
  | none =>
    match d.flashFault x false with
    | some d => d
    | none => d.flashCommands x .read [] x.desc.length

/-- FLASH_READ. -/
def execFlashRead (e c at_ : Nat) (s : State) : Host.Outcome State Fault Refusal :=
  s.act fun d => (d.at_ at_).startCtx e c 6 flashReadEff

/-- FLASH_WRITE (R275): coded first where CODE_STORE asks and coding gains; the last unit is filled with zeros. -/
def flashWriteEff (hd seen : List Byte) (parity : Nat) (x : SluCtx) (d : Device) : Device :=
  match d.localFault x x.desc.locHost x.desc.loc x.desc.length false with
  | some d => d
  | none =>
    match d.flashFault x true with
    | some d => d
    | none => d.sluCheck x parity x.desc.locHost x.desc.loc fun d =>
      let (d, bs) := d.takeSource x x.desc.locHost x.desc.loc x.desc.length hd
      let bs := (if x.desc.coding = 2 then encodePasses x.desc.tables seen bs else none).getD bs
      let n := ceilDiv bs.length 4096 * 4096
      d.flashCommands x .write (bs ++ List.replicate (n - bs.length) 0) n

/-- FLASH_WRITE. -/
def execFlashWrite (e c at_ : Nat) (host seen : List Byte) (parity : Nat) (s : State) : Host.Outcome State Fault Refusal :=
  s.act fun d => (d.at_ at_).startCtx e c 7 (flashWriteEff host seen parity)

/-! ### Answers (R263 to R270) -/

/-- The message that an answer names, if the answer comes from the node it went to. -/
def Device.answered (d : Device) (m : Msg) : Option OutMsg := (d.outMsg m.hdr.reqId).filter fun o => o.node == m.src

/-- Take a message off the list of those that have arrived. -/
def Device.take (d : Device) (m : Msg) : Device := { d with slu.inbox := d.slu.inbox.erase m }

/-- ACK. -/
def ackEff (m : Msg) (d : Device) : Device :=
  let d := d.take m
  match d.answered m with
  | some o => if o.hdr.op = 1 ∨ o.hdr.op = 9 then d.settle o 0 else d
  | none => d

/-- ACK. -/
def execAckMsg (m : Msg) (s : State) : Host.Outcome State Fault Refusal := s.act (ackEff m)

/-- NACK: the message fails with the status it carries. -/
def nackEff (m : Msg) (d : Device) : Device :=
  let d := d.take m
  match d.answered m with
  | some o => d.settle o (max 1 m.hdr.subop)
  | none => d

/-- NACK. -/
def execNackMsg (m : Msg) (s : State) : Host.Outcome State Fault Refusal := s.act (nackEff m)

/-- The place of a read's response lies in a channel whose accesses wait (R130). -/
def Device.respWaits (d : Device) (m : Msg) : Option (Nat × Nat) :=
  (d.answered m).bind fun o => (d.ctx o.eng o.ctx).bind fun x =>
    if o.hdr.op = 2 ∧ x.desc.locHost = false ∧ x.abandoned = false ∧ d.waits o.dst o.len = true then some (o.dst, o.len) else none

/-- Take the bytes of a read's response (R264, R91): expanded where they are coded, then placed at LOCAL; a check of the write that fails its
last replay fails the message as a sender's own access fails (R113). A furrow read's response carries the page's stored form and no more
(log entry 83). -/
def readRespEff (m : Msg) (parity : Nat) (d : Device) : Device :=
  match d.respWaits m with
  | some (a, n) => d.noteWait a n
  | none =>
  let d := d.take m
  match d.answered m with
  | none => d
  | some o =>
    if o.hdr.op ≠ 2 then d
    else
      match d.ctx o.eng o.ctx with
      | none => d.settle o 0
      | some x =>
        let d := if 1 ≤ parity ∧ parity ≤ 3 then d.count F.ERR_COUNTS.REPLAYED else d
        let st := if !x.desc.locHost && decide (resvBase ≤ o.dst) then 0x0C else 0x0D
        if parity > 3 then
          (d.uncorrectable { cause := 1, severity := 2, status := st, replays := 3, unitKind := 2, unit := o.eng, owner := o.hdr.owner,
                             address := o.dst }).settle o st
        else
        let d := d.gotOwn m
        let n := if o.hdr.region = 0xFFFF then min o.len m.data.length else o.len
        match (if m.hdr.codedWire then expandAll m.data o.len else .ok (fit n m.data)) with
        | .error e =>
          (d.uncorrectable { cause := 2, severity := 2, status := 0x0C, replays := 3, unitKind := 2, unit := o.eng, owner := o.hdr.owner,
                             node := m.src, detail := [(1, e.row)] }).settle o 0x0C
        | .ok bs =>
          let d := if x.abandoned then d else d.putLocal x x.desc.locHost o.dst (fit n bs)
          (d.modCtx o.eng o.ctx fun y => { y with placed := y.placed + n, result := y.result + n }).settle o 0

/-- READ_RESP. -/
def execReadResp (m : Msg) (parity : Nat) (s : State) : Host.Outcome State Fault Refusal := s.act (readRespEff m parity)

/-- ATOMIC_RESP: the old value is RESULT. -/
def atomicRespEff (m : Msg) (d : Device) : Device :=
  let d := d.take m
  match d.answered m with
  | some o =>
    if o.hdr.op = 4 then (d.modCtx o.eng o.ctx fun y => { y with result := m.hdr.operand }).settle o 0 else d
  | none => d

/-- ATOMIC_RESP. -/
def execAtomicResp (m : Msg) (s : State) : Host.Outcome State Fault Refusal := s.act (atomicRespEff m)

/-- Change a message that awaits its answer. -/
def Device.modMsg (d : Device) (id : Nat) (f : OutMsg → OutMsg) : Device :=
  { d with slu.msgs := d.slu.msgs.map fun (x : OutMsg) => if x.msgId = id then f x else x }

/-- FAULT (R270): the FAULT_LIMIT-th fails the message with PAGE_FAULT_RETRY, else it is resent after the delay. -/
def faultEff (m : Msg) (d : Device) : Device :=
  let d := d.take m
  match d.answered m with
  | none => d
  | some o =>
    let d := d.count F.SLU_ENG_RETRY.FAULTS 1 o.eng
    if o.faults + 1 ≥ d.fld F.SLU_ODP.FAULT_LIMIT then d.settle o 5
    else d.modMsg o.msgId fun x => { x with faults := x.faults + 1, faultWait := true, waiting := m.hdr.operand }

/-- FAULT. -/
def execOdpFault (m : Msg) (s : State) : Host.Outcome State Fault Refusal := s.act (faultEff m)

/-- FAULT_DELAY_EXPIRY (R270, R314): the message goes again as a new message with a new ID; flushes that wait for it follow. -/
def faultDelayEff (id : Nat) (hd seen : List Byte) (d : Device) : Device :=
  match d.outMsg id with
  | none => d
  | some o =>
    if !o.faultWait then d
    else
      let (new, d) := d.newMsgId
      let swap := fun (ws : List Nat) => ws.map fun i => if i = id then new else i
      let d := d.modMsg id fun x => { x with msgId := new, attempt := 0, retries := 0, stale := false, faultWait := false }
      let d := { d with slu.ctxs := d.slu.ctxs.map fun (x : SluCtx) => { x with watch := swap x.watch },
                        slu.flushWatch := swap d.slu.flushWatch }
      match d.outMsg new with
      | some o =>
        let data := if o.hdr.op = 1 ∧ o.data = [] then d.sourceBytes o.srcHost o.src o.len hd else o.data
        let (h, bs) := o.wire seen data
        (d.sentBytes o.eng bs.length).sendData o.node o.cls new 0 true 1 h bs
      | none => d

/-- FAULT_DELAY_EXPIRY. -/
def execFaultDelayExpiry (msgId : Nat) (host seen : List Byte) (s : State) : Host.Outcome State Fault Refusal :=
  s.act (faultDelayEff msgId host seen)

/-- RETRANSMIT_TIMEOUT (R266): the message goes again whole, or fails TIMEOUT_EXHAUSTED after LIMIT retransmissions. -/
def retransmitEff (id : Nat) (hd seen : List Byte) (d : Device) : Device :=
  match d.outMsg id with
  | none => d
  | some o =>
    if o.faultWait then d
    else if o.retries < d.fld F.SLU_RETRY.LIMIT then
      let d := (d.count F.SLU_ENG_RETRY.RETRIES 1 o.eng).modCtx o.eng o.ctx fun x => { x with retries := x.retries + 1 }
      let o := { o with retries := o.retries + 1 }
      (d.modMsg id fun _ => o).resend o hd seen
    else
      ((d.count F.SLU_ENG_RETRY.EXHAUSTED 1 o.eng).event F.SLU_EVENTS.TIMEOUT_EXHAUSTED).settle o 2

/-- RETRANSMIT_TIMEOUT. -/
def execRetransmitTimeout (msgId : Nat) (host seen : List Byte) (s : State) : Host.Outcome State Fault Refusal :=
  s.act (retransmitEff msgId host seen)

/-! ### Engine resets (R278, R279) -/

/-- A message from another device, or from this one, is handled on an engine (R263). -/
def onEngine (e : Nat) (m : Msg) : Bool := (m.src + m.msgId) % 32 == e

/-- A message is a request or a SEND: one that a target handles. -/
def isRequest (m : Msg) : Bool := m.hdr.op == 1 || m.hdr.op == 2 || m.hdr.op == 4 || m.hdr.op == 9

/-- Messages that an engine was handling are not answered; the counts they hold are released (R279). -/
def Device.dropServed (d : Device) (gone : Msg → Bool) : Device :=
  let counted := fun (ms : List Msg) (d : Device) => ms.foldl (fun (d : Device) m => d.regionDone m.hdr.region) d
  let inbox := d.slu.inbox.filter fun m => gone m && isRequest m
  let d := counted (inbox.filter (·.checked)) { d with slu.inbox := d.slu.inbox.filter fun m => !(gone m && isRequest m) }
  let d := counted (d.slu.held.filter gone) { d with slu.held := d.slu.held.filter fun m => !gone m }
  let out := d.slu.serving.filter fun x => gone x.m
  let d := counted (out.map (·.m)) { d with slu.serving := d.slu.serving.filter fun x => !gone x.m }
  let d := { d with rt.wait := d.rt.wait.filter fun t => !(t.pkt.src == d.node && out.any fun x => x.resp == t.pkt.msgId) }
  { d with slu.jobs := d.slu.jobs.filter fun j => match j.use with
      | .serve m _ => !gone m
      | _ => true }

/-- What an engine reset does to its contexts and to what it was receiving: each descriptor that has not ended ends ABORTED, and a write that
had completed OK with a message unanswered draws its late-error record (R252, R278, R279). Flash commands outstanding at a drive serve nothing
any more. -/
def Device.clearEngine (d : Device) (e : Nat) : Device :=
  let mine := d.slu.ctxs.filter fun x => x.eng == e
  let waiting := d.slu.waiting
  let d := mine.foldl (fun (d : Device) x => d.endCtx e x.id 0x12 x.placed) { d with slu.waiting := [] }
  let d := (d.slu.msgs.filter fun o => o.eng == e).foldl (fun (d : Device) o => d.settle o 0x12) d
  let d := mine.foldl (fun (d : Device) x => d.closeCtx e x.id) d
  let d := { d with host.nvme := d.host.nvme.map fun (c : NvmeCmd) =>
      if c.eng = e ∧ (c.kind = NvmeKind.read ∨ c.kind = NvmeKind.write) then { c with eng := 32 } else c }
  let rx := d.fab.ctxs.filter fun r => r.engine == e
  let d := { d with fab.ctxs := d.fab.ctxs.filter fun r => r.engine != e }
  let d := rx.foldl (fun (d : Device) r => if r.admitted && r.hdr.op != 9 then d.regionDone r.hdr.region else d) d
  let d := (d.dropServed (onEngine e)).setFld F.SLU_ENG_STATUS.TARGET_MSGS 0 e
  waiting.foldl (fun (d : Device) w => d.issue w.eng w.desc w.iss w.fn w.payload) d

end Sys2Proof.Machine
end

