-- ==== Sys2Proof/Machine/SluTarget.lean ====
section
/-! DEFINITION. Sys2Proof/Machine/SluTarget.lean: the sluice engines as targets (spec/11, R318): arriving packets and
messages, the check of R258, placement, on-demand paging, and the memory of finished messages. -/

namespace Sys2Proof.Machine

/-! ### The check at the target (R258, Table 11.7) -/

/-- The length of a message as its check takes it: what a read asks for, or the message's bytes. -/
def msgLength (h : OpHdr) (total : Nat) : Nat := if h.op = 2 then h.operand else if h.op = 4 then 8 else total

/-- The PERM bit that an operation needs. -/
def permBit (op : Nat) : Nat := if op = 2 then 0 else if op = 4 then 2 else 1

/-- The address of an ODP page's table entry (R270). -/
def Region.odpEntry (g : Region) (off : Nat) : Nat := g.odpTable * 64 + 4 * (off / 65536)

/-- The address of a region offset: of an ODP region, within the resident page's frame. -/
def Device.regionAddr (d : Device) (g : Region) (off : Nat) : Nat :=
  if g.odp then frameAddr (d.load (g.odpEntry off) 4 % 2 ^ 30) + off % 65536 else g.base + off

/-- The runs (offset, length) of a range that stay within one 64 KiB page. -/
def pageRuns : Nat → Nat → Nat → List (Nat × Nat)
  | 0, _, _ => []
  | fuel + 1, off, n =>
    if n = 0 then []
    else
      let k := min n (65536 - off % 65536)
      (off, k) :: pageRuns fuel (off + k) (n - k)

/-- The runs of a region's range as it lies in memory. -/
def runsOf (g : Region) (off n : Nat) : List (Nat × Nat) := if g.odp then pageRuns (n / 65536 + 2) off n else [(off, n)]

/-- A page of an ODP region is RESIDENT. -/
def Device.resident (d : Device) (g : Region) (off : Nat) : Bool := d.load (g.odpEntry off) 4 / 2 ^ 30 == 1

/-- The flash frame that an entry of a region page table names admits an owner (R118, R270). -/
def Device.flashPageOk (d : Device) (entry owner : Nat) (write : Bool) : Bool :=
  bitsOf entry 30 2 != 2 || entryAllows (sget 0 d.mem5.flashOwners (bitsOf entry 0 30)) owner write false

/-- The frames that a message touches admit it under the region's OWNER (R118): reservoir frames, and the flash frames of pages in flash. -/
def Device.framesOk (d : Device) (g : Region) (off n : Nat) (write : Bool) : Bool :=
  g.host || (runsOf g off n).all fun (o, k) =>
    if g.odp && !d.resident g o then d.flashPageOk (d.load (g.odpEntry o) 4) g.owner write
    else d.check (d.regionAddr g o) k g.owner write false == .ok

/-- The ranges of its region that a message touches: its bytes, and the counter word of a put (R274). -/
def msgRanges (m : Msg) (n : Nat) : List (Nat × Nat) :=
  (m.hdr.offset, n) :: if m.hdr.op = 1 ∧ m.hdr.operand ≠ 0 then [(m.hdr.operand - 1, 8)] else []

/-- The first failing reason of Table 11.7, 0 when the message is admitted. -/
def Device.violation (d : Device) (m : Msg) (total : Nat) : Nat :=
  let h := m.hdr
  let g := d.region h.region
  let n := msgLength h total
  if h.region = 0xFFFF then (if h.op = 2 ∧ (d.furrowServes m.src h.offset h.owner).isSome then 0 else 8)
  else if g.state ≠ 1 then 1
  else if h.key ≠ g.accessKey then 2
  else if (g.scope = 1 ∧ m.src ≠ g.scopeNode) ∨ (g.scope = 2 ∧ m.sameJob = false) then 3
  else if h.owner ≠ g.owner then 4
  else if g.perm.testBit (permBit h.op) = false then 5
  else if (msgRanges m n).any (fun r => decide (r.1 + r.2 > g.length)) = true then 6
  else if (msgRanges m n).all (fun r => d.framesOk g r.1 r.2 (h.op ≠ 2)) = false then 7
  else 0

/-- Reject a message: a NACK with REMOTE_ACCESS_VIOLATION and an event record (R258, R261). -/
def Device.reject (d : Device) (m : Msg) (total reason : Nat) : Device :=
  ((d.answer m 7 1 0).event F.SLU_EVENTS.VIOLATION_IN).regionEvent m (msgLength m.hdr total) 1 reason (m.hdr.key / 2 ^ 48)

/-- Count an admitted message (R259). -/
def Device.hold (d : Device) (r : Nat) : Device :=
  if r = 0xFFFF then d else d.setRegion r { d.region r with inFlight := (d.region r).inFlight + 1 }

/-! ### Placing and reading -/

/-- Write bytes at a region offset. -/
def Device.regionWrite (d : Device) (g : Region) (off : Nat) (bs : List Byte) : Device :=
  if g.host then d.hostWrite ⟨g.port, g.fn⟩ (g.base + off) bs
  else ((runsOf g off bs.length).foldl (fun (acc : Device × List Byte) (o, k) =>
    (acc.1.writeMem (acc.1.regionAddr g o) (acc.2.take k), acc.2.drop k)) (d, bs)).1

/-- Read bytes at a region offset, `hd` being the host's answer for a host region. -/
def Device.regionRead (d : Device) (g : Region) (off n : Nat) (hd : List Byte) : List Byte :=
  if g.host then fit n hd else (runsOf g off n).flatMap fun (o, k) => d.readMem (d.regionAddr g o) k

/-- Remember a finished message (R267). -/
def Device.remember (d : Device) (m : Msg) (status old : Nat) : Device :=
  { d with slu.finished := d.slu.finished ++
      [{ src := m.src, msgId := m.msgId, status := status, old := old, atomic := m.hdr.op == 4 }] }

/-- The memory of a finished message. -/
def Device.remembered (d : Device) (src id : Nat) : Option Finished := d.slu.finished.find? fun x => x.src == src && x.msgId == id

/-- Answer a retransmission from memory (R267). -/
def Device.answerMemory (d : Device) (m : Msg) (x : Finished) : Device :=
  if x.atomic && x.status == 0 then d.answer m 5 0 x.old
  else if x.status = 0 then d.answer m 6 0 0 else d.answer m 7 x.status 0

/-- One message of a put has been placed; the last of them adds 1 to the counter (R274). -/
def Device.putPlaced (d : Device) (m : Msg) (g : Region) : Device :=
  if m.hdr.operand = 0 then d
  else
    let id := m.hdr.compare % 2 ^ 48
    let n := m.hdr.compare / 2 ^ 48 + 1
    let got := ((d.slu.puts.find? fun x => x.1 == m.src && x.2.1 == id).map (·.2.2)).getD 0 + 1
    let d := { d with slu.puts := d.slu.puts.filter fun x => !(x.1 == m.src && x.2.1 == id) }
    if got ≥ n then
      let off := m.hdr.operand - 1
      d.regionWrite g off (leBytes 8 (leValue (d.regionRead g off 8 []) + 1))
    else { d with slu.puts := (m.src, id, got) :: d.slu.puts }

/-- A write has been placed whole (R259, R263, R267): its count is released, it is remembered and acknowledged. -/
def Device.writeDone (d : Device) (m : Msg) : Device :=
  (((d.putPlaced m (d.region m.hdr.region)).regionDone m.hdr.region).remember m 0 0).answer m 6 0 0

/-- An error that a target's own memory or decoder raises: an error record, and a NACK as an uncorrectable target error
(R91, R113). -/
def Device.targetError (d : Device) (m : Msg) (cause : Nat) (detail : List (Nat × Nat)) : Device :=
  let d := d.uncorrectable { cause := cause, severity := 2, status := 0x0C, replays := 3, unitKind := 2, unit := (m.src + m.msgId) % 32,
                             owner := m.hdr.owner, node := m.src, detail := detail }
  ((d.regionDone m.hdr.region).remember m 0x0C 0).answer m 7 0x0C 0

/-- The parity checks of what a target reads or places for a message (R113): passed, passed at a replay, or an uncorrectable target error. -/
def Device.targetCheck (d : Device) (m : Msg) (parity : Nat) (f : Device → Device) : Device :=
  if parity = 0 then f d
  else if parity ≤ 3 then f (d.count F.ERR_COUNTS.REPLAYED)
  else d.targetError m 1 []

/-- The value that an atomic stores (R273). -/
def atomicNew (subop old operand compare : Nat) : Nat :=
  match subop with
  | 1 => (old + operand) % 2 ^ 64
  | 2 => operand % 2 ^ 64
  | _ => if old = compare then operand % 2 ^ 64 else old

/-- Apply an atomic and answer it (R273). -/
def Device.applyAtomic (d : Device) (m : Msg) : Device :=
  let g := d.region m.hdr.region
  let old := leValue (d.regionRead g m.hdr.offset 8 [])
  let d := d.regionWrite g m.hdr.offset (leBytes 8 (atomicNew m.hdr.subop old m.hdr.operand m.hdr.compare))
  let d := d.remember m 0 old
  let (id, d) := d.newMsgId
  let d := d.sendData m.src m.tc id 0 true 1 { op := 5, owner := m.hdr.owner, operand := old, reqId := m.msgId } []
  if m.src = d.node then d.regionDone m.hdr.region
  else { d with slu.serving := d.slu.serving ++ [{ resp := id, m := m }] }

/-! ### On-demand paging (R270) -/

/-- The mean read latency of the root port behind a flash frame, in units of 0.1 µs; a host spill area has none. -/
def Device.flashMean (d : Device) (frame : Nat) : Nat :=
  ((d.extentOf frame).map fun e =>
    if d.fld F.NVM_EXT_CFG.KIND e = 1 then d.fld F.NVM_PORT_STATS.MEAN_READ (d.fld F.NVM_EXT_CFG.PORT e) else 0).getD 0

/-- Answer FAULT with a delay; the count is released (R270). -/
def Device.odpFault (d : Device) (m : Msg) (delay : Nat) : Device := (d.regionDone m.hdr.region).answer m 8 0 delay

/-- A page that is absent, or for which there is no frame, draws FAULT with MIN_DELAY_US and an event. -/
def Device.odpAbsent (d : Device) (m : Msg) (n : Nat) : Device :=
  ((d.odpFault m (d.fld F.SLU_ODP.MIN_DELAY_US)).event F.SLU_EVENTS.ODP_FAULT).regionEvent m n 2 0 (m.hdr.key / 2 ^ 48)

/-- Begin reading a page of an ODP region, unless it is being read: a frame of the RESERVOIR, and a Read of its flash frame, or reads of its
spill frame, which ODP_PAGE_READY takes. None with no frame free. -/
def Device.odpFetch (d : Device) (entryAddr flash owner : Nat) : Option Device :=
  if d.slu.odp.any fun x => x.entryAddr == entryAddr then some d
  else (d.extentOf flash).bind fun _ => (d.allocFrame poolRes 0 owner).map fun (a, d) =>
    let d := { d with slu.odp := d.slu.odp ++ [({ entryAddr := entryAddr, flash := flash, frame := a } : OdpFetch)] }
    (d.startJob (.odp entryAddr) flash 16).getD d

/-- What an admitted message does at a page of its region that is not RESIDENT (R270): the page is read while the message waits, or it draws
FAULT, with the port's mean read latency as the estimated delay (log entry 29). Answers whether it drew one. -/
def Device.odpPage (m : Msg) (n : Nat) (g : Region) (acc : Device × Bool) (off : Nat) : Device × Bool :=
  let d := acc.1
  if acc.2 || !g.odp || d.resident g off then acc
  else
    let e := d.load (g.odpEntry off) 4
    let mean := d.flashMean (bitsOf e 0 30)
    match if bitsOf e 30 2 = 2 then d.odpFetch (g.odpEntry off) (bitsOf e 0 30) g.owner else none with
    | none => (d.odpAbsent m n, true)
    | some d =>
      if mean ≤ 10 * d.fld F.SLU_ODP.STALL_US then (d, false)
      else (d.odpFault m (max (ceilDiv mean 10) (d.fld F.SLU_ODP.MIN_DELAY_US)), true)

/-- The same for every page that ranges touch. -/
def Device.odpNeed (d : Device) (m : Msg) (n : Nat) (g : Region) (rs : List (Nat × Nat)) : Device × Bool :=
  (rs.flatMap fun r => (runsOf g r.1 r.2).map (·.1)).foldl (Device.odpPage m n g) (d, false)

/-- A range of a region can be accessed now: its pages are RESIDENT, and no access of it waits in a channel's queue (R130, R270). -/
def Device.regionReady (d : Device) (g : Region) (off n : Nat) : Bool :=
  g.host || (runsOf g off n).all fun (o, k) => (!g.odp || d.resident g o) && !d.waits (d.regionAddr g o) k

/-- Count the accesses of a region's range that wait for a window to close. -/
def Device.noteRegionWait (d : Device) (g : Region) (off n : Nat) : Device :=
  if g.host then d
  else (runsOf g off n).foldl (fun (d : Device) (o, k) => if !g.odp || d.resident g o then d.noteWait (d.regionAddr g o) k else d) d

/-- Carry an admitted message out once its ranges can be accessed; until then it is held, and a page may draw FAULT in its place. -/
def Device.whenReady (d : Device) (m : Msg) (n : Nat) (f : Device → Device) : Device :=
  let g := d.region m.hdr.region
  let rs := msgRanges m n
  let (d, faulted) := d.odpNeed m n g rs
  if faulted then d
  else if rs.all fun r => d.regionReady g r.1 r.2 then f d
  else rs.foldl (fun (d : Device) r => d.noteRegionWait g r.1 r.2) { d with slu.held := d.slu.held ++ [m] }

/-- Reject an admitted message whose payload, once expanded, leaves its bounds or its frames (R258; log entry 180). -/
def Device.rejectLate (d : Device) (m : Msg) (reason : Nat) : Device := (d.regionDone m.hdr.region).reject m m.data.length reason

/-- Place a write that has arrived whole (R85, R91): expanded first when its payload is coded, and then held to its region's bounds and
frames at its full length. -/
def Device.placeWhole (d : Device) (m : Msg) (parity : Nat) : Device :=
  let g := d.region m.hdr.region
  let place := fun (bs : List Byte) => d.whenReady m bs.length fun d => d.targetCheck m parity fun d =>
    (d.regionWrite g m.hdr.offset bs).writeDone m
  if m.hdr.codedWire then
    match expandAll m.data 0 with
    | .error e => d.targetError m 2 [(1, e.row)]
    | .ok bs =>
      if m.hdr.offset + bs.length > g.length then d.rejectLate m 6
      else if d.framesOk g m.hdr.offset bs.length true then place bs
      else d.rejectLate m 7
  else place m.data

/-- Carry out an admitted message that has arrived whole, or hold it. -/
def Device.serve (d : Device) (m : Msg) (hd : List Byte) (parity : Nat) (seen : List Byte := []) : Device :=
  match m.hdr.op with
  | 1 => d.placeWhole m parity
  | 2 => d.whenReady m m.hdr.operand fun d => d.targetCheck m parity fun d =>
    d.respond m m.hdr.region (d.regionRead (d.region m.hdr.region) m.hdr.offset m.hdr.operand hd) seen
  | 4 => d.whenReady m 8 fun d => d.targetCheck m parity fun d => d.applyAtomic m
  | _ => d

/-! ### Messages that arrive whole -/

/-- Check a message and carry it out, or answer it from memory (R258, R263, R267). One that its first packet has admitted is not checked
again; a retransmission of one that is held changes nothing. -/
def Device.receive (d : Device) (m : Msg) (hd : List Byte) (parity : Nat) (seen : List Byte := []) : Device :=
  if d.slu.held.any fun x => x.src == m.src && x.msgId == m.msgId then d
  else if m.checked then d.serve m hd parity seen
  else match (if m.hdr.op = 2 then none else d.remembered m.src m.msgId) with
  | some x => d.answerMemory m x
  | none =>
    match d.violation m m.data.length with
    | 0 => ((d.hold m.hdr.region).gotOwn m).serve { m with checked := true } hd parity seen
    | r => d.reject m m.data.length r

/-- A message counts as admitted by its first packet only while it waits for its engine. -/
def Device.asArrived (d : Device) (m : Msg) : Msg := if d.slu.inbox.contains m then m else { m with checked := false }

/-- A message whose admission its first packet has already decided, or a new one. -/
def Device.receiveWhole (d : Device) (op : Nat) (m : Msg) (hd : List Byte) (parity : Nat) (seen : List Byte := []) : Device :=
  if m.hdr.op ≠ op then d else (d.take m).receive (d.asArrived m) hd parity seen

/-- WRITE_MESSAGE. -/
def execWriteMessage (m : Msg) (parity : Nat) (s : State) : Host.Outcome State Fault Refusal := s.act fun d => d.receiveWhole 1 m [] parity

/-- The bytes of a page that a furrow read asks for, from a flash frame in no NVME extent: a spill frame's units, as reads through its function
bring them (R114); none: their last replay has failed. -/
def Device.spillPage (d : Device) (frame n : Nat) (tries : List (List Byte)) : Device × Option (List Byte) :=
  match d.extentOf frame with
  | none => (d, some (fit n []))
  | some x =>
    let r := d.spillRead x ⟨d.fld F.NVM_EXT_CFG.PORT x, d.fld F.NVM_EXT_CFG.FUNCTION x⟩
      (d.fld F.NVM_EXT_ADDR.ADDR x + 65536 * (frame - d.fld F.NVM_EXT_FRAMES.FIRST x)) (ceilDiv n 4096) tries 0
    (r.1, r.2.map (fit n))

/-- Answer a furrow read from page `g` (R182): its SPAN × 64 stored bytes and no more (log entry 83), from flash once its units have been read
and checked. A message of a transfer that was split asks from COMPARE on (log entry 178). -/
def Device.servePage (d : Device) (m : Msg) (g : Nat) (tries : List (List Byte)) (parity : Nat) : Device :=
  let e := d.pte g
  let n := min (m.hdr.compare + m.hdr.operand) (64 * e.span)
  if e.tier = 4 then
    match d.startJob (.serve m n) e.frame (ceilDiv n 4096) with
    | some d => d
    | none =>
      let r := d.spillPage e.frame n tries
      match r.2 with
      | some bs => r.1.respond m 0xFFFF (bs.drop m.hdr.compare)
      | none => (r.1.crcFailed m.hdr.owner e.frame none).answer m 7 0x0C 0
  else d.targetCheck m parity fun d => d.respond m 0xFFFF ((d.pageBytes g n).drop m.hdr.compare)

/-- FURROW_READ (R182, R263): the page's bytes in its stored form, or REMOTE_ACCESS_VIOLATION, reason FURROW. While the page's channel is in a
window the read waits (R130). -/
def furrowReadEff (m : Msg) (tries : List (List Byte)) (parity : Nat) (d : Device) : Device :=
  let i := if (d.asArrived m).checked then d.furById (m.hdr.offset / 2 ^ 32) else d.furrowServes m.src m.hdr.offset m.hdr.owner
  match i with
  | none => (d.take m).reject m m.data.length 8
  | some i =>
    let g := (d.furrow i).base + m.hdr.offset % 2 ^ 32
    let e := d.pte g
    if e.tier = 2 ∧ d.waits (frameAddr e.frame) (m.hdr.compare + m.hdr.operand) = true then
      d.noteWait (frameAddr e.frame) (m.hdr.compare + m.hdr.operand)
    else (d.take m).servePage m g tries parity

/-- FURROW_READ. -/
def execFurrowRead (m : Msg) (tries : List (List Byte)) (parity : Nat) (s : State) : Host.Outcome State Fault Refusal :=
  s.act fun d => if m.hdr.op = 2 ∧ m.hdr.region = 0xFFFF then furrowReadEff m tries parity d else d

/-- READ_REQ: a read of a region; one of the furrow window is a furrow read. -/
def execReadReq (m : Msg) (host seen : List Byte) (parity : Nat) (s : State) : Host.Outcome State Fault Refusal :=
  s.act fun d => if m.hdr.op = 2 ∧ m.hdr.region = 0xFFFF then furrowReadEff m [host] parity d else d.receiveWhole 2 m host parity seen

/-- ATOMIC_REQ. -/
def execAtomicReq (m : Msg) (parity : Nat) (s : State) : Host.Outcome State Fault Refusal := s.act fun d => d.receiveWhole 4 m [] parity

/-- SEND_MESSAGE (R263, R267): acknowledged once, and delivered to its unit. -/
def sendMessageEff (m : Msg) (d : Device) : Device :=
  let d := d.take m
  if m.hdr.op ≠ 9 then d
  else
    match d.remembered m.src m.msgId with
    | some x => d.answerMemory m x
    | none => { (d.remember m 0 0).answer m 6 0 0 with slu.delivered := d.slu.delivered ++ [m] }

/-- SEND_MESSAGE. -/
def execSendMessage (m : Msg) (s : State) : Host.Outcome State Fault Refusal := s.act (sendMessageEff m)

/-- MEMORY_EXPIRY (R267): a finished message is forgotten. -/
def execMemoryExpiry (src msgId : Nat) (s : State) : Host.Outcome State Fault Refusal :=
  s.act fun d => { d with slu.finished := d.slu.finished.filter fun x => !(x.src == src && x.msgId == msgId) }

/-! ### Packets (R318) -/

/-- An answer packet: an ACK, NACK or FAULT (R314). -/
def answerPacket (p : Packet) : Bool := p.kind == 1 && (p.op.op == 6 || p.op.op == 7 || p.op.op == 8)

/-- The packet is malformed (R318). -/
def malformed (p : Packet) : Bool :=
  p.version / 16 != 1 || p.rsvd || p.tc == 7 || !(p.kind == 1 || p.kind == 2) || (p.enc && p.kind == 2) ||
  (!p.enc && (p.tc == 1 || p.tc == 2 || p.tc == 3 || p.tc == 5)) ||
  p.offset % 4096 != 0 || (if answerPacket p then p.offset != 0 else decide (p.offset ≥ p.total)) ||
  decide (p.total > 1048576) || (p.total == 0 && !answerPacket p) || p.plen != min 4096 (p.total - p.offset)

/-- Drop a packet: its counter and its event bit. -/
def Device.dropPacket (d : Device) (f ev : Field) : Device := (d.count f).eventSig ev F.FAB_VECTOR.VECTOR

/-- The reassembly context of a message. -/
def Device.rxCtx (d : Device) (src id : Nat) : Option RxCtx := d.fab.ctxs.find? fun c => c.src == src && c.msgId == id

/-- Contexts open on an engine. -/
def Device.rxCount (d : Device) (e : Nat) : Nat := (d.fab.ctxs.filter fun c => c.engine == e).length

/-- Replace the contexts; TARGET_MSGS of an engine follows. -/
def Device.setRx (d : Device) (cs : List RxCtx) (e : Nat) : Device :=
  let d := { d with fab.ctxs := cs }
  (d.setFld F.SLU_ENG_STATUS.TARGET_MSGS (d.rxCount e) e).peak F.FAB_RX_STATS.CONTEXTS_PEAK d.fab.ctxs.length

/-- The message of a context, with what has been kept of its bytes. -/
def RxCtx.msg (c : RxCtx) (attempt : Nat) : Msg :=
  { src := c.src, msgId := c.msgId, attempt := attempt, hdr := c.hdr, tc := c.tc, sameJob := c.sameJob,
    data := c.data.flatMap (·.2) }

/-- Every byte of a write has arrived and is in place, and a put's counter can be accessed: the write finishes. -/
def Device.rxReady (d : Device) (c : RxCtx) : Bool :=
  let m := c.msg 0
  c.data == [] && decide (c.received ≥ c.total) && (msgRanges m c.total).tail.all fun r => d.regionReady (d.region c.hdr.region) r.1 r.2

/-- Place what has been kept of a write's packets as far as it can be placed now (R263, R270); a page may draw FAULT, and the message is then
discarded. -/
def Device.rxFlush (d : Device) (c : RxCtx) (parity : Nat) : Device × RxCtx :=
  let m := { c.msg 0 with data := [] }
  let g := d.region c.hdr.region
  let (d, faulted) := d.odpNeed m c.total g (msgRanges m c.total)
  if faulted then (d, { c with admitted := false, data := [] })
  else if parity > 3 then (d.targetError m 1 [], { c with admitted := false, data := [] })
  else c.data.foldl (fun (acc : Device × RxCtx) (i, bs) =>
    let off := c.hdr.offset + i * 4096
    if acc.1.regionReady g off bs.length then
      (acc.1.regionWrite g off bs, { acc.2 with data := sput [] acc.2.data i [] })
    else (acc.1.noteRegionWait g off bs.length, acc.2)) (if parity = 0 then d else d.count F.ERR_COUNTS.REPLAYED, c)

/-- A message whose packets have all arrived: a write in place finishes, a coded one is carried out, anything else is handed on whole with its
admission. -/
def Device.rxDone (d : Device) (c : RxCtx) (attempt parity : Nat) : Device :=
  let m := { c.msg attempt with checked := c.hdr.op != 9 }
  if !c.admitted then d
  else if c.hdr.op = 1 then (if c.keep then d.serve m [] parity else d.writeDone m)
  else { d with slu.inbox := d.slu.inbox ++ [m] }

/-- Put a context back among the open ones, or finish its message. -/
def Device.rxKeep (d : Device) (c : RxCtx) (attempt parity : Nat) : Device :=
  let others := d.fab.ctxs.filter fun x => !(x.src == c.src && x.msgId == c.msgId)
  let whole := if c.admitted && c.hdr.op == 1 && !c.keep then d.rxReady c else decide (c.received ≥ c.total)
  if whole then (d.setRx others c.engine).rxDone c attempt parity else d.setRx (others ++ [c]) c.engine

/-- Take a packet into its message (R318, from the bitmap on): an admitted write's payload goes to its place, and what cannot be placed yet is
kept. -/
def Device.rxTake (d : Device) (c : RxCtx) (p : Packet) (bs : List Byte) (parity : Nat) : Device :=
  if p.total ≠ c.total then d.dropPacket F.FAB_RX_DROPS.MALFORMED F.FAB_EVENTS.MALFORMED
  else if c.bitmap.testBit (p.offset / 4096) then d.count F.FAB_RX_STATS.DUPLICATES
  else
    let c := { c with bitmap := c.bitmap + 2 ^ (p.offset / 4096), received := c.received + p.plen,
                      data := if c.admitted then sput [] c.data (p.offset / 4096) bs else c.data }
    let (d, c) := if c.admitted && c.hdr.op == 1 && !c.keep then d.rxFlush c parity else (d, c)
    (d.gotBytes c.engine bs.length).rxKeep c p.attempt parity

/-- What has been held or kept goes on as far as it now can: a page has become RESIDENT, or a window has closed (R130, R270). -/
def Device.resumeHeld (d : Device) : Device :=
  let held := d.slu.held
  let d := held.foldl (fun (d : Device) m => d.serve m [] 0) { d with slu.held := [] }
  (d.fab.ctxs.filter fun c => c.admitted && c.hdr.op == 1 && !c.keep).foldl (fun (d : Device) c =>
    let (d, c) := d.rxFlush c 0
    d.rxKeep c 0 0) d

/-- The page of an ODP region that is being read. -/
def Device.odpOf (d : Device) (r page : Nat) : Option OdpFetch :=
  d.slu.odp.find? fun x => x.entryAddr == (d.region r).odpEntry (page * 65536)

/-- The messages of a region that wait for a page: held ones, and writes whose packets are being kept. -/
def Device.waitFor (d : Device) (entryAddr : Nat) : List Msg :=
  let touches := fun (m : Msg) (n : Nat) =>
    let g := d.region m.hdr.region
    g.odp && (msgRanges m n).any fun r => (runsOf g r.1 r.2).any fun x => g.odpEntry x.1 == entryAddr
  (d.slu.held.filter fun m => touches m (msgLength m.hdr m.data.length)) ++
    (d.fab.ctxs.filter fun c => c.admitted && c.hdr.op == 1 && touches (c.msg 0) c.total).map fun c => c.msg 0

/-- A page could not be read: the messages that wait for it end, as an uncorrectable target error where its units fail their CRC-64, and
otherwise with FAULT (log entry 29). -/
def Device.odpLost (d : Device) (x : OdpFetch) (status : Nat) : Device :=
  let ms := d.waitFor x.entryAddr
  let gone := fun (src id : Nat) => ms.any fun m => m.src == src && m.msgId == id
  let d := { d with slu.held := d.slu.held.filter fun m => !gone m.src m.msgId,
                    fab.ctxs := d.fab.ctxs.map fun (c : RxCtx) => if gone c.src c.msgId then { c with admitted := false, data := [] } else c }
  ms.foldl (fun (d : Device) m =>
    if status = 0x0C then ((d.regionDone m.hdr.region).remember m 0x0C 0).answer m 7 0x0C 0
    else d.odpFault m (d.fld F.SLU_ODP.MIN_DELAY_US)) d

/-- ODP_PAGE_READY (R270): the page is placed in its frame and its entry set RESIDENT, and what waited for it goes on. A spill frame's units are
what reads through its function bring. -/
def odpReadyEff (r page : Nat) (tries : List (List Byte)) (d : Device) : Device :=
  match d.odpOf r page with
  | none => d
  | some x =>
    let spilled := ((d.extentOf x.flash).map fun e => d.fld F.NVM_EXT_CFG.KIND e == 2).getD false
    let res : Device × Option (List Byte × Nat) :=
      if spilled then
        let y := d.spillPage x.flash frameBytes tries
        match y.2 with
        | some bs => (y.1, some (bs, 0))
        | none => (y.1.crcFailed (d.region r).owner x.flash none, some ([], 0x0C))
      else (d, x.ended.map fun st => (x.data, st))
    match res with
    | (_, none) => d
    | (b, some (bs, st)) =>
      if st = 0 ∧ d.waits x.frame frameBytes = true then d.noteWait x.frame frameBytes
      else
        let b := { b with slu.odp := b.slu.odp.erase x }
        if st = 0 then ((b.writeMem x.frame (fit frameBytes bs)).storeVal x.entryAddr 4 (2 ^ 30 + frameOf x.frame)).resumeHeld
        else (b.freeRes x.frame).odpLost x st

/-- ODP_PAGE_READY. -/
def execOdpPageReady (region page : Nat) (tries : List (List Byte)) (s : State) : Host.Outcome State Fault Refusal :=
  s.act (odpReadyEff region page tries)

/-- A message is being handled: it waits for its engine, or is held (R267). -/
def Device.inProgress (d : Device) (src id : Nat) : Bool :=
  (d.slu.inbox.any fun m => m.checked && m.src == src && m.msgId == id) || d.slu.held.any fun m => m.src == src && m.msgId == id

/-- A packet for this device with its payload in clear (R318). A BARE packet carries no operation: the unit it is meant for
has its own command. A request is admitted or rejected at the packet of it that arrives first (R258). -/
def Device.rxPacket (d : Device) (p : Packet) (bs : List Byte) (sameJob : Bool) (parity : Nat) : Device :=
  let m : Msg := { src := p.src, msgId := p.msgId, attempt := p.attempt, hdr := p.op, tc := p.tc, sameJob := sameJob }
  if p.kind = 2 then d
  else if answerPacket p then { d with slu.inbox := d.slu.inbox ++ [m] }
  else
    match d.rxCtx p.src p.msgId with
    | some c => d.rxTake c p bs parity
    | none =>
      if d.inProgress p.src p.msgId then d.count F.FAB_RX_STATS.DUPLICATES
      else match (if p.op.op = 2 then none else d.remembered p.src p.msgId) with
      | some x => (d.answerMemory m x).count F.FAB_RX_STATS.DUPLICATES
      | none =>
        let e := (p.src + p.msgId) % 32
        if d.rxCount e ≥ 512 then d.dropPacket F.FAB_RX_DROPS.NO_CONTEXT F.FAB_EVENTS.NO_CONTEXT
        else
          let request := p.op.op = 1 ∨ p.op.op = 2 ∨ p.op.op = 4
          let reason := if request then d.violation m p.total else 0
          let c : RxCtx := { src := p.src, msgId := p.msgId, engine := e, total := p.total, admitted := reason = 0, hdr := p.op,
                             tc := p.tc, sameJob := sameJob, keep := p.op.codedWire }
          let d := if request then (if reason = 0 then d.hold p.op.region else d.reject m p.total reason) else d
          d.rxTake c p bs parity

/-- PACKET_RECEIVED (R318, R323, R329): transit, malformed, stale and unsealable packets, then the message it belongs to. A check of what the
packet itself brought has no replay: it is discarded as if its tag had failed (`parity` 5, Table 18.1); up to 4 it is that of its placing. -/
def packetReceivedEff (at_ link : Nat) (p : Packet) (sameJob : Bool) (parity : Nat) (d : Device) : Device :=
  let d := d.at_ at_
  let d := { d with fab.arrived := d.fab.arrived.erase (link, p) }
  if p.dest ≠ d.node then d.transit p
  else if malformed p then d.dropPacket F.FAB_RX_DROPS.MALFORMED F.FAB_EVENTS.MALFORMED
  else if p.tc ≠ 0 ∧ (d.bankFor p.epoch).isNone = true then (d.count F.FAB_ROUTE_STATS.STALE_SENT).notice 0x41 p
  else if p.enc then
    if !d.hasKey (p.op.owner % 4096) then d.dropPacket F.FAB_RX_DROPS.NO_KEY F.FAB_EVENTS.NO_KEY
    else
      match d.openPkt p with
      | none => d.dropPacket F.FAB_RX_DROPS.TAG F.FAB_EVENTS.TAG
      | some bs => if parity ≥ 5 then d.dropPacket F.FAB_RX_DROPS.TAG F.FAB_EVENTS.TAG else d.rxPacket p bs sameJob parity
  else if parity ≥ 5 then d.dropPacket F.FAB_RX_DROPS.TAG F.FAB_EVENTS.TAG
  else d.rxPacket p p.payload sameJob parity

/-- PACKET_RECEIVED. -/
def execPacketReceived (at_ link : Nat) (p : Packet) (sameJob : Bool) (parity : Nat) (s : State) : Host.Outcome State Fault Refusal :=
  s.act (packetReceivedEff at_ link p sameJob parity)

/-- Abandon an admitted message (R263): its count is released, an event is written, and it draws no answer. -/
def Device.abandon (d : Device) (m : Msg) (n : Nat) : Device :=
  (d.regionDone m.hdr.region).regionEvent m n 3 0 (m.hdr.key / 2 ^ 48)

/-- REASSEMBLY_TIMEOUT (R263): a message that has been admitted and has not finished is abandoned, wherever it stands: its packets have not all
arrived, it waits for its engine, a page or a channel, or its response has not left. -/
def reassemblyEff (src id : Nat) (d : Device) : Device :=
  let is := fun (m : Msg) => m.src == src && m.msgId == id
  let d := match d.rxCtx src id with
    | none => d
    | some c =>
      let d := d.setRx (d.fab.ctxs.filter (· != c)) c.engine
      if c.admitted && c.hdr.op != 9 then d.abandon (c.msg 0) c.total else d
  let ms := (d.slu.inbox.filter fun m => m.checked && is m) ++ d.slu.held.filter is ++ (d.slu.serving.filter fun x => is x.m).map (·.m)
  let ms := ms ++ d.slu.jobs.filterMap fun j => match j.use with
    | .serve m _ => if is m then some m else none
    | _ => none
  let d := d.dropServed fun m => is m && m.checked
  ms.foldl (fun (d : Device) m => d.regionEvent m (msgLength m.hdr m.data.length) 3 0 (m.hdr.key / 2 ^ 48)) d

/-- REASSEMBLY_TIMEOUT. -/
def execReassemblyTimeout (src msgId : Nat) (s : State) : Host.Outcome State Fault Refusal := s.act (reassemblyEff src msgId)

end Sys2Proof.Machine
end

