-- ==== Sys2Proof/Machine/Host.lean ====
section
/-! DEFINITION. Sys2Proof/Machine/Host.lean: the meanings of the host port, host queue and root port commands (spec/15)
and of HOST_ERROR (R345, R463). -/

namespace Sys2Proof.Machine

/-! ### Holding (R350) -/

/-- HOLDER_CLAIM: succeeds when there is no holder or the holder's lease has lapsed; from the holder it has no effect. -/
def holderClaimEff (port : Nat) (d : Device) : Device :=
  if d.barClosed then d
  else if d.holder = some port then d
  else if d.holder = none ∨ d.on F.HQ_CONTROL.LAPSED = true then d.holderChange d.holder (port + 1)
  else d

/-- HOLDER_CLAIM. -/
def execHolderClaim (at_ port : Nat) (s : State) : Host.Outcome State Fault Refusal := s.act fun d => holderClaimEff port (d.at_ at_)

/-- The holder's write to HQ_CONTROL acts; another PF's has no effect (R350). -/
def Device.fromHolder (d : Device) (port : Nat) (f : Device → Device) : Device :=
  if d.barClosed then d else if d.holder = some port then f d else d

/-- RENEW (R350). -/
def execLeaseRenew (port at_ : Nat) (s : State) : Host.Outcome State Fault Refusal :=
  s.act fun d => (d.at_ at_).fromHolder port fun d =>
    { d.setFld F.HQ_CONTROL.LAPSED 0 with host.leaseFrom := d.now }

/-- HOLDER_RELEASE (R350, R352). -/
def execHolderRelease (port : Nat) (s : State) : Host.Outcome State Fault Refusal :=
  s.act fun d => d.fromHolder port fun d => d.holderChange (some port) 0

/-- LEASE_WRITE (R350, R461): above 10,000 taken as 10,000; the write renews the lease. -/
def execLeaseWrite (port at_ ms : Nat) (s : State) : Host.Outcome State Fault Refusal :=
  s.act fun d => (d.at_ at_).fromHolder port fun d =>
    { (d.setFld F.HQ_CONTROL.LEASE_MS (min ms 10000)).setFld F.HQ_CONTROL.LAPSED 0 with host.leaseFrom := d.now }

/-- LEASE_LAPSE (R350). -/
def leaseLapseEff (d : Device) : Device :=
  let ms := d.fld F.HQ_CONTROL.LEASE_MS
  if d.holder.isSome && ms != 0 && !d.on F.HQ_CONTROL.LAPSED && decide (d.host.leaseFrom + ms * 1000000 ≤ d.now) then
    (d.setFld F.HQ_CONTROL.LAPSED 1).hqEvent F.HQ_EVENTS.LEASE_LAPSED
  else d

/-- LEASE_LAPSE. -/
def execLeaseLapse (at_ : Nat) (s : State) : Host.Outcome State Fault Refusal := s.act fun d => leaseLapseEff (d.at_ at_)

/-! ### Ports and functions (R353) -/

/-- PORT_LOST. -/
def execPortLost (port cause : Nat) (s : State) : Host.Outcome State Fault Refusal := s.act fun d => d.portLost port cause

/-- VF_FLR (R353): the VF's flumes stop and its SPILL extents are LOST; `disabled` says that VF Enable was cleared. -/
def vfFlrEff (fn : Fn) (disabled : Bool) (d : Device) : Device :=
  let d := if disabled then { d with host.vfEnabled := d.host.vfEnabled.filter (· != fn.port * 32 + fn.vf) } else d
  let d := { d with host.msix := d.host.msix.filter fun x => x.1 / 8192 != fn.port * 32 + fn.vf }
  let d := d.stopFlumesOf fun f => f.port == fn.port && f.vf == fn.vf
  let d := (d.spills fun p v => p == fn.port && v == fn.vf).foldl (fun d e => d.loseExtent e) d
  d.hqEvent F.HQ_EVENTS.FLR

/-- VF_FLR. -/
def execVfFlr (fn : Fn) (disabled : Bool) (s : State) : Host.Outcome State Fault Refusal := s.act (vfFlrEff fn disabled)

/-- HOST_LINK_TRAINED (Table 15.10): the port is up in D0, with the VFs that its SR-IOV capability enables; H1's link does not
train while PERST1_N is asserted (R447). -/
def hostLinkTrainedEff (port rate lanes : Nat) (flitMode : Bool) (vfs : List Nat) (d : Device) : Device :=
  if port = 1 ∧ d.pwr.perst1 = true then d else
  let v := 0x8000 + rate % 8 * 0x1000 + lanes % 16 * 0x100 + 0x80 * b2n flitMode
  let d := d.setFld (if port = 0 then F.HQ_PORT_STATUS.H0 else F.HQ_PORT_STATUS.H1) v
  { d with host.vfEnabled := (d.host.vfEnabled.filter fun x => x / 32 != port) ++
      (vfs.filter fun x => decide (1 ≤ x) && decide (x ≤ 31)).map (port * 32 + ·) }

/-- HOST_LINK_TRAINED. -/
def execHostLinkTrained (port rate lanes : Nat) (flitMode : Bool) (vfs : List Nat) (s : State) : Host.Outcome State Fault Refusal :=
  s.act (hostLinkTrainedEff port rate lanes flitMode vfs)

/-! ### Host queues -/

/-- HQ_Q_ENABLE (R354, R358): from 0 to 1 the indices and counts become 0; any write clears STOPPED. -/
def hqEnableEff (q : Nat) (value : Bool) (d : Device) : Device :=
  let was := d.on F.HQ_Q_CTRL.ENABLE q
  let d := (d.setFld F.HQ_Q_CTRL.ENABLE (b2n value) q).setFld F.HQ_Q_STATUS.STOPPED 0 q
  if value && !was then
    ((d.setFld F.HQ_Q_STATUS.HEAD 0 q).setFld F.HQ_Q_STATUS.WRITTEN 0 q).setHq q {}
  else d

/-- HQ_Q_ENABLE. -/
def execHqQEnable (port q : Nat) (value : Bool) (s : State) : Host.Outcome State Fault Refusal :=
  s.act fun d => d.asHolder port (hqEnableEff (q % 256) value) (open_ := true)

/-- TAIL (R355). -/
def hqTailEff (q tail : Nat) (d : Device) : Device :=
  if d.on F.HQ_Q_CTRL.ENABLE q then d.setHq q { d.hq q with tail := tail % 4096 % d.hqSize q }
  else d.count F.HQ_STATS.DOORBELL_IGNORED

/-- TAIL. -/
def execHqTail (port q tail : Nat) (s : State) : Host.Outcome State Fault Refusal :=
  s.act fun d => d.asHolder port (hqTailEff (q % 256) tail) (open_ := true)

/-- CONSUMED (R355, R357): SLUICE queues only. -/
def hqConsumedEff (q count : Nat) (d : Device) : Device :=
  if d.on F.HQ_Q_CTRL.ENABLE q && d.fld F.HQ_Q_CTRL.KIND q == 2 then d.setHq q { d.hq q with consumed := count }
  else d.count F.HQ_STATS.DOORBELL_IGNORED

/-- CONSUMED. -/
def execHqConsumed (port q count : Nat) (s : State) : Host.Outcome State Fault Refusal :=
  s.act fun d => d.asHolder port (hqConsumedEff (q % 256) count) (open_ := true)

/-! ### HOST_ERROR -/

/-- A device request to a host ends with an error (R345): what it served ends or stops. -/
def hostErrorEff (req : HostReq) (d : Device) : Device :=
  let d := d.hostErr
  match req with
  | .queue q => d.stopQueue q
  | .ctx e c => d.endCtx e c 0x10 0
  | .flume h => d.stopFlume h
  | .staging i => match d.gen.staging.find? fun x => x.slot == i with
    | some x => d.stagingFailed x
    | none => d
  | .ring r => d.stopRing r
  | .furrowRing =>
    ((d.setFld F.FUR_CQ_CTRL.ENABLE 0).setFld F.FUR_CQ_HEAD.STOPPED 1).eventSig F.FUR_EVENTS.CQ_ERROR F.FUR_CQ_CTRL.VECTOR
  | .pimRing =>
    if d.part.isL then d
    else ((d.setFld F.PIM_DQ_CTRL.ENABLE 0).setFld F.PIM_DQ_HEAD.STOPPED 1).eventSig F.PIM_EVENTS.DQ_ERROR F.PIM_DQ_CTRL.VECTOR
  | .other => d

/-- HOST_ERROR. -/
def execHostError (req : HostReq) (s : State) : Host.Outcome State Fault Refusal := s.act (hostErrorEff req)

/-! ### Root ports (Table 15.6) -/

/-- Run a root port event in the states it is defined for. -/
def Device.inRoot (d : Device) (p : Nat) (states : List Nat) (f : Device → Device) : Device :=
  if d.part.root p && states.contains (d.rootState p) then f d else d

/-- NVM_PORT_ENABLE. -/
def nvmPortEnableEff (p : Nat) (value : Bool) (d : Device) : Device :=
  if !d.part.root p then d
  else
    let was := d.on F.NVM_PORT_CFG.ENABLE p
    let d := d.setFld F.NVM_PORT_CFG.ENABLE (b2n value) p
    if value then (if d.rootState p = 0 then d.setFld F.NVM_PORT_STATUS.STATE 1 p else if d.rootState p = 5 && !was then d.setFld F.NVM_PORT_STATUS.STATE 1 p else d)
    else (d.endNvme p).setFld F.NVM_PORT_STATUS.STATE 0 p

/-- NVM_PORT_ENABLE. -/
def execNvmPortEnable (port root : Nat) (value : Bool) (s : State) : Host.Outcome State Fault Refusal :=
  s.act fun d => d.asHolder port (nvmPortEnableEff root value)

/-- ROOT_LINK_UP (R361, R375): the partner is accepted and INIT begins with the queue settings as written, or the port
fails. -/
def rootLinkUpEff (p rate width : Nat) (flitMode accepted : Bool) (d : Device) : Device :=
  if accepted then
    let d := ((d.setFld F.NVM_PORT_STATUS.RATE rate p).setFld F.NVM_PORT_STATUS.WIDTH width p).setFld F.NVM_PORT_STATUS.FLIT (b2n flitMode) p
    d.enterInit p
  else d.rootFailed p

/-- ROOT_LINK_UP. -/
def execRootLinkUp (root rate width : Nat) (flitMode accepted : Bool) (s : State) : Host.Outcome State Fault Refusal :=
  s.act fun d => d.inRoot root [1] (rootLinkUpEff root rate width flitMode accepted)

/-- ROOT_LINK_TIMEOUT. -/
def execRootLinkTimeout (root : Nat) (s : State) : Host.Outcome State Fault Refusal :=
  s.act fun d => d.inRoot root [1] fun d => d.rootFailed root

/-- ROOT_INIT_DONE: the queues are created and the namespaces known. -/
def rootInitDoneEff (p : Nat) (spaces : List Namespace) (trim : Bool) (d : Device) : Device :=
  let d := (d.nvmeOf p).foldl (fun d c => d.dropNvme c) d
  let d := (d.setFld F.NVM_PORT_STATUS.STATE 3 p).setFld F.NVM_PORT_STATUS.QUEUES (sget 0 d.host.initQueues p) p
  { d with host.spaces := sput [] d.host.spaces p spaces,
           host.trimOk := if trim then p :: d.host.trimOk.filter (· != p) else d.host.trimOk.filter (· != p) }.nvmEvent
    F.NVM_EVENTS.PORT_READY

/-- ROOT_INIT_DONE. -/
def execRootInitDone (root : Nat) (spaces : List Namespace) (trim : Bool) (s : State) : Host.Outcome State Fault Refusal :=
  s.act fun d => d.inRoot root [2] (rootInitDoneEff root spaces trim)

/-- INIT has failed (Table 15.6): CAP.TO has passed or an admin command failed. An error record names the state left. -/
def Device.initFailed (d : Device) (p : Nat) : Device :=
  ((d.endNvme p).record { cause := 0x0E, severity := 1, unitKind := 6, unit := p, detail := [(1, 2)] }).rootFailed p

/-- ROOT_INIT_TIMEOUT. -/
def execRootInitTimeout (root : Nat) (s : State) : Host.Outcome State Fault Refusal :=
  s.act fun d => d.inRoot root [2] fun d => d.initFailed root

/-- ROOT_LINK_DOWN. -/
def execRootLinkDown (root : Nat) (s : State) : Host.Outcome State Fault Refusal :=
  s.act fun d => d.inRoot root [3] fun d => (d.endNvme root).setFld F.NVM_PORT_STATUS.STATE 1 root

/-- NVM_PORT_RESET (R368, R427). -/
def execNvmPortReset (port root : Nat) (s : State) : Host.Outcome State Fault Refusal :=
  s.act fun d => d.asHolder port fun d => d.inRoot root [2, 3, 5] fun d => d.resetRoot root 1

/-- ROOT_RESET_DONE: the port returns to INIT, its queue settings as written (R375). -/
def rootResetDoneEff (p : Nat) (d : Device) : Device :=
  let d := (d.err.running.filter fun l => l.kind == 5 && l.index == p).foldl (fun d l => d.endStep l) d
  d.enterInit p

/-- ROOT_RESET_DONE. -/
def execRootResetDone (root : Nat) (s : State) : Host.Outcome State Fault Refusal :=
  s.act fun d => d.inRoot root [4] (rootResetDoneEff root)

/-- The mean read latency after a sample (R367), units of 0.1 µs, rounded towards zero. -/
def meanRead (first : Bool) (mean sample : Nat) : Nat :=
  if first then sample else if mean ≤ sample then mean + (sample - mean) / 16 else mean - (mean - sample) / 16

/-- The latency sample of a successful Read (R367). -/
def Device.sampleRead (d : Device) (c : NvmeCmd) : Device :=
  let seen := d.host.readSeen.contains c.port
  let d := d.setFld F.NVM_PORT_STATS.MEAN_READ
    (min 65535 (meanRead (!seen) (d.fld F.NVM_PORT_STATS.MEAN_READ c.port) ((d.now - c.at_) / 100))) c.port
  if seen then d else { d with host.readSeen := c.port :: d.host.readSeen }

/-- Place one checked unit of a Read: at its place in the descriptor's destination, no further than its LENGTH (R371), or among the units
of a flash read of the device's own. -/
def Device.placeUnit (d : Device) (c : NvmeCmd) (i : Nat) (bs : List Byte) : Device :=
  let off := c.offset + 4096 * i
  if c.kind = .page then d.modJob c.ctx fun j => { j with units := sput [] j.units (off / 4096) bs }
  else match d.ctx c.eng c.ctx with
    | none => d
    | some x => if x.done then d else d.putLocal x x.desc.locHost (x.desc.loc + off) (bs.take (x.desc.length - off))

/-- What a Read serves awaits one command more. -/
def Device.awaitMore (d : Device) (c : NvmeCmd) : Device :=
  if c.kind = .page then d.modJob c.ctx fun j => { j with left := j.left + 1 }
  else d.modCtx c.eng c.ctx fun x => { x with pending := x.pending + 1 }

/-- One unit of a Read (R113, R114, R364): placed, or read again up to three times, after which its error is uncorrectable. Answers the
status that it gives the transfer. -/
def Device.takeUnit (d : Device) (c : NvmeCmd) (i : Nat) : Device × Nat :=
  match d.stagedUnit c i with
  | some bs => ((if c.replays = 0 then d else d.count F.ERR_COUNTS.REPLAYED).placeUnit c i bs, 0)
  | none =>
    if c.replays < 3 then
      ((d.awaitMore c).submit { c with lba := c.lba + i, count := 1, offset := c.offset + 4096 * i, replays := c.replays + 1 } 2 c.nsid, 0)
    else (d.crcFailed c.owner (c.lba + i) (some c.port), 0x0C)

/-- A command of a Read has ended with a status. -/
def Device.readEnded (d : Device) (c : NvmeCmd) (status : Nat) : Device :=
  if c.kind = .page then d.jobEnded c status else d.flashEnded c status

/-- Take a successful Read's data (R364, R367): the latency sample, and its units decrypted, checked and placed. -/
def Device.readDone (d : Device) (c : NvmeCmd) : Device :=
  let r := (List.range c.count).foldl (fun (acc : Device × Nat) i =>
    let (d, st) := acc.1.takeUnit c i
    (d, if acc.2 = 0 then st else acc.2)) (d.sampleRead c, 0)
  r.1.readEnded c r.2

/-- The destination of a Read lies in a channel whose accesses wait (R130). -/
def Device.readWaits (d : Device) (c : NvmeCmd) : Option (Nat × Nat) :=
  match c.kind, d.ctx c.eng c.ctx with
  | .read, some x => if !x.desc.locHost && d.waits (x.desc.loc + c.offset) (c.count * 4096) then some (x.desc.loc + c.offset, c.count * 4096) else none
  | _, _ => none

/-- NVME_COMPLETION (R364, R366, R367, R369, R275). A Read whose data cannot be placed while their channel is in a window is taken after
it (R130). The entry's 16 bytes name the command in 13:12 and give its status in bits 15:1 of 15:14 (log entry 22). -/
def nvmeCompletionEff (root : Nat) (entry : List Byte) (d : Device) : Device :=
  let status := fieldAt entry 14 2 / 2
  match d.nvmeBy root (fieldAt entry 12 2) with
  | none => d
  | some c =>
    match if status = 0 then d.readWaits c else none with
    | some (a, n) => d.noteWait a n
    | none =>
    let d := d.dropNvme c
    let d := match c.kind with
      | .read | .write | .trim | .page => d.count F.NVM_PORT_ERRORS.COMMANDS 1 root
      | _ => d
    let bad := fun (d : Device) => ((d.count F.NVM_PORT_ERRORS.ERRORS 1 root).nvmEvent F.NVM_EVENTS.IO_ERROR).readErrorLog root
    match c.kind with
    | .read | .page => if status ≠ 0 then (bad d).readEnded c 0x11 else d.readDone c
    | .write => if status ≠ 0 then (bad d).flashEnded c 0x11 else d.flashEnded c 0
    | .trim => if status ≠ 0 then bad d else d
    | .admin =>
      let fn : Fn := ⟨d.host.adminPort, 0⟩
      let d := match c.windows with
        | (a, _) :: _ => if c.opcode % 4 = 2 then d.hostWrite fn (c.offset + 64) (d.bytes a 4096) else d
        | [] => d
      let d := d.hostWrite fn (c.offset + 4160) (fit 16 entry)
      let d := (d.setFld F.NVM_ADMIN_STATUS.NVME_STATUS status).setFld F.NVM_ADMIN_STATUS.ACTIVE 0
      let d := if status ≠ 0 then (d.nvmEvent F.NVM_EVENTS.IO_ERROR).readErrorLog root else d
      (d.setFld F.NVM_ADMIN_STATUS.RESULT (if status = 0 then 1 else 6)).nvmEvent F.NVM_EVENTS.ADMIN_DONE
    | .abort => d
    | .setup => if status ≠ 0 ∧ d.rootState root = 2 then d.initFailed root else d

/-- NVME_COMPLETION. -/
def execNvmeCompletion (at_ root : Nat) (entry : List Byte) (s : State) : Host.Outcome State Fault Refusal :=
  s.act fun d => nvmeCompletionEff root entry (d.at_ at_)

/-- IO_TIMEOUT (R366, R275): the descriptor ends TIMEOUT_EXHAUSTED, the window closes, an Abort is drawn. -/
def ioTimeoutEff (root id : Nat) (d : Device) : Device :=
  match d.nvmeBy root id with
  | none => d
  | some c =>
    if c.kind = .read ∨ c.kind = .write ∨ c.kind = .trim ∨ c.kind = .page then
      let d := ((d.failNvme c 2).count F.NVM_PORT_STATS.TIMEOUTS 1 root).nvmEvent F.NVM_EVENTS.TIMEOUT
      d.submit { port := root, id := 0, kind := .abort, lba := c.queue + id * 65536 } 8 0
    else d

/-- IO_TIMEOUT. -/
def execIoTimeout (root id : Nat) (s : State) : Host.Outcome State Fault Refusal := s.act (ioTimeoutEff root id)

/-- ADMIN_TIMEOUT (R366): an Abort or an admin command has not been answered, and the port is reset. -/
def adminTimeoutEff (root : Nat) (d : Device) : Device :=
  match (d.nvmeOf root).find? fun c => c.queue == 0 with
  | none => d
  | some c =>
    let d := ((d.failNvme c 2).count F.NVM_PORT_STATS.TIMEOUTS 1 root).nvmEvent F.NVM_EVENTS.TIMEOUT
    d.resetRoot root 2

/-- ADMIN_TIMEOUT. -/
def execAdminTimeout (root : Nat) (s : State) : Host.Outcome State Fault Refusal := s.act (adminTimeoutEff root)

/-- CONTROLLER_DMA (R365). -/
def controllerDmaEff (root addr bytes : Nat) (write : Bool) (data : List Byte) (d : Device) : Device :=
  if d.dmaOpen root addr bytes then
    (if write then d.store addr (fit bytes data) else d).emit (.dmaAnswer root true (if write then [] else d.bytes addr bytes))
  else
    ((d.count F.NVM_PORT_STATS.DMA_REFUSED 1 root).nvmEvent F.NVM_EVENTS.DMA_REFUSED).emit (.dmaAnswer root false [])

/-- CONTROLLER_DMA. -/
def execControllerDma (root addr bytes : Nat) (write : Bool) (data : List Byte) (s : State) : Host.Outcome State Fault Refusal :=
  s.act (controllerDmaEff root addr bytes write data)

/-- The admin opcodes of R369 as the NVM command set codes them (log entry 22): 0 not allowed, 1 allowed, 2 allowed only
while no enabled extent names the port. -/
def adminAllowed (opcode feature : Nat) : Nat :=
  match opcode with
  | 0x02 | 0x06 | 0x0A => 1
  | 0x09 => if feature = 7 then 0 else 1
  | 0x0D | 0x15 | 0x80 | 0x84 => 2
  | _ => 0

/-- An enabled extent names a root port. -/
def Device.extentOn (d : Device) (p : Nat) : Bool :=
  (d.listed .NVM_EXT_CFG).any fun e => d.on F.NVM_EXT_CFG.ENABLE e && d.fld F.NVM_EXT_CFG.KIND e == 1 && d.fld F.NVM_EXT_CFG.PORT e == p

/-- The device's own parts of a submission entry (R369): the command identifier in bytes 3:2, the metadata pointer in 23:16, which is 0, and
the data pointers in 39:24. -/
def adminEntry (entry : List Byte) (id data : Nat) : List Byte :=
  entry.take 2 ++ leBytes 2 id ++ (entry.drop 4).take 12 ++ leBytes 8 0 ++ leBytes 8 data ++ leBytes 8 0 ++ (entry.drop 40).take 24

/-- NVM_ADMIN_START (R369): `block` is what the device reads of the 4,176-byte block, the entry and the data buffer; `ok` says that it was
read. The buffer goes to the drive where the opcode's bits 1:0 are 01, and comes from it where they are 10 (log entry 22). -/
def nvmAdminStartEff (port p : Nat) (block : List Byte) (ok : Bool) (d : Device) : Device :=
  if d.on F.NVM_ADMIN_STATUS.ACTIVE then d
  else
    let base := d.fld F.NVM_ADMIN_ADDR.ADDR * 4096
    let opcode := fieldAt block 0 1
    let allowed := adminAllowed opcode (fieldAt block 40 1)
    let d := d.emit (.hostRead ⟨port, 0⟩ base 4160)
    let stop := fun (d : Device) (r : Nat) => (d.setFld F.NVM_ADMIN_STATUS.RESULT r).nvmEvent F.NVM_EVENTS.ADMIN_DONE
    if !ok then stop d.hostErr 4
    else if allowed = 0 then stop d 2
    else if d.rootState p ≠ 3 ∨ (allowed = 2 ∧ d.extentOn p = true) then stop d 3
    else
      let d := (d.setFld F.NVM_ADMIN_STATUS.ACTIVE 1).setFld F.NVM_ADMIN_STATUS.RESULT 0
      let d := ({ d with host.adminPort := port } : Device).submit
        { port := p, id := 0, kind := .admin, lba := fieldAt block 40 8, count := 1, offset := base } opcode (fieldAt block 4 4)
      match d.host.nvme.getLast? with
      | some c =>
        let at0 := (c.windows.head?.map (·.1)).getD 0
        let d := if opcode % 4 = 1 ∧ c.windows ≠ [] then d.store at0 (fit 4096 (block.drop 64)) else d
        d.emit (.nvmeEntry p c.id (adminEntry (fit 64 block) c.id at0))
      | none => d

/-- NVM_ADMIN_START. -/
def execNvmAdminStart (port root : Nat) (block : List Byte) (ok : Bool) (s : State) : Host.Outcome State Fault Refusal :=
  s.act fun d => d.asHolder port (nvmAdminStartEff port root block ok)

end Sys2Proof.Machine
end

