-- ==== Sys2Proof/Machine/HoOps.lean ====
section
/-! DEFINITION. Sys2Proof/Machine/HoOps.lean: the handoff logic (spec/12): messages and peers, manifests, the home's record, the
donor's and the recipient's states, and what takes effect at a commit instant or at a turn boundary. -/

namespace Sys2Proof.Machine

/-! ### Entries and what stands beside them -/

/-- What the handoff logic keeps for a descriptor. -/
def Device.hoLoc (d : Device) (i : Nat) : HoLocal := sget {} d.ho.locals i
/-- Replace it. -/
def Device.setHoLoc (d : Device) (i : Nat) (l : HoLocal) : Device := { d with ho.locals := sput {} d.ho.locals i l }
/-- Change it. -/
def Device.modHoLoc (d : Device) (i : Nat) (f : HoLocal → HoLocal) : Device := d.setHoLoc i (f (d.hoLoc i))
/-- Change a handoff entry. -/
def Device.modHo (d : Device) (i : Nat) (f : HoEntry → HoEntry) : Device := d.setHoEntry i (f (d.hoEntry i))

/-- The slot that names a furrow as its own, if any. -/
def Device.slotOf (d : Device) (id : Nat) : Option Nat :=
  (d.gen.slots.find? fun x => x.2.img.state != 0 && (x.2.img.furrow == id || x.2.img.draft == id)).map (·.1)

/-- Set LOCAL_STATE; where the entry is a local view its SINCE, KIND and PENDING go with it. -/
def Device.localTo (d : Device) (i state kind pending : Nat) : Device :=
  d.modHo i fun e =>
    let e := { e with localState := state, furrow := (d.furrow i).id }
    if d.isHome i then e else { e with since := d.turnNo, kind := kind, pending := pending }

/-- A bit of FUR_HO_EVENTS, signalled on FUR_HO_CTRL.VECTOR. -/
def Device.hoEvent (d : Device) (f : Field) : Device := d.eventSig f F.FUR_HO_CTRL.VECTOR

/-- Count a message ignored under R285. -/
def Device.hoStale (d : Device) : Device := d.count F.FUR_HO_STATS.STALE

/-! ### Messages (R283 to R286) -/

/-- A handoff message: its header (Table 12.2) and its body. -/
def Device.hoMsg (d : Device) (id owner ty gen donor rcpt kind reason length xfer : Nat) (body : List Byte) : List Byte :=
  pack [(8, gen), (4, id), (2, d.node), (1, ty), (1, 0x10), (2, donor), (2, rcpt), (1, kind), (1, reason), (2, owner), (8, d.turnNo),
    (8, length), (8, xfer), (16, 0)] ++ body

/-- A message ends with a status other than OK. -/
def Device.hoFail (d : Device) (i node status ty op : Nat) : Device :=
  { d with ho.failed := d.ho.failed ++ [{ desc := i, node := node, status := status, ty := ty, op := op }] }

/-- Send a message's bytes: to the device itself without leaving it, under the same key check (R21, R318; log entry 174), otherwise by an
internal SEND. `op` numbers the offer, push or command it belongs to. -/
def Device.hoRaw (d : Device) (i node cls owner : Nat) (data : List Byte) (op : Nat) : Device :=
  if node = d.node then
    if !d.hasKey owner then d.noKey.hoFail i node 2 (hoType data) op
    else
      let (id, d) := d.newMsgId
      { d with slu.delivered := d.slu.delivered ++ [{ src := node, msgId := id, hdr := { op := 9, owner := owner }, tc := cls, data := data }] }
  else d.internalSend 0 (.handoff i op) node owner cls data

/-- The protocol state of a peer. -/
def Device.peer (d : Device) (node : Nat) : HoPeer := sget {} d.ho.peers node
/-- Replace it. -/
def Device.setPeer (d : Device) (node : Nat) (p : HoPeer) : Device := { d with ho.peers := sput {} d.ho.peers node p }

/-- Send a handoff message under R286: a HELLO goes first, and what follows waits for the peer's; with no common version it fails. -/
def Device.hoSend (d : Device) (i node cls owner : Nat) (data : List Byte) (op : Nat := 0) : Device :=
  let p := d.peer node
  if node = d.node ∨ p.agreed.isSome = true then d.hoRaw i node cls owner data op
  else if p.refused then (d.hoFail i node 0x14 (hoType data) op).hoEvent F.FUR_HO_EVENTS.VERSION
  else
    let d := d.setPeer node { p with sent := true, held := p.held ++ [{ desc := i, cls := cls, owner := owner, data := data, op := op }] }
    if p.sent then d else d.hoRaw i node 4 owner (d.hoMsg (d.furrow i).id owner 0x30 0 0 0 0 0 0 0 []) 0

/-- The messages that waited for a peer's HELLO fail: the peer's protocol state becomes `p` (R286). -/
def Device.dropHeld (d : Device) (node status : Nat) (p : HoPeer) : Device :=
  (d.peer node).held.foldl (fun (d : Device) h => d.hoFail h.desc node status (hoType h.data) h.op) (d.setPeer node p)

/-- Send a message of class 4 about a furrow of this device. -/
def Device.hoCtl (d : Device) (i node ty gen donor rcpt kind reason length : Nat) (body : List Byte := []) (xfer op : Nat := 0) : Device :=
  let f := d.furrow i
  d.hoSend i node 4 f.owner (d.hoMsg f.id f.owner ty gen donor rcpt kind reason length xfer body) op

/-- Refuse a message (Table 12.4). -/
def Device.hoRefuse (d : Device) (i node gen reason : Nat) : Device := d.hoCtl i node 0x36 gen 0 0 0 reason 0

/-- The DATA messages of a transfer (R283): at most 1 MiB each with their header. -/
def Device.hoData (d : Device) (i node gen kind : Nat) (xs : List Byte) (op : Nat) : Device :=
  let f := d.furrow i
  (List.range (ceilDiv xs.length 1048512)).foldl (fun (d : Device) k =>
    d.hoSend i node 2 f.owner (d.hoMsg f.id f.owner 0x32 gen d.node node kind 0 0 (1048512 * k) ((xs.drop (1048512 * k)).take 1048512)) op) d

/-! ### Manifests (R188, R189) -/

/-- The 48 bytes of a digest, in the order of the standard. -/
def digestBytes (h : BitVec 384) : List Byte := leBytes 48 h.toNat

/-- The page indices that a kind carries (1 PUSH, 2 PARK, 3 CLAIM, 4 MOVE). -/
def carriedPages (f : Furrow) (kind : Nat) : List Nat :=
  let n := ceilDiv f.length 256
  (List.range n).filter fun p =>
    if kind = 3 then decide (p < f.sink) || decide (n ≤ p + f.recent) || decide (p + 1 = n) else decide (f.pushed / 256 ≤ p)

/-- The stored bytes of a page that can be read at once: of its frame or its read copy; none of a flash frame, or of a reservoir frame whose
channel's accesses wait. -/
def Device.storedBytes (d : Device) (g : Nat) : Option (List Byte) :=
  let e := d.pte g
  let n := 64 * e.span
  match d.pageAddr g with
  | some a => some (d.readMem a n)
  | none => if d.readable e.tier e.frame n then some (d.tierBytes e.tier e.frame n) else none

/-- The bytes of a furrow's coarse-index region. -/
def indexSize (f : Furrow) : Nat := if f.mode = 0 then 0 else pps f * (scoreDim f.dsz + 4)

/-- A transfer of a kind over a furrow as at the last commit instant (R188, R284): the header up to its DIGEST, the entries and the index of
its manifest, and its pages, of which none has been read. -/
def Device.newSend (d : Device) (i node gen kind op : Nat) : HoSend :=
  let f := d.furrow i
  let pages := (accessOrder f (carriedPages f kind)).filter fun g => let t := (d.pte g).tier; t == 1 || t == 2 || t == 4
  let low := pages.foldl (fun m g => min m ((g - f.base) % pps f)) (ceilDiv f.length 256)
  let entry := fun (g : Nat) =>
    let e := d.pte g
    let p := (g - f.base) % pps f
    (g - f.base) * 2 ^ 96 + e.span * 2 ^ 85 + positionsIn f p * 2 ^ 76 + (b2n e.coded + 2 * b2n e.isOpen + 4 * b2n e.scored) * 2 ^ 72
  { op := op, node := node, gen := gen, kind := kind, pages := pages
    head := pack [(4, 0x5A544D46), (1, kind), (3, 0), (4, 256 * low), (4, pages.length), (8, d.turn.lastCommit), (4, indexSize f),
      (4, 0)] ++ furrowBytes f
    entries := pages.flatMap fun g => leBytes 16 (entry g)
    index := d.bytes f.indexAddr (indexSize f) }

/-- The bytes of a transfer's pages, in the order of its entries. -/
def HoSend.pageBytes (x : HoSend) : List Byte := x.pages.flatMap fun g => sget [] x.got g

/-- Every page of a transfer has been read. -/
def HoSend.whole (x : HoSend) : Bool := x.pages.all fun g => sget [] x.got g != []

/-- The bytes of a transfer (R188): the manifest's header with its DIGEST, its entries, its pages and its index. -/
def HoSend.bytes (x : HoSend) : List Byte :=
  let body := x.entries ++ x.pageBytes ++ x.index
  x.head ++ digestBytes (Config.sha384 (x.head ++ body)) ++ List.replicate 48 0 ++ body

/-- Bytes of a transfer, whose pages' spans its entries give. -/
def HoSend.size (x : HoSend) : Nat :=
  192 + x.entries.length + ((List.range x.pages.length).map fun k => 64 * bitsOf (leValue ((x.entries.drop (16 * k)).take 16)) 85 11).sum +
    x.index.length

/-- Send a transfer: its DATA leaves at once when every page can be read at once, else when the last of them has been read. -/
def Device.beginSend (d : Device) (i : Nat) (x : HoSend) : Device :=
  let (d, x) := x.pages.foldl (fun (acc : Device × HoSend) g =>
    match acc.1.storedBytes g with
    | some bs => (acc.1, { acc.2 with got := sput [] acc.2.got g bs })
    | none => let e := acc.1.pte g; (acc.1.beginLoad i g e.tier e.frame e.span e.coded x.op, acc.2)) (d, x)
  if x.whole then d.hoData i x.node x.gen x.kind x.bytes x.op
  else d.modHoLoc i fun (l : HoLocal) => { l with sends := l.sends ++ [x] }

/-- A transfer belongs to an offer or a push that is still open. -/
def HoLocal.sendLives (l : HoLocal) (x : HoSend) : Bool := (l.tx.any fun t => t.op == x.op) || l.push.any fun p => p.op == x.op

/-- A page that a transfer lists has been read, or could not be: its DATA leaves when it is whole, or the transfer fails (R283, R188). -/
def Device.sendGot (d : Device) (i op g status : Nat) (bs : List Byte) : Device :=
  let l := d.hoLoc i
  match l.sends.find? fun x => x.op == op with
  | none => d
  | some x =>
    let y := { x with got := sput [] x.got g bs }
    let gone := status != 0 || y.whole
    let d := d.setHoLoc i { l with sends := if gone then l.sends.erase x else l.sends.map fun (z : HoSend) => if z = x then y else z }
    if !l.sendLives x then d
    else if status ≠ 0 then d.hoFail i x.node status 0x32 op
    else if y.whole then d.hoData i x.node x.gen x.kind y.bytes op
    else d

/-- The slot image that an offer or a push carries (R290): the naming slot's, or the entry's. -/
def Device.offerImage (d : Device) (i : Nat) : List Byte :=
  match d.slotOf (d.furrow i).id with
  | some k => imageBytes (d.slot k).img
  | none => ((d.hoEntry i).image ++ List.replicate 128 0).take 128

/-! ### Handoff commands (R297) -/

/-- A queue of a kind has an entry to process. -/
def Device.hqFront (d : Device) (q kind : Nat) : Bool :=
  d.on F.HQ_Q_CTRL.ENABLE q && d.fld F.HQ_Q_CTRL.KIND q == kind && d.fld F.HQ_Q_STATUS.HEAD q != (d.hq q).tail

/-- Take the handoff command at HEAD, under the next number. -/
def Device.hoTake (d : Device) (q : Nat) : Device := { d.hqTake q with ho.nextOp := d.ho.nextOp + 1 }

/-- A handoff command ends: RESULT, REASON and GENERATION, and a QUERY's NODE, go into its entry; the vector is signalled. -/
def Device.hoEnd (d : Device) (c : HoCmd) (result reason gen : Nat) (owner : Nat := 0) : Device :=
  let fn := d.ringFn .HQ_Q_BASE c.q
  let a := d.hqEntry c.q c.index
  let d := d.hostWrite fn (a + 1) (pack [(1, result), (1, reason)])
  let d := if c.opcode = 6 && result == 1 then d.hostWrite fn (a + 8) (leBytes 2 owner) else d
  (d.hostWrite fn (a + 24) (leBytes 8 gen)).signal (d.fld F.FUR_HO_CTRL.VECTOR)

/-- A handoff command is running (R384). -/
def Device.hoBusy (d : Device) : Bool :=
  d.ho.locals.any fun x =>
    (x.2.tx.any fun t => t.cmd.isSome || t.auto) || x.2.claim.isSome || x.2.queries != [] || x.2.after.isSome

/-! ### The home's record (R287) -/

/-- OFFER at the home. -/
def Device.homeOffer (d : Device) (i src gen rcpt kind length : Nat) : Device :=
  let e := d.hoEntry i
  if gen ≤ e.gen then d.hoStale
  else if e.homeState = 0 then d
  else if src ≠ e.owner then (if src = e.pending ∧ e.homeState ≠ 1 then d else d.hoRefuse i src gen 1)
  else if gen = e.gen + 1 ∧ (e.homeState = 1 ∨ e.homeState = 2 ∧ rcpt ≠ e.pending) then
    d.setHoEntry i { e with homeState := 2, pending := rcpt, since := d.turnNo, offerLength := length, kind := kind }
  else d

/-- ACCEPT at the home. -/
def Device.homeAccept (d : Device) (i src gen donor kind : Nat) : Device :=
  let e := d.hoEntry i
  if gen ≠ e.gen + 1 then d.hoStale
  else if e.homeState = 0 then d
  else if e.homeState = 1 ∧ donor = e.owner ∨ e.homeState = 2 ∧ src = e.pending then
    d.setHoEntry i { e with homeState := 3, pending := src, since := d.turnNo, kind := kind }
  else if src = e.owner ∨ e.homeState ≠ 1 ∧ src = e.pending then d
  else d.hoRefuse i src gen 1

/-- WITHDRAW at the home. -/
def Device.homeWithdraw (d : Device) (i src gen : Nat) : Device :=
  let e := d.hoEntry i
  if gen ≠ e.gen + 1 then d.hoStale
  else if e.homeState = 2 ∧ src = e.owner then d.setHoEntry i { e with homeState := 1, pending := 0, kind := 0, since := d.turnNo }
  else d

/-! ### Donor (R288 to R290) -/

/-- A party may start an offer of a furrow, or have it wait for its own push (R290). -/
def Device.mayOffer (d : Device) (i : Nat) : Bool :=
  (d.furrow i).state == 1 && (d.hoEntry i).localState == 0 &&
    (match d.slotOf (d.furrow i).id with
     | some k => d.slotState k == 3
     | none => true) && (d.hoLoc i).tx.isNone && ((d.hoLoc i).rx.all fun r => r.push && r.src == d.node) && (d.hoLoc i).after.isNone

/-- The generation a device's messages name for a furrow it owns: its entry's, and 1 at least, which is the record's first. -/
def Device.ownGen (d : Device) (i : Nat) : Nat := max 1 (d.hoEntry i).gen

/-- The number of the next offer, push or command. -/
def Device.newOp (d : Device) : Nat × Device := (d.ho.nextOp, { d with ho.nextOp := d.ho.nextOp + 1 })

/-- The end of a command or of a park of R298. -/
def Device.hoResult (d : Device) (cmd : Option HoCmd) (auto : Bool) (result reason gen : Nat) : Device :=
  let d := match cmd with
    | some c => d.hoEnd c result reason gen
    | none => d
  if auto then d.hoEvent (if result = 1 then F.FUR_HO_EVENTS.PARKED else F.FUR_HO_EVENTS.REFUSED)
  else if result = 2 then d.hoEvent F.FUR_HO_EVENTS.REFUSED
  else d

/-- Start the offer of a furrow (R290, Table 12.6): to the recipient and the home, then the transfer. At a home that is itself the
recipient nothing travels: the record runs through the same states (R21, R292); a device that the furrow names as its home without its
being one refuses its own offer, NOT_OWNER. -/
def Device.startOffer (d : Device) (i kind rcpt : Nat) (cmd : Option HoCmd) (auto : Bool) : Device :=
  let f := d.furrow i
  let gen := d.ownGen i + 1
  let image := d.offerImage i
  let (op, d) := d.newOp
  let t : HoTx := { gen := gen, kind := kind, rcpt := rcpt, cmd := cmd, auto := auto, asked := d.turnNo, op := op }
  let d := (d.modHoLoc i fun (l : HoLocal) => { l with tx := some t }).localTo i 1 kind rcpt
  let d := if d.isHome i then d else d.modHo i fun e => { e with offerLength := f.length }
  if rcpt = d.node ∧ d.isHome i = false then
    ((d.modHoLoc i fun (l : HoLocal) => { l with tx := none }).localTo i 0 0 0).hoResult cmd auto 2 1 (d.hoEntry i).gen
  else if rcpt = d.node then
    let rx : HoRx := { gen := gen, src := d.node, kind := kind, image := image, length := f.length, done := true, turn := d.turn.lastCommit }
    let d := d.modHoLoc i fun (l : HoLocal) => { l with rx := some rx }
    (d.homeOffer i d.node gen rcpt kind f.length).homeAccept i d.node gen d.node kind
  else
    let x := d.newSend i rcpt gen kind op
    let d := d.hoCtl i rcpt 0x31 gen d.node rcpt kind 0 f.length image x.size op
    let d := if d.isHome i then d.homeOffer i d.node gen rcpt kind f.length
      else d.hoCtl i f.home 0x31 gen d.node rcpt kind 0 f.length [] x.size op
    d.beginSend i x

/-- Start an offer, or have it wait while a checkpoint push is outstanding (R290). -/
def Device.offerOrWait (d : Device) (i kind rcpt : Nat) (cmd : Option HoCmd) (auto : Bool) : Device :=
  if (d.hoLoc i).push.isSome then d.modHoLoc i fun (l : HoLocal) => { l with after := some (kind, rcpt, cmd, auto) }
  else d.startOffer i kind rcpt cmd auto

/-- A push is over, accepted or not: an offer that waited for it starts, if it still may. CKPT_LAG clears when the last manifest of the
slot's push is accepted, within one turn of its start. A push that was postponed behind one that is refused or fails waits for the next
due turn (R212, R295). -/
def Device.pushOver (d : Device) (i : Nat) (accepted : Bool) : Device :=
  let l := d.hoLoc i
  let d := d.setHoLoc i { l with push := none, after := none }
  let d := match d.slotOf (d.furrow i).id with
    | some k =>
      let s := d.slot k
      let quick := decide (d.turnNo ≤ (l.push.map (·.turn)).getD 0 + 1)
      if accepted then
        let left := s.pushWait.erase i
        let lag := s.img.ckptLag && !(s.pushWait.contains i && left == [] && quick)
        d.setSlot k { s with pushWait := left, img := { s.img with ckptLag := lag } }
      else d.setSlot k { s with pushDue := false, pushWait := [] }
    | none => d
  match l.after with
  | none => d
  | some (kind, rcpt, cmd, auto) =>
    if d.mayOffer i then d.startOffer i kind rcpt cmd auto
    else if kind = 3 ∧ rcpt ≠ d.node then d.hoRefuse i rcpt (d.hoEntry i).gen 6
    else d.hoResult cmd auto 4 0 (d.hoEntry i).gen

/-- The donor returns to IDLE (Table 12.6): WITHDRAW goes to the home where `withdraw` is set, and the command ends. -/
def Device.txEnd (d : Device) (i result reason : Nat) (withdraw : Bool) : Device :=
  match (d.hoLoc i).tx with
  | none => d
  | some t =>
    let d := (d.modHoLoc i fun (l : HoLocal) => { l with tx := none }).localTo i 0 0 0
    let d := if !withdraw then d
      else if d.isHome i then d.homeWithdraw i d.node t.gen
      else d.hoCtl i (d.furrow i).home 0x3C t.gen d.node t.rcpt t.kind 0 0
    d.hoResult t.cmd t.auto result reason (d.hoEntry i).gen

/-! ### Recipient (R288, R289, R291) -/

/-- Free the frames that a transfer took. -/
def Device.freeTaken (d : Device) (pages : List (Nat × Pte)) : Device := pages.foldl (fun (d : Device) x => d.freePlace x.2.tier x.2.frame) d

/-- The recipient returns to IDLE and frees what it took; a claim ends with a result. -/
def Device.rxDrop (d : Device) (i result reason : Nat) : Device :=
  match (d.hoLoc i).rx with
  | none => d
  | some r =>
    let l := d.hoLoc i
    let d := (d.freeTaken r.pages).setHoLoc i { l with rx := none, claim := if r.push then l.claim else none }
    let d := if r.push || l.tx.isSome then d else d.localTo i 0 0 0
    match if r.push then none else l.claim with
    | some c => d.hoEnd c result reason (d.hoEntry i).gen
    | none => d

/-- Refuse the transfer being received (Table 12.4). -/
def Device.rxRefuse (d : Device) (i reason : Nat) : Device :=
  match (d.hoLoc i).rx with
  | none => d
  | some r => (d.rxDrop i 2 reason).hoRefuse i r.src (if r.push then r.gen - 1 else r.gen) reason

/-- Begin to receive a transfer. -/
def Device.beginRx (d : Device) (i : Nat) (r : HoRx) : Device :=
  let d := { d with ho.placeFailed := d.ho.placeFailed.filter (· != i) }
  let d := d.modHoLoc i fun (l : HoLocal) => { l with rx := some r }
  if r.push then d
  else
    let d := d.localTo i 2 r.kind 0
    d.modHo i fun e => if d.isHome i then e else { e with offerLength := r.length, image := r.image }

/-- OFFER at its recipient. -/
def Device.rxOffer (d : Device) (i : Nat) (r : HoRx) : Device :=
  if r.gen ≤ (d.hoEntry i).gen then d.hoStale
  else if (d.furrow i).state ≠ 2 then d.hoRefuse i r.src r.gen 2
  else if (d.hoEntry i).localState ≠ 0 ∨ (d.hoLoc i).rx.isSome = true then d.hoRefuse i r.src r.gen 6
  else d.beginRx i r

/-- The bytes of a transfer that have come without a gap from its start. -/
def joined : Nat → SMap (List Byte) → List Byte
  | _, [] => []
  | at_, (o, bs) :: rest => if o ≤ at_ then bs.drop (at_ - o) ++ joined (max at_ (o + bs.length)) rest else []

/-- A field of a manifest's header. -/
def manAt (xs : List Byte) (o n : Nat) : Nat := leValue ((xs.drop o).take n)

/-- The manifest's descriptor image has the geometry of a descriptor (Table 12.4, GEOMETRY). -/
def sameGeometry (xs : List Byte) (f : Furrow) : Bool :=
  let own := furrowBytes f
  (xs.drop 48).take 8 == (own.drop 16).take 8 && (xs.drop 60).take 4 == (own.drop 28).take 4

/-- Put a received page's bytes into a frame of its tier, for the transfer of a descriptor: into the reservoir in their turn (R130), into
flash and host spill areas encrypted, with their units' CRC-64s (R114, R119, R185). -/
def Device.placePage (d : Device) (i tier frame span : Nat) (bs : List Byte) : Device :=
  match tier with
  | 1 => d.writeMem (frame * frameBytes) bs
  | 2 => d.postWrite (frameAddr frame) bs (d.furrow i).owner (.carried i)
  | _ =>
    match d.extentOf frame with
    | none => d
    | some x =>
      let k := frame - d.fld F.NVM_EXT_FRAMES.FIRST x
      let bs := fit (4096 * ceilDiv (64 * span) 4096) bs
      if d.fld F.NVM_EXT_CFG.KIND x = 1 then
        let lba := d.fld F.NVM_EXT_ADDR.ADDR x + 16 * k
        let c : NvmeCmd := { port := d.fld F.NVM_EXT_CFG.PORT x, id := 0, kind := .write, eng := hoEngine, ctx := i, lba := lba,
                             count := ceilDiv (64 * span) 4096 }
        d.submitWrite c (d.fld F.NVM_EXT_CFG.NSID x) (d.sealFlash c.port (d.fld F.NVM_EXT_CFG.NSID x) lba 0 bs)
      else d.spillWrite x ⟨d.fld F.NVM_EXT_CFG.PORT x, d.fld F.NVM_EXT_CFG.FUNCTION x⟩ (d.fld F.NVM_EXT_ADDR.ADDR x + 65536 * k) bs

/-- A write of a page that the transfer of a descriptor places has still to end. -/
def Device.placing (d : Device) (i : Nat) : Bool :=
  (d.host.nvme.any fun c => c.eng == hoEngine && c.ctx == i) || d.pim.chans.any fun k => k.2.waiting.any fun a => a.use == .carried i

/-- A frame for a carried page (R291): the open page in the tier of OPEN_HW, a closed one in the reservoir, then in flash. -/
def Device.takeCarried (d : Device) (f : Furrow) (isOpen : Bool) : Option (Nat × Nat × Device) :=
  if isOpen && f.openHw then (d.allocFrame poolHw 0 f.owner).map fun (a, d) => (1, a / frameBytes, d)
  else
    ((d.allocFrame poolRes 0 f.owner).map fun (a, d) => (2, frameOf a, d)).orElse fun _ =>
      if isOpen then none else (d.allocFrame poolFlash 0 f.owner).map fun (fr, d) => (4, fr, d)

/-- Take frames for the carried pages of a descriptor's transfer and place their bytes: the pages placed, and whether all were. -/
def Device.placeCarried (d : Device) (i : Nat) (f : Furrow) : List Nat → List Byte → List (Nat × Pte) → Device × List (Nat × Pte) × Bool
  | [], _, acc => (d, acc, true)
  | w :: ws, bs, acc =>
    let isOpen := w.testBit 73
    let span := bitsOf w 85 11
    match d.takeCarried f isOpen with
    | none => (d, acc, false)
    | some (tier, frame, d) =>
      let e : Pte := { tier := tier, isOpen := isOpen, coded := w.testBit 72, span := span, frame := frame, lastUse := d.useStamp }
      (d.placePage i tier frame span (bs.take (64 * span))).placeCarried i f ws (bs.drop (64 * span)) (acc ++ [(f.base + w / 2 ^ 96, e)])

/-- Every page of a verified transfer has been placed: ACCEPT goes to the home (R291, Table 12.6); a push waits for the home's commit
instant. A write that has failed fails the transfer (Table 12.4). -/
def Device.rxPlaced (d : Device) (i : Nat) : Device :=
  match (d.hoLoc i).rx with
  | none => d
  | some r =>
    if !r.placing || d.placing i then d
    else
      let bad := d.ho.placeFailed.contains i
      let d := { d with ho.placeFailed := d.ho.placeFailed.filter (· != i) }
      if bad then d.rxRefuse i 9
      else
        let r := { r with placing := false, done := true, asked := d.turnNo }
        let d := d.modHoLoc i fun (l : HoLocal) => { l with rx := some r }
        if r.push then d
        else
          let d := d.localTo i 3 r.kind 0
          if d.isHome i then d.homeAccept i d.node r.gen r.src r.kind
          else d.hoCtl i (d.furrow i).home 0x33 r.gen r.src d.node r.kind 0 0

/-- A page's entry is replaced by a received one; its granule has its page-table frame. -/
def Device.installPage (d : Device) (g : Nat) (e : Pte) : Device := (d.freePage g).setPte g e

/-- Page-table frames for every granule that the pages of a transfer touch: none when the RESERVOIR pool has none left (R158, R291). -/
def Device.granuleFrames (d : Device) (owner : Nat) : List Nat → Option Device
  | [] => some d
  | g :: gs => (d.granuleFrame (g / 4096) owner 0).bind fun d => d.granuleFrames owner gs

/-- The pages that get REMOTE entries at a recipient other than the home: those with positions that the manifest does not carry (R189). -/
def Device.remotePages (d : Device) (i length : Nat) (carried : List Nat) : List Nat :=
  let f := d.furrow i
  if f.home = d.node then [] else (accessOrder f (List.range (ceilDiv length 256))).filter fun g => !carried.contains g

/-- The transfer has come whole: frames are taken and filled, and the digest is compared (R291). -/
def Device.rxComplete (d : Device) (i : Nat) (r : HoRx) (xs : List Byte) : Device :=
  let f := d.furrow i
  let n := manAt xs 12 4
  let words := (List.range n).map fun k => manAt xs (192 + 16 * k) 16
  let bytes := (words.map fun w => 64 * bitsOf w 85 11).sum
  let listed := words.map fun w => f.base + w / 2 ^ 96
  match d.granuleFrames f.owner (listed ++ d.remotePages i (manAt xs 40 4) listed) with
  | none => d.rxRefuse i 4
  | some d =>
  let (d, pages, ok) := d.placeCarried i f words (xs.drop (192 + 16 * n)) []
  if !ok then ((d.freeTaken pages).rxRefuse i 4)
  else if digestBytes (Config.sha384 (xs.take 96 ++ xs.drop 192)) ≠ (xs.drop 96).take 48 then (d.freeTaken pages).rxRefuse i 5
  else
    let r := { r with placing := true, pages := pages, index := (xs.drop (192 + 16 * n + bytes)).take (manAt xs 24 4),
                      length := manAt xs 40 4, pushed := manAt xs 44 4, turn := manAt xs 16 8, got := [] }
    (d.modHoLoc i fun (l : HoLocal) => { l with rx := some r }).rxPlaced i

/-- DATA at its recipient. -/
def Device.rxData (d : Device) (i src gen offset : Nat) (body : List Byte) : Device :=
  if gen ≤ (d.hoEntry i).gen then d.hoStale
  else
    match (d.hoLoc i).rx with
    | none => d
    | some r =>
      if r.gen ≠ gen ∨ r.src ≠ src ∨ r.done = true ∨ r.placing = true then d
      else
        let r := { r with got := sput [] r.got offset body }
        let d := d.modHoLoc i fun (l : HoLocal) => { l with rx := some r }
        let xs := joined 0 r.got
        if 192 ≤ xs.length ∧ sameGeometry xs (d.furrow i) = false then d.rxRefuse i 3
        else if xs.length ≥ r.total then d.rxComplete i r (xs.take r.total)
        else d

/-- The received pages and index take effect (R189, R291, R169): carried pages, the index, REMOTE entries for what the manifest does not
carry (not at the home itself), and index entries and score forms of closed pages. -/
def Device.applyPages (d : Device) (i : Nat) (r : HoRx) : Device :=
  let f := d.furrow i
  let d := r.pages.foldl (fun (d : Device) x => d.installPage x.1 x.2) d
  let d := if f.mode = 0 then d else d.putIndex f.indexAddr (r.index.take (indexSize f))
  let d := (d.remotePages i r.length (r.pages.map (·.1))).foldl (fun (d : Device) g =>
    d.installPage g { tier := 3, span := 1024, node := f.home, lastUse := d.useStamp }) d
  (r.pages.filter fun x => !x.2.isOpen && decide ((x.1 - f.base) / pps f = f.rankStream)).foldl (fun (d : Device) x =>
    d.indexAndScore i ((x.1 - f.base) % pps f)) d

/-! ### Commit instants at the home (R287, R295, R296) -/

/-- A GRANT or a RELEASE that the next boundary applies. -/
def Device.grantDue (d : Device) (i gen : Nat) : Device := d.modHoLoc i fun (l : HoLocal) => { l with granted := some gen }
/-- As for a GRANT. -/
def Device.releaseDue (d : Device) (i gen : Nat) : Device := d.modHoLoc i fun (l : HoLocal) => { l with released := some gen }

/-- A verified push takes effect at the home's commit instant. -/
def Device.commitPush (d : Device) (i : Nat) : Device :=
  match (d.hoLoc i).rx with
  | none => d
  | some r =>
    let e := d.hoEntry i
    if !(r.push && r.done) then d
    else
      let d := d.modHoLoc i fun (l : HoLocal) => { l with rx := none }
      if (e.homeState = 1 ∨ e.homeState = 2) ∧ e.owner = r.src ∧ e.gen + 1 = r.gen then
        let d := if r.src = d.node then d else d.applyPages i r
        let d := (d.setHoEntry i { e with held := r.length, heldTurn := r.turn, image := r.image }).count F.FUR_HO_STATS.COMMITS
        if r.src = d.node then (d.modHoLoc i fun (l : HoLocal) => { l with pushed := some r.length }).pushOver i true
        else d.hoCtl i r.src 0x3B e.gen 0 0 0 0 0
      else (d.freeTaken r.pages).hoRefuse i r.src (r.gen - 1) 1

/-- An ACCEPTED record takes effect: the new owner, GRANT and RELEASE, and the home's own descriptor (R295, Table 12.8). -/
def Device.commitAccepted (d : Device) (i : Nat) : Device :=
  let e := d.hoEntry i
  if e.homeState ≠ 3 then d
  else
    let g := e.gen + 1
    let e2 := { e with homeState := 1, owner := e.pending, gen := g, pending := 0, kind := 0, since := d.turnNo }
    let mine := decide (e.pending = d.node)
    let rx := (d.hoLoc i).rx
    let d := match rx with
      | some r =>
        if mine && r.done && !r.push then
          let d := if r.src = d.node then d else d.applyPages i r
          let held := e.kind == 2
          let d := d.setHoEntry i (if held then { e2 with held := r.length, heldTurn := r.turn, image := r.image } else e2)
          d.setFurrow i { d.furrow i with state := 1, length := r.length, pushed := if e.kind = 4 then r.pushed else r.length }
        else d.setHoEntry i e2
      | none => d.setHoEntry i e2
    let d := d.count F.FUR_HO_STATS.COMMITS
    let d := if e.owner = d.node ∧ mine = false then d.setFurrow i { d.furrow i with state := 2 } else d
    let d := if mine then d.grantDue i g else d.hoCtl i e.pending 0x34 g e.owner e.pending e.kind 0 0
    if e.owner = d.node then d.releaseDue i g else d.hoCtl i e.owner 0x35 g e.owner e.pending e.kind 0 0

/-- Step 3 of a commit instant: every record of the home that changes. -/
def Device.commitHandoffs (d : Device) : Device :=
  (d.ho.entries.map (·.1)).foldl (fun (d : Device) i =>
    if d.isHome i && (d.furrow i).state != 0 then (d.commitPush i).commitAccepted i else d) d

/-! ### Turn boundaries (R288, R296, R298) -/

/-- Destroy a furrow that a RELEASE has taken away, once nothing of it is in flight; a CANCELLED slot that names it keeps the
descriptor until its CLOSE. -/
def Device.dieFurrow (d : Device) (i : Nat) : Device :=
  let f := d.furrow i
  if !d.furrowQuiet i then d.setFurrow i { f with state := 3 }
  else
    let keep := (d.slotOf f.id).isSome
    let d := ({ d with fur.dying := d.fur.dying.filter (· != i) } : Device).freeFurrow i
    if keep then d.setFurrow i { f with state := 3, openScore := 0 } else d

/-- A RELEASE takes effect (Table 12.8): the naming slot is FREE, the furrow is destroyed, the command ends. -/
def Device.releaseEffect (d : Device) (i gen : Nat) : Device :=
  match (d.hoLoc i).tx with
  | none => d.modHoLoc i fun (l : HoLocal) => { l with released := none }
  | some t =>
    let d := (d.modHoLoc i fun (l : HoLocal) => { l with tx := none, released := none }).localTo i 0 0 0
    let d := if d.isHome i then d else d.modHo i fun e => { e with gen := gen, owner := if gen = t.gen then t.rcpt else (d.furrow i).home }
    let d := match d.slotOf (d.furrow i).id with
      | some k => if d.slotState k = 3 then d.freeSlot k else d
      | none => d
    let d := if t.kind = 3 ∨ d.isHome i = true then d
      else ({ d with fur.dying := d.fur.dying ++ [i] } : Device).dieFurrow i
    (d.hoEvent F.FUR_HO_EVENTS.RELEASED).hoResult t.cmd t.auto (if gen = t.gen then 1 else 7) 0 gen

/-- A GRANT takes effect (Table 12.8): the furrow is OWNED; a claim's slot image goes to its ADDR. -/
def Device.grantEffect (d : Device) (i gen : Nat) : Device :=
  match (d.hoLoc i).rx with
  | none => d.modHoLoc i fun (l : HoLocal) => { l with granted := none }
  | some r =>
    let l := d.hoLoc i
    let d := (d.setHoLoc i { l with rx := none, granted := none, claim := none })
    let d := if l.tx.isSome then d else d.localTo i 0 0 0
    let d := if d.isHome i then d
      else
        let d := d.modHo i fun e => { e with gen := gen, owner := d.node }
        let d := d.applyPages i r
        d.setFurrow i { d.furrow i with state := 1, length := r.length, pushed := if r.kind = 4 then r.pushed else r.length }
    let d := d.hoEvent F.FUR_HO_EVENTS.GRANTED
    match l.claim with
    | some c => (d.hostWrite ⟨c.port, 0⟩ c.addr ((r.image ++ List.replicate 128 0).take 128)).hoEnd c 1 0 gen
    | none => d

/-- The party's part of what a message that failed means for it (R283, R288, R286): it ends what it belongs to, and nothing that came
after that. -/
def Device.hoFailure (d : Device) (x : HoFailed) : Device :=
  let i := x.desc
  let l := d.hoLoc i
  if x.ty = 0x30 then d.dropHeld x.node x.status {}
  else if x.op = 0 then d
  else if l.push.any fun p => p.op == x.op then d.pushOver i false
  else if l.tx.any fun t => t.op == x.op then d.txEnd i 6 x.status true
  else
    let d := match l.claim with
      | some c =>
        if c.op = x.op ∧ l.rx.isNone = true then (d.setHoLoc i { l with claim := none }).hoEnd c 6 x.status (d.hoEntry i).gen else d
      | none => d
    let mine := l.queries.filter fun c => c.op == x.op
    let d := d.modHoLoc i fun (l : HoLocal) => { l with queries := l.queries.filter fun c => c.op != x.op }
    mine.foldl (fun (d : Device) c => d.hoEnd c 6 x.status (d.hoEntry i).gen) d

/-- Act on the failures noted, `n` of them at most. -/
def Device.hoFailures : Nat → Device → Device
  | 0, d => d
  | n + 1, d =>
    match d.ho.failed with
    | [] => d
    | x :: rest => Device.hoFailures n ((({ d with ho.failed := rest } : Device)).hoFailure x)

/-- Act on the transfers whose last page has been placed, on every failure noted so far, and on those that follow from a HELLO's. -/
def Device.settleHandoffs (d : Device) : Device :=
  let d := (d.ho.locals.map (·.1)).foldl (fun (d : Device) i => d.rxPlaced i) d
  Device.hoFailures (2 * d.ho.failed.length + (d.ho.peers.map fun p => p.2.held.length).sum) d

/-- What the handoff logic does at a turn boundary, before its slot and furrow commands (R288, R295, R296, R298). -/
def Device.hoBoundary (d : Device) : Device :=
  let d := d.settleHandoffs
  let keys := d.ho.locals.map (·.1)
  let d := keys.foldl (fun (d : Device) i =>
    let l := d.hoLoc i
    let d := match l.granted with
      | some g => d.grantEffect i g
      | none => d
    let d := match l.released with
      | some g => d.releaseEffect i g
      | none => d
    match l.pushed with
    | some n => (d.modHoLoc i fun (l : HoLocal) => { l with pushed := none }).setFurrow i { d.furrow i with pushed := n }
    | none => d) d
  let d := d.fur.dying.foldl (fun (d : Device) i => d.dieFurrow i) d
  let parks := d.ho.park
  parks.foldl (fun (d : Device) k =>
    match d.ownedById (d.slot k).img.furrow with
    | some i => if d.slotState k = 3 && d.mayOffer i && !d.isShadow then d.offerOrWait i 2 (d.furrow i).home none true
                else d.hoEvent F.FUR_HO_EVENTS.REFUSED
    | none => d.hoEvent F.FUR_HO_EVENTS.REFUSED) { d with ho.park := [] }

/-- A turn boundary stands, or the turn unit is IDLE: slot and furrow commands may be processed (R161, R196, R356). -/
def Device.atBoundary (d : Device) : Bool := d.turn.due.isSome || d.fld F.TURN_STATUS.STATE == 0

/-- The effects that come before the commands of a boundary (R356): once at each. While IDLE they come with each command. -/
def Device.boundary (d : Device) : Device :=
  if d.turn.due.isSome && d.turn.prelude then d
  else
    let d := d.hoBoundary.furrowBoundary
    { d with turn.prelude := d.turn.due.isSome }

/-- Start a checkpoint push of a furrow with a slot image (R212): PUSH and its transfer, a manifest of a kind, go to the home; at the home
itself nothing travels. -/
def Device.startPush (d : Device) (i kind : Nat) (image : List Byte) : Device :=
  let f := d.furrow i
  let gen := d.ownGen i
  let (op, d) := d.newOp
  let p : HoPush := { gen := gen, turn := d.turnNo, length := f.length, op := op }
  let d := d.modHoLoc i fun (l : HoLocal) => { l with push := some p }
  if f.home = d.node then
    let r : HoRx := { gen := gen + 1, src := d.node, kind := 1, push := true, image := image, length := f.length, done := true,
                      turn := d.turn.lastCommit }
    if d.isHome i && (d.hoLoc i).rx.isNone then d.modHoLoc i fun (l : HoLocal) => { l with rx := some r } else d.pushOver i false
  else
    let x := d.newSend i f.home (gen + 1) kind op
    (d.hoCtl i f.home 0x3A gen d.node f.home kind 0 0 image x.size op).beginSend i x

end Sys2Proof.Machine
end

