-- ==== Sys2Proof/Machine/Conf.lean ====
section
/-! DEFINITION. Sys2Proof/Machine/Conf.lean: the CFG_ commands (R384 to R386) and the census (R390 to R392). -/

namespace Sys2Proof.Machine

/-! ### CFG_ commands -/

/-- Begin a CFG_ command (R384): ignored while one runs. It ends STATE at once when the rider is not running to carry it out
(R401, R431). -/
def Device.cfgBegin (d : Device) (opcode : Nat) (failed : Field) (f : Device → Device) : Device :=
  if d.on F.CFG_CMD_STATUS.ACTIVE then d
  else
    let d := (d.setFld F.CFG_CMD_STATUS.OPCODE opcode).setFld F.CFG_CMD_STATUS.BUSY_WHY 0
    let d := d.setFld F.CFG_CMD_STATUS.RESULT 0
    if d.fld F.RIDE_STATUS.STATE ≠ 2 then
      let d := if opcode = 1 then d.setFld F.CFG_STATUS.RESULT 0x0A else d
      (d.setFld F.CFG_CMD_STATUS.RESULT 0x0A).eventSig failed F.CFG_CTRL.VECTOR
    else f (d.setFld F.CFG_CMD_STATUS.ACTIVE 1)

/-- End a CFG_ command with a result, its event and the vector. -/
def Device.cfgEnd (d : Device) (result : Nat) (ok failed : Field) : Device :=
  ((d.setFld F.CFG_CMD_STATUS.ACTIVE 0).setFld F.CFG_CMD_STATUS.RESULT result).eventSig (if result = 1 then ok else failed)
    F.CFG_CTRL.VECTOR

/-- The drain conditions of R384 that fail, bits 0 to 5. -/
def Device.busyWhy (d : Device) : Nat :=
  b2n (d.fld F.TURN_STATUS.STATE != 0) + 2 * b2n (d.liveSlots != []) + 4 * b2n (d.fur.desc.any fun x => x.2.state != 0) +
    8 * b2n (d.slu.regions.any fun x => x.2.state != 0) + 16 * b2n (d.slu.ctxs != [] || d.slu.waiting != [] || d.hoBusy) +
    32 * b2n (d.pim.chans.any (fun x => x.2.entryQ ++ x.2.hold0 ++ x.2.maintQ ++ x.2.hold1 != []) || d.on F.PIM_DQ_CTRL.ENABLE)

/-- PROFILE_SWITCH (R384, R385, step 1): BUSY with the failing conditions, or SWITCHING. -/
def profileSwitchEff (slot : Nat) (d : Device) : Device :=
  d.cfgBegin 1 F.CFG_EVENTS.SWITCH_FAILED fun d =>
    let why := d.busyWhy
    if why ≠ 0 then
      ((d.setFld F.CFG_CMD_STATUS.BUSY_WHY why).setFld F.CFG_STATUS.RESULT 0x09).cfgEnd 0x09 F.CFG_EVENTS.SWITCH_DONE F.CFG_EVENTS.SWITCH_FAILED
    else
      { d.setFld F.CFG_STATUS.STATE 2 with cfg.switchTo := some (slot % 4), err.pushing := true, err.pushSwitch := true }

/-- PROFILE_SWITCH. -/
def execProfileSwitch (port slot : Nat) (s : State) : Host.Outcome State Fault Refusal :=
  s.act fun d => d.asHolder port (profileSwitchEff slot) true

/-- PROFILE_SWITCH_DONE (R385, Table 16.5): the target is verified; on a failure the old image stays; otherwise the retention area is
pushed unless RETENTION_PUSH has done so, and the new image is applied. -/
def profileSwitchDoneEff (flashOk hostTook nvmeTook : Bool) (d : Device) : Device :=
  match d.cfg.switchTo with
  | none => d
  | some slot =>
    let result := d.slotResult slot flashOk
    let d := (({ d with cfg.switchTo := none } : Device).showSlot slot result).setFld F.CFG_STATUS.RESULT result
    match sget none d.cfg.slots slot with
    | some im =>
      if result = 1 then
        let d := if d.err.pushSwitch then d.pushRetention hostTook nvmeTook else d
        let d := Device.restartTimer d ((d.setFld F.CFG_STATUS.ACTIVE_SLOT slot).clearForSwitch.applyImage im)
        d.cfgEnd 1 F.CFG_EVENTS.SWITCH_DONE F.CFG_EVENTS.SWITCH_FAILED
      else
        (({ d with err.pushing := false, err.pushSwitch := false } : Device).setFld F.CFG_STATUS.STATE
          (b2n d.cfg.image.isSome)).cfgEnd result F.CFG_EVENTS.SWITCH_DONE F.CFG_EVENTS.SWITCH_FAILED
    | none =>
      (({ d with err.pushing := false, err.pushSwitch := false } : Device).setFld F.CFG_STATUS.STATE
        (b2n d.cfg.image.isSome)).cfgEnd result F.CFG_EVENTS.SWITCH_DONE F.CFG_EVENTS.SWITCH_FAILED

/-- PROFILE_SWITCH_DONE. -/
def execProfileSwitchDone (flashOk hostTook nvmeTook : Bool) (s : State) : Host.Outcome State Fault Refusal :=
  s.act (profileSwitchDoneEff flashOk hostTook nvmeTook)

/-- SLOT_WRITE (R386): STATE for the active slot, CONTENT beyond 56 MiB; otherwise the slot is erased and the image is streamed in. -/
def slotWriteEff (port slot bytes : Nat) (d : Device) : Device :=
  d.cfgBegin 2 F.CFG_EVENTS.SLOT_WRITE_FAILED fun d =>
    let ends := fun (r : Nat) => d.cfgEnd r F.CFG_EVENTS.SLOT_WRITTEN F.CFG_EVENTS.SLOT_WRITE_FAILED
    if slot % 4 = d.fld F.CFG_STATUS.ACTIVE_SLOT then ends 0x0A
    else if bytes > 0x3800000 then ends 0x07
    else
      let d := ({ d with cfg.slots := sput none d.cfg.slots (slot % 4) none, cfg.writing := some (slot % 4, bytes) } : Device).showSlot
        (slot % 4) 0x0D
      d.emit (.hostRead ⟨port, 0⟩ (d.fld F.CFG_CMD_ADDR.ADDR * 4096) bytes)

/-- SLOT_WRITE. -/
def execSlotWrite (port slot bytes : Nat) (s : State) : Host.Outcome State Fault Refusal :=
  s.act fun d => d.asHolder port (slotWriteEff port slot bytes) true

/-- SLOT_WRITE_DONE (R386): the programmed copy is checked under R379; a host or flash failure leaves the slot EMPTY. -/
def slotWriteDoneEff (image : List Byte) (sections : Sections) (hostOk flashOk : Bool) (d : Device) : Device :=
  match d.cfg.writing with
  | none => d
  | some (slot, bytes) =>
    let d := { d with cfg.writing := none }
    let image := imageOfBytes (fit bytes image) sections
    let ends := fun (d : Device) (r : Nat) =>
      (d.showSlot slot r).cfgEnd r F.CFG_EVENTS.SLOT_WRITTEN F.CFG_EVENTS.SLOT_WRITE_FAILED
    if !hostOk then ends d.hostErr 0x0B
    else if !flashOk then ends d 0x0C
    else
      let d := { d with cfg.slots := sput none d.cfg.slots slot (some image) }
      ends d (imageCheck d.part image)

/-- SLOT_WRITE_DONE. -/
def execSlotWriteDone (image : List Byte) (sections : Sections) (hostOk flashOk : Bool) (s : State) : Host.Outcome State Fault Refusal :=
  s.act (slotWriteDoneEff image sections hostOk flashOk)

/-! ### Census -/

/-- The 128 bytes of a census reply (Table 16.8). -/
def Device.censusReply (d : Device) (job census : Nat) : List Byte :=
  let im := d.cfg.image
  let flags := b2n (job == d.fld F.TURN_JOB.JOB_ID) + 2 * b2n (im.any (·.shadow)) + 4 * b2n (im.any (·.home)) +
    8 * d.fld F.TURN_JOB.TURN_ROOT + 16 * d.fld F.TURN_JOB.SEAL_ROOT
  pack [(1, 0x52), (1, d.fld F.CFG_STATUS.STATE), (1, if d.on F.TURN_EVENTS.CONFIG_MISMATCH then 0x0B else 0), (1, flags),
    (2, d.node), (2, d.fld F.TURN_JOB.JOB_ID), (8, census), (8, d.turnNo), (8, (d.reg .ID_REV).toNat), (8, (d.reg .FEATURE).toNat),
    (2, (im.map (·.epoch)).getD 0), (1, d.fld F.CFG_STATUS.ACTIVE_SLOT), (5, 0), (48, (im.map fun (i : Image) => i.cfgDigest.toNat).getD 0), (32, 0)]

/-- The 32 bytes of a census query (Table 16.7). -/
def censusQuery (scope initiator job census : Nat) : List Byte :=
  pack [(1, 0x51), (1, scope), (2, initiator), (2, job), (2, 0), (8, census), (16, 0)]

/-- The peer nodes of the seal children: the peer of link 2k of each port k. -/
def Device.sealPeers (d : Device) : List Nat :=
  (d.children F.TURN_SEAL_CHILDREN.PORTS).map fun k => d.fld F.FAB_LINK_STATUS.PEER_NODE (2 * k)

/-- Place a record in the census array (R392), in order of arrival. -/
def Device.placeCensus (d : Device) (i : Nat) (bs : List Byte) : Device :=
  (d.hostWrite (d.ringFn .CFG_CENSUS_BASE) (d.fld F.CFG_CENSUS_BASE.ADDR * 4096 + 128 * i) bs).countSat F.CFG_CENSUS_STATUS.RECEIVED

/-- CENSUS_START (R392): the device's own record first, then its queries; ignored while a census runs or for a reserved SCOPE
(R395). -/
def censusStartEff (scope first last : Nat) (d : Device) : Device :=
  if d.on F.CFG_CENSUS_STATUS.ACTIVE || !(scope == 1 || scope == 2) then d
  else
    let id := d.cfg.censusNo + 1
    let job := if scope = 1 then d.fld F.TURN_JOB.JOB_ID else 0
    let d := (({ d with cfg.censusNo := id, cfg.census := some (id, [d.node]) } : Device).setReg .CFG_CENSUS_STATUS 0 0).setFld
      F.CFG_CENSUS_STATUS.ACTIVE 1
    let d := d.placeCensus 0 (d.censusReply job id)
    let asked :=
      if scope = 1 then d.sealPeers
      else ((List.range (last + 1 - first)).map (first + ·)).filter fun n => (d.activeBank.entry n).testBit 31 && n != d.node
    asked.foldl (fun d n => (d.sendBare n 4 (censusQuery scope d.node job id)).count F.CFG_CENSUS_STATUS.SENT) d

/-- CENSUS_START. -/
def execCensusStart (port scope first last : Nat) (s : State) : Host.Outcome State Fault Refusal :=
  s.act fun d => d.asHolder port (censusStartEff scope first last) true

/-- CENSUS_QUERY (R391, Table 16.7): answered whatever the device's state, and for JOB passed on once to its own seal children. -/
def censusQueryEff (payload : List Byte) (d : Device) : Device :=
  let scope := fieldAt payload 1 1
  let initiator := fieldAt payload 2 2
  let job := fieldAt payload 4 2
  let census := fieldAt payload 8 8
  if d.node = 0xFFFF ∨ fieldAt payload 0 1 ≠ 0x51 then d
  else
    let seen := d.cfg.queries.contains (initiator, census)
    let d := { d with cfg.queries := ((initiator, census) :: d.cfg.queries).take 16 }
    let d := d.sendBare initiator 4 (d.censusReply job census)
    if scope = 1 ∧ job = d.fld F.TURN_JOB.JOB_ID ∧ seen = false then
      d.sealPeers.foldl (fun d n => d.sendBare n 4 (fit 32 payload)) d
    else d

/-- CENSUS_QUERY. -/
def execCensusQuery (payload : List Byte) (s : State) : Host.Outcome State Fault Refusal := s.act (censusQueryEff payload)

/-- CENSUS_REPLY (R392): placed, or dropped and counted when its node is recorded already or the array is full. A reply to another
census does nothing. -/
def censusReplyEff (payload : List Byte) (d : Device) : Device :=
  match d.cfg.census with
  | none => d
  | some (id, nodes) =>
    let node := fieldAt payload 4 2
    if fieldAt payload 0 1 ≠ 0x52 ∨ fieldAt payload 8 8 ≠ id % 2 ^ 64 then d
    else if nodes.contains node || decide (nodes.length ≥ 2 ^ d.fld F.CFG_CENSUS_BASE.LOG2_SIZE) then
      d.countSat F.CFG_CENSUS_STATUS.DROPPED
    else
      let im := d.cfg.image
      let differs := fieldAt payload 48 48 != (im.map fun (i : Image) => i.cfgDigest.toNat).getD 0 || fieldAt payload 40 2 != (im.map (·.epoch)).getD 0
      let d := ({ d with cfg.census := some (id, nodes ++ [node]) } : Device).placeCensus nodes.length (payload.take 128)
      if differs then d.count F.CFG_CENSUS_STATUS.MISMATCHED else d

/-- CENSUS_REPLY. -/
def execCensusReply (payload : List Byte) (s : State) : Host.Outcome State Fault Refusal := s.act (censusReplyEff payload)

/-- CENSUS_END (R392): 10 ms after the last query left. -/
def censusEndEff (d : Device) : Device :=
  if d.on F.CFG_CENSUS_STATUS.ACTIVE then
    (({ d with cfg.census := none } : Device).setFld F.CFG_CENSUS_STATUS.ACTIVE 0).eventSig F.CFG_EVENTS.CENSUS_DONE F.CFG_CTRL.VECTOR
  else d

/-- CENSUS_END. -/
def execCensusEnd (s : State) : Host.Outcome State Fault Refusal := s.act censusEndEff

end Sys2Proof.Machine
end

