-- ==== Sys2Proof/Machine/Approx.lean ====
section
/-! DEFINITION. Sys2Proof/Machine/Approx.lean: results that the spec bounds and does not fix. The transcendental functions
(R57, Table 3.3) and the sums of R62 and R64 give a free value that lies inside the bound; a free value outside it is
replaced by the exact result, rounded. The functions are computed in rationals, far more closely than any bound. -/

namespace Sys2Proof.Machine

/-! ### Rational values -/

/-- 2^e. -/
def pow2 (e : Int) : Rat := (2 : Rat) ^ e

/-- A finite value as a rational; 0 for the others. -/
def Fv.toRat : Fv → Rat
  | .fin s m e => if s then -(m * pow2 e) else m * pow2 e
  | _ => 0

/-- The value is finite. -/
def Fv.finite : Fv → Bool
  | .fin .. => true
  | _ => false

/-- A rational cut to a multiple of 2^-240, towards zero. -/
def Fv.ofRat (x : Rat) : Fv := .fin (decide (x < 0)) (x.abs * pow2 240).floor.natAbs (-240)

/-- The series of e^y from the factor 1/k, of `n` terms. -/
def expSeries (y : Rat) : Nat → Nat → Rat
  | 0, _ => 1
  | n + 1, k => 1 + y / k * expSeries y n (k + 1)

/-- The series z2^0/k + z2^1/(k + 2) + …, of `n` terms. -/
def oddSeries (z2 : Rat) : Nat → Nat → Rat
  | 0, _ => 0
  | n + 1, k => 1 / (k : Rat) + z2 * oddSeries z2 n (k + 2)

/-- The alternating series 1 − y2/(k(k + 1)) + …, of `n` terms: the cosine from k = 1, and the sine over y from k = 2. -/
def altSeries (y2 : Rat) : Nat → Nat → Rat
  | 0, _ => 1
  | n + 1, k => 1 - y2 / (k * (k + 1) : Nat) * altSeries y2 n (k + 2)

/-- ln ((1 + z)/(1 − z)) for |z| at most 1/3. -/
def lnSeries (z : Rat) : Rat := 2 * z * oddSeries (z * z) 40 1

/-- ln 2. -/
def ln2 : Rat := lnSeries (1 / 3)

/-- π to 35 decimals. -/
def piRat : Rat := 314159265358979323846264338327950288 / 10 ^ 35

/-- 2^x. -/
def exp2Rat (x : Rat) : Rat := pow2 x.floor * expSeries ((x - x.floor) * ln2) 30 1

/-- log2 of m × 2^e for a positive m. -/
def log2Rat (m : Nat) (e : Int) : Rat :=
  let n := Nat.log2 m
  let u : Rat := m * pow2 (-n)
  (e + n : Int) + lnSeries ((u - 1) / (u + 1)) / ln2

/-- 1/√x of a positive x. -/
def rsqrtRat (x : Rat) : Rat := (Nat.sqrt (pow2 400 / x).floor.natAbs : Rat) * pow2 (-200)

/-- tanh x. -/
def tanhRat (x : Rat) : Rat :=
  let t := if x.abs > 16 then 1 else
    let e := expSeries (x.abs / 16) 30 1 ^ 32
    (e - 1) / (e + 1)
  if x < 0 then -t else t

/-- sin πx, or cos πx. -/
def sinPiRat (cosine : Bool) (x : Rat) : Rat :=
  let y := (x - 2 * (x / 2 + 1 / 2).floor) * piRat
  if cosine then altSeries (y * y) 30 1 else y * altSeries (y * y) 30 2

/-! ### Transcendental functions (R57) -/

/-- The code under which the free value of a function is drawn. -/
def vfunCode : VFun → Nat
  | .exp2 => 0 | .log2 => 1 | .rcp => 2 | .rsqrt => 3 | .tanh => 4 | .sincospi => 5

/-- The function of Table 3.3 at a finite x in its domain. -/
def vfunRat (f : VFun) (second : Bool) (x : Fv) : Rat :=
  match f, x with
  | .exp2, _ => exp2Rat x.toRat
  | .log2, .fin _ m e => log2Rat m e
  | .log2, _ => 0
  | .rcp, _ => 1 / x.toRat
  | .rsqrt, _ => rsqrtRat x.toRat
  | .tanh, _ => tanhRat x.toRat
  | .sincospi, _ => sinPiRat second x.toRat

/-- The largest error that Table 3.3 allows at x where the function is v. A subnormal result of a relative bound may be either
neighbour of v (log entry 5). -/
def vfunBound (f : VFun) (x v : Rat) : Rat :=
  let rel := fun (k : Int) => max (v.abs * pow2 k) (if v.abs < pow2 (-126) then pow2 (-149) else 0)
  match f with
  | .exp2 => rel (-22)
  | .log2 => if pow2 (-1) ≤ x ∧ x ≤ 2 then pow2 (-22) else rel (-22)
  | .rcp | .rsqrt => rel (-23)
  | .tanh | .sincospi => pow2 (-21)

/-- A function of Table 3.3 inside its domain: a free value within the bound. The rationals are exact to 2^-70, which the bound
is widened by (log entry 5). -/
def vfunFree (f : VFun) (second : Bool) (a : Nat) : Nat :=
  let x := val32 a
  let code := vfunCode f + b2n second
  let free := (Config.transcendental code (BitVec.ofNat 32 a)).toNat
  let v := vfunRat f second x
  if (val32 free).finite && decide (((val32 free).toRat - v).abs ≤ vfunBound f x.toRat v * (1 + pow2 (-40))) then free
  else round32 [4 + code, a] (Fv.ofRat v)

/-- A transcendental function (R57): the special results outside the domain and EXP2's exact 0 and +∞, otherwise a free value
within the bounds of Table 3.3; SINCOSPI of a finite x beyond 2^20 has neither, and its value is open (log entry 5). SINCOSPI gives the
sine, or the cosine when `second` is set. -/
def vfunApply (f : VFun) (second : Bool) (a : Nat) : Nat :=
  let x := val32 a
  let code := vfunCode f + b2n second
  let nan := round32 [4 + code, a] .nan
  let inf := 0x7F800000
  let sgn := a / 2 ^ 31 * 2 ^ 31
  let neg := decide (a ≥ 2 ^ 31)
  let free := vfunFree f second a
  if nan32 a then nan
  else
    match f, x with
    | .exp2, .inf s => if s then 0 else inf
    | .exp2, _ => if x.lt (Fv.ofInt (-150)) then 0 else if (Fv.ofInt 128).lt x then inf else free
    | .log2, .inf s => if s then nan else inf
    | .log2, _ => if x.isZero then 0xFF800000 else if neg then nan else free
    | .rcp, .inf _ => sgn
    | .rcp, _ => if x.isZero then sgn + inf else free
    | .rsqrt, .inf s => if s then nan else 0
    | .rsqrt, _ => if x.isZero then sgn + inf else if neg then nan else free
    | .tanh, .inf _ => sgn + one32
    | .tanh, _ => free
    | .sincospi, .inf _ => nan
    | .sincospi, _ =>
      if (Fv.ofInt (2 ^ 20)).lt x.abs then (Config.transcendental code (BitVec.ofNat 32 a)).toNat else free

/-! ### Sums (R62, R64) -/

/-- A sum lies within R64's bound for `n` roundings. -/
def sumClose (n : Nat) (xs : List Fv) (x : Rat) : Bool :=
  let size := (xs.map fun p => p.toRat.abs).sum
  decide ((x - (Fv.sum xs).toRat).abs ≤ n * (pow2 (-24) * (1 + pow2 (-9)) * size + pow2 (-150)))

/-- Every order of additions of the terms is exact in FP32: they are multiples of one 2^q, and their magnitudes sum to at most
2^24 of it. -/
def sumExact (xs : List Fv) : Bool :=
  let fs := xs.filterMap fun x =>
    match x with
    | .fin _ m e => if m = 0 then none else some (m, e)
    | _ => none
  match fs with
  | [] => true
  | (_, e) :: _ =>
    let q := fs.foldl (fun q x => min q x.2) e
    let ms := fs.map fun x => alignTo x.1 x.2 q
    let g := ms.foldl Nat.gcd 0
    let unit := Nat.gcd g (2 ^ Nat.log2 g)
    decide (ms.sum ≤ 2 ^ 24 * unit) && decide (q + Nat.log2 unit ≥ -149)

/-- The free value drawn for a sum. -/
def freeSum (draw : Nat) : Fv :=
  let x := Config.freeSum draw
  .fin (decide (x.1 < 0)) x.1.natAbs x.2

/-- The sum of a group formed in at most four additions, each rounded at FP32 precision or better (R62): what every order gives where
they agree, else a free value within the bound of four roundings (R64, log entry 6). -/
def groupSum (draw : Nat) (xs : List Fv) : Fv :=
  let s := Fv.sum xs
  if s.finite = false ∨ sumExact xs then s
  else if sumClose 4 xs (freeSum draw).toRat then freeSum draw else s

/-- The FP32 result of a reduction of `n` rounded additions in an order that is not given (R64, log entry 6). -/
def reduction (n draw : Nat) (xs : List Fv) : Nat :=
  let s := Fv.sum xs
  let r := round32 [0x30] (freeSum draw)
  if s.finite && !sumExact xs && (val32 r).finite && sumClose n xs (val32 r).toRat then r else round32 [0x30] s

end Sys2Proof.Machine
end

