-- ==== Sys2Proof/Machine/CoreOps.lean ====
section
/-! DEFINITION. Sys2Proof/Machine/CoreOps.lean: what the turn-program instructions are written in (spec/03): a core's
registers, tensor references (R67), operand pairs (Table 3.2), accumulation (R62), conversions into registers (R59, R60),
head placement entries (R75), retiring and refusing an instruction. -/

namespace Sys2Proof.Machine

/-! ### Registers of a core (Table 3.1) -/

/-- Scalar register n. -/
def Core.sreg (k : Core) (n : Nat) : Nat := sget 0 k.s n
/-- Write scalar register n. -/
def Core.setS (k : Core) (n v : Nat) : Core := if n < 32 then { k with s := sput 0 k.s n (v % 2 ^ 64) } else k
/-- Lane i of the vector registers laid end to end: 32 FP32 lanes each. -/
def Core.lane (k : Core) (i : Nat) : Nat := sget 0 k.v i
/-- Write lanes from lane i on; the file ends at register 31, and what lies past it is dropped (log entry 172). -/
def Core.setLanes (k : Core) (i : Nat) : List Nat → Core
  | [] => k
  | x :: xs => ({ k with v := if i < 1024 then sput 0 k.v i (x % 2 ^ 32) else k.v } : Core).setLanes (i + 1) xs
/-- The lanes of register r. -/
def Core.vreg (k : Core) (r : Nat) : List Nat := (List.range 32).map fun i => k.lane (32 * r + i)
/-- Elements of `w` bits packed in the vector registers from register r. -/
def Core.elems (k : Core) (r w n : Nat) : List Nat :=
  let bits := packBitsLe 32 ((List.range (ceilDiv (w * n) 32)).map fun i => k.lane (32 * r + i))
  (List.range n).map fun i => unpackAt w bits i
/-- The accumulator of a lane and slot; past slot 63 there is none, and 0 is read (log entry 172). -/
def Core.accAt (k : Core) (lane slot : Nat) : Nat := if slot < 64 then sget 0 k.acc (lane * 64 + slot) else 0
/-- Write an accumulator. -/
def Core.setAcc (k : Core) (lane slot v : Nat) : Core := { k with acc := sput 0 k.acc (lane * 64 + slot) v }

/-- Elements of `w` bits as 32-bit lanes, the last filled with zeros. -/
def lanesOf (w : Nat) (xs : List Nat) : List Nat :=
  let v := packBitsLe w xs
  (List.range (ceilDiv (w * xs.length) 32)).map fun i => unpackAt 32 v i

/-! ### Running, retiring and refusing -/

/-- The entry that an instruction's core runs, unless the core waits for something else. -/
def Device.running? (d : Device) (i : CoreInsn) (ok : CoreWait → Bool) : Option Admitted :=
  let k := d.core i.plot i.core
  if k.wait = .none || ok k.wait then
    match k.entry with
    | some n => (d.admittedAt n).filter fun a => decide (a.state = .running)
    | none => none
  else none

/-- The register copy of a physical core. -/
def Device.physIndex (d : Device) (plot core : Nat) : Nat := plot * 66 + d.physical plot core

/-- An instruction has executed: the program counter and LAST_PC move, and the turn's longest gap takes its length (Table 3.21). -/
def Device.retire (d : Device) (i : CoreInsn) (cycles : Nat) (k : Core) : Device :=
  (d.setCore i.plot i.core { k with pc := k.pc + 8, gap := max k.gap cycles }).setFld F.PLOT_CORE_STATE.LAST_PC k.pc
    (d.physIndex i.plot i.core)

/-- The instruction's word (R70). -/
def insnWord (i : CoreInsn) (opcode : Nat) : Nat :=
  opcode * 2 ^ 56 + i.flags % 256 * 2 ^ 48 + i.a % 65536 * 2 ^ 32 + i.b % 65536 * 2 ^ 16 + i.c % 65536

/-- Refuse an instruction as illegal (R70). -/
def Device.refuse (d : Device) (i : CoreInsn) (opcode : Nat) : Device := d.illegal i.plot i.core (insnWord i opcode)

/-- An uncorrectable error met by a core's instruction (R91, R113, R421, R422): the record, the failing seal, and the entry that
stops with its sequence LATE. FLAGS.PERSISTENT says that the bytes are stored in headwater (R423). -/
def Device.coreUncorrectable (d : Device) (i : CoreInsn) (cause replays address : Nat) (detail : List (Nat × Nat))
    (stored : Bool := true) : Device :=
  let owner := match (d.core i.plot i.core).entry.bind d.admittedAt with
    | some a => (d.furById (d.slot a.e.slot).img.furrow).elim 0xFFFF fun f => (d.furrow f).owner
    | none => 0xFFFF
  let d := d.uncorrectable (d.coreRec i.plot i.core
    { cause := cause, severity := 2, replays := replays, persistent := stored, address := address, owner := owner, detail := detail })
  match (d.core i.plot i.core).entry with
  | some n => d.stopLate n
  | none => d

/-- The parity check of what an instruction reads (R113, R421): passed at once, at a replay, or never. -/
def Device.parity (d : Device) (i : CoreInsn) (address : Nat) (f : Device → Device) : Device :=
  if i.parity = 0 then f d
  else if i.parity ≤ 3 then f (d.count F.ERR_COUNTS.REPLAYED)
  else d.coreUncorrectable i 1 3 address [(4, 0)]

/-- The same of a mesh transfer, whose data are stored nowhere (Table 18.1, R423). -/
def Device.meshParity (d : Device) (i : CoreInsn) (f : Device → Device) : Device :=
  if i.parity = 0 then f d
  else if i.parity ≤ 3 then f (d.count F.ERR_COUNTS.REPLAYED)
  else d.coreUncorrectable i 1 3 0 [(4, 0)] false

/-! ### Tensor references (R67) -/

/-- A tensor reference. -/
structure TRef where
  addr : Nat
  elements : Nat
  scaleOff : Nat
  rowBlocks : Nat
  fmt : Nat
  coded : Bool

/-- Table 3.7. -/
def TRef.ofNat (v : Nat) : TRef :=
  { addr := bitsOf v 80 48, elements := bitsOf v 56 24, scaleOff := bitsOf v 32 24, rowBlocks := bitsOf v 22 10,
    fmt := bitsOf v 18 4, coded := bitOf v 17 }

/-- The tensor reference in register n. -/
def Core.tref (k : Core) (n : Nat) : TRef := TRef.ofNat (sget 0 k.t n)

/-- The elements of a row. -/
def TRef.row (r : TRef) : Nat := 32 * r.rowBlocks

/-- The bytes of a coded reference that headwater holds from its ADDR: to the end of the slice's memory (R102). -/
def TRef.room (r : TRef) : Nat := 0xBF000 - r.addr % sliceBytes

/-- The bytes of the first `n` elements of a reference: as they stand, or expanded (R66, R84). A coded object that runs past
the memory of its slice fails in row Object (R90). -/
def Device.trefBytes (d : Device) (r : TRef) (bits n : Nat) : Except DecodeError (List Byte) :=
  let len := ceilDiv (n * bits) 8
  if r.coded then (expand (d.bytes r.addr r.room) len).map (·.take len) else .ok (d.bytes r.addr len)

/-- A reference an instruction is refused for when it reads `n` elements: a reserved FORMAT, an ADDR outside headwater, a
ROW_BLOCKS of 0, a register that there is not (R67); and elements or scales that lie outside headwater, the last 4 KiB of a slice
among it, which no instruction may read (R66, R102; log entry 183). -/
def Core.trefBad (k : Core) (reg n : Nat) : Bool :=
  let r := k.tref reg
  match fmtOf r.fmt with
  | none => true
  | some f =>
    decide (reg ≥ 16) || !inHeadwater r.addr (if r.coded then 1 else ceilDiv (min n r.elements * f.bits) 8) || r.rowBlocks == 0 ||
      (f.scaled && !inHeadwater (r.addr + r.scaleOff) (ceilDiv (min n r.elements) 32))

/-- Element i of a reference and its block's scale; what lies beyond ELEMENTS is open (log entry 31). -/
def Device.trefElem (d : Device) (r : TRef) (bits : Nat) (packed : Nat) (i : Nat) : Nat × Nat :=
  if i < r.elements then (unpackAt bits packed i, (d.byte (r.addr + r.scaleOff + i / 32)).toNat)
  else ((Config.openResult 0x50 [r.addr, i]).toNat % 2 ^ bits, 127)

/-! ### Operand pairs (Table 3.2) -/

/-- An 8-bit format of Table 3.2. -/
def eightBit (f : Nat) : Bool := f ≤ 3 || f == 7
/-- MXFP6. -/
def sixBit (f : Nat) : Bool := f == 4 || f == 5

/-- How a pair accumulates: exactly chunk by chunk, in groups whose order is open, or in INT32. -/
inductive PairKind where
  | exact | grouped | int
  deriving DecidableEq, Repr

/-- Elements per lane per cycle of a streaming and a stationary format, and how they accumulate; none for a pair that the unit
does not accept (R56). -/
def pairOf (s t : Nat) : Option (Nat × PairKind) :=
  if eightBit s && (eightBit t || sixBit t) then some (32, .exact)
  else if sixBit s && (eightBit t || sixBit t) then some (32, .exact)
  else if s == 6 && t == 6 then some (64, .exact)
  else if s == 6 && (eightBit t || sixBit t) then some (32, .exact)
  else if s ≤ 3 && t == 8 then some (16, .grouped)
  else if s == 8 && t == 8 then some (16, .grouped)
  else if s == 9 && t == 9 then some (16, .grouped)
  else if s == 0xB && t == 0xB then some (32, .int)
  else none

/-- Lists of at most n elements; `fuel` bounds their number. -/
def chunks {α : Type} (n : Nat) : Nat → List α → List (List α)
  | 0, _ => []
  | fuel + 1, xs => if xs.isEmpty then [] else xs.take n :: chunks n fuel (xs.drop n)

/-- Accumulate products into an accumulator (R62): its new pattern, the free values drawn, and the saturations. -/
def accumulate (kind : PairKind) (e draw acc : Nat) (ps : List Fv) : Nat × Nat × Nat :=
  (chunks e (ps.length + 1) ps).foldl (fun (a : Nat × Nat × Nat) c =>
    match kind with
    | .exact => (round32 [0x20, a.1] ((val32 a.1).add (Fv.sum c)), a.2.1, a.2.2)
    | .grouped => (round32 [0x21, a.1] ((val32 a.1).add (groupSum a.2.1 c)), a.2.1 + 1, a.2.2)
    | .int =>
      let i32 : Fmt := { bits := 32, int := true }
      let r := i32.convert false [] ((i32.value a.1).add (Fv.sum c))
      (r.bits, a.2.1, a.2.2 + b2n r.sat)) (acc, draw, 0)

/-! ### Conversions into registers -/

/-- What a list of values becomes in a format: the elements as packed lanes, scale bytes after them for the MX formats
(a block per 32 values), the saturations, and whether a NaN was made. -/
def packValues (f : Fmt) (nonsat : Bool) (xs : List Fv) : List Nat × Nat × Bool :=
  let blocks := if f.scaled then (chunks 32 (xs.length + 1) xs).map (f.block nonsat) else [(xs.map (f.convert nonsat []), 0)]
  let els := blocks.flatMap (·.1)
  let scales := if f.scaled then blocks.map (·.2) else []
  (lanesOf f.bits (els.map (·.bits)) ++ lanesOf 8 scales, (els.filter (·.sat)).length,
    els.any (·.isNan) || scales.contains 0xFF)

/-- Count what a plot's instruction saturated and whether it made a NaN (Table 3.20). -/
def Device.fpStatus (d : Device) (plot sat : Nat) (nan : Bool) : Device :=
  let d := if sat = 0 then d else d.count F.PLOT_FP_STATUS.SATURATED sat plot
  if nan then d.count F.PLOT_FP_STATUS.NAN_OUT 1 plot else d

/-! ### Heads and the furrow of an entry -/

/-- A head placement entry (Table 3.10). -/
structure HeadEntry where
  layer : Nat
  kvHead : Nat
  qPerKv : Nat
  firstCore : Nat
  coreCount : Nat
  plot : Nat
  split : Nat

/-- Head placement entry n of a plot. -/
def Device.headEntry (d : Device) (plot n : Nat) : HeadEntry :=
  let v := d.load (d.fld F.PLOT_HEADMAP.ADDR plot * 16 + 16 * n) 16
  { layer := bitsOf v 112 16, kvHead := bitsOf v 104 8, qPerKv := bitsOf v 96 8, firstCore := bitsOf v 90 6,
    coreCount := bitsOf v 80 8, plot := bitsOf v 72 8, split := bitsOf v 64 8 }

/-- The furrow that an entry appends to and attends: the slot's, or the draft furrow of a DRAFT entry. -/
def Device.entryFurrow (d : Device) (a : Admitted) : Option Nat :=
  let s := (d.slot a.e.slot).img
  if a.e.kind = 4 ∨ a.e.kind = 3 then none else d.ownedById (if a.e.kind = 5 then s.draft else s.furrow)

/-- The stream of a head placement entry in a furrow (R158). -/
def streamOf (f : Furrow) (h : HeadEntry) : Nat := h.layer * (f.headsM1 + 1) + h.kvHead

end Sys2Proof.Machine
end

