-- ==== Sys2Proof/Machine/Cores.lean ====
section
/-! DEFINITION. Sys2Proof/Machine/Cores.lean: the turn-program instructions (Table 3.9), the start of an entry (R71) and its
end (R77). -/

namespace Sys2Proof.Machine

/-! ### The start of an entry -/

/-- The next admitted entry of a plot that a core has not yet run (R71, R72): those already stopped are skipped. -/
def Device.nextEntry (d : Device) (plot from_ : Nat) : Option Admitted :=
  d.turn.admitted.foldl (fun best a =>
    if decide (from_ ≤ a.index) && decide (a.state = .running) && a.e.kind != 3 && a.plotsLeft.getLsbD plot &&
        (match best with
         | some (b : Admitted) => decide (a.index < b.index)
         | none => true)
    then some a else best) none

/-- The scalar registers at the start of an entry (R71). -/
def Device.startScalars (d : Device) (plot core : Nat) (a : Admitted) : List Nat :=
  let len := match d.entryFurrow a with
    | some f => (d.furrow f).length
    | none => 0
  [a.e.slot, a.e.jst, a.e.arg, a.e.kind, a.tokens, a.pages, a.e.prefill, len, core, plot, d.turnNo % 2 ^ 32,
   d.fld F.PWR_STATUS.CLOCK_MHZ]

/-- Values laid at rising keys from `i`. -/
def layFrom (i : Nat) : List Nat → SMap Nat
  | [] => []
  | x :: xs => scons 0 i x (layFrom (i + 1) xs)

/-- ENTRY_START (R71): the core is free, and the entry before it on the core has reached END. -/
def entryStartEff (plot core : Nat) (d : Device) : Device :=
  let k := d.core plot core
  let p := sget {} d.plots plot
  if k.entry.isSome || decide (plot ≥ 64) || decide (core ≥ 64) || p.resetting then d
  else
    match d.nextEntry plot k.nextEntry with
    | none => d
    | some a =>
      let d := d.setCore plot core { k with entry := some a.index, nextEntry := a.index, wait := .none, run := k.run + 1, xputs := 0, appends := 0,
                                            inbox := k.inbox.filter fun x => decide (a.index ≤ x.1), pc := ((p.entries.getD a.e.program (0, 0)).1),
                                            s := layFrom 0 (d.startScalars plot core a) }
      let first := decide (p.busy ≤ a.index)
      let d := { d with plots := sput {} d.plots plot (if first then { p with busy := a.index + 1, entriesRun := p.entriesRun + 1 } else p) }
      if a.e.kind = 5 ∧ (d.slot a.e.slot).ts.draft = 0 then d.modTs a.e.slot fun t => { t with draft := 1 } else d

/-- ENTRY_START. -/
def execEntryStart (plot core : Nat) (s : State) : Host.Outcome State Fault Refusal := s.act (entryStartEff plot core)

/-- Carry out an instruction on a core that runs an entry and does not wait. A register that fails its parity check is not replayed:
the error is uncorrectable at once (Table 18.1, R421). -/
def Device.insn (d : Device) (i : CoreInsn) (f : Admitted → Core → Device → Device) : Device :=
  match d.running? i fun _ => false with
  | none => d
  | some a => if i.parity ≥ 5 then d.coreUncorrectable i 1 0 0 [(4, 0)] false else f a (d.core i.plot i.core) d

/-! ### The matrix unit -/

/-- A core whose stationary vectors are the rows of a tensor reference, from the bytes of its elements (R67). -/
def Device.stationary (d : Device) (k : Core) (r : TRef) (f : Fmt) (lanes : Nat) (bs : List Byte) : Core :=
  let v := leValue bs
  let el := fun (n : Nat) => d.trefElem r f.bits v n
  let lane := fun (l : Nat) => (List.range r.row).map fun n => (el (l * r.row + n)).1
  let scl := fun (l : Nat) => (List.range r.rowBlocks).map fun n => (el (l * r.row + 32 * n)).2
  let lay := fun (w : Nat) (g : Nat → List Nat) => (List.range lanes).flatMap fun l => layFrom (l * w) (g l)
  { k with stat := lay 8192 lane, statScale := if f.scaled then lay 1024 scl else [], statFmt := r.fmt, statLanes := lanes, statLen := r.row }

/-- LDS (R56, R67): the rows of tensor reference A become the stationary vectors of lanes 0 to B − 1. -/
def ldsEff (i : CoreInsn) (d : Device) : Device :=
  d.insn i fun _ k d =>
    let r := k.tref i.a
    match fmtOf r.fmt with
    | none => d.refuse i 1
    | some f =>
      if k.trefBad i.a (i.b * r.row) || i.b == 0 || decide (i.b > 16) || decide (r.row * f.bits > 32768) || r.fmt == 0xA || r.fmt == 0xC then d.refuse i 1
      else
        d.parity i r.addr fun d =>
          match d.trefBytes r f.bits (i.b * r.row) with
          | .error e => d.coreUncorrectable i 2 3 r.addr [(1, e.row)]
          | .ok bs =>
            d.retire i (ceilDiv (i.b * r.row * f.bits) 1024) (d.stationary k r f i.b bs)

/-- LDS. -/
def execLds (i : CoreInsn) (s : State) : Host.Outcome State Fault Refusal := s.act (ldsEff i)

/-- Element n of a lane's stationary vector; outside what LDS loaded the buffer's left-over is open (log entry 31). -/
def Core.statVal (k : Core) (f : Fmt) (lane n : Nat) : Fv :=
  if lane < k.statLanes ∧ n < k.statLen then f.scaledValue (sget 0 k.stat (lane * 8192 + n)) (sget 0 k.statScale (lane * 1024 + n / 32))
  else f.value ((Config.openResult 0x51 [lane, n]).toNat % 2 ^ f.bits)

/-- Stream one row through the sixteen lanes into an accumulator slot. -/
def mmaRow (k : Core) (g : Fmt) (kind : PairKind) (e slot : Nat) (row : List Fv) (st : Core × Nat × Nat) : Core × Nat × Nat :=
  (List.range 16).foldl (fun (st : Core × Nat × Nat) l =>
    let ps := (List.range row.length).zip row |>.map fun (n, x) => x.mul (k.statVal g l n)
    let (v, draw, sat) := accumulate kind e st.2.1 (st.1.accAt l slot) ps
    (st.1.setAcc l slot v, draw, st.2.2 + sat)) st

/-- Stream the first `rows` rows of a tensor reference, from the bytes of their elements, into accumulator slots from `slot`: the core, the
free values drawn and the saturations. -/
def Device.mmaStream (d : Device) (k : Core) (r : TRef) (f g : Fmt) (e : Nat) (kind : PairKind) (rows slot : Nat) (bs : List Byte) :
    Core × Nat × Nat :=
  let v := leValue bs
  let row := fun (j : Nat) => (List.range r.row).map fun n =>
    let x := d.trefElem r f.bits v (j * r.row + n)
    f.scaledValue x.1 x.2
  (List.range rows).foldl (fun st j => mmaRow k g kind e (slot + j) (row j) st) (k, d.freeCount, 0)

/-- What an MMA counts: the free values drawn, INT32 saturations, and whether an accumulator it wrote holds a NaN (Table 3.20). -/
def Device.mmaCounts (d : Device) (plot rows slot : Nat) (kind : PairKind) (st : Core × Nat × Nat) : Device :=
  let nan := kind != .int && (List.range rows).any fun j => (List.range 16).any fun l => nan32 (st.1.accAt l (slot + j))
  let d := { d with freeCount := st.2.1 }
  (if st.2.2 = 0 then d else d.count F.PLOT_FP_STATUS.INT_SAT st.2.2 plot).fpStatus plot 0 nan

/-- MMA (R62): B rows of tensor reference A into accumulator slots from C. -/
def mmaEff (i : CoreInsn) (d : Device) : Device :=
  d.insn i fun _ k d =>
    let r := k.tref i.a
    match fmtOf r.fmt, fmtOf k.statFmt, pairOf r.fmt k.statFmt with
    | some f, some g, some (e, kind) =>
      let len := i.b * ceilDiv r.row e
      if k.trefBad i.a (i.b * r.row) || decide (len > 1536) || decide (i.c + i.b > 64) then d.refuse i 2
      else
        d.parity i r.addr fun d =>
          match d.trefBytes r f.bits (i.b * r.row) with
          | .error e => d.coreUncorrectable i 2 3 r.addr [(1, e.row)]
          | .ok bs =>
            let st := d.mmaStream k r f g e kind i.b i.c bs
            (d.mmaCounts i.plot i.b i.c kind st).retire i len { st.1 with accInt := kind == .int }
    | _, _, _ => d.refuse i 2

/-- MMA. -/
def execMma (i : CoreInsn) (s : State) : Host.Outcome State Fault Refusal := s.act (mmaEff i)

/-- The values that ACCR moves: `n` accumulator slots of sixteen lanes from slot `a`, slot by slot (log entry
171), or what ATTN keeps of query head `a`. -/
def Core.accValues (k : Core) (part : AccPart) (a n : Nat) : List Fv :=
  match part with
  | .acc => (List.range n).flatMap fun j => (List.range 16).map fun l =>
      if k.accInt then Fv.ofInt (signedOf 32 (k.accAt l (a + j))) else val32 (k.accAt l (a + j))
  | .m => [val32 (sget 0 k.attnM a)]
  | .l => [val32 (sget 0 k.attnL a)]
  | .o => (List.range (16 * n)).map fun j => val32 (sget 0 k.attnO (256 * a + j))

/-- ACCR (R59): C slots from A into vector registers from B, converted to a format. -/
def accrEff (i : CoreInsn) (part : AccPart) (fmt : Nat) (d : Device) : Device :=
  d.insn i fun _ k d =>
    match fmtOf fmt with
    | none => d.refuse i 3
    | some f =>
      let (ls, sat, nan) := packValues f i.nonsat (k.accValues part i.a (min i.c 64))
      (d.fpStatus i.plot sat nan).retire i (min i.cycles 32) (k.setLanes (32 * i.b) ls)

/-- ACCR. -/
def execAccr (i : CoreInsn) (part : AccPart) (fmt : Nat) (s : State) : Host.Outcome State Fault Refusal := s.act (accrEff i part fmt)

/-! ### Attention -/

/-- The key and value vectors of the positions of a block: K of position p at p × D, V after 256 × D (R163). -/
def pageVector (f : Fmt) (dim : Nat) (page : Nat) (value : Bool) (p : Nat) : List Fv :=
  (List.range dim).map fun n => f.value (unpackAt f.bits page ((if value then 256 * dim else 0) + p * dim + n))

/-- The values of a query held in registers: elements laid end to end, and for an MX format the scale bytes of its blocks from the next
whole lane on, as CVT leaves them (R58, log entry 183). -/
def Core.query (k : Core) (g : Fmt) (reg dim : Nat) : List Fv :=
  let lanes := ceilDiv (dim * g.bits) 32
  let scales := k.elems reg 8 (4 * lanes + ceilDiv dim 32)
  ((List.range dim).zip (k.elems reg g.bits dim)).map fun (n, x) => g.scaledValue x (scales.getD (4 * lanes + n / 32) 0)

/-- The registers that one query takes. -/
def queryRegs (g : Fmt) (dim : Nat) : Nat := ceilDiv (ceilDiv (dim * g.bits) 32 + (if g.scaled then ceilDiv (ceilDiv dim 32) 4 else 0)) 32

/-- p as BF16 (R59). -/
def toBf16 (p : Nat) : Fv := bf16.value (bf16.convert false [p] (val32 p)).bits

/-- One ATTN block for one query head (Table 3.6): the new m, l and o. l takes one addition for each position and one for α × l; o takes
the value reduction on the matrix unit in groups of sixteen, p in BF16 (R62, R65). -/
def attnHead (f g : Fmt) (kind : PairKind) (e dim page first r scale : Nat) (fresh : Bool) (reg h : Nat)
    (st : Core × Nat) : Core × Nat :=
  let (k, draw) := st
  let qv := k.query g reg dim
  let scores := (List.range r).foldl (fun (acc : List Nat × Nat) p =>
    let ps := (qv.zip (pageVector f dim page false (first + p))).map fun (x, y) => x.mul y
    let (s, dr, _) := accumulate kind e acc.2 0 ps
    (acc.1 ++ [mul32 s scale], dr)) ([], draw)
  let m := if fresh then 0xFF800000 else sget 0 k.attnM h
  let l := if fresh then 0 else sget 0 k.attnL h
  let o := fun (n : Nat) => if fresh then 0 else sget 0 k.attnO (256 * h + n)
  let m' := scores.1.foldl max32 m
  let ex := fun (x : Nat) => vfunApply .exp2 false (add32 x (neg32 m'))
  let ps := scores.1.map ex
  let alpha := ex m
  let l' := reduction (r + 1) scores.2 ((val32 alpha).mul (val32 l) :: ps.map val32)
  let vs := (List.range r).map fun p => pageVector f dim page true (first + p)
  let out := (List.range dim).foldl (fun (acc : List Nat × Nat) n =>
    let (x, dr, _) := accumulate .grouped 16 acc.2 (mul32 alpha (o n)) ((ps.zip vs).map fun (p, v) => (toBf16 p).mul (v.getD n .zero))
    (acc.1 ++ [x], dr)) ([], scores.2 + 1)
  let keep := k.attnO.filter fun x => x.1 / 256 != h
  ({ k with attnM := sput 0 k.attnM h m', attnL := sput 0 k.attnL h l',
            attnO := (List.range dim).foldl (fun (t : SMap Nat) n => sput 0 t (256 * h + n) (out.1.getD n 0)) keep },
   out.2)

/-- ATTN's length in cycles (Table 3.9). -/
def attnCycles (r dim e q : Nat) : Nat := 16 + 2 * ceilDiv (r * dim) e + 4 * ceilDiv (q * r) 32

/-- The core that entry n of the head's page lists goes to (R75, R174): FIRST_CORE, or the next of CORE_COUNT in turn when the
pages are split. -/
def HeadEntry.coreOf (h : HeadEntry) (n : Nat) : Nat := h.firstCore + (if h.split = 1 then n % h.coreCount else 0)

/-- ATTN's block for each query head of a key head: the core and the free values drawn. -/
def Device.attnHeads (d : Device) (k : Core) (f g : Fmt) (e : Nat) (kind : PairKind) (dim heads reg : Nat) (op : AttnOp) (page : List Byte) :
    Core × Nat :=
  let pv := leValue page
  (List.range heads).foldl (fun st j => attnHead f g kind e dim pv op.first op.r (k.sreg op.scale % 2 ^ 32) op.fresh
    (reg + j * queryRegs g dim) j st) (k, d.freeCount)

/-- What an ATTN counts: the free values drawn, and whether a maximum or a sum is a NaN. -/
def Device.attnCounts (d : Device) (plot heads : Nat) (st : Core × Nat) : Device :=
  let nan := (List.range heads).any fun j => nan32 (sget 0 st.1.attnM j) || nan32 (sget 0 st.1.attnL j)
  ({ d with freeCount := st.2 } : Device).fpStatus plot 0 nan

/-- The bytes of a page that a list entry names, as the owner of its frame reads them (R119): as they stand, or expanded (R98). -/
def Device.pageAt (d : Device) (addr span need : Nat) : Except DecodeError (List Byte) :=
  if span = 0 then .ok (d.readMem addr need) else expandAll (d.readMem addr (64 * span)) need

/-- ATTN (R65): positions of the page-list entry B of the head's stream, read through the operand port. An entry that does not
attend has no page list, and a core is given its share of one only (R75): the instruction is refused as illegal elsewhere (log
entry 33). -/
def attnEff (i : CoreInsn) (op : AttnOp) (d : Device) : Device :=
  d.insn i fun a k d =>
    let x := (d.fur.attend.find? fun y => y.entry == a.index)
    match x with
    | none => d.refuse i 4
    | some x =>
      let fw := d.furrow x.desc
      let h := d.headEntry i.plot op.head
      let dim := headDim fw
      match fmtOf fw.fmt, fmtOf op.qfmt, pairOf fw.fmt op.qfmt with
      | some f, some g, some (e, kind) =>
        let len := attnCycles op.r dim e h.qPerKv
        if decide (op.r > 256) || decide (len > 1536) || h.plot != i.plot || h.coreOf i.b != i.core then d.refuse i 4
        else
          let v := d.load (x.listAddr + 2048 * streamOf fw h + 8 * i.b) 8
          let addr := bitsOf v 48 16 * frameBytes
          let span := bitsOf v 20 11
          let need := 512 * dim * elemBytes fw.fmt
          d.parity i addr fun d =>
            match d.pageAt addr span need with
            | .error e => d.coreUncorrectable i 2 3 addr [(1, e.row)]
            | .ok bs =>
              let st := d.attnHeads k f g e kind dim h.qPerKv i.a op bs
              (d.attnCounts i.plot h.qPerKv st).retire i len st.1
      | _, _, _ => d.refuse i 4

/-- ATTN. -/
def execAttn (i : CoreInsn) (op : AttnOp) (s : State) : Host.Outcome State Fault Refusal := s.act (attnEff i op)

/-! ### The vector unit -/

/-- The pattern of a comparison's result: open (log entry 31). -/
def cmpResult (b : Bool) : Nat := (Config.openResult 0x60 [b2n b]).toNat

/-- One lane of a vector operation in FP32. -/
def vecLane (op : VecOp) (a b c : Nat) : Nat :=
  match op with
  | .add => add32 b c
  | .sub => add32 b (neg32 c)
  | .mul => mul32 b c
  | .fma => fma32 b c a
  | .min => min32 b c
  | .max => max32 b c
  | .neg => neg32 b
  | .abs => b % 2 ^ 31
  | .lt => cmpResult ((val32 b).lt (val32 c))
  | .le => cmpResult (!nan32 b && !nan32 c && !(val32 c).lt (val32 b))
  | .eq => cmpResult (!nan32 b && !nan32 c && !(val32 c).lt (val32 b) && !(val32 b).lt (val32 c))
  | .sum | .maxAll | .minAll => b

/-- One BF16 value as FP32, exactly. -/
def widen (x : Nat) : Nat := x % 65536 * 65536

/-- A BF16 operation on one half of a lane: the exact result rounded once to BF16. -/
def bf16Half (op : VecOp) (a b c : Nat) : Nat :=
  let va := val32 (widen a)
  let vb := val32 (widen b)
  let vc := val32 (widen c)
  let out := fun (x : Fv) => (bf16.convert true [b, c] x).bits
  match op with
  | .add => out (vb.add vc)
  | .sub => out (vb.add vc.neg)
  | .mul => out (vb.mul vc)
  | .fma => out ((vb.mul vc).add va)
  | .neg => neg32 (widen b) / 65536
  | .abs => b % 2 ^ 15
  | _ => vecLane op (widen a) (widen b) (widen c) / 65536

/-- One lane of a vector operation, as FP32 or as a pair of BF16. -/
def laneOp (op : VecOp) (bf : Bool) (a b c : Nat) : Nat :=
  if bf then bf16Half op (a % 65536) (b % 65536) (c % 65536) + 65536 * bf16Half op (a / 65536) (b / 65536) (c / 65536)
  else vecLane op a b c

/-- The reduction of a register to one FP32 value. The tree of a sum is not given: the longest path of any has one addition
less than there are values (Table 3.5, log entry 6). -/
def reduceReg (op : VecOp) (draw : Nat) (xs : List Nat) : Nat :=
  match op with
  | .sum => reduction (xs.length - 1) draw (xs.map val32)
  | .maxAll => xs.foldl max32 0xFF800000
  | _ => xs.foldl min32 0x7F800000

/-- The result of a vector operation holds a NaN: a comparison's pattern is no number. -/
def vopNan (op : VecOp) (bf : Bool) (out : List Nat) : Bool :=
  match op with
  | .lt | .le | .eq => false
  | .sum | .maxAll | .minAll => out.any nan32
  | _ => out.any fun x => if bf then nan32 (widen x) || nan32 (widen (x / 65536)) else nan32 x

/-- VOP (R70): v[A] from v[B] and v[C]. -/
def vopEff (i : CoreInsn) (op : VecOp) (bf : Bool) (d : Device) : Device :=
  d.insn i fun _ k d =>
    let a := k.vreg i.a
    let b := k.vreg i.b
    let c := k.vreg i.c
    let halves := if bf then b.flatMap fun x => [widen x, widen (x / 65536)] else b
    let red := reduceReg op d.freeCount halves
    let out := if op = .sum ∨ op = .maxAll ∨ op = .minAll then List.replicate 32 red
      else (List.range 32).map fun n => laneOp op bf (a.getD n 0) (b.getD n 0) (c.getD n 0)
    let d := if op = .sum then d.drew else d
    (d.fpStatus i.plot 0 (vopNan op bf out)).retire i (min i.cycles 4) (k.setLanes (32 * i.a) out)

/-- VOP. -/
def execVop (i : CoreInsn) (op : VecOp) (bf16 : Bool) (s : State) : Host.Outcome State Fault Refusal := s.act (vopEff i op bf16)

/-- VTR (R57): v[A] from v[B]; SINCOSPI puts the cosines into v[A + 1]. -/
def vtrEff (i : CoreInsn) (f : VFun) (d : Device) : Device :=
  d.insn i fun _ k d =>
    let out := (k.vreg i.b).map (vfunApply f false) ++ (if f = .sincospi then (k.vreg i.b).map (vfunApply f true) else [])
    (d.fpStatus i.plot 0 (out.any nan32)).retire i (min i.cycles 4) (k.setLanes (32 * i.a) out)

/-- VTR. -/
def execVtr (i : CoreInsn) (f : VFun) (s : State) : Host.Outcome State Fault Refusal := s.act (vtrEff i f)

/-- CVT (R59, R60): 32 elements of v[B] from one format to another, into v[A]. -/
def cvtEff (i : CoreInsn) (src dst : Nat) (d : Device) : Device :=
  d.insn i fun _ k d =>
    match fmtOf src, fmtOf dst with
    | some f, some g =>
      let scale := (k.elems i.b 8 (4 * f.bits + 1)).getD (4 * f.bits) 0
      let xs := (k.elems i.b f.bits 32).map fun e => f.scaledValue e scale
      let (ls, sat, nan) := packValues g i.nonsat xs
      (d.fpStatus i.plot sat nan).retire i (min i.cycles 8) (k.setLanes (32 * i.a) ls)
    | _, _ => d.refuse i 0x12

/-- CVT. -/
def execCvt (i : CoreInsn) (src dst : Nat) (s : State) : Host.Outcome State Fault Refusal := s.act (cvtEff i src dst)

/-! ### Loads and stores -/

/-- The bytes of one register of a file, and of the whole file. -/
def fileBytes : RegFile → Nat × Nat
  | .vector => (128, 4096)
  | .scalar => (8, 256)
  | .tref => (16, 256)

/-- A range that LD and ST may not name: outside headwater (R102), or not whole words at a word address (R103), or past the
register file. -/
def ldstBad (file : RegFile) (reg addr n : Nat) : Bool :=
  !inHeadwater addr n || addr % 4 != 0 || n % 4 != 0 || n == 0 || decide (reg * (fileBytes file).1 + n > (fileBytes file).2)

/-- The words of bytes, `w` bytes each. -/
def wordsOf (w : Nat) (bs : List Byte) : List Nat := (chunks w (bs.length + 1) bs).map leValue

/-- Place loaded bytes into registers. -/
def Core.loadRegs (k : Core) (file : RegFile) (reg : Nat) (bs : List Byte) : Core :=
  match file with
  | .vector => k.setLanes (32 * reg) (wordsOf 4 bs)
  | .scalar => ((List.range (ceilDiv bs.length 8)).zip (wordsOf 8 bs)).foldl (fun (k : Core) x => k.setS (reg + x.1) x.2) k
  | .tref => { k with t := ((List.range (ceilDiv bs.length 16)).zip (wordsOf 16 bs)).foldl (fun (t : SMap Nat) x => sput 0 t (reg + x.1) x.2) k.t }

/-- The bytes of registers. -/
def Core.regBytes (k : Core) (file : RegFile) (reg n : Nat) : List Byte :=
  match file with
  | .vector => ((List.range (ceilDiv n 4)).flatMap fun j => leBytes 4 (k.lane (32 * reg + j))).take n
  | .scalar => ((List.range (ceilDiv n 8)).flatMap fun j => leBytes 8 (k.sreg (reg + j))).take n
  | .tref => ((List.range (ceilDiv n 16)).flatMap fun j => leBytes 16 (sget 0 k.t (reg + j))).take n

/-- LD (R70, R102, R103, R113): C bytes at s[B] into registers from A. -/
def ldEff (i : CoreInsn) (file : RegFile) (d : Device) : Device :=
  d.insn i fun _ k d =>
    let addr := k.sreg i.b
    if ldstBad file i.a addr i.c then d.refuse i 0x20
    else d.parity i addr fun d => d.retire i (ceilDiv i.c 128) (k.loadRegs file i.a (d.bytes addr i.c))

/-- LD. -/
def execCoreLd (i : CoreInsn) (file : RegFile) (s : State) : Host.Outcome State Fault Refusal := s.act (ldEff i file)

/-- ST: C bytes of registers from A at s[B]. -/
def stEff (i : CoreInsn) (file : RegFile) (d : Device) : Device :=
  d.insn i fun _ k d =>
    let addr := k.sreg i.b
    if ldstBad file i.a addr i.c then d.refuse i 0x21
    else d.parity i addr fun d => ((d.store addr (k.regBytes file i.a i.c)).notePosts d addr i.c).retire i (ceilDiv i.c 64) k

/-- ST. -/
def execCoreSt (i : CoreInsn) (file : RegFile) (s : State) : Host.Outcome State Fault Refusal := s.act (stEff i file)

/-! ### Remote references (R271 to R274) -/

/-- A remote reference (Table 11.13). -/
structure MRef where
  key : Nat
  offset : Nat
  limit : Nat
  node : Nat
  region : Nat
  owner : Nat
  counter : Nat

/-- Remote reference n. -/
def Device.mref (d : Device) (n : Nat) : MRef :=
  let a := d.fld F.SLU_MREF_BASE.ADDR * 32 + 32 * n
  { key := d.load a 8, offset := d.load (a + 8) 8, limit := d.load (a + 16) 8, node := d.load (a + 24) 2, region := d.load (a + 26) 2,
    owner := d.load (a + 28) 2 % 4096, counter := d.load (a + 30) 2 }

/-- The sluice engine of a plot's cores (Table 11.1). -/
def coreEngine (plot : Nat) : Nat := 16 * (plot / 32) + plot % 16

/-- A core's operation of `n` bytes from offset `off` of a remote reference. -/
def MRef.fill (r : MRef) (x : Desc) (off n : Nat) : Desc :=
  { x with node := r.node, region := r.region, key := r.key, owner := r.owner, remote := r.offset + off, length := n }

/-- Issue a core's operation: past LIMIT nothing is sent and the entry stops (R272); with no free context the core tries again. -/
def Device.issueRemote (d : Device) (i : CoreInsn) (r : MRef) (off n : Nat) (desc : Desc) (wait : Bool) (k : Core) : Device :=
  if off + n > r.limit then d.remoteFailed i.plot i.core 1 r.node
  else
    match d.openCtx (coreEngine i.plot) (r.fill desc off n) (.core i.plot i.core k.run (k.entry.getD 0) d.turnNo) ⟨0, 0⟩ with
    | none => d
    | some (c, d) =>
      d.retire i 1 (if wait then { k with wait := .remote (coreEngine i.plot) c } else { k with xputs := k.xputs + 1, unanswered := k.unanswered + 1, wait := .none })

/-- MLD and MST (R271). -/
def mldstEff (opcode sluice : Nat) (i : CoreInsn) (d : Device) : Device :=
  d.insn i fun _ k d =>
    let n := k.sreg (i.c + 1)
    let bad := decide (i.a ≥ d.fld F.SLU_MREF_BASE.COUNT) || decide (n < 256) || decide (n > 1048576) || n % 256 != 0 ||
      k.sreg i.b % 256 != 0 || !inHeadwater (k.sreg i.b) n
    if bad then d.refuse i opcode
    else d.issueRemote i (d.mref i.a) (k.sreg i.c) n { opcode := sluice, cls := 3, atPlacement := true, loc := k.sreg i.b } true k

/-- MLD. -/
def execMld (i : CoreInsn) (s : State) : Host.Outcome State Fault Refusal := s.act (mldstEff 0x22 3 i)
/-- MST. -/
def execMst (i : CoreInsn) (s : State) : Host.Outcome State Fault Refusal := s.act (mldstEff 0x23 2 i)

/-- MAT (R250, R271, R273): the old value comes back into s[C]; a word that is not 8-byte aligned ends INVALID. -/
def matEff (i : CoreInsn) (d : Device) : Device :=
  d.insn i fun _ k d =>
    if i.a ≥ d.fld F.SLU_MREF_BASE.COUNT ∨ i.flags % 4 = 0 then d.refuse i 0x24
    else if ((d.mref i.a).offset + k.sreg i.c) % 8 ≠ 0 then d.remoteFailed i.plot i.core 0x0E (d.mref i.a).node
    else
      d.issueRemote i (d.mref i.a) (k.sreg i.c) 8
        { opcode := 4, cls := 3, subop := i.flags % 4, operand := k.sreg i.b, compare := k.sreg (i.b + 1), tag := i.c } true k

/-- MAT. -/
def execMat (i : CoreInsn) (s : State) : Host.Outcome State Fault Refusal := s.act (matEff i)

/-- XPUT (R274): at most 64 of the core unanswered, whichever of its entries issued them; a further one waits for an answer, after which it is executed again. -/
def xputEff (i : CoreInsn) (d : Device) : Device :=
  d.insn i fun _ k d =>
    let n := k.sreg (i.c + 1)
    let bad := decide (i.a ≥ d.fld F.SLU_MREF_BASE.COUNT) || decide (n < 64) || decide (n > 1048576) || n % 64 != 0 ||
      k.sreg i.b % 64 != 0 || !inHeadwater (k.sreg i.b) n
    if bad then d.refuse i 0x25
    else if k.unanswered ≥ 64 then d.setCore i.plot i.core { k with wait := .xput }
    else
      let r := d.mref i.a
      d.issueRemote i r (k.sreg i.c) n
        { opcode := 2, cls := 1, atPlacement := true, loc := k.sreg i.b, compare := r.offset + 8 * r.counter + 1 } false k

/-- XPUT. -/
def execXput (i : CoreInsn) (s : State) : Host.Outcome State Fault Refusal := s.act (xputEff i)

/-- XWAIT (Table 3.9): FLAGS bit 0 clear, the 8-byte headwater word at s[A] is at least s[B]; set, every XPUT of the core has been
answered. The core waits until the test, made again, passes. -/
def xwaitEff (i : CoreInsn) (d : Device) : Device :=
  match d.running? i fun w => w == .xwait with
  | none => d
  | some _ =>
    let k := d.core i.plot i.core
    if i.parity ≥ 5 then d.coreUncorrectable i 1 0 0 [(4, 0)] false
    else if i.flags % 2 = 0 ∧ (inHeadwater (k.sreg i.a) 8 = false ∨ k.sreg i.a % 8 ≠ 0) then d.refuse i 0x26
    else
      let test := fun (pass : Bool) (d : Device) =>
        if pass then d.retire i 1 { k with wait := .none } else d.setCore i.plot i.core { k with wait := .xwait }
      if i.flags % 2 = 1 then test (decide (k.xputs = 0)) d
      else d.parity i (k.sreg i.a) (test (decide (k.sreg i.b ≤ d.load (k.sreg i.a) 8)))

/-- XWAIT. -/
def execXwait (i : CoreInsn) (s : State) : Host.Outcome State Fault Refusal := s.act (xwaitEff i)

/-! ### Appends (R75 to R78) -/

/-- Refuse an APPEND (R78): 1 offset, 2 furrow length, 3 no frame. -/
def Device.appendRefused (d : Device) (i : CoreInsn) (n : Nat) (found : Option Nat) : Device :=
  let r : ErrRec := match found with
    | some e => { cause := 3, severity := 1, detail := [(2, e)] }
    | none => { cause := 5, severity := 1, detail := [(1, n)] }
  let d := (d.record (d.coreRec i.plot i.core r)).setFld F.PLOT_EVENTS.APPEND_REFUSED 1 i.plot
  match (d.core i.plot i.core).entry with
  | some m => d.stopLate m
  | none => d

/-- Write one position's K or V into a page's frame, and into its read copy when it has one (R166). One that must wait for its channel is not
placed yet, which holds the core's END (R77, R130). -/
def Device.placeAppend (d : Device) (plot core g off : Nat) (bs : List Byte) : Device :=
  let e := d.pte g
  let at_ := (if e.tier = 1 then e.frame * frameBytes else frameAddr e.frame) + off
  let k := d.core plot core
  let d := if d.waits at_ bs.length then d.setCore plot core { k with appends := k.appends + 1 } else d
  let d := d.postWrite at_ bs (entrySlot (d.ownerEntry e.frame)) (.append plot core k.run)
  let c := sget 0 d.fur.copies g
  if c = 0 then d else d.writeMem (c - 1 + off) bs

/-- The owner check of an append's frame (R118): the entry found when it fails. -/
def Device.appendOwner (d : Device) (g owner : Nat) : Option Nat :=
  let e := d.pte g
  if e.tier = 2 ∧ entryAllows (d.ownerEntry e.frame) owner true false = false then some (d.ownerEntry e.frame) else none

/-- One position's K and V of a core's registers, converted to the furrow's format: D elements of each from register `reg` (R75). -/
def Core.appendValues (k : Core) (fm : Fmt) (nonsat : Bool) (dim reg : Nat) : List Conv × List Conv :=
  let kv := fun (r : Nat) => (List.range dim).map fun n => fm.convert nonsat [] (val32 (k.lane (32 * r + n)))
  (kv reg, kv (reg + dim / 32))

/-- Place position `p` of page `g`: its K at p × D elements and its V at (256 + p) × D, the page pinned, and what saturated or made a NaN
counted (R76, R163). -/
def Device.placePosition (d : Device) (plot core g p dim : Nat) (fm : Fmt) (x : List Conv × List Conv) : Device :=
  let b := fm.bits / 8
  let bytes := fun (cs : List Conv) => cs.flatMap fun (c : Conv) => leBytes b c.bits
  let d := (d.placeAppend plot core g (p * dim * b) (bytes x.1)).placeAppend plot core g ((256 + p) * dim * b) (bytes x.2)
  let d := { d with fur.pins := g :: d.fur.pins }
  d.fpStatus plot ((x.1 ++ x.2).filter (·.sat)).length ((x.1 ++ x.2).any (·.isNan))

/-- APPEND. -/
def appendEff (i : CoreInsn) (d : Device) : Device :=
  d.insn i fun a k d =>
    match d.entryFurrow a with
    | none => d.appendRefused i 3 none
    | some fi =>
      let f := d.furrow fi
      let h := d.headEntry i.plot i.a
      let x := f.length + i.c
      let g := seqPage f (streamOf f h) (x / 256)
      let tier := (d.pte g).tier
      if i.c ≥ a.tokens + a.e.prefill then d.appendRefused i 1 none
      else if x ≥ 256 * pps f then d.appendRefused i 2 none
      else if (tier ≠ 1 ∧ tier ≠ 2) ∨ streamOf f h ≥ streams f then d.appendRefused i 3 none
      else
        match d.appendOwner g f.owner with
        | some e => d.appendRefused i 3 (some e)
        | none =>
          match fmtOf f.fmt with
          | none => d.appendRefused i 3 none
          | some fm =>
            d.parity i (if tier = 1 then (d.pte g).frame * frameBytes else frameAddr (d.pte g).frame) fun d =>
              let d := d.placePosition i.plot i.core g (x % 256) (headDim f) fm (k.appendValues fm i.nonsat (headDim f) i.b)
              d.retire i (min i.cycles 8) { k with appends := (d.core i.plot i.core).appends }

/-- APPEND. -/
def execAppend (i : CoreInsn) (s : State) : Host.Outcome State Fault Refusal := s.act (appendEff i)

/-! ### Barriers and mesh transfers -/

/-- The cores of an entry: every core of every plot of its mask. -/
def entryCores (a : Admitted) : List (Nat × Nat) :=
  (plotsOf a.e.plotMask).flatMap fun p => (List.range 64).map fun c => (p, c)

/-- The cores of an entry go on once every one of them, ended ones apart, waits at a barrier. -/
def Device.openBarrier (d : Device) (a : Admitted) : Device :=
  let there := fun (x : Nat × Nat) =>
    let k := d.core x.1 x.2
    (k.entry == some a.index && k.wait == .barrier) || (k.entry != some a.index && decide (k.nextEntry > a.index))
  if (entryCores a).all there then
    (entryCores a).foldl (fun d x =>
      let k := d.core x.1 x.2
      if k.entry = some a.index then d.setCore x.1 x.2 { k with wait := .none } else d) d
  else d

/-- BAR: the core waits until every core that runs the entry, ended ones apart, waits at a barrier. -/
def barEff (i : CoreInsn) (d : Device) : Device :=
  d.insn i fun a k d => (d.retire i 1 { k with wait := .barrier }).openBarrier a

/-- BAR. -/
def execCoreBar (i : CoreInsn) (s : State) : Host.Outcome State Fault Refusal := s.act (barEff i)

/-- A core takes in what another sends for an entry, unless it has ended that entry; a core whose RECV waits for it goes on to execute
it. -/
def Core.deliver (t : Core) (n src : Nat) (data : List Nat) : Core :=
  if t.nextEntry > n then t
  else { t with inbox := t.inbox ++ [(n, src, data)],
                wait := if t.entry = some n ∧ t.wait = .recv src then .none else t.wait }

/-- SEND: B vector registers from A to core C, where they wait for its RECV of the same entry. -/
def coreSendEff (i : CoreInsn) (d : Device) : Device :=
  d.insn i fun a k d =>
    d.meshParity i fun d =>
      let data := (List.range (32 * i.b)).map fun n => k.lane (32 * i.a + n)
      let src := coreKey i.plot i.core
      let d := d.retire i (min i.cycles 64) k
      d.setCore (i.c / 64) (i.c % 64) ((d.core (i.c / 64) (i.c % 64)).deliver a.index src data)

/-- SEND. -/
def execCoreSend (i : CoreInsn) (s : State) : Host.Outcome State Fault Refusal := s.act (coreSendEff i)

/-- RECV: what core C has sent goes into vector registers from A; the core waits while nothing has come. -/
def coreRecvEff (i : CoreInsn) (d : Device) : Device :=
  d.insn i fun a k d =>
    match k.inbox.find? fun x => x.1 == a.index && x.2.1 == i.c with
    | some x =>
      d.meshParity i fun d => d.retire i 1 ({ k with inbox := k.inbox.erase x, wait := .none } |>.setLanes (32 * i.a) x.2.2)
    | none => d.setCore i.plot i.core { k with wait := .recv i.c }

/-- RECV. -/
def execCoreRecv (i : CoreInsn) (s : State) : Host.Outcome State Fault Refusal := s.act (coreRecvEff i)

/-! ### The scalar sequencer -/

/-- The value of a scalar operation that writes s[A]; a shift by 64 or more gives an open value (log entry 31). -/
def scalarValue (op : ScalarOp) (b c : Nat) : Nat :=
  let open_ := (Config.openResult 0x70 [b, c]).toNat
  match op with
  | .imm v => v
  | .move => b
  | .add => b + c
  | .sub => b + 2 ^ 64 - c
  | .mul => b * c
  | .band => b &&& c
  | .bor => b ||| c
  | .bxor => b ^^^ c
  | .shl => if c < 64 then b * 2 ^ c else open_
  | .shr => if c < 64 then b / 2 ^ c else open_
  | .sar => if c < 64 then twosOf 64 (signedOf 64 b / 2 ^ c) else open_
  | .lt => b2n (decide (signedOf 64 b < signedOf 64 c))
  | .ltu => b2n (decide (b < c))
  | .eq => b2n (decide (b = c))
  | .branch _ | .branchIf _ | .loop _ => b

/-- SCALAR (R70): arithmetic and comparison write s[A]; a branch sets the program counter; a loop counts s[A] down and branches
while it is not 0. -/
def scalarEff (i : CoreInsn) (op : ScalarOp) (d : Device) : Device :=
  d.insn i fun _ k d =>
    let goto := fun (d : Device) (t : Nat) =>
      let k := d.core i.plot i.core
      d.setCore i.plot i.core { k with pc := t }
    match op with
    | .branch t => goto (d.retire i 1 k) t
    | .branchIf t => if k.sreg i.a = 0 then d.retire i 1 k else goto (d.retire i 1 k) t
    | .loop t =>
      let v := (k.sreg i.a + 2 ^ 64 - 1) % 2 ^ 64
      let d := d.retire i 1 (k.setS i.a v)
      if v = 0 then d else goto d t
    | _ => d.retire i 1 (k.setS i.a (scalarValue op (k.sreg i.b) (k.sreg i.c)))

/-- SCALAR. -/
def execScalar (i : CoreInsn) (op : ScalarOp) (s : State) : Host.Outcome State Fault Refusal := s.act (scalarEff i op)

/-! ### The end of an entry -/

/-- What the end of an entry settles (R186, R206): a list that is not whole, or a selection that is not final, degrades it; a
DRAFT entry's slot reads ended. -/
def Device.entryFinished (d : Device) (a : Admitted) : Device :=
  let d := d.modAdmitted a.index fun b => { b with state := .finished }
  let d := if a.e.kind = 5 then d.modTs a.e.slot fun t => { t with draft := 2 } else d
  match d.fur.attend.find? fun x => x.entry == a.index with
  | none => d
  | some x =>
    let d := if x.final then d else d.cutSelection x
    match d.attendOf x.slot x.draft with
    | none => d
    | some y =>
      if y.heldOut then d
      else
        d.losePages y ((accessOrder (d.furrow y.desc) y.pages).filter fun g => d.entryState y g == 0)

/-- A plot has no core left to end an entry: the entry finishes with its last plot (R44). -/
def Device.plotEnded (d : Device) (n plot : Nat) : Device :=
  let ended := (List.range 64).all fun c =>
    let k := d.core plot c
    k.entry != some n && decide (k.nextEntry > n)
  if !ended then d
  else
    let d := d.modAdmitted n fun a => { a with plotsLeft := a.plotsLeft &&& ~~~(BitVec.ofNat 64 (2 ^ plot)) }
    match (d.plotRests plot).admittedAt n with
    | some a => if a.plotsLeft = 0 ∧ a.state = .running then (d.plotRests plot).entryFinished a else d.plotRests plot
    | none => d.plotRests plot

/-- END (R77): a core whose appends have all been placed ends its entry; a put still unanswered does not hold it. -/
def endEff (plot core : Nat) (d : Device) : Device :=
  let i : CoreInsn := { plot := plot, core := core }
  match d.running? i fun w => w == .placement with
  | none => d
  | some a =>
    let k := d.core plot core
    if k.appends > 0 then d.setCore plot core { k with wait := .placement }
    else
      let d := d.retire i 1 { k with wait := .none }
      let k := d.core plot core
      ((d.setCore plot core { k with entry := none, nextEntry := a.index + 1 }).openBarrier a).plotEnded a.index plot

/-- END. -/
def execEndEntry (plot core : Nat) (s : State) : Host.Outcome State Fault Refusal := s.act (endEff plot core)

end Sys2Proof.Machine
end

