-- ==== Sys2Proof/Machine/FurRing.lean ====
section
/-! DEFINITION. Sys2Proof/Machine/FurRing.lean: the furrow command ring (R161, R162): its commands act at turn boundaries, or while
the turn unit is IDLE, after the boundary's own effects (R356). -/

namespace Sys2Proof.Machine

/-! ### The furrow command ring (R161, R162) -/

/-- FUR_CQ_TAIL_WRITE: the device fetches the commands up to the new TAIL, 64 bytes each, through the function that wrote the base. -/
def furCqTailEff (tail : Nat) (d : Device) : Device :=
  let size := 2 ^ d.fld F.FUR_CQ_CTRL.LOG2_SIZE
  let from_ := d.fld F.FUR_CQ_TAIL.TAIL
  let d := d.setFld F.FUR_CQ_TAIL.TAIL tail
  if !d.on F.FUR_CQ_CTRL.ENABLE || d.on F.FUR_CQ_HEAD.STOPPED then d
  else (List.range ((tail + size - from_) % size)).foldl (fun (d : Device) i =>
    d.emit (.hostRead (d.ringFn .FUR_CQ_BASE) (d.fld F.FUR_CQ_BASE.ADDR * 4096 + 64 * ((from_ + i) % size)) 64)) d

/-- FUR_CQ_TAIL_WRITE. -/
def execFurCqTailWrite (port tail : Nat) (s : State) : Host.Outcome State Fault Refusal :=
  s.act fun d => d.asHolder port (furCqTailEff tail)

/-- A command stands at HEAD and may be processed: a boundary stands, none waits under R162, and no profile switch runs (R385). -/
def Device.furReady (d : Device) : Bool :=
  d.atBoundary && d.fld F.CFG_STATUS.STATE != 2 && d.on F.FUR_CQ_CTRL.ENABLE && !d.on F.FUR_CQ_HEAD.STOPPED && d.fld F.FUR_CQ_HEAD.HEAD != d.fld F.FUR_CQ_TAIL.TAIL &&
    d.fur.destroying.isNone

/-- Process a ring command of an OPCODE when one may be, after what comes before it at its boundary. -/
def Device.furStep (d : Device) (opcode : Nat) (bytes : List Byte) (f : Device → Device) : Device :=
  if d.furReady && furOpcode bytes == opcode then f d.boundary else d

/-- A command completes: RESULT and INDEX go into the command in host memory, with the descriptor image of a READ, HEAD moves on
and the vector is signalled (R161, Table 7.2, Table 7.17). -/
def Device.furComplete (d : Device) (opcode result index : Nat) (image : List Byte := []) : Device :=
  let head := d.fld F.FUR_CQ_HEAD.HEAD
  let a := d.fld F.FUR_CQ_BASE.ADDR * 4096 + 64 * head
  let fn := d.ringFn .FUR_CQ_BASE
  let word := leBytes 8 (opcode + 256 * result + 65536 * index)
  let d := if image.isEmpty then d.hostWrite fn (a + 56) word else d.hostWrite fn a (image.take 56 ++ word)
  (d.setFld F.FUR_CQ_HEAD.HEAD ((head + 1) % 2 ^ d.fld F.FUR_CQ_CTRL.LOG2_SIZE)).signal (d.fld F.FUR_CQ_CTRL.VECTOR)

/-- A geometry or mode check of R162 fails on an image. -/
def Device.furInvalid (d : Device) (f : Furrow) : Bool :=
  decide (rawBytes f > 65536) || decide (headDim f > scoreDim f.dsz) ||
  decide (f.rankStream ≥ streams f) || !(f.state == 1 || f.state == 2) || decide (f.sink > 15) || f.recent == 0 || decide (f.recent > 63) ||
  decide (f.top > 64) || !(f.fmt == 0 || f.fmt == 1 || f.fmt == 8 || f.fmt == 9) || decide (f.dsz > 2) || decide (f.owner > 4095) ||
  decide (f.mode > 3) || decide (f.scBase > 511) || decide (f.scCount > 320) || decide (f.dM32 > 3) ||
  (f.mode != 0 && (f.indexAddr % 64 != 0 || !inHeadwater f.indexAddr 1)) ||
  (f.mode == 2 && (f.scCount == 0 || d.part.isL)) || (f.mode == 3 && f.home == d.node) ||
  (List.range f.scCount).any fun k => !d.part.channel (f.scBase + k) || d.fld F.PIM_CH_STATUS.SCORE_SIZE (f.scBase + k) == 0

/-- The granule runs in use: first granule and number. -/
def Device.granulesUsed (d : Device) : List (Nat × Nat) :=
  (d.fur.desc.filter fun x => x.2.state != 0).map fun x => (x.2.base / 4096, granules x.2)

/-- The lowest free run of `n` granules of the 2^20 of the sequence address space (R158, R162). -/
def Device.freeRun (d : Device) (n : Nat) : Option Nat :=
  let used := d.granulesUsed
  let fits := fun (s : Nat) => decide (s + n ≤ 0x100000) && used.all fun u => decide (s + n ≤ u.1) || decide (u.1 + u.2 ≤ s)
  (sortNat (0 :: used.map fun u => u.1 + u.2)).find? fits

/-- FUR_CREATE (R162): the checks in the rule's order; no page frame is allocated, and the handoff entry is zeroed (R281). -/
def furCreateEff (img : Furrow) (d : Device) : Device :=
  if d.furInvalid img then d.furComplete 1 5 0
  else if (d.furById img.id).isSome then d.furComplete 1 7 0
  else
    match firstFrom (fun i => (d.furrow i).state == 0) 0 262144 with
    | none => d.furComplete 1 2 0
    | some i =>
      match d.freeRun (granules img) with
      | none => d.furComplete 1 3 0
      | some g =>
        let d := d.setFurrow i { img with base := g * 4096, length := 0, pushed := 0, openScore := 0, lastUse := 0 }
        (d.setHoEntry i {}).furComplete 1 1 i

/-- FUR_CREATE. -/
def execFurCreate (bytes : List Byte) (s : State) : Host.Outcome State Fault Refusal :=
  s.act fun d => d.furStep 1 bytes (furCreateEff (Furrow.ofBytes bytes))

/-- A sequence slot names a furrow. -/
def Device.slotNames (d : Device) (id : Nat) : Bool :=
  d.gen.slots.any fun x => x.2.img.state != 0 && (x.2.img.furrow == id || x.2.img.draft == id)

/-- FUR_DESTROY (R162): BUSY while a slot names the furrow; otherwise the command waits for DESTROY_COMPLETE. -/
def furDestroyEff (i : Nat) (d : Device) : Device :=
  let f := d.furrow i
  if f.state = 0 then d.furComplete 2 8 i
  else if d.slotNames f.id then d.furComplete 2 6 i
  else { d.setFurrow i { f with state := 3 } with fur.destroying := some i }

/-- FUR_DESTROY. -/
def execFurDestroy (bytes : List Byte) (s : State) : Host.Outcome State Fault Refusal :=
  s.act fun d => d.furStep 2 bytes (furDestroyEff (furIndex bytes))

/-- DESTROY_COMPLETE (R117, R158, R162): everything of the furrow is freed; a ring that still runs gets its result. -/
def destroyCompleteEff (d : Device) : Device :=
  match d.fur.destroying with
  | none => d
  | some i =>
    if !d.atBoundary || !d.furrowQuiet i || (d.hoLoc i).rx.isSome then d
    else
      let d := d.boundary
      let d := ({ d with fur.destroying := none } : Device).freeFurrow i
      (if d.furReady then d.furComplete 2 1 i else d).setHoLoc i {}

/-- DESTROY_COMPLETE. -/
def execDestroyComplete (s : State) : Host.Outcome State Fault Refusal := s.act destroyCompleteEff

/-- A score form of the furrow exists, or is being written. -/
def Device.hasScores (d : Device) (i : Nat) : Bool :=
  ((d.regionPages (d.furrow i)).any fun g => (d.pte g).scored) || d.fur.builds.any fun b => b.desc == i

/-- FUR_SET (R162). -/
def furSetEff (i : Nat) (img : Furrow) (d : Device) : Device :=
  let f := d.furrow i
  if f.state = 0 then d.furComplete 3 8 i
  else
    let g := { f with mode := img.mode, sink := img.sink, recent := img.recent, top := img.top, spillHome := img.spillHome,
                      openHw := img.openHw, scBase := img.scBase, scCount := img.scCount }
    if d.furInvalid g || img.home != f.home || (d.hasScores i && (img.scBase != f.scBase || img.scCount != f.scCount)) then
      d.furComplete 3 5 i
    else (d.setFurrow i g).furComplete 3 1 i

/-- FUR_SET. -/
def execFurSet (bytes : List Byte) (s : State) : Host.Outcome State Fault Refusal :=
  s.act fun d => d.furStep 3 bytes (furSetEff (furIndex bytes) (Furrow.ofBytes bytes))

/-- FUR_READ (R162), and a command with a reserved OPCODE, which is INVALID and has no other effect. -/
def furReadEff (opcode i : Nat) (d : Device) : Device :=
  if opcode ≠ 4 then d.furComplete (opcode % 256) 5 0
  else if (d.furrow i).state = 0 then d.furComplete 4 8 i
  else d.furComplete 4 1 i (furrowBytes (d.furrow i))

/-- FUR_READ. -/
def execFurRead (bytes : List Byte) (s : State) : Host.Outcome State Fault Refusal :=
  s.act fun d => if 1 ≤ furOpcode bytes ∧ furOpcode bytes ≤ 3 then d
    else d.furStep (furOpcode bytes) bytes (furReadEff (furOpcode bytes) (furIndex bytes))

end Sys2Proof.Machine
end

