-- ==== Sys2Proof/Machine/ScrOps.lean ====
section
/-! DEFINITION. Sys2Proof/Machine/ScrOps.lean: screen tables as the engine reads them (spec/09): the allowed check, the step over a
token, mask records, and what a bad table does. -/

namespace Sys2Proof.Machine

/-- A handle's state (Table 9.5): 0 FREE, 1 FETCHING, 2 STAGED, 3 VALID, 4 BAD. -/
def Device.scrState (d : Device) (h : Nat) : Nat := if h < 1024 then d.fld F.SCR_TABLE.STATE h else 0
/-- A resident table. -/
def Device.scrTable (d : Device) (h : Nat) : ScrTable := sget {} d.scr.tables h
/-- A field of a table's image in headwater. -/
def Device.scrAt (d : Device) (h off n : Nat) : Nat := d.load ((d.scrTable h).hw + off) n
/-- VOCAB of a table. -/
def Device.scrVocab (d : Device) (h : Nat) : Nat := d.scrAt h 8 4
/-- The class of a token. -/
def Device.scrClass (d : Device) (h t : Nat) : Nat := d.scrAt h (d.scrAt h 32 4 + 2 * t) 2 % 4096
/-- The offset of a state's record in the image. -/
def Device.scrRecord (d : Device) (h st : Nat) : Nat := d.scrAt h 44 4 + 64 * d.scrAt h (d.scrAt h 40 4 + 4 * st) 4
/-- The offset of a state's mask. -/
def Device.scrMask (d : Device) (h st : Nat) : Nat := d.scrAt h 36 4 + 512 * d.scrAt h (d.scrRecord h st + 4) 2

/-- An owner's slots may use a table (R219). -/
def Device.scrUsable (d : Device) (h owner : Nat) : Bool := d.on F.SCR_TABLE.SHARED h || d.fld F.SCR_TABLE.OWNER h == owner

/-- Note the 4 KiB blocks of a table that a read of the turn touches (R228). -/
def Device.scrTouch (d : Device) (h : Nat) (offs : List Nat) : Device :=
  let keys := offs.map fun o => h * 16384 + o / 4096
  { d with scr.read := keys.foldl (fun (acc : List Nat) k => if acc.contains k then acc else k :: acc) d.scr.read }

/-- A working state: its table and its state, as SCREEN_STATE holds it (bit 31 DEAD). -/
abbrev ScreenW := Nat × Nat

/-- The working state has lost its way. -/
def ScreenW.dead (w : ScreenW) : Bool := decide (w.2 ≥ 2 ^ 31)

/-- Token t is allowed in a working state (R219): every token is with no table, none with a table that is not VALID. -/
def Device.scrAllows (d : Device) (w : ScreenW) (t : Nat) : Bool :=
  if w.1 = 0xFFFF then true
  else if w.dead || d.scrState w.1 != 3 || decide (t ≥ d.scrVocab w.1) then false
  else
    let c := d.scrClass w.1 t
    (d.scrAt w.1 (d.scrMask w.1 (w.2 % 2 ^ 20) + c / 8) 1).testBit (c % 8)

/-- The blocks that the allowed checks of a list read. -/
def Device.scrListTouch (d : Device) (w : ScreenW) (ts : List Nat) : Device :=
  if w.1 = 0xFFFF ∨ w.dead = true ∨ d.scrState w.1 ≠ 3 then d
  else
    let st := w.2 % 2 ^ 20
    d.scrTouch w.1 ([0, d.scrAt w.1 40 4 + 4 * st, d.scrRecord w.1 st, d.scrMask w.1 st, d.scrMask w.1 st + 511] ++
      (ts.filter fun t => decide (t < d.scrVocab w.1)).map fun t => d.scrAt w.1 32 4 + 2 * t)

/-- The next state from a state's record over a class (R220). -/
def Device.scrNext (d : Device) (h st c : Nat) : Nat :=
  let r := d.scrRecord h st
  let pairs := d.scrAt h (r + 6) 2
  match (List.range pairs).find? fun k => d.scrAt h (r + 16 + 4 * k) 4 / 2 ^ 20 == c with
  | some k => d.scrAt h (r + 16 + 4 * k) 4 % 2 ^ 20
  | none => d.scrAt h r 4 % 2 ^ 20

/-- The trigger entries of a state, as 64-bit values, lowest index first. -/
def Device.scrTriggers (d : Device) (h st : Nat) : List Nat :=
  let r := d.scrRecord h st
  (List.range (d.scrAt h (r + 10) 1)).map fun k => d.scrAt h (d.scrAt h 48 4 + 8 * (d.scrAt h (r + 8) 2 + k)) 8

/-- The trigger of highest PRIORITY among those that a test picks, the lowest index on ties. -/
def winner (pick : Nat → Bool) (ts : List Nat) : Option Nat :=
  (ts.filter pick).foldl (fun acc t =>
    match acc with
    | none => some t
    | some b => if bitsOf t 24 8 > bitsOf b 24 8 then some t else some b) none

/-- Advance a working state over a chosen token (R220): the new state, the condition that fires (1 STOP, 2 PAUSE_FOR_TOOL, 0 none), and
the FLAG code (256 plus it; 0 none). -/
def Device.scrStep (d : Device) (owner : Nat) (w : ScreenW) (t : Nat) : Device × ScreenW × Nat × Nat :=
  if w.1 = 0xFFFF ∨ w.dead = true ∨ d.scrState w.1 ≠ 3 then (d, w, 0, 0)
  else
    let st := w.2 % 2 ^ 20
    let n := d.scrNext w.1 st (d.scrClass w.1 t)
    let fire := d.scrTriggers w.1 n
    let e := winner (fun x => x % 16 == 1 || x % 16 == 2 || x % 16 == 3) fire
    let f := winner (fun x => x % 16 == 4) fire
    let trig := d.scrAt w.1 48 4 + 8 * d.scrAt w.1 (d.scrRecord w.1 n + 8) 2
    let d := d.scrTouch w.1 ([d.scrAt w.1 32 4 + 2 * t, d.scrRecord w.1 st, d.scrAt w.1 40 4 + 4 * n, d.scrRecord w.1 n] ++
      (List.range fire.length).map fun k => trig + 8 * k)
    let d := { d with scr.steps := d.scr.steps + 1, scr.triggers := d.scr.triggers + b2n e.isSome + b2n f.isSome }
    let code := match f with
      | some x => 256 + bitsOf x 16 8
      | none => 0
    match e with
    | none => (d, (w.1, n), 0, code)
    | some x =>
      let next := bitsOf x 44 20
      let act := x % 16
      if act ≠ 3 then (d, (w.1, if next = 0xFFFFF then n else next), act, code)
      else
        let h := bitsOf x 34 10
        if d.scrState h = 3 ∧ d.scr.retire ≠ some h ∧ d.scrUsable h owner = true ∧ next < d.scrAt h 12 4 then (d, (h, next), 0, code)
        else ((d.event F.SCR_EVENTS.SWITCH_INVALID).event F.SCR_EVENTS.DEAD, (w.1, n + 2 ^ 31), 0, code)

/-- Write mask record k of a slot (R224, Table 9.4). -/
def Device.writeMaskRec (d : Device) (slot k pos : Nat) (w : ScreenW) : Device :=
  if w.1 = 0xFFFF ∨ d.scrState w.1 ≠ 3 then d
  else
    let hw := (d.scrTable w.1).hw
    let mask := if w.dead then List.replicate 512 0 else d.bytes (hw + d.scrMask w.1 (w.2 % 2 ^ 20)) 512
    let d := if w.dead then d else d.scrListTouch w []
    ({ d with scr.masks := d.scr.masks + 1 } : Device).store (d.fld F.SCR_MASK_BASE.ADDR * 65536 + 5184 * slot + 576 * k)
      (pack [(8, d.turnNo), (4, pos), (4, w.2), (2, w.1), (1, 1), (5, 0), (8, hw + d.scrAt w.1 32 4), (32, 0)] ++ mask)

/-- The mask records along a path of proposals (R224): one after each that is allowed. -/
def Device.maskPath (d : Device) (owner slot : Nat) : Nat → Nat → ScreenW → List Nat → Device
  | _, _, _, [] => d
  | k, pos, w, t :: ts =>
    if d.scrAllows w t then
      let (d, w, _, _) := d.scrStep owner w t
      (d.writeMaskRec slot k pos w).maskPath owner slot (k + 1) (pos + 1) w ts
    else d

/-- A slot's committed working state. -/
def screenOf (s : Sys2Proof.SlotImg) : ScreenW := (s.screenTable, s.screenState)

/-- A handle goes BAD (R228): the record, the event, and the failing seal. -/
def Device.scrBad (d : Device) (h block : Nat) : Device :=
  let d := d.setFld F.SCR_TABLE.STATE 4 h
  (d.event F.SCR_EVENTS.BAD).uncorrectable
    { cause := 7, severity := 2, replays := 3, persistent := true, unitKind := 4, owner := d.fld F.SCR_TABLE.OWNER h, detail := [(2, h), (4, block)] }

/-- A step of the engine whose reads of its tables pass at once, at a replay, or fail for the last time in a block that the step reads, which
makes the table BAD before anything is taken from it (R228, R421). -/
def Device.screenRead (d : Device) (parity bad : Nat) (f : Device → Device) : Device :=
  if parity = 0 then f d
  else if parity ≤ 3 then f (d.count F.ERR_COUNTS.REPLAYED)
  else if (f { d with scr.read := [] }).scr.read.contains bad ∧ d.scrState (bad / 16384) = 3 then f (d.scrBad (bad / 16384) (bad % 16384))
  else f d

/-- OPEN and SET may name a screen table (R219, R230). -/
def Device.screenFits (d : Device) (img : Sys2Proof.SlotImg) (owner : Nat) (opening : Bool) : Bool :=
  let h := img.screenTable
  h == 0xFFFF || (!d.part.isL && d.scrState h == 3 && d.scrUsable h owner &&
    (!opening || decide (img.screenState % 2 ^ 20 < d.scrAt h 12 4)))

end Sys2Proof.Machine
end

