-- ==== Sys2Proof/Machine/Slots.lean ====
section
/-! DEFINITION. Sys2Proof/Machine/Slots.lean: slot commands and token buffers (R192 to R200), cancelling (R240 to R244), and the flume
interrupt test (R239). -/

namespace Sys2Proof.Machine

/-! ### Processing a slot command (R196, R356) -/

/-- A slot command has been carried out: RESULT goes into its entry, and the queue's VECTOR is signalled once per boundary, or at once
while IDLE. -/
def Device.slotDone (d : Device) (q index result : Nat) : Device :=
  let d := d.hostWrite (d.ringFn .HQ_Q_BASE q) (d.hqEntry q index + 1) [BitVec.ofNat 8 result]
  if d.fld F.TURN_STATUS.STATE = 0 then (d.signal (d.fld F.HQ_Q_CTRL.VECTOR q)).flushFlumes
  else d.setHq q { d.hq q with signal := true }

/-- Process the command at the head of a SLOT queue, at a boundary or while IDLE: its 64 bytes name the opcode. -/
def Device.slotCommand (d : Device) (q opcode : Nat) (cmd : List Byte) (f : SlotCmd → Device → Device × Nat) : Device :=
  let c := SlotCmd.ofBytes cmd
  if !(d.atBoundary && d.hqFront q 1) || c.opcode != opcode then d
  else
    let d := d.boundary
    let r := f c (d.hqTake q)
    r.1.slotDone q (d.fld F.HQ_Q_STATUS.HEAD q) r.2

/-- FP32 settings of an image that Table 8.1 admits. -/
def samplingOk (s : Sys2Proof.SlotImg) : Bool :=
  let finite := fun (v : Nat) => decide (v % 2 ^ 31 < 0x7F800000)
  finite s.temperature && (decide (s.temperature < 2 ^ 31) || s.temperature == 2 ^ 31) &&
    decide (0 < s.topP) && decide (s.topP ≤ one32) && decide (s.topK ≤ 256) && decide (1 ≤ s.ckptK) && decide (s.ckptK ≤ 64) && decide (s.ckptPhase ≤ 63)

/-- The fields of an image that OPEN checks against Table 8.1 and R195. -/
def imageOk (s : Sys2Proof.SlotImg) : Bool :=
  samplingOk s && decide (s.cls ≤ 2) && decide (s.depth ≤ (if s.cls = 0 then 0 else if s.cls = 1 then 4 else 8)) &&
    decide (s.held ≤ 4) && (s.cls == 2 || s.draft == 0xFFFFFFFF) && decide (s.reason ≤ 0x0A) && decide (1 ≤ s.state) && decide (s.state ≤ 3) &&
    (!s.pendingV || s.state != 1)

/-- Another slot names a furrow. -/
def Device.namedElsewhere (d : Device) (slot id : Nat) : Bool :=
  d.gen.slots.any fun x => x.1 != slot && x.2.img.state != 0 && (x.2.img.furrow == id || x.2.img.cls == 2 && x.2.img.draft == id)

/-- The owner of an OWNED furrow. -/
def Device.ownerOfId (d : Device) (id : Nat) : Option Nat := (d.ownedById id).map fun i => (d.furrow i).owner

/-- An image that ends OPEN, and SET as OPEN (R196): R195 would break, a field is outside Table 8.1, another slot uses its JST, its TURN is not
before the current one, or its screen table does not serve (R219). -/
def Device.imageInvalid (d : Device) (slot : Nat) (img : Sys2Proof.SlotImg) (owner : Nat) (opening : Bool) : Bool :=
  let apart := match d.ownerOfId img.furrow, d.ownerOfId img.draft with
    | some a, some b => a != b
    | _, _ => false
  !imageOk img || img.cls == 2 && (img.draft == img.furrow || apart || d.namedElsewhere slot img.draft) || d.namedElsewhere slot img.furrow ||
    (d.gen.slots.any fun x => x.1 != slot && x.2.img.state != 0 && x.2.img.jst == img.jst) ||
    img.turn != 0 && decide (img.turn ≥ d.recordTurn) || !d.screenFits img owner opening

/-- A flume table entry is VALID (R233, R360), read through the PF of a port. -/
def Device.flumeValid (d : Device) (port h : Nat) (e : Sys2Proof.FlumeEntry) : Bool :=
  d.on F.HQ_FLUME_CTRL.ENABLE && decide (h < d.fld F.HQ_FLUME_CTRL.COUNT) && e.valid && decide (6 ≤ e.log2) && decide (e.log2 ≤ 16) &&
    e.ring % 4096 == 0 && (e.vf == 0 || decide (e.vf ≤ 31) && d.host.vfEnabled.contains (32 * port + e.vf)) &&
    decide (e.vector < if e.vf = 0 then 2048 else 64)

/-- The flume that an image names, as OPEN reads it (R231 to R233, R360): its table entry through the PF, then the ring's header through the
entry's function. None: INVALID. `entry` and `header` are what the reads bring, empty on a host error. -/
def Device.readFlume (d : Device) (slot port h : Nat) (entry header : List Byte) : Device × Option Flume :=
  let d := d.emit (.hostRead (d.ringFn .HQ_FLUME_BASE) (d.fld F.HQ_FLUME_BASE.ADDR * 4096 + 32 * h) 32)
  if entry.length < 32 then (d.hostErr, none)
  else
    let e := FlumeEntry.ofBytes entry
    if !d.flumeValid port h e then (d, none)
    else
      let d := d.emit (.hostRead ⟨port, e.vf⟩ e.ring 64)
      if header.length < 64 then (d.hostErr, none)
      else
        let produced := recordOf header 0 8
        (d, some { slot := slot, port := port, vf := e.vf, ring := e.ring, log2 := e.log2, vector := e.vector, modCount := e.modCount,
                   modTime := e.modTime, produced := produced, consumed := min (recordOf header 8 8) produced, isOpen := true })

/-- OPEN (R194 to R196, R219, R233, R338, R360). `image`, `entry` and `header` are what the reads of the slot image, of the flume's table
entry and of its ring's header bring, empty on a host error. -/
def openSlotEff (port : Nat) (image entry header : List Byte) (c : SlotCmd) (d : Device) : Device × Nat :=
  let slot := c.slot
  if d.slotState slot ≠ 0 then (d, 4)
  else
    let d := d.emit (.hostRead ⟨port, 0⟩ c.addr 128)
    let img := SlotImg.ofBytes image
    if image.length < 128 then (d.hostErr, 6)
    else
      match d.ownerOfId img.furrow, if img.cls = 2 then d.ownerOfId img.draft else some 0 with
      | some owner, some _ =>
        let used := img.flume != 0xFFFF && (d.gen.slots.any fun x => x.1 != slot && x.2.img.state != 0 && x.2.img.flume == img.flume)
        if d.imageInvalid slot img owner true || used then (d, 3)
        else
          let d := if (d.flume img.flume).closing then d.flushFlumes else d
          let (d, fl) := if img.flume = 0xFFFF then (d, some ({} : Flume)) else d.readFlume slot port img.flume entry header
          match fl with
          | none => (d, 3)
          | some fl =>
            let (d, paid) := if img.state = 1 then d.hgCharge F.HG_LEVEL.REQ F.HG_STATS.REQ_DROPS 1 owner slot img.jst 256 else (d, true)
            if !paid then (d, 2)
            else
              let d := d.setSlot slot { img := img, port := port }
              (if img.flume = 0xFFFF then d else d.setFlume img.flume fl, 1)
      | _, _ => (d, 5)

/-- OPEN. -/
def execOpenSlot (q : Nat) (cmd image entry header : List Byte) (s : State) : Host.Outcome State Fault Refusal :=
  s.act fun d => d.slotCommand (q % 256) 1 cmd (openSlotEff (d.ringFn .HQ_Q_BASE (q % 256)).port image entry header)

/-- CLOSE: the furrows stay; a descriptor kept for a CANCELLED slot whose furrow a RELEASE took goes with it (R296). -/
def closeSlotEff (c : SlotCmd) (d : Device) : Device × Nat :=
  let slot := c.slot
  let st := d.slotState slot
  if st = 3 ∨ st = 5 ∨ st = 6 ∨ st = 7 then
    let id := (d.slot slot).img.furrow
    let d := d.freeSlot slot
    match d.fur.desc.find? fun x => x.2.state == 3 && x.2.id == id with
    | some (i, _) => if d.fur.dying.contains i || d.fur.destroying == some i then (d, 1) else (d.setFurrow i {}, 1)
    | none => (d, 1)
  else (d, 4)

/-- CLOSE. -/
def execCloseSlot (q : Nat) (cmd : List Byte) (s : State) : Host.Outcome State Fault Refusal :=
  s.act fun d => d.slotCommand (q % 256) 2 cmd closeSlotEff

/-- The slot's furrow is being offered (R290). -/
def Device.offering (d : Device) (slot : Nat) : Bool :=
  match d.furById (d.slot slot).img.furrow with
  | some i => (d.hoEntry i).localState == 1
  | none => false

/-- SET: the settings of Table 8.6 are taken from an image, which is INVALID as for OPEN. -/
def slotSetEff (port : Nat) (image : List Byte) (c : SlotCmd) (d : Device) : Device × Nat :=
  let slot := c.slot
  let st := d.slotState slot
  if ¬(st = 1 ∨ st = 2 ∨ st = 3) ∨ d.offering slot = true then (d, 4)
  else
    let d := d.emit (.hostRead ⟨port, 0⟩ c.addr 128)
    let img := SlotImg.ofBytes image
    if image.length < 128 then (d.hostErr, 6)
    else
      let old := (d.slot slot).img
      let owner := match d.furById old.furrow with
        | some i => (d.furrow i).owner
        | none => 0
      if d.imageInvalid slot img owner false then (d, 3)
      else
        let start := if img.screenTable = old.screenTable ∨ img.screenTable = 0xFFFF then old.screenState
          else d.scrAt img.screenTable 20 4
        (d.modImg slot fun m =>
          { m with temperature := img.temperature, topP := img.topP, topK := img.topK, end0 := img.end0, end1 := img.end1,
                   outLimit := img.outLimit, ckptK := img.ckptK, ckptPhase := img.ckptPhase, screenTable := img.screenTable,
                   screenState := start, handoff := img.handoff }, 1)

/-- SET. -/
def execSlotSet (q : Nat) (cmd image : List Byte) (s : State) : Host.Outcome State Fault Refusal :=
  s.act fun d => d.slotCommand (q % 256) 3 cmd (slotSetEff (d.ringFn .HQ_Q_BASE (q % 256)).port image)

/-- READ: the slot image, as at the last commit, goes to ADDR. -/
def slotReadEff (port : Nat) (ok : Bool) (c : SlotCmd) (d : Device) : Device × Nat :=
  if ok then (d.hostWrite ⟨port, 0⟩ c.addr (imageBytes (d.slot c.slot).img), 1) else (d.hostErr, 6)

/-- READ; and a command with a reserved OPCODE, which is INVALID and has no other effect (log entry 184). -/
def execSlotRead (q : Nat) (cmd : List Byte) (ok : Bool) (s : State) : Host.Outcome State Fault Refusal :=
  s.act fun d =>
    let op := (SlotCmd.ofBytes cmd).opcode
    if op = 0 ∨ op > 8 then d.slotCommand (q % 256) op cmd fun _ d => (d, 3)
    else d.slotCommand (q % 256) 4 cmd (slotReadEff (d.ringFn .HQ_Q_BASE (q % 256)).port ok)

/-- PAUSE: ACTIVE becomes PAUSED with reason DRIVER. -/
def slotPauseEff (c : SlotCmd) (d : Device) : Device × Nat :=
  if d.slotState c.slot = 2 then ((d.moveSlot c.slot 3 0x0A).stateChanged c.slot, 1) else (d, 4)

/-- PAUSE. -/
def execSlotPause (at_ q : Nat) (cmd : List Byte) (s : State) : Host.Outcome State Fault Refusal :=
  s.act fun d => (d.at_ at_).slotCommand (q % 256) 5 cmd slotPauseEff

/-- RESUME: PAUSED becomes ACTIVE, unless its furrow is being offered. -/
def slotResumeEff (c : SlotCmd) (d : Device) : Device × Nat :=
  if d.slotState c.slot = 3 ∧ d.offering c.slot = false then ((d.moveSlot c.slot 2 0).stateChanged c.slot, 1) else (d, 4)

/-- RESUME. -/
def execSlotResume (at_ q : Nat) (cmd : List Byte) (s : State) : Host.Outcome State Fault Refusal :=
  s.act fun d => (d.at_ at_).slotCommand (q % 256) 6 cmd slotResumeEff

/-- A token buffer. -/
def Device.tokBuf (d : Device) (h : Nat) : TokBuf := sget {} d.gen.bufs h
/-- Replace a token buffer. -/
def Device.setTokBuf (d : Device) (h : Nat) (b : TokBuf) : Device := { d with gen.bufs := sput {} d.gen.bufs h b }

/-- BUFFER: a token buffer is registered; its handle is at most 65,535 (log entry 184). -/
def tokBufferEff (port : Nat) (c : SlotCmd) (d : Device) : Device × Nat :=
  if c.handle > 65535 ∨ c.count = 0 ∨ c.count > 16777216 then (d, 3)
  else if d.turn.admitted.any fun a => a.e.kind == 2 && a.e.arg == c.handle && decide (a.state = .running) then (d, 2)
  else (d.setTokBuf c.handle { port := port, addr := c.addr, cap := c.count }, 1)

/-- BUFFER. -/
def execTokBuffer (q : Nat) (cmd : List Byte) (s : State) : Host.Outcome State Fault Refusal :=
  s.act fun d => d.slotCommand (q % 256) 7 cmd (tokBufferEff (d.ringFn .HQ_Q_BASE (q % 256)).port)

/-- BUFFER_ADD: waiting tokens are added. -/
def bufferAddEff (c : SlotCmd) (d : Device) : Device × Nat :=
  let b := d.tokBuf c.handle
  if b.written + c.count > b.cap then (d, 3) else (d.setTokBuf c.handle { b with written := b.written + c.count }, 1)

/-- BUFFER_ADD. -/
def execBufferAdd (q : Nat) (cmd : List Byte) (s : State) : Host.Outcome State Fault Refusal :=
  s.act fun d => d.slotCommand (q % 256) 8 cmd bufferAddEff

/-! ### Prefill staging (R200) -/

/-- PREFILL_STAGING_DONE: the copy of a slot's tokens into the staging area ends; the pending token, when held, comes first. -/
def stagingDoneEff (slot : Nat) (tokens : List Nat) (ok : Bool) (d : Device) : Device :=
  match d.gen.staging.find? fun x => x.slot == slot with
  | none => d
  | some x =>
    if !ok then d.hostErr.stagingFailed x
    else
      let xs := (if x.held then [(d.slot slot).img.pending] else []) ++ (tokens ++ List.replicate x.count 0).take x.count
      let d := { d with gen.staging := d.gen.staging.erase x }
      let d := d.store x.addr (xs.flatMap fun t => leBytes 4 t)
      d.modTs slot fun t => { t with staged := true, stageAddr := x.addr }

/-- PREFILL_STAGING_DONE. -/
def execPrefillStagingDone (slot : Nat) (tokens : List Nat) (ok : Bool) (s : State) : Host.Outcome State Fault Refusal :=
  s.act (stagingDoneEff (slot % 4096) tokens ok)

/-! ### Cancelling (R240 to R244) -/

/-- The functions whose cancel of a slot counts (R240): the PF through which it was opened, as which the holder counts (R352), and its
flume's function. -/
def Device.mayCancel (d : Device) (slot : Nat) (fn : Fn) : Bool :=
  let s := d.slot slot
  fn == ⟨s.port, 0⟩ || (fn.vf == 0 && d.holder == some fn.port) || (s.img.flume != 0xFFFF && (let f := d.flume s.img.flume; f.isOpen && fn == ⟨f.port, f.vf⟩))

/-- CANCEL: the doorbell write of a function (Table 10.6), whether it was a naturally aligned 64-bit write; a PF's acts only while it holds
(R351). -/
def cancelEff (fn : Fn) (value : Nat) (aligned : Bool) (d : Device) : Device :=
  if d.barClosed then d
  else if fn.vf = 0 ∧ d.holder ≠ some fn.port then d.count F.HQ_STATS.FOREIGN
  else
    let slot := cancelSlotNo value
    let s := d.slot slot
    if !aligned then (d.count F.HQ_STATS.CANCEL_IGNORED).count F.HQ_STATS.DOORBELL_IGNORED
    else if s.img.state = 0 ∨ s.img.jst ≠ cancelJst value ∨ d.mayCancel slot fn = false then d.count F.HQ_STATS.CANCEL_IGNORED
    else
      match s.img.state with
      | 4 => d
      | 1 | 2 | 3 =>
        let d := (d.entriesOf slot).foldl (fun (d : Device) k => d.pimCut k) d
        d.cancelSlot slot
      | _ =>
        if s.alreadyDone then d
        else ((d.setSlot slot { s with alreadyDone := true }).statusRecord slot 5).flushRecords

/-- CANCEL. -/
def execCancelDoorbell (at_ : Nat) (fn : Fn) (value : Nat) (aligned : Bool) (s : State) : Host.Outcome State Fault Refusal :=
  s.act fun d => cancelEff fn value aligned (d.at_ at_)

/-- FLUME_INTERRUPT_TEST (R239): the test of every flume, each 10 µs. -/
def execFlumeInterruptTest (at_ : Nat) (s : State) : Host.Outcome State Fault Refusal :=
  s.act fun d => (d.at_ at_).testFlumes (d.flu.flumes.map (·.1))

end Sys2Proof.Machine
end

