-- ==== Sys2Proof/Machine/Sampler.lean ====
section
/-! DEFINITION. Sys2Proof/Machine/Sampler.lean: the samplers (R201 to R208): candidate lists, the draw, and TARGET, DRAFT_STEP and
HEADS requests with the screen engine's part in them (R219 to R224). -/

namespace Sys2Proof.Machine

/-! ### The draw (R203) -/

/-- One round of Philox-4x32. -/
def philoxRound (k0 k1 : Nat) (c : Nat × Nat × Nat × Nat) : Nat × Nat × Nat × Nat :=
  let p0 := 0xD2511F53 * c.1
  let p1 := 0xCD9E8D57 * c.2.2.1
  (p1 / 2 ^ 32 ^^^ c.2.1 ^^^ k0, p1 % 2 ^ 32, p0 / 2 ^ 32 ^^^ c.2.2.2 ^^^ k1, p0 % 2 ^ 32)

/-- The first output word of Philox-4x32-10 over the counter words (x, id, 0, 0) under a seed. -/
def philox (seed x id : Nat) : Nat :=
  ((List.range 10).foldl (fun c r =>
    philoxRound ((seed % 2 ^ 32 + r * 0x9E3779B9) % 2 ^ 32) ((seed / 2 ^ 32 % 2 ^ 32 + r * 0xBB67AE85) % 2 ^ 32) c)
    (x % 2 ^ 32, id % 2 ^ 32, 0, 0)).1

/-- draw(x), in [0, 1). -/
def drawAt (seed x id : Nat) : Fv := .fin false (philox seed x id / 256) (-24)

/-! ### Choosing a token (R202) -/

/-- ⌊log2(e) × 2^200⌋. -/
def log2e200 : Nat := 2318321547468254865173387471183990171487108758923299108729110

/-- RN(log2(e) / T) in FP32. The quotient is irrational: 64 bits more than FP32 keeps and a sticky bit decide its rounding. -/
def gainOf (t : Nat) : Nat :=
  match val32 t with
  | .fin _ m e => if m = 0 then 0x7F800000 else round32 [0x40, t] (.fin false (2 * (log2e200 / m) + 1) (-201 - e))
  | _ => 0

/-- A candidate comes before another: the higher logit, the lower token on ties. -/
def candBefore (a b : Nat × Nat) : Bool := (val32 b.1).lt (val32 a.1) || (!(val32 a.1).lt (val32 b.1) && decide (a.2 < b.2))

/-- Insert a candidate (logit, token) into a sorted list. -/
def insertCand (c : Nat × Nat) : List (Nat × Nat) → List (Nat × Nat)
  | [] => [c]
  | x :: xs => if candBefore c x then c :: x :: xs else x :: insertCand c xs

/-- Running sums in FP32. -/
def runningSums : Nat → List Nat → List Nat
  | _, [] => []
  | acc, w :: ws => add32 acc w :: runningSums (add32 acc w) ws

/-- Choose among sorted candidates that are not empty (R202). -/
def chooseToken (temperature topP topK : Nat) (draw : Fv) (cs : List (Nat × Nat)) : Nat :=
  let first := cs.headD (0, 0)
  if (val32 temperature).isZero then first.2
  else
    let cs := if topK = 0 then cs else cs.take topK
    let g := gainOf temperature
    let weight := fun (c : Nat × Nat) =>
      let z := (val32 c.1).add (val32 first.1).neg
      vfunApply .exp2 false (if z.isZero then 0 else round32 [0x41, c.1, first.1, g] (z.mul (val32 g)))
    let sums := one32 :: runningSums one32 (cs.tail.map weight)
    let last := sums.getLastD one32
    let bound := round32 [0x42, topP, last] ((val32 topP).mul (val32 last))
    let m := (sums.findIdx? fun c => !(val32 c).lt (val32 bound)).getD (sums.length - 1)
    let r := round32 [0x43] (draw.mul (val32 (sums.getD m one32)))
    let i := ((sums.take (m + 1)).findIdx? fun c => (val32 r).lt (val32 c)).getD m
    (cs.getD i first).2

/-- The candidates of list j of a request, as (logit, token). -/
def Device.candidates (d : Device) (slot j : Nat) : List (Nat × Nat) :=
  let n := d.postFld slot 228 2
  let a := d.postFld slot 232 6 + 8 * n * j
  (List.range n).map fun k => (d.load (a + 8 * k + 4) 4, d.load (a + 8 * k) 4)

/-- The candidates that stand, sorted: a finite logit and a token that the working state allows. -/
def Device.standing (d : Device) (slot j : Nat) (w : ScreenW) : List (Nat × Nat) :=
  ((d.candidates slot j).filter fun c => decide (c.1 % 2 ^ 31 < 0x7F800000) && d.scrAllows w c.2).foldl (fun acc c => insertCand c acc) []

/-- Sample list j for position x under a working state: the token (none: EMPTY) and the first candidate after sorting. -/
def Device.sample (d : Device) (slot j x : Nat) (w : ScreenW) : Option Nat × Option (Nat × Nat) :=
  let img := (d.slot slot).img
  match d.standing slot j w with
  | [] => (none, none)
  | c :: cs => (some (chooseToken img.temperature img.topP img.topK (drawAt img.seed x img.furrow) (c :: cs)), some c)

/-- The blocks of the screen table that a list's check reads. -/
def Device.sampleTouch (d : Device) (slot j : Nat) (w : ScreenW) : Device := d.scrListTouch w ((d.candidates slot j).map (·.2))

/-! ### Requests (R201) -/

/-- A request with a code waits at a slot, and an entry of some kinds that has not been stopped serves the slot. -/
def Device.posted (d : Device) (slot code : Nat) (kinds : List Nat) : Option Admitted :=
  if (d.slot slot).post = [] ∨ d.postFld slot 224 1 ≠ code ∨ d.slotState slot = 0 ∨ d.slotState slot = 4 ∨ d.slotState slot = 6 then none
  else d.turn.admitted.find? fun a => a.e.slot == slot && kinds.contains a.e.kind && (decide (a.state = .running) || decide (a.state = .finished))

/-- The request is well formed: its lists and candidates in range, its lists in headwater. -/
def Device.requestOk (d : Device) (slot : Nat) : Bool :=
  let lists := d.postFld slot 226 1
  let n := d.postFld slot 228 2
  let a := d.postFld slot 232 6
  decide (1 ≤ lists) && decide (lists ≤ 9) && decide (1 ≤ n) && decide (n ≤ 256) && a % 8 == 0 && inHeadwater a (8 * n * lists)

/-- A request has been served: DONE_SEQ takes SEQ, and POST returns to idle. -/
def Device.served (d : Device) (slot : Nat) : Device :=
  let seq := d.postFld slot 225 1
  (d.modTs slot fun t => { t with doneSeq := seq }).postIdle slot

/-- The owner of a slot's furrow. -/
def Device.slotOwner (d : Device) (slot : Nat) : Nat :=
  match d.furById (d.slot slot).img.furrow with
  | some i => (d.furrow i).owner
  | none => 0

/-! ### TARGET (R207, R208) -/

/-- What a TARGET request has sampled: the tokens, with the code and condition of each, the working states after each, and the first
list's best candidate. -/
structure Sampled where
  tokens : List Nat := []
  codes : List Nat := []
  conds : List Nat := []
  states : List ScreenW := []
  top1 : Option (Nat × Nat) := none
  deriving DecidableEq, Repr

/-- Sample lists from j on while each token equals its proposal; `n` lists are left. -/
def Device.sampleLists (slot owner x0 : Nat) (proposals : List Nat) : Nat → Nat → ScreenW → Sampled → Device → Device × Sampled
  | 0, _, _, out, d => (d, out)
  | n + 1, j, w, out, d =>
    let (t, top) := d.sample slot j (x0 + j) w
    let d := d.sampleTouch slot j w
    let out := if j = 0 then { out with top1 := top } else out
    match t with
    | none => (d, out)
    | some t =>
      let (d, w2, cond, code) := d.scrStep owner w t
      let out := { out with tokens := out.tokens ++ [t], codes := out.codes ++ [code], conds := out.conds ++ [cond], states := out.states ++ [w2] }
      if proposals[j]? = some t then Device.sampleLists slot owner x0 proposals n (j + 1) w2 out d else (d, out)

/-- The ending of Table 8.5 that a token meets: the REASON, 0 for none. `count` is the accepted tokens with it, `after` the
LENGTH that a commit up to it leaves. -/
def endingAt (img : Sys2Proof.SlotImg) (f : Furrow) (cond t count after : Nat) : Nat :=
  if cond = 1 then 3
  else if cond = 2 then 2
  else if t = img.end0 ∧ img.end0 ≠ 0xFFFFFFFF ∨ t = img.end1 ∧ img.end1 ≠ 0xFFFFFFFF then 4
  else if img.outLimit ≠ 0 ∧ img.outCount + count ≥ img.outLimit then 5
  else if after + 1 + img.depth > 256 * pps f then 6
  else 0

/-- The first token that ends the accepted ones: how many stand, and the REASON (0: all stand). -/
def firstEnding (img : Sys2Proof.SlotImg) (f : Furrow) (after : Nat → Nat) : Nat → List (Nat × Nat) → Nat × Nat
  | n, [] => (n, 0)
  | n, (t, cond) :: rest =>
    let e := endingAt img f cond t (n + 1) (after (n + 1))
    if e ≠ 0 then (n + 1, e) else firstEnding img f after (n + 1) rest

/-- The verdict of a TARGET request. -/
def Device.verdict (d : Device) (slot : Nat) (a : Admitted) (f : Furrow) : Device :=
  let s := d.slot slot
  let img := s.img
  let prefill := a.e.kind == 2
  let appended := b2n img.pendingV + a.e.prefill
  let proposals := (if prefill then [] else ((if img.cls = 2 then s.ts.drafted else img.proposals).take s.ts.proposed).take
    (d.postFld slot 226 1 - 1))
  let x0 := f.length + (if prefill then appended else 1)
  let w0 : ScreenW := screenOf img
  let (d, out) := Device.sampleLists slot f.owner x0 proposals (proposals.length + 1) 0 w0 {} d
  let after := fun n => if prefill then f.length + appended else f.length + n
  let (n, e) := firstEnding img f after 0 (out.tokens.zip out.conds)
  let m := ((out.tokens.take n).zip proposals).countP fun x => x.1 == x.2
  let next := if n = 0 then none else out.states[n - 1]?
  let ending := if n = 0 then 7 else e
  let s := d.slot slot
  let ts := { s.ts with verdict := true, accepted := n, ending := ending, tokens := out.tokens ++ s.ts.tokens.drop out.tokens.length,
                        top1Token := (out.top1.map (·.2)).getD s.ts.top1Token, top1Logit := (out.top1.map (·.1)).getD s.ts.top1Logit }
  let s := { s with ts := ts, k := proposals.length, m := m, truncated := decide (n < out.tokens.length), codes := out.codes.take n,
                    screenNext := next, headsDone := false, hash := d.postFld slot 230 2 }
  d.setSlot slot s

/-- The reads that a request makes (R228, R421): of its candidate lists, which end the request when their last replay fails, and of the
screen tables. -/
def Device.samplerReads (d : Device) (slot lists table bad : Nat) (f : Device → Device) : Device :=
  if lists > 3 then
    (d.uncorrectable { cause := 1, severity := 2, replays := 3, persistent := true, unitKind := 11, owner := d.slotOwner slot, jst := (d.slot slot).img.jst,
                       slot := slot, address := d.postFld slot 232 6 }).postIdle slot
  else Device.screenRead (if lists = 0 then d else d.count F.ERR_COUNTS.REPLAYED) table bad f

/-- TARGET. A PREFILL entry that is no final chunk samples nothing. -/
def targetEff (slot lists table bad : Nat) (d : Device) : Device :=
  match d.posted slot 1 [1, 2] with
  | none => d
  | some a =>
    if !d.requestOk slot || (a.e.kind == 2 && !(d.slot slot).ts.finalChunk) then d.postIdle slot
    else
      d.samplerReads slot lists table bad fun d =>
        match d.furById (d.slot slot).img.furrow with
        | none => d.postIdle slot
        | some i => (d.verdict slot a (d.furrow i)).served slot

/-- TARGET. -/
def execSamplerTarget (slot lists table bad : Nat) (s : State) : Host.Outcome State Fault Refusal :=
  s.act (targetEff (slot % 4096) lists table bad)

/-! ### DRAFT_STEP and HEADS -/

/-- What a DRAFT_STEP does (R206): one token more of the draft, unless a list has been EMPTY or eight stand; the mask record after it. -/
def Device.draftStep (d : Device) (slot : Nat) (f : Furrow) : Device :=
  let s := d.slot slot
  let n := s.ts.proposed
  if s.draftOver ∨ n ≥ 8 then d.served slot
  else
    let w : ScreenW := s.screenDraft.getD (screenOf s.img)
    let x := f.length + n + 1
    let (t, _) := d.sample slot 0 x w
    let d := d.sampleTouch slot 0 w
    match t with
    | none => (d.setSlot slot { s with draftOver := true }).served slot
    | some t =>
      let (d, w2, _, _) := d.scrStep f.owner w t
      let ts := { s.ts with proposed := n + 1, drafted := fitNat n s.ts.drafted ++ t :: s.ts.drafted.drop (n + 1) }
      let s := { s with ts := ts, screenDraft := some w2 }
      ((d.setSlot slot s).writeMaskRec slot (n + 1) (x + 1) w2).served slot

/-- DRAFT_STEP. -/
def draftStepEff (slot lists table bad : Nat) (d : Device) : Device :=
  match d.posted slot 2 [5] with
  | none => d
  | some _ =>
    if !d.requestOk slot then d.postIdle slot
    else
      d.samplerReads slot lists table bad fun d =>
        match d.furById (d.slot slot).img.furrow with
        | none => d.postIdle slot
        | some i => d.draftStep slot (d.furrow i)

/-- DRAFT_STEP. -/
def execDraftStep (slot lists table bad : Nat) (s : State) : Host.Outcome State Fault Refusal :=
  s.act (draftStepEff (slot % 4096) lists table bad)

/-- Sample the lists of a HEADS request until one is EMPTY: the tokens. -/
def Device.sampleHeads (slot owner x0 : Nat) : Nat → Nat → ScreenW → List Nat → Device → Device × List Nat
  | 0, _, _, out, d => (d, out)
  | n + 1, j, w, out, d =>
    let (t, _) := d.sample slot j (x0 + j) w
    let d := d.sampleTouch slot j w
    match t with
    | none => (d, out)
    | some t =>
      let (d, w2, _, _) := d.scrStep owner w t
      Device.sampleHeads slot owner x0 n (j + 1) w2 (out ++ [t]) d

/-- What a HEADS request does (R205): its first DEPTH lists at most are sampled, from the position after the accepted tokens. -/
def Device.heads (d : Device) (slot : Nat) (a : Admitted) (f : Furrow) : Device :=
  let s := d.slot slot
  let base := f.length + (if a.e.kind = 2 then b2n s.img.pendingV + a.e.prefill else s.ts.accepted) + 1
  let n := min (d.postFld slot 226 1) s.img.depth
  let (d, ts) := Device.sampleHeads slot f.owner base n 0 (s.screenNext.getD (screenOf s.img)) [] d
  let s := d.slot slot
  let t := { s.ts with next := ts.length, drafted := ts ++ s.ts.drafted.drop ts.length }
  (d.setSlot slot { s with ts := t, headsDone := true }).served slot

/-- HEADS (R205): after the verdict of an EXPRESS slot, once. -/
def headsEff (slot lists table bad : Nat) (d : Device) : Device :=
  match d.posted slot 3 [1, 2] with
  | none => d
  | some a =>
    let s := d.slot slot
    if !d.requestOk slot || s.img.cls != 1 || !s.ts.verdict || s.headsDone then d.postIdle slot
    else
      d.samplerReads slot lists table bad fun d =>
        match d.furById s.img.furrow with
        | none => d.postIdle slot
        | some i => d.heads slot a (d.furrow i)

/-- HEADS. -/
def execSamplerHeads (slot lists table bad : Nat) (s : State) : Host.Outcome State Fault Refusal :=
  s.act (headsEff (slot % 4096) lists table bad)

end Sys2Proof.Machine
end

