-- ==== Sys2Proof/Machine/Screen.lean ====
section
/-! DEFINITION. Sys2Proof/Machine/Screen.lean: loading, installing, scrubbing and retiring screen tables (R225 to R229). -/

namespace Sys2Proof.Machine

/-! ### Checks over an image (R226) -/

/-- A state record obeys R217, and its next states, mask and triggers lie in range; `rd` reads a value of the image. -/
def recordOk (rd : Nat → Nat → Nat) (st : Nat) : Bool :=
  let states := rd 12 4
  let r := rd 44 4 + 64 * rd (rd 40 4 + 4 * st) 4
  let pairs := rd (r + 6) 2
  let cls := fun k => rd (r + 16 + 4 * k) 4 / 2 ^ 20
  decide (r + 16 + 4 * pairs ≤ rd 24 4) && decide (r / 4096 = (r + 15 + 4 * pairs) / 4096) && decide (pairs ≤ 1020) &&
    (List.range pairs).all (fun k => decide (rd (r + 16 + 4 * k) 4 % 2 ^ 20 < states) && (k + 1 == pairs || decide (cls k < cls (k + 1)))) &&
    decide (rd r 4 % 2 ^ 20 < states) && decide (rd (r + 4) 2 < rd 16 2) && decide (rd (r + 10) 1 ≤ 4) &&
    (rd (r + 10) 1 == 0 || decide (rd (r + 8) 2 + rd (r + 10) 1 ≤ rd 18 2))

/-- A trigger entry has a listed ACTION and a NEXT_STATE that Table 9.3 allows. -/
def triggerOk (rd : Nat → Nat → Nat) (k : Nat) : Bool :=
  let x := rd (rd 48 4 + 8 * k) 8
  let next := bitsOf x 44 20
  match x % 16 with
  | 1 | 2 => decide (next < rd 12 4) || next == 0xFFFFF
  | 3 => decide (next < rd 12 4)
  | 4 => true
  | _ => false

/-- Every check of R226 over an image of `n` bytes. -/
def tableOk (image : List Byte) (n : Nat) : Bool :=
  let rd := fun (o k : Nat) => leValue ((image.drop o).take k)
  let fits := fun (o k : Nat) => decide (o + k ≤ n)
  rd 0 4 == 0x5A545343 && rd 4 2 == 1 && rd 24 4 == n && decide (n ≤ 0x4000000) && rd 52 4 == crc32 ((image.drop 128).take (n - 128)) &&
    fits (rd 32 4) (2 * rd 8 4) && fits (rd 36 4) (512 * rd 16 2) && fits (rd 40 4) (4 * rd 12 4) && fits (rd 48 4) (8 * rd 18 2) &&
    (List.range (rd 8 4)).all (fun t => decide (rd (rd 32 4 + 2 * t) 2 % 4096 < rd 6 2)) && (List.range (rd 12 4)).all (recordOk rd) &&
    decide (rd 20 4 < rd 12 4) && (List.range (rd 18 2)).all (triggerOk rd)

/-! ### Commands (R225) -/

/-- A command of the screen engine ends with a RESULT. -/
def Device.scrResult (d : Device) (h result : Nat) : Device :=
  ((d.setFld F.SCR_CMD_STATUS.HANDLE h).setFld F.SCR_CMD_STATUS.RESULT result).setFld F.SCR_CMD_STATUS.ACTIVE 0

/-- The first address of an area at which `n` bytes are free, in steps of a unit. -/
def firstFit (base size unit n : Nat) (used : List (Nat × Nat)) : Option Nat :=
  let fits := fun (a : Nat) => decide (a + n ≤ base + size) && used.all fun u => decide (a + n ≤ u.1) || decide (u.1 + u.2 ≤ a)
  (sortNat (base :: used.map fun u => ceilDiv (u.1 + u.2) unit * unit)).find? fits

/-- Set the frame owner entries of a reservoir copy. -/
def Device.ownCopy (d : Device) (a n e : Nat) : Device :=
  { d with mem5.owners := (framesOf a n).foldl (fun (t : SMap Nat) f => sput 0 t f e) d.mem5.owners }

/-- OWNER of an image's header (Table 9.1): the owner slot and SHARED. -/
def headerOwner (image : List Byte) : Nat × Bool := let v := leValue ((image.drop 28).take 2); (v % 4096, bitOf v 15)

/-- LOAD: the image's header is read for its OWNER, space is taken, and the image's copy from host memory starts (R225, R247). `header` is what
the read brings. -/
def screenLoadEff (port h bytes : Nat) (header : List Byte) (d : Device) : Device :=
  if d.part.isL ∨ d.on F.SCR_CMD_STATUS.ACTIVE = true then d
  else if d.scrState h ≠ 0 then (d.scrResult h 6).event F.SCR_EVENTS.LOAD_FAILED
  else if bytes = 0 ∨ bytes > 0x4000000 then (d.scrResult h 3).event F.SCR_EVENTS.LOAD_FAILED
  else
    let tables := d.scr.tables.map (·.2)
    let hw := firstFit (d.fld F.SCR_AREA.ADDR * 65536) (d.fld F.SCR_AREA.SIZE_MIB * 0x100000) 4096 bytes (tables.map fun t => (t.hw, t.bytes))
    let res := firstFit (d.fld F.SCR_RES_AREA.ADDR * 65536) (d.fld F.SCR_RES_AREA.SIZE_MIB * 0x100000) 65536 bytes
      (tables.map fun t => (t.res, t.bytes))
    match hw, res with
    | some a, some b =>
      let host := d.fld F.SCR_CMD_ADDR.ADDR * 4096
      let fn := d.ringFn .SCR_CMD_ADDR
      let d := d.emit (.hostRead fn host 128)
      if header.length < 128 then (d.hostErr.scrResult h 5).event F.SCR_EVENTS.LOAD_FAILED
      else
        let owner := (headerOwner header).1
        let t : ScrTable := { hw := a, res := b, bytes := bytes, owner := owner }
        let desc : Desc := { opcode := 1, owner := owner, loc := b, remote := host, remHost := true, length := bytes }
        let l : ScrLoad := { handle := h, hw := a, res := b, bytes := bytes, owner := owner, port := port, addr := host }
        let d := { d with scr.tables := sput {} d.scr.tables h t, scr.load := some l, scr.fetchEnded := none }
        let d := (d.setFld F.SCR_TABLE.STATE 1 h).ownCopy b bytes (mkOwner owner false)
        let d := ((d.setFld F.SCR_CMD_STATUS.HANDLE h).setFld F.SCR_CMD_STATUS.RESULT 0).setFld F.SCR_CMD_STATUS.ACTIVE 1
        d.issue 1 desc (.screen h) fn
    | _, _ => (d.scrResult h 4).event F.SCR_EVENTS.LOAD_FAILED

/-- LOAD. -/
def execScrLoad (port handle bytes : Nat) (header : List Byte) (s : State) : Host.Outcome State Fault Refusal :=
  s.act fun d => d.asHolder port (screenLoadEff port (handle % 1024) (bytes % 2 ^ 32) header)

/-- A handle becomes FREE and its space is returned. -/
def Device.scrFree (d : Device) (h : Nat) : Device :=
  let t := d.scrTable h
  let d := d.ownCopy t.res t.bytes 0
  let users := d.fld F.SCR_TABLE.USERS h
  (({ d with scr.tables := sput {} d.scr.tables h {}, scr.clean := d.scr.clean.filter fun x => x.1 / 16384 != h,
             scr.scrubAt := sput 0 d.scr.scrubAt h 0 } : Device).setReg
    .SCR_TABLE h 0).setFld F.SCR_TABLE.USERS users h

/-- The LOAD under way ends: with 1 the handle is STAGED, otherwise it is FREE. -/
def Device.loadEnds (d : Device) (result : Nat) : Device :=
  match d.scr.load with
  | none => d
  | some l =>
    let d := { d with scr.load := none, scr.fetchEnded := none }
    if result ≠ 1 then ((d.scrFree l.handle).scrResult l.handle result).event F.SCR_EVENTS.LOAD_FAILED
    else
      let h := l.handle
      let d := (d.setFld F.SCR_TABLE.STATE 2 h).setFld F.SCR_TABLE.PIECES (ceilDiv l.bytes 0x100000) h
      let (owner, shared) := headerOwner (d.readMem l.res 128)
      let d := ((d.setFld F.SCR_TABLE.DONE 0 h).setFld F.SCR_TABLE.BLOCKS (ceilDiv l.bytes 4096) h).setFld F.SCR_TABLE.OWNER owner h
      ((d.setFld F.SCR_TABLE.SHARED (b2n shared) h).scrResult h 1).event F.SCR_EVENTS.LOAD_DONE

/-- LOAD_FETCH_DONE (R226): the copy of the image has ended, and the checks are made over the reservoir copy. An image whose OWNER is no longer
the one that its copy's frames were given to fails them, as does one that cannot be read (log entry 186). -/
def loadFetchDoneEff (parity : Nat) (d : Device) : Device :=
  match d.scr.load, d.scr.fetchEnded with
  | some l, some (h, status) =>
    if h ≠ l.handle then d
    else if status ≠ 0 then d.loadEnds 5
    else if parity > 3 then
      (d.uncorrectable { cause := 7, severity := 2, replays := 3, persistent := true, unitKind := 4, owner := l.owner, detail := [(2, h), (4, 0)] }).loadEnds 3
    else
      let image := d.readMem l.res l.bytes
      let ok := tableOk image l.bytes && (headerOwner image).1 == l.owner
      (if parity = 0 then d else d.count F.ERR_COUNTS.REPLAYED).loadEnds (if ok then 1 else 3)
  | _, _ => d

/-- LOAD_FETCH_DONE. -/
def execLoadFetchDone (parity : Nat) (s : State) : Host.Outcome State Fault Refusal := s.act (loadFetchDoneEff parity)

/-- A RETIRE takes effect: FREE with no slot naming the handle, otherwise BUSY. -/
def Device.retireNow (d : Device) : Device :=
  match d.scr.retire with
  | none => d
  | some h =>
    let d := { d with scr.retire := none }
    if d.fld F.SCR_TABLE.USERS h ≠ 0 then d.scrResult h 2 else (d.scrFree h).scrResult h 1

/-- RETIRE: a STAGED, VALID or BAD handle, at the next turn boundary; while IDLE that is the next tick of R28. -/
def screenRetireEff (h : Nat) (d : Device) : Device :=
  if d.part.isL ∨ d.on F.SCR_CMD_STATUS.ACTIVE = true then d
  else if d.scrState h < 2 then d.scrResult h 6
  else
    let d := ((d.setFld F.SCR_CMD_STATUS.HANDLE h).setFld F.SCR_CMD_STATUS.RESULT 0).setFld F.SCR_CMD_STATUS.ACTIVE 1
    { d with scr.retire := some h }

/-- RETIRE. -/
def execScrRetire (port handle : Nat) (s : State) : Host.Outcome State Fault Refusal :=
  s.act fun d => d.asHolder port (screenRetireEff (handle % 1024))

/-! ### Updates (R227) -/

/-- The bytes of a piece of a table. -/
def Device.pieceBytes (d : Device) (h piece : Nat) : Nat := min 0x100000 ((d.scrTable h).bytes - piece * 0x100000)

/-- SCREEN_UPDATE: an admitted entry copies the next piece from the reservoir to headwater, and finishes. A read that fails its last replay
fails the SEAL, and the entry copies nothing: the handle stays STAGED, since Table 9.5 makes only a VALID one BAD (R228, log entry 187). -/
def screenUpdateEff (index parity : Nat) (d : Device) : Device :=
  match d.admittedAt index with
  | none => d
  | some a =>
    let h := a.e.arg % 1024
    let piece := d.fld F.SCR_TABLE.DONE h + sget 0 d.scr.pieces h
    if a.e.kind ≠ 3 ∨ a.state ≠ .running ∨ d.scrState h ≠ 2 ∨ piece ≥ d.fld F.SCR_TABLE.PIECES h then d
    else if parity > 3 then
      d.uncorrectable { cause := 7, severity := 2, replays := 3, persistent := true, unitKind := 4, owner := d.fld F.SCR_TABLE.OWNER h,
                        detail := [(2, h), (4, 256 * piece)] }
    else
      let d := if parity = 0 then d else d.count F.ERR_COUNTS.REPLAYED
      let t := d.scrTable h
      let d := d.store (t.hw + piece * 0x100000) (d.readMem (t.res + piece * 0x100000) (d.pieceBytes h piece))
      let d := { d with scr.pieces := sput 0 d.scr.pieces h (sget 0 d.scr.pieces h + 1) }
      d.modAdmitted index fun a => { a with state := .finished, plotsLeft := 0 }

/-- SCREEN_UPDATE. -/
def execScreenUpdate (index parity : Nat) (s : State) : Host.Outcome State Fault Refusal := s.act (screenUpdateEff index parity)

/-- The commit of a turn counts the pieces that it copied. -/
def Device.commitPieces (d : Device) : Device :=
  d.scr.pieces.foldl (fun (d : Device) x => d.setFld F.SCR_TABLE.DONE (d.fld F.SCR_TABLE.DONE x.1 + x.2) x.1) { d with scr.pieces := [] }

/-- What the screen engine does at a turn boundary: tables whose pieces are all committed become VALID, and a RETIRE takes effect. -/
def Device.screenBoundary (d : Device) : Device :=
  let ready := (d.scr.tables.map (·.1)).filter fun h => d.scrState h == 2 && d.fld F.SCR_TABLE.DONE h == d.fld F.SCR_TABLE.PIECES h
  (ready.foldl (fun (d : Device) h => d.setFld F.SCR_TABLE.STATE 3 h) d).retireNow

/-- At the end of a turn its statistics are written (Table 9.11), and what it kept is dropped. -/
def Device.screenTurnEnd (d : Device) : Device :=
  let d := ((d.setFld F.SCR_TURN_STATS.STEPS d.scr.steps).setFld F.SCR_TURN_STATS.MASKS (min d.scr.masks 65535)).setFld F.SCR_TURN_STATS.TRIGGERS
    (min d.scr.triggers 65535)
  { d with scr.steps := 0, scr.masks := 0, scr.triggers := 0, scr.pieces := [], scr.read := [] }

/-! ### The scrub (R228) -/

/-- The VALID tables. -/
def Device.validTables (d : Device) : List Nat := (d.scr.tables.map (·.1)).filter fun h => d.scrState h == 3

/-- Compare a block of a table's two copies. -/
def Device.scrubBlock (d : Device) (h block : Nat) (hwBad resBad : Bool) : Device :=
  let k := h * 16384 + block
  let t := d.scrTable h
  let n := min 4096 (t.bytes - 4096 * block)
  let hw := d.bytes (t.hw + 4096 * block) n
  let res := d.readMem (t.res + 4096 * block) n
  if hwBad && resBad then d.scrBad h block
  else if resBad then d.writeMem (t.res + 4096 * block) hw
  else if hwBad || hw != res then
    let since := d.turnNo - sget 0 d.scr.clean k
    let d := (d.store (t.hw + 4096 * block) res).count F.SCR_SCRUB.MISMATCH
    let d := (d.event F.SCR_EVENTS.MISMATCH).record
      { cause := 8, severity := 0, persistent := true, unitKind := 4, owner := d.fld F.SCR_TABLE.OWNER h, detail := [(2, h), (4, block), (8, since)] }
    if d.scr.read.contains k then d.failUncorrectable else d
  else { d with scr.clean := sput 0 d.scr.clean k d.turnNo }

/-- A table's next block is compared, and the one after it is next. -/
def Device.scrubTable (hwBad resBad : List Nat) (d : Device) (h : Nat) : Device :=
  let block := sget 0 d.scr.scrubAt h
  let more := decide (block + 1 < d.fld F.SCR_TABLE.BLOCKS h)
  let d := { d with scr.scrubAt := sput 0 d.scr.scrubAt h (if more then block + 1 else 0)
                    scr.wrapped := if more then d.scr.wrapped else h :: d.scr.wrapped }
  d.scrubBlock h block (hwBad.contains h) (resBad.contains h)

/-- A cycle is complete when every VALID table has been compared whole since it began (log entry 188). -/
def Device.scrubCycle (d : Device) : Device :=
  if d.validTables.isEmpty || d.validTables.any (fun h => !d.scr.wrapped.contains h) then d
  else
    ({ d with scr.cycleAt := d.now, scr.wrapped := [] } : Device).setFld F.SCR_SCRUB.LAST_CYCLE_US (min ((d.now - d.scr.cycleAt) / 1000) (2 ^ 32 - 1))

/-- SCRUB_TICK: a block of each VALID table is compared; `hwBad` and `resBad` name the tables of which a copy's block fails its replays. -/
def scrubTickEff (at_ : Nat) (hwBad resBad : List Nat) (d : Device) : Device :=
  let d := d.at_ at_
  if d.fld F.SCR_SCRUB.INTERVAL = 0 then d else (d.validTables.foldl (Device.scrubTable hwBad resBad) d).scrubCycle

/-- SCRUB_TICK. -/
def execScrubTick (at_ : Nat) (hwBad resBad : List Nat) (s : State) : Host.Outcome State Fault Refusal := s.act (scrubTickEff at_ hwBad resBad)

end Sys2Proof.Machine
end

