-- ==== Sys2Proof/Machine/MeterOps.lean ====
section
/-! DEFINITION. Sys2Proof/Machine/MeterOps.lean: the metergate's periods, closes, records and start (R411 to R417). -/

namespace Sys2Proof.Machine

/-- Signal the metergate's vectors (Table 17.17): each host port's PF whose ENABLE is set. -/
def Device.mtrSignal (d : Device) : Device :=
  let d := if d.on F.MTR_VECTOR.ENABLE0 then d.msix ⟨0, 0⟩ (d.fld F.MTR_VECTOR.VECTOR0) else d
  if d.on F.MTR_VECTOR.ENABLE1 then d.msix ⟨1, 0⟩ (d.fld F.MTR_VECTOR.VECTOR1) else d

/-- A metergate event. -/
def Device.mtrEvent (d : Device) (f : Field) : Device := (d.event f).mtrSignal

/-- The metergate's STATE: 0 STARTING, 1 RUNNING, 2 BROKEN, 3 UPDATING. -/
def Device.mtrState (d : Device) : Nat := d.fld F.MTR_STATUS.STATE

/-! ### Counting (R412, R413) -/

/-- Add to one count of a tally. -/
def addCount (i n : Nat) (cs : List Nat) : List Nat := (fit9 cs).modify i (· + n)
where
  /-- Nine counts. -/
  fit9 (cs : List Nat) : List Nat := (cs ++ List.replicate 9 0).take 9

/-- Add to an owner's count in the open period; its first count latches the slot's KEY_ID (R413). -/
def Device.mtrAdd (d : Device) (owner i n : Nat) : Device :=
  if n = 0 then d
  else
    let t := sget {} d.mtr.period.owners owner
    let key := if t.counts.isEmpty then d.fld F.SEC_KEY_ID.KEY_ID owner else t.keyId
    { d with mtr.period.owners := sput {} d.mtr.period.owners owner { keyId := key, counts := addCount i n t.counts } }

/-- The period has reached INTERVAL turns at its last commit instant (Table 17.9). -/
def Device.atInterval (d : Device) : Bool :=
  let p := d.mtr.period
  p.started && decide (p.last + 1 ≥ p.first + d.mtr.image.interval) && d.mtr.image.interval != 0

/-- A number of `n` free words (log entry 3). -/
def Device.freeWords (d : Device) (n : Nat) : Nat :=
  (List.range n).foldl (fun a i => a * 2 ^ 64 + (Config.freeValue (d.freeCount + i)).toNat) 0

/-- What a period that saw no commit instant latched and covered: the spec gives no value, and each is a free value (log entry 140). -/
def Device.unlatched (d : Device) (p : Period) : Period :=
  { p with first := if p.known then p.first else d.freeWords 1, last := ({ d with freeCount := d.freeCount + 1 } : Device).freeWords 1,
           job := ({ d with freeCount := d.freeCount + 2 } : Device).freeWords 1 % 65536,
           digest := BitVec.ofNat 384 (({ d with freeCount := d.freeCount + 3 } : Device).freeWords 6) }

/-- A period closes on a shadow without a commit instant: it has no OWNER and no PERIOD record (Table 17.11). -/
def Device.bareClose (d : Device) : Bool := !d.mtr.period.started && d.cfg.image.any (·.shadow)

/-- Close the open period with a cause (R413): it joins the snapshots, or waits when they fill the queue. `next` gives the first
turn of the period that opens when the close is at a commit instant. On a shadow only a CLOSE leaves anything to sign. -/
def Device.closePeriod (d : Device) (cause : Nat) (next : Option Nat) : Device :=
  if d.bareClose && cause != 3 then { d with mtr.due := none, mtr.demand := false }
  else if d.mtr.queue.length ≥ 16 then { d with mtr.due := some (d.mtr.due.getD cause) }
  else
    let p := { d.mtr.period with cause := cause, bare := d.bareClose }
    let d := if p.started then d else { d with freeCount := d.freeCount + 9 }
    let p := if p.started then p else d.unlatched p
    let opened : Period := match next with
      | some t => { known := true, first := t }
      | none => {}
    let d := { d with mtr.queue := d.mtr.queue ++ [p], mtr.period := opened, mtr.due := none, mtr.demand := false }
    let d := (d.setFld F.MTR_STATUS.QUEUED d.mtr.queue.length).setFld F.MTR_PERIOD.FIRST_TURN opened.first
    if p.mixed then d.mtrEvent F.MTR_EVENTS.MIXED else d

/-- Step 4 of a commit instant (R412): a close by INTERVAL that has not been carried out yet comes first; then the quantities
(owner, place in COUNTS, amount) are added, and a DEMAND close follows unless INTERVAL is reached. A shadow counts nothing. -/
def Device.meterCommit (d : Device) (turn : Nat) (counts : List (Nat × Nat × Nat)) : Device :=
  match d.cfg.image with
  | none => d
  | some im =>
    if im.shadow then d
    else
      let d := if d.atInterval && d.mtr.due.isNone then d.closePeriod 1 (some (d.mtr.period.last + 1)) else d
      let p := d.mtr.period
      let job := d.fld F.TURN_JOB.JOB_ID
      let first := if p.known then p.first else turn
      let mixed := p.mixed || (p.started && (p.digest != im.cfgDigest || p.job != job))
      let q : Period := { p with known := true, first := first, last := turn, started := true, mixed := mixed, turns := p.turns + 1,
                                 digest := if p.started then p.digest else im.cfgDigest, job := if p.started then p.job else job }
      let d := ({ d with mtr.period := q } : Device).setFld F.MTR_PERIOD.FIRST_TURN first
      let d := counts.foldl (fun d x => d.mtrAdd x.1 x.2.1 x.2.2) d
      if d.mtr.demand && !d.atInterval then d.closePeriod 2 (some (turn + 1)) else d

/-! ### Records (R414, R415) -/

/-- The METER key's name for signatures. -/
def Device.meterKey (d : Device) : List Byte := partKey d.part.uid "METER"

/-- The 512 bytes of a tally record (Table 17.10). -/
def Device.tallyRecord (d : Device) (kind seq owner keyId turns ownerRecords : Nat) (p : Period) (counts : List Nat) : List Byte :=
  let period := kind == 1 || kind == 2
  let body := pack ([(4, 0x5A545452), (1, kind), (1, if period then p.cause else 0), (1, b2n (period && p.mixed)), (1, 1), (8, seq),
    (4, d.mtr.boot), (2, d.mtr.fuse), (2, owner), (8, keyId), (8, if period then p.first else 0), (8, if period then p.last else 0),
    (16, deviceId d.part.uid), (48, p.digest.toNat), (48, d.mtr.image.digest.toNat)] ++
    (addCount.fit9 counts).map (fun c => (8, c)) ++ [(4, turns), (4, ownerRecords), (2, p.job), (2, d.node)])
  let body := fit 416 body
  body ++ leBytes 96 (Config.ecdsaSign d.meterKey body).toNat

/-- Place a record in the ring (R415). -/
def Device.placeRecord (d : Device) (bs : List Byte) : Device :=
  let s := d.fld F.MTR_PRODUCED.PRODUCED
  let d := ({ d with mtr.ring := sput [] d.mtr.ring (s % 1024) bs } : Device).setFld F.MTR_PRODUCED.PRODUCED (s + 1)
  d.mtrEvent F.MTR_EVENTS.RECORD

/-- The sums of all owners' counts. -/
def totals (owners : SMap Tally) : List Nat :=
  (List.range 9).map fun i => (owners.map fun x => x.2.counts.getD i 0).sum

/-- The first snapshot has all its records. -/
def Device.popPeriod (d : Device) : Device :=
  let d := { d with mtr.queue := d.mtr.queue.drop 1, mtr.stage := 0 }
  d.setFld F.MTR_STATUS.QUEUED d.mtr.queue.length

/-- Sign one record of the first snapshot (R414): its OWNER records in ascending owner slot, its PERIOD record, then a CLOSE record
when its cause is CLOSE. -/
def Device.signNext (d : Device) : Device :=
  match d.mtr.queue with
  | [] => d
  | p :: _ =>
    let seq := d.fld F.MTR_PRODUCED.PRODUCED
    if d.mtr.stage = 2 ∨ p.bare = true then (d.placeRecord (d.tallyRecord 4 seq 0xFFFF 0 0 0 p [])).popPeriod
    else
      let owners := if d.mtr.stage = 1 then d.mtr.owners else (p.owners.filter fun x => x.2.counts.any (· != 0)).map (·.1)
      let n := if d.mtr.stage = 1 then d.mtr.ownerRecords else owners.length
      let d := { d with mtr.stage := 1, mtr.ownerRecords := n }
      match owners with
      | o :: os =>
        let t := sget {} p.owners o
        { d.placeRecord (d.tallyRecord 1 seq o t.keyId 0 0 p t.counts) with mtr.owners := os }
      | [] =>
        let d := (d.placeRecord (d.tallyRecord 2 seq 0xFFFF 0 p.turns n p (totals p.owners)))
        if p.cause = 3 then { d with mtr.stage := 2, mtr.owners := [] } else ({ d with mtr.owners := [] } : Device).popPeriod

/-! ### Start and firmware change (R416, R417) -/

/-- The registers that show the metergate's image and seal. -/
def Device.showMeter (d : Device) : Device :=
  let im := d.mtr.image
  let d := (d.setFld F.MTR_ID.SEAL d.mtr.fuse).setFld F.MTR_ID.SVN im.svn
  let d := (d.setFld F.MTR_STATUS.BOOT d.mtr.boot).setFld F.MTR_CONFIG.INTERVAL im.interval
  let d := d.setFld F.MTR_CONFIG.AUDIT_COUNT (min 8 im.audit.length)
  (List.range 6).foldl (fun d k => d.setFld F.MTR_DIGEST.DIGEST (bitsOf im.digest.toNat (64 * k) 64) k) d

/-- The metergate domain starts (R416): its counts begin at zero; with a valid image and seal record it writes the seal record with
BOOT + 1 and signs START as SEQ 0, else it is BROKEN. -/
def Device.meterStart (d : Device) : Device :=
  let d := { d with mtr.period := {}, mtr.demand := false, mtr.due := none, mtr.queue := [], mtr.owners := [], mtr.stage := 0,
                    mtr.ring := [] }
  let d := (d.setFld F.MTR_PRODUCED.PRODUCED 0).setFld F.MTR_CONSUMED.CONSUMED 0
  let d := (d.setFld F.MTR_STATUS.QUEUED 0).setFld F.MTR_PERIOD.FIRST_TURN 0
  if mtrVerifies d.part d.mtr.image && d.mtr.sealOk && d.mtr.sealDigest == d.mtr.image.digest && d.mtr.sealNo == d.mtr.fuse then
    let d := ({ d with mtr.boot := d.mtr.boot + 1, mtr.runFrom := d.now } : Device).showMeter.setFld F.MTR_STATUS.STATE 1
    let p := d.unlatched {}
    ({ d with freeCount := d.freeCount + 9 } : Device).placeRecord (d.tallyRecord 3 0 0xFFFF 0 0 0 p [])
  else (d.showMeter.setFld F.MTR_STATUS.STATE 2).mtrEvent F.MTR_EVENTS.BROKEN

/-- A firmware change ends with a result (R417); `state` is the STATE it leaves. -/
def Device.fwDone (d : Device) (result state : Nat) : Device :=
  let d := (d.setFld F.MTR_FW_STATUS.RESULT result).setFld F.MTR_FW_STATUS.ACTIVE 0
  (d.setFld F.MTR_STATUS.STATE state).mtrEvent F.MTR_EVENTS.FW_DONE

/-- Steps 4 and 5 of a firmware change, once its drain is complete and the rider runs (R417, R431): the slot is programmed,
MTR_SEAL increments and the domain restarts; or FLASH_ERROR with the running image programmed again. -/
def Device.fwProceed (d : Device) : Device :=
  match d.mtr.change with
  | none => d
  | some (im, flashOk, state) =>
    if d.mtr.queue != [] || d.mtr.due.isSome || d.fld F.MTR_CONSUMED.CONSUMED != d.fld F.MTR_PRODUCED.PRODUCED ||
      d.fld F.RIDE_STATUS.STATE != 2 then d
    else
      let d := { d with mtr.change := none }
      if !flashOk then d.fwDone 8 state
      else
        let d := { d with mtr.image := im, mtr.fuse := d.mtr.fuse + 1, mtr.sealNo := d.mtr.fuse + 1, mtr.sealDigest := im.digest,
                          mtr.sealOk := true }
        let d := d.meterStart
        d.fwDone 1 d.mtrState

end Sys2Proof.Machine
end

