-- ==== Sys2Proof/Machine/Security.lean ====
section
/-! DEFINITION. Sys2Proof/Machine/Security.lean: boot (R401), the security commands (R403 to R410) and the metergate's commands
(R413 to R418). -/

namespace Sys2Proof.Machine

/-! ### Boot (R401) -/

/-- A firmware slot is valid: its image verifies and its SVN is at least FW_FLOOR. -/
def Device.fwValid (d : Device) (slot : Nat) : Option FwImage :=
  match sget none d.sec.slots slot with
  | some im => if fwVerifies d.part im && decide (im.svn ≥ d.sec.floor) then some im else none
  | none => none

/-- Start the rider from a firmware slot. -/
def Device.startRider (d : Device) (slot : Nat) (im : FwImage) : Device :=
  let d := ({ d with sec.running := im.digest } : Device).setFld F.SEC_STATUS.STATE 1
  let d := (d.setFld F.SEC_STATUS.FW_SLOT slot).setFld F.SEC_STATUS.FW_SVN im.svn
  d.setFld F.RIDE_STATUS.STATE 2

/-- Steps 1 and 2 of the boot ROM: the valid slot with the higher SVN, slot 0 when they are equal; BOOT_FAIL when none is valid. -/
def Device.bootRom (d : Device) : Device :=
  let d := d.setFld F.SEC_STATUS.FW_FLOOR d.sec.floor
  match d.fwValid 0, d.fwValid 1 with
  | some a, some b => if b.svn > a.svn then d.startRider 1 b else d.startRider 0 a
  | some a, none => d.startRider 0 a
  | none, some b => d.startRider 1 b
  | none, none =>
    let d := ({ d with sec.running := 0 } : Device).setFld F.SEC_STATUS.STATE 0
    ((d.setFld F.SEC_STATUS.FW_SLOT 0).setFld F.SEC_STATUS.FW_SVN 0).setFld F.RIDE_STATUS.STATE 4

/-- The rider runs. -/
def Device.riderRuns (d : Device) : Bool := d.fld F.RIDE_STATUS.STATE == 2

/-! ### Security commands (R405) -/

/-- A security command ends. -/
def Device.secEnd (d : Device) (result : Nat) : Device :=
  ((d.setFld F.SEC_CMD_STATUS.ACTIVE 0).setFld F.SEC_CMD_STATUS.RESULT result).eventSig F.SEC_EVENTS.CMD_DONE F.SEC_CTRL.VECTOR

/-- The command buffer's address. -/
def Device.secBuffer (d : Device) : Nat := d.fld F.SEC_CMD_ADDR.ADDR * 64

/-- Read `n` bytes of the command buffer through the holder: the read leaves (log entry 15). -/
def Device.secRead (d : Device) (port n : Nat) : Device := if n = 0 then d else d.emit (.hostRead ⟨port, 0⟩ d.secBuffer n)

/-- A security command that reads `n` bytes of its buffer: STATE in BOOT_FAIL (but for FW_WRITE), INVALID for a reserved opcode or field,
HOST_ERROR when its buffer cannot be accessed. -/
def Device.secBegin (d : Device) (port opcode n : Nat) (rsvd hostOk : Bool) (f : Device → Device) : Device :=
  let d := d.setFld F.SEC_CMD_STATUS.OPCODE opcode
  if d.fld F.SEC_STATUS.STATE = 0 ∧ opcode ≠ 7 then d.secEnd 4
  else if rsvd then d.secEnd 3
  else
    let d := d.secRead port n
    if !hostOk then d.hostErr.secEnd 8 else f d

/-- A security command of the holder. -/
def secCommand (port opcode n : Nat) (rsvd hostOk : Bool) (f : Device → Device) (s : State) : Host.Outcome State Fault Refusal :=
  s.act fun d => d.asHolder port fun d => d.secBegin port opcode n rsvd hostOk f

/-- Write to the command buffer through the holder. -/
def Device.secWrite (d : Device) (port off : Nat) (bs : List Byte) : Device := d.hostWrite ⟨port, 0⟩ (d.secBuffer + off) bs

/-- POLICY (R409): the FLAGS bit of a command, SLOT_LIMIT, and the active image that generating and importing need. -/
def Device.policyOk (d : Device) (bit slot : Nat) : Bool :=
  (d.fld F.SEC_KEY_POLICY.FLAGS).testBit bit && decide (slot < d.fld F.SEC_KEY_POLICY.SLOT_LIMIT) &&
    (bit == 1 || d.cfg.image.isSome)

/-- The open period holds counts for the slot under an earlier key (R406). -/
def Device.countsUnder (d : Device) (slot : Nat) : Bool := (sget {} d.mtr.period.owners slot).keyId != 0

/-- Install an owner key (R406). -/
def Device.installKey (d : Device) (slot : Nat) (key : List Byte) : Device :=
  (({ d with sec.keys := sput [] d.sec.keys slot key } : Device).setFld F.SEC_KEY_ID.KEY_ID (keyId key) slot).countSat
    F.SEC_KEYS_USED.ACTIVE

/-- A fresh owner key whose KEY_ID is not 0 (R406): drawn again, up to `n` times (log entry 36). -/
def Device.drawKey (d : Device) : Nat → List Byte × Device
  | 0 => (leBytes 32 (d.rand 256), d.rolled)
  | n + 1 => if keyId (leBytes 32 (d.rand 256)) = 0 then d.rolled.drawKey n else (leBytes 32 (d.rand 256), d.rolled)

/-- KEY_GENERATE (R406). -/
def keyGenerateEff (slot : Nat) (d : Device) : Device :=
  if d.hasKey slot then d.secEnd 4
  else if !d.policyOk 0 slot then d.secEnd 5
  else if d.countsUnder slot then d.secEnd 2
  else
    let (key, d) := d.drawKey 64
    (d.installKey slot key).secEnd 1

/-- KEY_GENERATE. -/
def execKeyGenerate (port slot : Nat) (rsvd : Bool) (s : State) : Host.Outcome State Fault Refusal :=
  secCommand port 1 0 rsvd true (keyGenerateEff (slot % 4096)) s

/-- FixedInfo of a wrap (R408). -/
def fixedInfo (direction slot id : Nat) : List Byte := ascii "ZT-WRAP" ++ pack [(1, direction), (2, slot), (8, id)]

/-- The key-encryption key of a wrap (R408). -/
def wrapKek (x : BitVec 384) (info : List Byte) : List Byte :=
  (leBytes 48 (Config.sha384 ([0, 0, 0, 1] ++ leBytes 48 x.toNat ++ info)).toNat).take 32

/-- KEY_EXPORT (R408, R409): the key manager's public key is read at bytes 96:0, the wrap record written at byte 128. -/
def keyExportEff (port slot : Nat) (manager : List Byte) (onCurve : Bool) (d : Device) : Device :=
  if !d.hasKey slot then d.secEnd 4
  else if !d.policyOk 1 slot then d.secEnd 5
  else if (Config.sha384 (fit 97 manager)).toNat ≠ (d.cfg.image.map fun (i : Image) => i.kmHash).getD 0 then d.secEnd 6
  else if !onCurve then d.secEnd 3
  else
    let own := ascii "EPHEMERAL" ++ leBytes 32 (d.rand 256)
    let d := d.rolled
    let id := keyId (d.ownerKey slot)
    let kek := wrapKek (Config.ecdhX own (fit 97 manager)) (fixedInfo 1 slot id)
    let record := pack [(4, 0x5A544B57), (2, slot), (1, 1), (1, 0), (8, id), (97, (Config.publicKey own).toNat),
      (40, (Config.keyWrap kek (d.ownerKey slot)).toNat), (7, 0)]
    (d.secWrite port 128 record).secEnd 1

/-- KEY_EXPORT. -/
def execKeyExport (port slot : Nat) (manager : List Byte) (onCurve rsvd hostOk : Bool) (s : State) : Host.Outcome State Fault Refusal :=
  secCommand port 2 97 rsvd hostOk (keyExportEff port (slot % 4096) manager onCurve) s

/-- KEY_IMPORT (R406, R408): the wrap record's header fields are checked, the key unwrapped under the WRAP key, and its KEY_ID
compared. -/
def keyImportEff (slot : Nat) (record : List Byte) (d : Device) : Device :=
  if d.hasKey slot then d.secEnd 4
  else if !d.policyOk 2 slot then d.secEnd 5
  else if d.countsUnder slot then d.secEnd 2
  else if fieldAt record 0 4 ≠ 0x5A544B57 ∨ fieldAt record 6 1 ≠ 2 ∨ fieldAt record 4 2 ≠ slot then d.secEnd 3
  else
    let x := Config.ecdhX (partKey d.part.uid "WRAP") ((fit 160 record).drop 16 |>.take 97)
    let kek := wrapKek x (fixedInfo 2 slot (fieldAt record 8 8))
    match Config.keyUnwrap kek ((fit 160 record).drop 113 |>.take 40) with
    | none => d.secEnd 7
    | some k =>
      let key := leBytes 32 k.toNat
      if keyId key ≠ fieldAt record 8 8 then d.secEnd 7
      else if keyId key = 0 then d.secEnd 3
      else (d.installKey slot key).secEnd 1

/-- KEY_IMPORT. -/
def execKeyImport (port slot : Nat) (record : List Byte) (rsvd hostOk : Bool) (s : State) : Host.Outcome State Fault Refusal :=
  secCommand port 3 160 rsvd hostOk (keyImportEff (slot % 4096) record) s

/-- Something names an owner slot (R121): a furrow descriptor, a sequence slot (by its furrow), a region, or a valid frame owner
entry. -/
def Device.keyInUse (d : Device) (slot : Nat) : Bool :=
  d.fur.desc.any (fun x => x.2.state != 0 && x.2.owner == slot) ||
  d.gen.slots.any (fun x => x.2.img.state != 0 && ((d.furById x.2.img.furrow).map fun i => (d.furrow i).owner) == some slot) ||
  d.slu.regions.any (fun x => x.2.state != 0 && x.2.owner == slot) ||
  d.mem5.owners.any (fun x => entryValid x.2 && entrySlot x.2 == slot) ||
  d.mem5.flashOwners.any (fun x => entryValid x.2 && entrySlot x.2 == slot)

/-- KEY_RETIRE (R410). -/
def keyRetireEff (slot : Nat) (d : Device) : Device :=
  if !d.hasKey slot then d.secEnd 4
  else if d.keyInUse slot then d.secEnd 2
  else
    let d := ({ d with sec.keys := sput [] d.sec.keys slot [] } : Device).setFld F.SEC_KEY_ID.KEY_ID 0 slot
    ((d.countDown F.SEC_KEYS_USED.ACTIVE).event F.SEC_EVENTS.KEY_RETIRED).secEnd 1

/-- KEY_RETIRE. -/
def execKeyRetire (port slot : Nat) (rsvd : Bool) (s : State) : Host.Outcome State Fault Refusal :=
  secCommand port 4 0 rsvd true (keyRetireEff (slot % 4096)) s

/-- The 448 bytes of an attestation report (Table 17.4). -/
def Device.report (d : Device) (nonce : List Byte) : List Byte :=
  let im := d.cfg.image
  let flags := b2n (d.mtrState == 2) + 2 * b2n im.isNone + 4 * b2n (im.any (·.shadow))
  let body := pack [(4, 0x5A544154), (1, 1), (1, flags), (2, 0), (8, (d.reg .ID_REV).toNat), (8, (d.reg .FEATURE).toNat)] ++
    fit 32 nonce ++ pack [(16, deviceId d.part.uid), (48, d.sec.running.toNat), (1, d.fld F.SEC_STATUS.FW_SVN),
      (1, d.fld F.SEC_STATUS.FW_SLOT), (1, d.fld F.CFG_STATUS.ACTIVE_SLOT), (1, 0), (2, (im.map fun (i : Image) => i.epoch).getD 0),
      (2, 0), (48, (im.map fun (i : Image) => i.cfgDigest.toNat).getD 0), (48, (im.map fun (i : Image) => i.bodyDigest.toNat).getD 0),
      (48, d.mtr.image.digest.toNat), (2, d.mtr.fuse), (2, 0), (4, d.mtr.boot), (8, d.turnNo), (2, d.fld F.TURN_JOB.JOB_ID),
      (2, d.node), (60, 0)]
  body ++ leBytes 96 (Config.ecdsaSign (partKey d.part.uid "IDENTITY") body).toNat

/-- ATTEST (R404): the nonce at bytes 31:0, the report at byte 64. -/
def execAttest (port : Nat) (nonce : List Byte) (rsvd hostOk : Bool) (s : State) : Host.Outcome State Fault Refusal :=
  secCommand port 5 32 rsvd hostOk (fun d => (d.secWrite port 64 (d.report nonce)).secEnd 1) s

/-- IDENTITY (R403): the identity record. -/
def execIdentityCmd (port : Nat) (rsvd hostOk : Bool) (s : State) : Host.Outcome State Fault Refusal :=
  secCommand port 6 0 rsvd hostOk
    (fun d => (d.secWrite port 0 (identityRecord d.part.uid)).secEnd 1) s

/-- FW_WRITE (R401, R405): STATE for the running slot; an image that fails a check, or a failure of the host buffer or the
flash, leaves the slot EMPTY.
In BOOT_FAIL the boot ROM repeats its steps once the write ends OK, and the rider it starts loads the image when none is active (R383). -/
def fwWriteEff (port slot bytes : Nat) (image : List Byte) (hostOk flashOk : Bool) (d : Device) : Device :=
  let im := fwOfBytes (fit bytes image)
  let failed := d.fld F.SEC_STATUS.STATE = 0
  let put := fun (d : Device) (x : Option FwImage) => ({ d with sec.slots := sput none d.sec.slots slot x } : Device)
  if slot > 1 then d.secEnd 3
  else if ¬failed ∧ slot = d.fld F.SEC_STATUS.FW_SLOT then d.secEnd 4
  else
    let d := d.secRead port bytes
    if !hostOk then (put d none).hostErr.secEnd 8
    else if !fwVerifies d.part im then (put d none).secEnd 9
    else if im.svn < d.sec.floor then (put d none).secEnd 10
    else if !flashOk then (put d none).secEnd 11
    else
      let d := (put d (some im)).secEnd 1
      if !failed then d else if d.cfg.image.isNone then d.bootRom.loadAtBoot else d.bootRom

/-- FW_WRITE. -/
def execFwWrite (port slot bytes : Nat) (image : List Byte) (rsvd hostOk flashOk : Bool) (s : State) : Host.Outcome State Fault Refusal :=
  secCommand port 7 0 rsvd true (fwWriteEff port slot bytes image hostOk flashOk) s

/-- FW_FLOOR (R405): the fuse is raised to the running firmware's SVN. -/
def fwFloorEff (d : Device) : Device :=
  let svn := d.fld F.SEC_STATUS.FW_SVN
  if svn ≤ d.sec.floor then d.secEnd 4
  else (({ d with sec.floor := svn } : Device).setFld F.SEC_STATUS.FW_FLOOR svn).secEnd 1

/-- FW_FLOOR. -/
def execFwFloor (port : Nat) (rsvd : Bool) (s : State) : Host.Outcome State Fault Refusal := secCommand port 8 0 rsvd true fwFloorEff s

/-! ### The metergate -/

/-- A write of BAR4 acts from either PF (R351, R420), while the device is powered and out of reset. -/
def bar4 (port : Nat) (f : Device → Device) (s : State) : Host.Outcome State Fault Refusal :=
  s.act fun d => if d.pwr.off || d.pwr.held || d.pwr.tripped || decide (port > 1) then d else f d

/-- METERGATE_START (R416): once after a fundamental reset, when the rider runs to bring the slot. -/
def meterStartEff (d : Device) : Device := if d.mtrState = 0 ∧ d.riderRuns = true then d.meterStart else d

/-- METERGATE_START. -/
def execMetergateStart (s : State) : Host.Outcome State Fault Refusal := s.act meterStartEff

/-- INTERVAL_CLOSE (R413): the period that has reached INTERVAL at its last commit instant closes. -/
def intervalCloseEff (d : Device) : Device :=
  if d.atInterval && d.mtr.due.isNone then d.closePeriod 1 (some (d.mtr.period.last + 1)) else d

/-- INTERVAL_CLOSE. -/
def execIntervalClose (s : State) : Host.Outcome State Fault Refusal := s.act intervalCloseEff

/-- TALLY_NOW (R413): at the write while IDLE or HALTED, else at the next commit instant. -/
def tallyNowEff (d : Device) : Device :=
  let st := d.fld F.TURN_STATUS.STATE
  if st = 0 ∨ st = 2 then d.closePeriod 2 none else { d with mtr.demand := true }

/-- TALLY_NOW. -/
def execTallyNow (port : Nat) (s : State) : Host.Outcome State Fault Refusal := bar4 port tallyNowEff s

/-- MTR_CLOSE (R413). -/
def execMtrClose (port : Nat) (s : State) : Host.Outcome State Fault Refusal := bar4 port (fun d => d.closePeriod 3 none) s

/-- PERIOD_CLOSE (R413): a close that waited happens once the queue has room. -/
def periodCloseEff (d : Device) : Device :=
  match d.mtr.due with
  | some cause => d.closePeriod cause (if d.mtr.period.started then some (d.mtr.period.last + 1) else none)
  | none => d

/-- PERIOD_CLOSE. -/
def execPeriodClose (s : State) : Host.Outcome State Fault Refusal := s.act periodCloseEff

/-- The metergate signs: it runs, or ran before the firmware change that it is in; a BROKEN one signs nothing (R416). -/
def Device.signs (d : Device) : Bool := d.mtrState == 1 || (d.mtrState == 3 && d.mtr.change.any fun x => x.2.2 == 1)

/-- RECORD_SIGN (R414, R415): one record, while the metergate signs and the ring has room. -/
def recordSignEff (d : Device) : Device :=
  if !d.signs || d.mtr.queue == [] then d
  else if d.fld F.MTR_PRODUCED.PRODUCED - d.fld F.MTR_CONSUMED.CONSUMED ≥ 1024 then d.mtrEvent F.MTR_EVENTS.RING_FULL
  else d.signNext.fwProceed

/-- RECORD_SIGN. -/
def execRecordSign (s : State) : Host.Outcome State Fault Refusal := s.act recordSignEff

/-- MTR_CONSUMED_WRITE (R415): ignored below its value or above MTR_PRODUCED. -/
def mtrConsumedEff (value : Nat) (d : Device) : Device :=
  if value < d.fld F.MTR_CONSUMED.CONSUMED ∨ value > d.fld F.MTR_PRODUCED.PRODUCED then d
  else (d.setFld F.MTR_CONSUMED.CONSUMED value).fwProceed

/-- MTR_CONSUMED_WRITE. -/
def execMtrConsumedWrite (port value : Nat) (s : State) : Host.Outcome State Fault Refusal := bar4 port (mtrConsumedEff value) s

/-- METERGATE_FW_CHANGE (R417), steps 1 to 3: STATE unless the turn unit is IDLE and no change runs; the image is read and verified;
the period closes, and the change waits for the drain. -/
def fwChangeEff (port bytes : Nat) (image : List Byte) (hostOk flashOk : Bool) (d : Device) : Device :=
  let im := mtrOfBytes (fit bytes image)
  let st := d.mtrState
  if d.mtr.change.isSome then (d.setFld F.MTR_FW_STATUS.RESULT 2).mtrEvent F.MTR_EVENTS.FW_DONE
  else if d.fld F.TURN_STATUS.STATE ≠ 0 then d.fwDone 2 st
  else
    let d := d.emit (.hostRead ⟨port, 0⟩ (d.fld F.MTR_FW_ADDR.ADDR * 4096) bytes)
    if !hostOk then d.hostErr.fwDone 7 st
    else if !mtrVerifies d.part im then d.fwDone 3 st
    else if im.svn < d.mtr.image.svn then d.fwDone 4 st
    else if d.mtr.fuse ≥ 1023 then d.fwDone 6 st
    else
      let d := ({ d with mtr.change := some (im, flashOk, st) } : Device).setFld F.MTR_STATUS.STATE 3
      let d := (d.setFld F.MTR_FW_STATUS.ACTIVE 1).setFld F.MTR_FW_STATUS.RESULT 0
      (d.closePeriod 4 none).fwProceed

/-- METERGATE_FW_CHANGE. -/
def execMetergateFwChange (port bytes : Nat) (image : List Byte) (hostOk flashOk : Bool) (s : State) : Host.Outcome State Fault Refusal :=
  bar4 port (fwChangeEff port bytes image hostOk flashOk) s

/-- FW_DRAIN_TIMEOUT (R417): the change ends BUSY and nothing else changes. -/
def fwDrainTimeoutEff (d : Device) : Device :=
  match d.mtr.change with
  | some (_, _, state) => ({ d with mtr.change := none } : Device).fwDone 5 state
  | none => d

/-- FW_DRAIN_TIMEOUT. -/
def execFwDrainTimeout (s : State) : Host.Outcome State Fault Refusal := s.act fwDrainTimeoutEff

/-- METER_QUERY (R418): an audit node's query is answered with the records of the range that the ring holds; any other is ignored and
sets QUERY_REFUSED. FIRST_SEQ of the reply: DEDUCED, log entry 211. -/
def meterQueryEff (payload : List Byte) (d : Device) : Device :=
  let count := fieldAt payload 1 1
  let requester := fieldAt payload 2 2
  let boot := fieldAt payload 4 4
  let first := fieldAt payload 8 8
  if d.mtrState ≠ 1 ∨ fieldAt payload 0 1 ≠ 0x61 ∨ (d.mtr.image.audit.take 8).contains requester = false ∨ count = 0 ∨ count > 7 then
    d.mtrEvent F.MTR_EVENTS.QUERY_REFUSED
  else
    let produced := d.fld F.MTR_PRODUCED.PRODUCED
    let held := if boot = d.mtr.boot then
        ((List.range count).map (first + ·)).filter fun s => decide (s < produced) && decide (produced ≤ s + 1024)
      else []
    let status := if held.length = count then 0 else if held.isEmpty then 2 else 1
    let header := pack [(1, 0x62), (1, held.length), (1, status), (1, 0), (2, d.node), (2, 0), (4, d.mtr.boot), (4, 0), (8, first),
      (8, 0)]
    d.sendBare requester 6 (header ++ held.flatMap fun s => fit 512 (sget [] d.mtr.ring (s % 1024)))

/-- METER_QUERY. -/
def execMeterQuery (payload : List Byte) (s : State) : Host.Outcome State Fault Refusal := s.act (meterQueryEff payload)

end Sys2Proof.Machine
end

