-- ==== Sys2Proof/Machine/Admission.lean ====
section
/-! DEFINITION. Sys2Proof/Machine/Admission.lean: the admission test over the rota (R32 to R43, R198 to R200, R210, R227, R338). -/

namespace Sys2Proof.Machine

/-! ### Quantities and costs (R36, R37) -/

/-- The plot budget B in ns (R31). -/
def Device.budget (d : Device) : Nat :=
  let p := d.fld F.TURN_TIMING.PERIOD
  1000 * (p - d.fld F.TURN_TIMING.SEAL_WINDOW - ceilDiv (p * d.fld F.TURN_TIMING.MARGIN_PM) 1000)

/-- A slot's speculation depth under R36 (R205, R206). -/
def Device.specDepth (d : Device) (slot : Nat) : Nat :=
  let s := (d.slot slot).img
  match s.cls with
  | 1 => s.held
  | 2 => s.depth - (d.furLen s.furrow - d.furLen s.draft)
  | _ => 0

/-- The tokens of an entry. -/
def Device.tokensOf (d : Device) (e : RotaEntry) : Nat :=
  match e.kind with
  | 1 => 1 + min e.specCap (d.specDepth e.slot)
  | 5 => min e.specCap (d.slot e.slot).img.depth
  | 2 => 1 - b2n e.noSample
  | _ => 0

/-- The descriptor of the furrow that an entry attends. -/
def Device.entryFur (d : Device) (e : RotaEntry) : Option Nat :=
  let s := (d.slot e.slot).img
  match e.kind with
  | 1 | 2 => d.ownedById s.furrow
  | 5 => d.ownedById s.draft
  | _ => none

/-- What an entry appends at most: its tokens and PREFILL_TOKENS. -/
def Device.appendsOf (d : Device) (e : RotaEntry) : Nat := d.tokensOf e + e.prefill

/-- The entry's list is formed by ranking (R170). -/
def ranks (f : Furrow) (n : Nat) : Bool := f.mode != 0 && decide (n > f.sink + f.recent + f.top)

/-- A page is read without a fetch: its frame in headwater or a complete read copy, in every stream; a page that will have a frame for
this entry's appends counts as OPEN_HW says. -/
def Device.pageResident (d : Device) (f : Furrow) (a p : Nat) : Bool :=
  (List.range (streams f)).all fun s =>
    let g := seqPage f s p
    let tier := (d.pte g).tier
    tier == 1 || (sget 0 d.fur.copies g != 0 && !(d.fur.fetches.any fun x => x.page == g)) ||
      (tier == 0 && f.openHw && decide (256 * (p + 1) > f.length) && decide (256 * p < f.length + a))

/-- Pages and fetches of an attending entry. -/
def Device.pagesOf (d : Device) (f : Furrow) (a : Nat) : Nat × Nat :=
  let n := ceilDiv (f.length + a) 256
  let absent := fun (ps : List Nat) => (ps.filter fun p => !d.pageResident f a p).length
  if ranks f n then
    (min (f.top + f.recent + f.sink) n,
     absent (List.range (min f.sink n) ++ (List.range f.recent).map fun k => n - f.recent + k) + f.top)
  else (n, absent (List.range n))

/-- The pages and fetches of any entry: none for an entry that attends nothing. -/
def Device.attends (d : Device) (e : RotaEntry) : Nat × Nat :=
  match d.entryFur e with
  | some i => d.pagesOf (d.furrow i) (d.appendsOf e)
  | none => (0, 0)

/-- The cost of an entry to each plot of its mask, in ns (R37). -/
def Device.cost (d : Device) (e : RotaEntry) : Nat :=
  let c := e.cls
  let (pages, fetches) := d.attends e
  let units := 4 * d.fld F.ROTA_COST_A.BASE c + 4 * d.fld F.ROTA_COST_A.K_TOK c * d.tokensOf e +
    d.fld F.ROTA_COST_B.K_PAGE c * pages + d.fld F.ROTA_COST_B.K_PRE c * e.prefill + d.fld F.ROTA_COST_B.K_FETCH c * fetches
  ceilDiv (units * 1900) (4 * d.fld F.ROTA_CLOCK.CURRENT)

/-! ### What makes an entry unfit -/

/-- A role accepts a KIND (Table 3.12). -/
def roleAccepts (role kind : Nat) : Bool :=
  match role with
  | 1 => kind == 1 || kind == 2 || kind == 5 || kind == 4
  | 2 => kind == 1 || kind == 2
  | 3 => kind == 2
  | 4 => kind == 5
  | 5 => kind == 4
  | _ => false

/-- The plots of an entry that do not accept its KIND. -/
def Device.roleBad (d : Device) (e : RotaEntry) : List Nat :=
  (plotsOf e.plotMask).filter fun p => !roleAccepts (d.fld F.PLOT_ID.ROLE p) e.kind

/-- A plot can run the entry: its program image stands and allows the entry (R68, R69), its head map is sound (R75), and it is neither
being reset nor failed (R82). -/
def Device.plotRuns (d : Device) (e : RotaEntry) (p : Nat) : Bool :=
  let plot : PlotState := sget {} d.plots p
  let st := d.fld F.PLOT_STATUS.STATE p
  plot.progOk && (match plot.entries[e.program]? with
    | some x => x.2.testBit (e.kind - 1)
    | none => false) &&
  ((List.range (d.fld F.PLOT_HEADMAP.COUNT p)).all fun n =>
    let h := d.headEntry p n
    decide (h.firstCore + h.coreCount ≤ 64) && decide (h.split ≤ 1)) &&
  st != 3 && st != 4 && !plot.resetting

/-- Entries of one group serve a slot once in a turn (R198): DECODE and PREFILL, or DRAFT. -/
def sameGroup (a b : Nat) : Bool := (a == 5) == (b == 5) && servesSequence a && servesSequence b

/-- A screened slot's next piece (R227): the handle is STAGED and has a piece that no earlier entry of the turn takes. -/
def Device.nextPiece (d : Device) (h : Nat) : Nat :=
  d.fld F.SCR_TABLE.DONE h + (d.turn.admitted.filter fun a => a.e.kind == 3 && a.e.arg == h).length

/-- The cost of a SCREEN_UPDATE entry to the update share, ns (R227). -/
def Device.scrCost (d : Device) (h : Nat) : Nat := 2000 + ceilDiv (d.pieceBytes h (d.nextPiece h)) 64

/-- The staging area holds 2,097,152 tokens a turn (R200). -/
def stageTokens : Nat := 2097152

/-- What a PREFILL entry stages: the pending token, when held, and its buffer tokens. -/
def Device.staged4 (d : Device) (e : RotaEntry) : Nat := b2n (d.slot e.slot).img.pendingV + e.prefill

/-- The waiting tokens of a token buffer (R197). -/
def Device.waitingTokens (d : Device) (handle : Nat) : Nat := (d.tokBuf handle).written - (d.tokBuf handle).consumed

/-- The slot's side of R42 and R198: state, pending token, class, room in the furrow, the staging area and the flume. -/
def Device.slotFit (d : Device) (e : RotaEntry) : Bool :=
  let s := (d.slot e.slot).img
  let a := d.appendsOf e
  !(d.turn.admitted.any fun x => x.e.slot == e.slot && sameGroup x.e.kind e.kind) &&
  (match e.kind with
   | 1 => s.state == 2 && s.pendingV
   | 5 => s.state == 2 && s.pendingV && s.cls == 2
   | _ =>
     (s.state == 1 || s.state == 2) && !(e.noSample && s.pendingV) && decide (d.gen.stageFill + d.staged4 e ≤ stageTokens)) &&
  (match d.entryFur e with
   | some i => let f := d.furrow i
               decide (f.length + a ≤ 256 * pps f) && !(!ranks f (ceilDiv (f.length + a) 256) && decide (ceilDiv (f.length + a) 256 > 256))
   | none => false) &&
  d.flumeRoom e.slot (d.tokensOf e)

/-- What the test of R42 makes of an entry before it looks at what is left of the turn; PREFILL_TOKENS counts whatever the KIND (log
entry 166). -/
def Device.mayRun (d : Device) (e : RotaEntry) : Bool :=
  if e.rsvd || e.kind == 0 || decide (e.kind > 5) || decide (e.slot > 4095) then false
  else if e.kind = 3 then
    !d.part.isL && decide (e.arg < 1024) && d.scrState e.arg == 2 && decide (d.nextPiece e.arg < d.fld F.SCR_TABLE.PIECES e.arg)
  else
    e.plotMask != 0 && decide (e.prefill ≤ d.waitingTokens e.arg) && d.roleBad e == [] && (plotsOf e.plotMask).all (d.plotRuns e) &&
      (e.kind == 4 || d.slotFit e)

/-- The entry fits in what is left of the turn: plots, channel-windows and update share (R40 to R42). -/
def Device.fits (d : Device) (e : RotaEntry) : Bool :=
  let b := d.budget
  let c := d.cost e
  (e.kind == 3 || (plotsOf e.plotMask).all fun p => decide (sget 0 d.turn.used p + c ≤ b)) &&
  decide (d.turn.pimUsed + e.pim ≤ d.fld F.ROTA_LIMITS.PIM_ALLOT * (b / 42000)) &&
  (e.kind != 3 || decide (1000 * (d.turn.scrUsed + d.scrCost e.arg) ≤ b * d.fld F.ROTA_LIMITS.SCR_UPDATE_PM))

/-! ### Admitting -/

/-- Count an entry as skipped. -/
def Device.skip (d : Device) : Device := { d with turn.skipped := d.turn.skipped + 1 }
/-- Count an entry as deferred. -/
def Device.defer (d : Device) (n : Nat := 1) : Device := { d with turn.deferred := d.turn.deferred + n }

/-- Charge an entry's plots, windows and update share with its cost. -/
def Device.chargeEntry (d : Device) (e : RotaEntry) (c : Nat) : Device :=
  let scr := if e.kind = 3 then c else 0
  let used := if e.kind = 3 then d.turn.used else (plotsOf e.plotMask).foldl (fun u p => sput 0 u p (sget 0 u p + c)) d.turn.used
  { d with turn.used := used, turn.pimUsed := d.turn.pimUsed + e.pim, turn.scrUsed := d.turn.scrUsed + scr }

/-- A slot's turn state at the admission of its first entry of the turn (Table 8.2): what the device clears, and what it keeps beside. -/
def Device.clearTurnState (d : Device) (slot : Nat) : Device :=
  if d.turn.admitted.any fun a => a.e.slot == slot && servesSequence a.e.kind then d
  else
    let s := d.slot slot
    let ts : SlotTurn := { s.ts with verdict := false, accepted := 0, proposed := 0, ending := 0, draft := 0, staged := false,
                                     finalChunk := false, next := 0 }
    let s : Slot := { s with ts := ts, k := 0, m := 0, draftOver := false, headsDone := false, truncated := false, codes := [],
                             screenNext := none, screenDraft := none }
    (d.setSlot slot s).postIdle slot

/-- The mask record of a screened slot (R224) for the position after its LENGTH, and for an EXPRESS slot those along its proposals. -/
def Device.maskRecords (d : Device) (e : RotaEntry) : Device :=
  let s := (d.slot e.slot).img
  let writes := fun (k : Nat) => servesSequence k && (k != 2 || (d.slot e.slot).ts.finalChunk)
  let first := !(d.turn.admitted.any fun a => a.e.slot == e.slot && writes a.e.kind)
  let len := d.furLen s.furrow
  let d := if first && writes e.kind then d.writeMaskRec e.slot 0 (len + 1) (screenOf s) else d
  if e.kind = 1 ∧ s.cls = 1 ∧ s.screenTable ≠ 0xFFFF ∧ d.scrState s.screenTable = 3 then
    d.maskPath (d.slotOwner e.slot) e.slot 1 (len + 2) (screenOf s) (s.proposals.take (min e.specCap s.held))
  else d

/-- What admission writes into the slot of a DECODE, PREFILL or DRAFT entry: PROPOSED (R205), FINAL_CHUNK (R210) and the staging copy
(R200), whose host read starts here. -/
def Device.prepareSlot (d : Device) (k : Nat) (e : RotaEntry) : Device :=
  let d := d.clearTurnState e.slot
  let s := (d.slot e.slot).img
  match e.kind with
  | 1 => if s.cls = 1 then d.modTs e.slot fun t => { t with proposed := min e.specCap s.held } else d
  | 2 =>
    let b := d.tokBuf e.arg
    let final := !e.noSample && e.prefill == d.waitingTokens e.arg
    let d := d.modTs e.slot fun t => { t with finalChunk := final }
    let st : Staging := { slot := e.slot, entry := k, addr := d.areaBase .staging + 4 * d.gen.stageFill, held := s.pendingV,
                          count := e.prefill }
    let d := { d with gen.stageFill := d.gen.stageFill + d.staged4 e, gen.staging := d.gen.staging ++ [st] }
    if e.prefill = 0 then d else d.emit (.hostRead ⟨b.port, 0⟩ (b.addr + 4 * b.consumed) (4 * e.prefill))
  | _ => d

/-- An entry is admitted with its pages and its cost: its plots have it to run. -/
def Device.admitEntry (d : Device) (k : Nat) (e : RotaEntry) (pages c : Nat) : Device :=
  let x : Admitted := { e := e, index := k, cost := c, tokens := d.tokensOf e, pages := pages,
                        plotsLeft := if e.kind = 3 then 0 else e.plotMask }
  let d := d.chargeEntry e c
  let d := if servesSequence e.kind then (d.prepareSlot k e).maskRecords e else d
  let d := (plotsOf x.plotsLeft).foldl (fun (d : Device) p =>
    if d.fld F.PLOT_STATUS.STATE p = 1 then d.setFld F.PLOT_STATUS.STATE 2 p else d) d
  { d with turn.admitted := d.turn.admitted ++ [x] }

/-- The furrow unit's part (R165, R170 to R172), then the prompt bucket (R338): an entry that they refuse is skipped; pages opened for
it stay. -/
def Device.attendEntry (d : Device) (k i : Nat) (e : RotaEntry) : Device × Bool :=
  let plot := (plotsOf e.plotMask).headD 0
  let (n, ok) := d.attendAdmit e.slot (e.kind == 5) k i (d.appendsOf e) plot
  if !ok then (n, false)
  else if e.kind ≠ 2 then (n, true)
  else
    let owner := (d.furrow i).owner
    let (c, ok) := n.hgCharge F.HG_LEVEL.PROMPT F.HG_STATS.PROMPT_DROPS 2 owner e.slot e.jst e.prefill
    if ok then (c, true)
    else ((((d.openPages (d.furrow i) plot (appendPages (d.furrow i) (d.appendsOf e))).1.hgCharge F.HG_LEVEL.PROMPT
      F.HG_STATS.PROMPT_DROPS 2 owner e.slot e.jst e.prefill).1), false)

/-- Examine one entry (R42); a turn that admits nothing skips it, for whatever reason it admits nothing (log entry 167). -/
def Device.examine (d : Device) (x : Nat × RotaEntry) : Device :=
  let (k, e) := x
  if !d.turn.admits then d.skip
  else if !d.mayRun e then
    let bad := if e.kind = 3 ∨ e.rsvd = true ∨ e.kind = 0 ∨ e.kind > 5 ∨ e.slot > 4095 then [] else d.roleBad e
    (bad.foldl (fun (d : Device) p => d.setFld F.PLOT_EVENTS.ROLE_SKIP 1 p) d).skip
  else if !d.fits e then d.defer
  else
    let pages := (d.attends e).1
    let c := if e.kind = 3 then d.scrCost e.arg else d.cost e
    match d.entryFur e with
    | none => d.admitEntry k e pages c
    | some i =>
      let (n, ok) := d.attendEntry k i e
      if ok then n.admitEntry k e pages c else n.skip

/-- Examine the first `n` of the entries not yet examined. -/
def Device.examineSome (d : Device) : Nat → Device
  | 0 => d
  | n + 1 =>
    match d.turn.unexamined with
    | [] => d
    | x :: rest => Device.examineSome ({ d.examine x with turn.unexamined := rest } : Device) n

/-- Admission ends (Table 2.3): ROTA_RESULT is written, and the compute phase begins. `late`: it ran out of time (R32). The time it
took is open below the limit (log entry 3). -/
def Device.admissionEnds (d : Device) (late : Bool) : Device :=
  let d := if d.turn.unexamined.isEmpty then d else
    ({ d.defer d.turn.unexamined.length with turn.unexamined := [] } : Device).event F.TURN_EVENTS.ADMIT_TIME
  let p := d.fld F.TURN_TIMING.PERIOD
  let time := if late then p / 2 + d.free 16 % (p % 2 + 1) else d.free 16 % (p / 2 + 1)
  let d := ((d.setFld F.ROTA_RESULT.ADMITTED d.turn.admitted.length).setFld F.ROTA_RESULT.DEFERRED d.turn.deferred).setFld
    F.ROTA_RESULT.SKIPPED d.turn.skipped
  (d.drew.setFld F.ROTA_RESULT.ADMIT_TIME time).setFld F.TURN_STATUS.PHASE 2

end Sys2Proof.Machine
end

