-- ==== Sys2Proof/Machine/Commit.lean ====
section
/-! DEFINITION. Sys2Proof/Machine/Commit.lean: the commit instant (R51, R52, Table 2.8, R209), the records that go with it (R235), the
checkpoint pushes (R212), and the fingerprints of shadowing (R440, R441). -/

namespace Sys2Proof.Machine

/-! ### Who takes part -/

/-- A slot that takes part in a commit, by the entry that served it: its furrow's descriptor, the accepted tokens A (0 when the entry
does not sample) and the positions a PREFILL appended; and the slot, its LENGTH and its STATE before the commit. -/
structure CommitPart where
  slot : Nat
  a : Admitted
  samples : Bool
  n : Nat
  ap : Nat
  fur : Nat
  old : Slot
  len : Nat
  deriving DecidableEq, Repr

/-- A DECODE entry takes part. -/
def CommitPart.decodes (p : CommitPart) : Bool := p.a.e.kind == 1

/-- The JSTs that a verdict excludes (R51). -/
def excluded (m : SealMsg) (jst : Nat) : Bool := m.excl.any fun x => x.2 == jst

/-- The part of one admitted entry, if it takes part (R209). -/
def Device.partOf (d : Device) (m : SealMsg) (a : Admitted) : Option CommitPart :=
  let s := d.slot a.e.slot
  let samples := a.e.kind == 1 || s.ts.finalChunk
  let fits := (a.e.kind == 1 || a.e.kind == 2) && decide (a.state = .finished) && (s.img.state == 1 || s.img.state == 2) &&
    !excluded m s.img.jst && (!samples || s.ts.verdict)
  if !fits then none
  else (d.ownedById s.img.furrow).map fun i =>
    { slot := a.e.slot, a := a, samples := samples, n := if samples then s.ts.accepted else 0,
      ap := if a.e.kind = 2 then b2n s.img.pendingV + a.e.prefill else 0, fur := i, old := s, len := (d.furrow i).length }

/-- Every part of a commit. -/
def Device.parts (d : Device) (m : SealMsg) : List CommitPart := d.turn.admitted.filterMap (d.partOf m)

/-! ### Steps 1 and 2 -/

/-- The entry changes nothing of its slot but STATE and REASON: a DECODE that accepted no token (R209). -/
def CommitPart.stateOnly (p : CommitPart) : Bool := p.decodes && p.n == 0

/-- Step 1 for one slot: LENGTH, and for a BULK slot the draft furrow's, min(L + A, L + p) (R209, log entry 189). -/
def Device.commitLength (d : Device) (p : CommitPart) : Device :=
  let d := d.advance p.fur (if p.decodes then p.n else p.ap)
  if p.old.img.cls == 2 && !p.stateOnly then
    match d.ownedById p.old.img.draft with
    | some j =>
      let old := (d.furrow j).length
      let new := min (p.len + p.n) (p.len + p.old.ts.proposed)
      if new ≥ old then d.advance j (new - old) else d.setFurrow j { d.furrow j with length := new }
    | none => d
  else d

/-- The state and reason that an ending gives (Table 8.5). -/
def endingState (reason : Nat) : Nat × Nat :=
  match reason with
  | 2 => (3, 2)
  | 7 => (7, 7)
  | r => (5, r)

/-- STATE and REASON after the commit (Table 8.3, R211). -/
def CommitPart.stateAfter (p : CommitPart) : Nat × Nat :=
  let old := (p.old.img.state, p.old.img.reason)
  if !p.samples then old
  else if p.n = 0 then (7, 7)
  else if p.old.ts.ending ≠ 0 then endingState p.old.ts.ending
  else if p.old.img.state = 1 then (if p.old.img.handoff then (3, 1) else (2, 0))
  else old

/-- The slot image after the commit (R209, R205, R222): HELD takes NEXT whichever entry of an EXPRESS slot commits, and PENDING_V stands only
while ACTIVE or PAUSED (R195). -/
def CommitPart.imageAfter (p : CommitPart) (turn : Nat) : SlotImg :=
  let s := p.old.img
  let (st, reason) := p.stateAfter
  if p.stateOnly then inState s st reason
  else
    let s : SlotImg := { s with turn := turn, outCount := (s.outCount + p.n) % 2 ^ 32 }
    let s : SlotImg := if p.n ≥ 1 then { s with pending := p.old.ts.tokens.getD (p.n - 1) 0, pendingV := true }
      else if p.samples then s else { s with pendingV := false }
    let s : SlotImg := if p.decodes then
        { s with specProposed := (s.specProposed + p.old.k) % 2 ^ 32, specRejected := (s.specRejected + (p.old.k - p.old.m)) % 2 ^ 32 }
      else { s with promptCount := (s.promptCount + p.a.e.prefill) % 2 ^ 32 }
    let s : SlotImg := if s.cls = 1 then
        let next := if p.old.truncated then 0 else p.old.ts.next
        { s with held := next, proposals := p.old.ts.drafted.take next ++ s.proposals.drop next }
      else s
    let s : SlotImg := match p.old.screenNext with
      | some w => if p.n ≥ 1 then { s with screenTable := w.1, screenState := w.2 } else s
      | none => s
    inState s st reason

/-- Step 2 for one slot: the image, and the buffer's CONSUMED (R197). -/
def Device.commitSlot (turn : Nat) (d : Device) (p : CommitPart) : Device :=
  let d := d.modImg p.slot fun _ => p.imageAfter turn
  if p.a.e.kind = 2 then
    let b := d.tokBuf p.a.e.arg
    d.setTokBuf p.a.e.arg { b with consumed := b.consumed + p.a.e.prefill }
  else d

/-! ### Step 4 -/

/-- What one slot's commit adds to its owner's accumulators (Table 17.8), as owner, place and amount. -/
def Device.meterPart (d : Device) (p : CommitPart) : List (Nat × Nat × Nat) :=
  let o := (d.furrow p.fur).owner
  if !d.metered p.slot then []
  else
    [(o, 0, if p.decodes then 0 else p.a.e.prefill), (o, 1, p.n), (o, 2, if p.a.degraded then p.n else 0)] ++
      (if p.decodes && decide (p.n ≥ 1) then [(o, 3, p.old.k), (o, 4, p.old.k - p.old.m)] else [])

/-- The owner to whom a page counts (R124): its furrow's, or for a SHARED frame that in the SLOT of the frame's entry. -/
def Device.pageOwner (d : Device) (f : Furrow) (e : Pte) : Nat :=
  let x := if e.tier = 2 then d.ownerEntry e.frame else if e.tier = 4 then sget 0 d.mem5.flashOwners e.frame else 0
  if entryShared x then entrySlot x else f.owner

/-- The page-turns of every furrow (R124): each page once, in the tier of its entry. -/
def Device.pageTurns (d : Device) : List (Nat × Nat × Nat) :=
  d.fur.desc.flatMap fun x => (d.regionPages x.2).filterMap fun g =>
    let e := d.pte g
    if 1 ≤ e.tier ∧ e.tier ≤ 4 then some (d.pageOwner x.2 e, 4 + e.tier, 1) else none

/-! ### Step 5 -/

/-- The records of a slot that takes part (R235): its tokens, then its change of state. -/
def Device.partRecords (turn : Nat) (d : Device) (p : CommitPart) : Device :=
  let previous := match d.attendOf p.slot false with
    | some x => x.previous
    | none => false
  let last := p.n - 1
  let d := (List.range p.n).foldl (fun (d : Device) j =>
    let pos := if p.decodes then p.len + 1 + j else p.len + p.ap
    d.tokenRecord p.slot turn (p.old.ts.tokens.getD j 0) pos (p.old.img.outCount + 1 + j) (p.old.codes.getD j 0) p.a.degraded previous
      (decide (j = last) && p.old.ts.ending != 0)) d
  if p.stateAfter.1 = p.old.img.state then d else d.statusRecord p.slot 1

/-- The records of one slot at a commit instant; a cancelling slot becomes CANCELLED. -/
def Device.slotRecords (turn : Nat) (m : SealMsg) (ps : List CommitPart) (d : Device) (i : Nat) : Device :=
  let s := (d.slot i).img
  match ps.find? fun p => p.slot == i with
  | some p => d.partRecords turn p
  | none =>
    if s.state = 4 then d.cancelled i
    else match m.excl.find? fun x => x.2 == s.jst with
      | some x => d.statusRecord i (if x.1 = 1 then 2 else 3)
      | none => d

/-! ### Fingerprints (R440, R441) -/

/-- LOGIT8 of a logit as a byte: clamp(RN(4 × logit), −128, 127), and −128 for a NaN. -/
def logit8 (bits : Nat) : Nat :=
  let clamp := fun (neg : Bool) (m : Nat) => twosOf 8 (if neg then -(min m 128 : Nat) else (min m 127 : Nat))
  match val32 bits with
  | .nan => 0x80
  | .inf neg => clamp neg 128
  | .fin neg m e =>
    let e := e + 2
    if e ≥ 0 then clamp neg (m * 2 ^ (min e.toNat 200)) else clamp neg (rneQuot m (2 ^ (-e).toNat))

/-- A part's own fingerprint. -/
def CommitPart.print (p : CommitPart) (turn : Nat) : Print :=
  { turn := turn, jst := p.old.img.jst, token := p.old.ts.top1Token, logit := logit8 p.old.ts.top1Logit, hash := p.old.hash }

/-- The 16 bytes of a record: the POSITION of the last accepted token is open when none was accepted (log entry 3). -/
def Device.printBytes (d : Device) (turn : Nat) (p : CommitPart) : List Byte :=
  let x := p.print turn
  let pos := if p.n = 0 then d.free 32 else p.len + (if p.decodes then p.n else p.ap)
  pack [(3, x.jst), (1, 0), (4, x.token), (1, x.logit), (1, 0), (2, x.hash), (4, pos)]

/-- The nodes of ERR_SHADOW_TARGETS. -/
def Device.shadowNodes (d : Device) : List Nat :=
  ((List.range 4).map fun k => d.fld F.ERR_SHADOW_TARGETS.NODES / 2 ^ (16 * k) % 65536).filter (· != 0xFFFF)

/-- A device that is not a shadow sends its fingerprints: one message per owner to each node. -/
def Device.sendPrints (d : Device) (turn : Nat) (ps : List CommitPart) : Device :=
  let ps := ps.filter (·.samples)
  let owners := sortNat ((ps.map fun p => (d.furrow p.fur).owner).eraseDups)
  let d := (d.shadowNodes.flatMap fun n => owners.map fun o => (n, o)).foldl (fun (d : Device) x =>
    let mine := ps.filter fun p => (d.furrow p.fur).owner == x.2
    let head := pack [(1, 0x71), (1, 0), (2, d.node), (2, x.2), (2, mine.length), (8, turn), (16, 0)]
    d.internalSend 0 .fingerprint x.1 x.2 4 (head ++ mine.flatMap (d.printBytes turn))) d
  d.drew

/-- The first disagreement or miss of a turn writes a SHADOW_DIFF record: the primary and what differs. -/
def Device.shadowDiff (d : Device) (jst bits : Nat) : Device :=
  if d.err.diffThisTurn then d
  else
    let primary := match d.cfg.image with
      | some im => im.primary
      | none => 0xFFFF
    let d := ({ d with err.diffThisTurn := true } : Device).record
      { cause := 0x11, severity := 0, jst := jst, node := primary, detail := [(2, primary), (1, bits)] }
    d.eventSig F.ERR_EVENTS.SHADOW_DIFF F.ERR_CTRL.VECTOR

/-- The bits set in a 16-bit value. -/
def ones16 (v : Nat) : Nat := (List.range 16).countP fun i => v.testBit i

/-- Compare a pair of fingerprints (R441). -/
def Device.comparePrints (d : Device) (a b : Print) : Device :=
  let gap := (signedOf 8 a.logit - signedOf 8 b.logit).natAbs
  let bits := b2n (a.token != b.token) + 2 * b2n (decide (gap > d.fld F.ERR_SHADOW_CFG.LOGIT_TOL)) +
    4 * b2n (decide (ones16 (a.hash ^^^ b.hash) > d.fld F.ERR_SHADOW_CFG.HASH_TOL))
  let d := d.count F.ERR_SHADOW_STATS.COMPARED
  if bits = 0 then d else (d.count F.ERR_SHADOW_STATS.DISAGREED).shadowDiff a.jst bits

/-- A received fingerprint meets its own counterpart, or waits for it. -/
def Device.takePrint (d : Device) (x : Print) : Device :=
  match d.err.own.find? fun y => y.turn == x.turn && y.jst == x.jst with
  | some y => ({ d with err.own := d.err.own.erase y } : Device).comparePrints y x
  | none => { d with err.got := d.err.got ++ [x] }

/-- A fingerprint of the shadow's own meets the one received, or waits for it. -/
def Device.ownPrint (turn : Nat) (d : Device) (p : CommitPart) : Device :=
  let x := p.print turn
  match d.err.got.find? fun y => y.turn == x.turn && y.jst == x.jst with
  | some y => ({ d with err.got := d.err.got.erase y } : Device).comparePrints x y
  | none => { d with err.own := d.err.own ++ [x] }

/-- Fingerprints without a counterpart at the end of the turn after theirs are missing. -/
def Device.missingPrints (d : Device) : Device :=
  let old := fun (x : Print) => decide (x.turn < d.turnNo)
  let lost := (d.err.own ++ d.err.got).filter old
  let d := { d with err.own := d.err.own.filter fun x => !old x, err.got := d.err.got.filter fun x => !old x }
  let d := lost.foldl (fun (d : Device) x => (d.count F.ERR_SHADOW_STATS.MISSING).shadowDiff x.jst 8) d
  { d with err.diffThisTurn := false }

/-! ### After the commit -/

/-- A slot's furrow, and for a BULK slot its draft furrow. -/
def Device.slotFurrows (d : Device) (i : Nat) : List Nat :=
  let s := (d.slot i).img
  (d.ownedById s.furrow).toList ++ (if s.cls = 2 then (d.ownedById s.draft).toList else [])

/-- The checkpoint push of a slot, when it is due or waits (R212); one that pauses at a due turn sends a PARK manifest in its place (log
entry 176), unless its park follows at the next boundary. -/
def Device.checkpoint (turn : Nat) (m : SealMsg) (pausing parking : List Nat) (d : Device) (i : Nat) : Device :=
  let s := d.slot i
  let due := turn % s.img.ckptK == s.img.ckptPhase % s.img.ckptK
  let live := s.img.state = 1 ∨ s.img.state = 2
  let pauses := pausing.contains i && due && !parking.contains i
  if ¬(live ∨ pauses = true) ∨ excluded m s.img.jst = true ∨ (due || s.pushDue) = false then d
  else
    let fs := d.slotFurrows i
    if fs.any fun f => (d.hoLoc f).push.isSome then
      if due then d.setSlot i { s with pushDue := true, img := { s.img with ckptLag := true } } else d
    else
      let d := d.setSlot i { s with pushDue := false, pushWait := fs }
      fs.foldl (fun (d : Device) f => d.startPush f (if pauses then 2 else 1) (imageBytes (d.slot i).img)) d

/-- The spillway's prefetch for a slot (R181): the ranked pages are those of the selection just used. -/
def Device.prefetchSlot (d : Device) (i : Nat) : Device :=
  if (d.slot i).img.state ≠ 2 then d
  else
    let s := (d.slot i).img
    let one := fun (d : Device) (id : Nat) (draft : Bool) =>
      match d.ownedById id, d.attendOf i draft with
      | some f, some x => d.prefetch f x.plot (x.pages.filter fun p => decide (x.candFirst ≤ p) && decide (p < x.candEnd))
      | some f, none => d.prefetch f 0 []
      | none, _ => d
    let d := one d s.furrow false
    if s.cls = 2 then one d s.draft true else d

/-- The commit instant of a turn under a verdict (R52): the effects of Table 2.8 in order. `consumed` gives the CONSUMED that each
flume's header holds when it is read (R237). -/
def Device.commitTurn (d : Device) (m : SealMsg) (consumed : List (Nat × Nat)) : Device :=
  let turn := d.turnNo
  let ps := d.parts m
  -- 1, 2
  let d := ps.foldl Device.commitLength d
  let d := ps.foldl (Device.commitSlot turn) d
  let d := d.commitPieces
  -- 3
  let d := d.commitHandoffs
  -- 4
  let d := d.meterCommit turn (ps.flatMap d.meterPart ++ d.pageTurns)
  -- 5
  let d := d.liveSlots.foldl (Device.slotRecords turn m ps) d
  let d := d.flushFlumes.readConsumed consumed
  let shadow := d.isShadow
  let d := if shadow then (ps.filter (·.samples)).foldl (Device.ownPrint turn) d
    else if d.shadowNodes.isEmpty then d else d.sendPrints turn ps
  -- 6
  let d := d.commitTurnSnap
  let d := { d with turn.verdict := 1, turn.lastCommit := turn }
  let live := d.liveSlots
  let d := live.foldl Device.prefetchSlot d
  let pausing := ps.filter fun p => p.stateAfter.1 == 3 && p.old.img.state != 3
  let parked := if d.on F.FUR_HO_CTRL.AUTO_PARK then pausing.filter fun p => p.stateAfter.2 == 2 else []
  let d := if shadow then d else live.foldl (Device.checkpoint turn m (pausing.map (·.slot)) (parked.map (·.slot))) d
  let d := (d.setFld F.TURN_STATUS.LAST_VERDICT 1).setFld F.TURN_STATUS.EXCL_COUNT m.excl.length
  { d with ho.park := d.ho.park ++ parked.map (·.slot) }

end Sys2Proof.Machine
end

