-- ==== Sys2Proof/Machine/PowerOps.lean ====
section
/-! DEFINITION. Sys2Proof/Machine/PowerOps.lean: the power controller (R451 to R455): clock steps, planned and emergency, and the
thermal events. -/

namespace Sys2Proof.Machine

/-- The core clock of a step, MHz (Table 19.6). -/
def stepMhz (s : Nat) : Nat := [1900, 1710, 1520, 1330, 1140, 950, 800].getD s 800

/-- Put a clock step into force. -/
def Device.setStep (d : Device) (s : Nat) : Device := (d.setFld F.PWR_STATUS.STEP s).setFld F.PWR_STATUS.CLOCK_MHZ (stepMhz s)

/-- A power event. -/
def Device.pwrEvent (d : Device) (f : Field) : Device := d.eventSig f F.PWR_CTRL.VECTOR

/-- The larger of the two hottest die readings, tenths of a degree. -/
def Device.hottest (d : Device) : Int := max (signedOf 16 (d.fld F.PWR_THERM.DIE0_MAX)) (signedOf 16 (d.fld F.PWR_THERM.DIE1_MAX))

/-- A threshold of PWR_THERM_CFG in tenths of a degree. -/
def Device.threshold (d : Device) (f : Field) : Int := 10 * (d.fld f : Int)

/-- THERM_ALERT_N and PWR_EVENTS.ALERT (R455). -/
def Device.alertPin (d : Device) : Device :=
  let hot := d.pwr.stackHot || decide (d.threshold F.PWR_THERM_CFG.ALERT_C ≤ d.hottest)
  let was := d.pwr.alert
  let d := { d with pwr.alert := hot }
  if !hot then d else if was then d.event F.PWR_EVENTS.ALERT else d.pwrEvent F.PWR_EVENTS.ALERT

/-- STACK_HOT at a turn boundary (R454). -/
def Device.stackCheck (d : Device) : Device :=
  let hot := (List.range 320).any (fun k => d.fld F.PIM_CH_STATUS.RATE k == 3) || decide (950 ≤ signedOf 16 (d.fld F.PWR_THERM.STACK_MAX))
  let d : Device := { d with pwr.stackHot := hot }
  (if hot then d.pwrEvent F.PWR_EVENTS.STACK_HOT else d).alertPin

/-- The step that the procedure of R452 chooses from the step in force. The comparisons with the mean are made exactly; with no sample
of the turn neither holds (DESIGN CHOICE, log entry 56). -/
def Device.nextStep (d : Device) : Nat :=
  let s := d.fld F.PWR_STATUS.STEP
  let limit := d.fld F.PWR_LIMIT.LIMIT_W
  let head := d.fld F.PWR_LIMIT.HEADROOM_W
  let n := d.pwr.samples
  let s := if decide (d.threshold F.PWR_THERM_CFG.THROTTLE_C ≤ d.hottest) || decide (d.pwr.sum > (limit - head) * n) then s + 1
    else if d.pwr.sum < (limit - 3 * head) * n then s - 1 else s
  max (d.fld F.PWR_CTRL.CEIL_STEP) (min (d.fld F.PWR_CTRL.FLOOR_STEP) s)

/-- The mean of the samples since the last decision goes to AVG_W; its rounding is free (log entry 56). -/
def Device.closeSamples (d : Device) : Device :=
  let n := d.pwr.samples
  if n = 0 then d
  else
    let sum := d.pwr.sum
    let d : Device := { d with pwr.sum := 0, pwr.samples := 0 }
    if sum % n = 0 then d.setFld F.PWR_STATUS.AVG_W (sum / n)
    else (d.setFld F.PWR_STATUS.AVG_W (sum / n + d.free 1)).drew

/-- A planned step decision (R452, R453). While the rider is being reset the step is held (R431). -/
def Device.plannedStep (d : Device) : Device :=
  if d.fld F.RIDE_STATUS.STATE = 3 then d.closeSamples
  else
    let old := d.fld F.PWR_STATUS.STEP
    let s := d.nextStep
    let d := ((d.closeSamples.setFld F.PWR_STATUS.EMERGENCY 0).setStep s)
    let d : Device := { d with pwr.hotArmed := true, pwr.armed0 := true, pwr.armed1 := true }
    if s = old then d
    else (d.count F.PWR_STEP_STATS.PLANNED).pwrEvent (if s < old then F.PWR_EVENTS.STEP_UP else F.PWR_EVENTS.STEP_DOWN)

/-- An emergency step (R453). -/
def Device.emergencyStep (d : Device) (ev : Field) : Device :=
  let d := (d.setStep (min 6 (d.fld F.PWR_STATUS.STEP + 2))).setFld F.PWR_STATUS.EMERGENCY 1
  (d.count F.PWR_STEP_STATS.EMERGENCY).pwrEvent ev

end Sys2Proof.Machine
end

