-- ==== Sys2Proof/Machine/TurnOps.lean ====
section
/-! DEFINITION. Sys2Proof/Machine/TurnOps.lean: turns (spec/02): markers and seals as messages, ending a turn and beginning the next,
the seal and its verdicts, the deadline, and the sentinel tests (R436 to R438). -/

namespace Sys2Proof.Machine

/-! ### Messages -/

/-- A marker's payload (Table 2.1). -/
def markerBytes (m : MarkerMsg) : List Byte :=
  pack [(8, m.turn), (8, m.digest.toNat), (2, m.jobId), (1, 1), (1, b2n m.first), (2, m.epoch), (2, m.period), (2, m.window), (6, 0)]

/-- A SEAL (2), COMMIT (3) or ABORT (4) payload (Table 2.6). -/
def sealBytes (ty : Nat) (m : SealMsg) : List Byte :=
  pack [(8, m.turn), (2, m.jobId), (1, ty), (1, b2n m.fail), (1, m.reason), (1, m.excl.length), (2, 0), (4, m.count)] ++
    (fitNat 11 (m.excl.map fun x => x.1 * 2 ^ 30 + x.2)).flatMap fun t => leBytes 4 t

/-- Send a class 0 payload to every port of a children register. -/
def Device.sendDown (d : Device) (f : Field) (bs : List Byte) : Device := (d.children f).foldl (fun (d : Device) k => d.sendTurn k bs) d

/-- DIGEST64 of the active image: the first eight bytes of its configuration digest (R7, R23). -/
def Device.digest64 (d : Device) : BitVec 64 := match d.cfg.image with
  | some im => im.cfgDigest.setWidth 64
  | none => 0

/-- CFG_EPOCH of the active image. -/
def Device.cfgEpoch (d : Device) : Nat := match d.cfg.image with
  | some im => im.epoch
  | none => 0

/-- The turn number that a new marker is compared with. -/
def Device.knownTurn (d : Device) : Nat := match d.turn.due with
  | some x => x.turn
  | none => d.turnNo

/-! ### Halting and leaving -/

/-- Both rota banks are emptied (R43). -/
def Device.emptyBanks (d : Device) : Device := { d with turn.bankA := {}, turn.bankB := {} }

/-- The job halts (R53): the banks are emptied, entries not yet examined are deferred, cancels finish (R241). -/
def Device.halt (d : Device) : Device :=
  let d := (d.setFld F.TURN_STATUS.STATE 2).emptyBanks
  let d := { d.defer d.turn.unexamined.length with turn.unexamined := [] }
  d.finishCancels.flushFlumes

/-- An ABORT settles the current turn (R53). -/
def Device.abortTurn (d : Device) (m : SealMsg) : Device :=
  let d := (d.count F.TURN_ABORT_COUNT.RECEIVED).event F.TURN_EVENTS.ABORTED
  let d := (d.setFld F.TURN_STATUS.LAST_REASON m.reason).setFld F.TURN_STATUS.LAST_VERDICT 2
  let d : Device := { d with turn.verdict := 2 }
  if d.running then d.halt else d

/-- The device aborts its turn locally (R49). -/
def Device.abortLocally (d : Device) : Device :=
  let d := (d.count F.TURN_ABORT_COUNT.LOCAL).event F.TURN_EVENTS.LOCAL_ABORT
  let d := (d.setFld F.TURN_STATUS.LAST_REASON 7).setFld F.TURN_STATUS.LAST_VERDICT 3
  ({ d with turn.verdict := 3, turn.lost := d.turnNo :: d.turn.lost } : Device).halt

/-! ### The deadline (R44, R227) -/

/-- An entry that has not finished at D stops. -/
def Device.deadlineEntry (d : Device) (a : Admitted) : Device :=
  if a.state ≠ .running then d
  else if a.e.kind = 3 then
    (d.event F.SCR_EVENTS.UPDATE_LATE).modAdmitted a.index fun b => { b with state := .late }
  else
    let d := (plotsOf a.plotsLeft).foldl (fun (d : Device) p => d.setFld F.PLOT_EVENTS.DEADLINE_STOP 1 p) (d.pimCut a.index)
    d.stopLate a.index

/-- The deadline: unfinished entries stop, requests not served are discarded (R201), staging ends; the seal window begins. -/
def Device.deadline (d : Device) : Device :=
  let d := d.turn.admitted.foldl Device.deadlineEntry d
  let d := { d with gen.staging := [] }
  let slots := ((d.turn.admitted.filter fun a => servesSequence a.e.kind).map (·.e.slot)).eraseDups
  (slots.foldl (fun (d : Device) i => d.postIdle i) d).setFld F.TURN_STATUS.PHASE 3

/-! ### The seal (R47, R48) -/

/-- The lowest non-zero code of a list; 0 when there is none. -/
def lowestReason (rs : List Nat) : Nat := (lowest (rs.filter (· != 0))).getD 0

/-- The ports of TURN_SEAL_CHILDREN that have not been heard from. -/
def Device.unheard (d : Device) : List Nat :=
  (d.children F.TURN_SEAL_CHILDREN.PORTS).filter fun k =>
    !(d.turn.heard.any fun x => x.1 == k) && !d.turn.linkDown.contains k

/-- The device's result merged with its children's (R47): past eleven tags the seal fails with EXCL_OVERFLOW and carries the first
eleven (log entry 55). -/
def Device.mergedSeal (d : Device) : SealMsg :=
  let parts := (d.turn.heard.filter fun x => !d.turn.linkDown.contains x.1).map (·.2)
  let tags := (d.turn.tags.reverse ++ parts.flatMap (·.excl)).eraseDups
  let tooMany := decide (tags.length > 11)
  { turn := d.turnNo, jobId := d.fld F.TURN_JOB.JOB_ID,
    fail := tooMany || d.turn.fails != [] || d.turn.linkDown != [] || parts.any (·.fail),
    reason := lowestReason (d.turn.fails ++ parts.map (·.reason) ++ d.turn.linkDown.map (fun _ => 6) ++ (if tooMany then [5] else [])),
    count := (parts.map (·.count)).sum + 1, excl := tags.take 11 }

/-- The device may send its part of the seal: the turn is its own to seal, and not settled. -/
def Device.maySeal (d : Device) : Bool :=
  d.turn.live && d.turn.seals && !d.turn.sealSent && d.turn.verdict == 0 && d.turn.decided.isNone && !d.isShadow

/-- Every part of the seal is in (R47): the device's entries have all finished, or D has passed and those that had not are stopped; and
each child has been heard from. -/
def Device.sealReady (d : Device) : Bool :=
  d.turn.unexamined == [] && (d.turn.admitted.all fun a =>
    decide (a.state = .finished) || (decide (a.state ≠ .running) && decide (d.fld F.TURN_STATUS.PHASE ≥ 3))) && d.unheard == []

/-- The seal root decides and broadcasts (R48). -/
def Device.decide_ (d : Device) : Device :=
  let s := d.mergedSeal
  let missing := d.unheard != []
  let size := d.fld F.TURN_JOB.JOB_SIZE
  let ok := !s.fail && !missing && s.count == size
  let reason := lowestReason ([s.reason] ++ (if missing then [7] else []) ++ (if s.count = size then [] else [8]))
  let m : SealMsg := { turn := s.turn, jobId := s.jobId, reason := if ok then 0 else reason, count := size,
                       excl := if ok then s.excl else [] }
  let d := { d with turn.sealSent := true, turn.decided := some (ok, m) }
  d.sendDown F.TURN_SEAL_CHILDREN.PORTS (sealBytes (if ok then 3 else 4) m)

/-- Send the SEAL to the seal parent, or decide at the seal root. -/
def Device.sendSeal (d : Device) : Device :=
  if !d.maySeal || !d.sealReady then d
  else if d.on F.TURN_JOB.SEAL_ROOT then d.decide_
  else
    let p := d.fld F.TURN_TREE.SEAL_PARENT
    let bs := sealBytes 2 d.mergedSeal
    let d := { d with turn.sealSent := true }
    if p < 56 then d.sendTurn p bs else d

/-! ### The end of a turn -/

/-- A counter of the turn's statistics: past its width the spec gives no value (log entry 12). -/
def Device.setStat (d : Device) (f : Field) (n : Nat) : Device :=
  if n < 2 ^ f.w then d.setFld f n else (d.setFld f (d.free f.w)).drew

/-- Slots named by an uncorrectable error become FAILED (R194). -/
def Device.failSlots (d : Device) : Device :=
  (d.gen.slots.filter fun x => x.2.failing).foldl (fun (d : Device) x =>
    let i := x.1
    let s := d.slot i
    let d := d.setSlot i { s with failing := false }
    if s.img.state = 1 ∨ s.img.state = 2 then (d.moveSlot i 7 8).statusRecord i 1 else d) d

/-- What each plot's turn came to: CHARGED, and MEASURED, whose value the model does not fix (R54; log entry 57). -/
def Device.plotUse (d : Device) : Device :=
  (List.range 64).foldl (fun (d : Device) p =>
    let off := d.fld F.PLOT_ID.ROLE p == 0
    let busy := d.free 32 % (1000 * d.turn.period + 1)
    let d := (d.setFld F.ROTA_PLOT_USE.CHARGED (sget 0 d.turn.used p) p).setFld F.ROTA_PLOT_USE.MEASURED (if off then 0 else busy) p
    let plot : PlotState := sget {} d.plots p
    let d := (d.drew.setFld F.PLOT_STATUS.ENTRIES plot.entriesRun p)
    let d := if d.fld F.PLOT_STATUS.STATE p = 2 then d.setFld F.PLOT_STATUS.STATE 1 p else d
    { d with plots := sput {} d.plots p { plot with busy := 0, entriesRun := 0 } }) d

/-- A turn that has ended without a verdict is settled: by the seal root's own decision, or as R49 sets. -/
def Device.settleTurn (d : Device) : Device :=
  if !d.running || d.turn.verdict != 0 then d
  else match d.turn.decided with
    | some (true, m) => d.commitTurn m []
    | some (false, m) => d.abortTurn m
    | none => d.abortLocally

/-- The statistics of the reservoir's processing are written (Table 6.16), and its counts of the turn end. -/
def Device.pimTurnEnd (d : Device) : Device :=
  let d := d.turn.admitted.foldl (fun (d : Device) a => d.pimCut a.index) d
  let d := if d.part.isL then d else
    (((d.setStat F.PIM_TURN_STATS.WINDOWS d.pim.nWindows).setStat F.PIM_TURN_STATS.TRACKS_PEAK d.pim.peak).setStat
      F.PIM_TURN_STATS.CUT d.pim.nCut).setStat F.PIM_TURN_STATS.NO_WINDOW d.pim.nNoWindow
  { d with pim.opened := [], pim.nWindows := 0, pim.peak := 0, pim.nCut := 0, pim.nNoWindow := 0 }

/-- A core between turns: it has run no entry of the next one. -/
def Core.betweenTurns (c : Core) : Core := { c with entry := none, nextEntry := 0, inbox := [], gap := 0 }

/-- MAX_GAP of every core is that of the turn that ends (Table 3.21). -/
def Device.gaps (d : Device) : Device :=
  d.cores.foldl (fun (d : Device) x => d.setFld F.PLOT_CORE_STATE.MAX_GAP x.2.gap (d.physIndex (x.1 / 64) (x.1 % 64))) d

/-- What was kept for the turn is dropped. -/
def Device.dropTurn (d : Device) : Device :=
  let d := d.gaps
  let d := { d with cores := smapVals {} (fun _ (c : Core) => c.betweenTurns) d.cores, err.turnCounts := [] }
  let d := { d with gen.stageFill := 0, gen.staging := [] }
  { d with turn.admitted := [], turn.unexamined := [], turn.live := false, turn.decided := none, turn.sealSent := true }

/-- A turn that ends without COMMIT drops what R422 carried over, and puts the pending snapshot into use (R389). -/
def Device.withoutCommit (d : Device) : Device :=
  if d.turn.verdict = 1 then d else ({ d with turn.carry := false } : Device).commitTurnSnap

/-- The turn in progress ends, if there is one. -/
def Device.endTurn (d : Device) : Device :=
  if !d.turn.live then d
  else
    let d := if d.turn.admitted.any fun a => decide (a.state = .running) then d.deadline else d
    let d := d.settleTurn.failSlots.flushFlumes.pimTurnEnd.furrowTurnEnd.screenTurnEnd
    let d := if d.isShadow then d.missingPrints else d
    d.plotUse.keepTurn.withoutCommit.dropTurn

/-- A turn start is due: the turn in progress ends, and the boundary stands until LOCAL_TURN_START. -/
def Device.begin (d : Device) (x : DueStart) : Device :=
  { d.endTurn with turn.due := some x, turn.started := true, turn.prelude := false, turn.startEdge := none, turn.pinMarker := none }

/-! ### Sentinel tests (R436 to R438) -/

/-- The tests that each core runs in the turn. -/
def Device.sentinelRuns (d : Device) : Nat :=
  max 1 (5 * d.fld F.ROTA_LIMITS.SENTINEL * d.fld F.PWR_STATUS.CLOCK_MHZ / 384000)

/-- The bin of a plot's tests (R437). -/
def Device.sentinelBin (d : Device) (plot : Nat) : Nat :=
  let t := signedOf 16 (d.fld (if plot < 32 then F.PWR_THERM.DIE0_MAX else F.PWR_THERM.DIE1_MAX))
  let band := if t < 450 then 0 else min 7 (1 + ((t - 450) / 100).toNat)
  4 * band + min 3 (4 * d.fld F.ROTA_PLOT_USE.MEASURED plot / d.budget)

/-- A sentinel test's failure: its plot, logical core, test and the CRC found. -/
abbrev TestFail := Nat × Nat × Nat × Nat

/-- The core runs the test in this turn (R436). -/
def Device.testRuns (d : Device) (x : TestFail) : Bool :=
  let k := d.sentinelRuns
  decide (x.1 < 64) && decide (x.2.1 < 64) && decide (x.2.2.1 < 64) && d.fld F.PLOT_ID.ROLE x.1 != 0 &&
    decide ((x.2.2.1 + 64 - (d.turnNo * k + x.2.1) % 64) % 64 < k)

/-- The counters of a failed test of a core (its copy of ERR_SENT_CORE) in a bin. -/
def Device.countFail (d : Device) (c bin : Nat) : Device :=
  let d := (d.count F.ERR_SENT_BIN.FAILS 1 bin).countSat F.ERR_SENT_CORE.FAILS 1 c
  let d := d.setFld F.ERR_SENT_CORE.BINS (d.fld F.ERR_SENT_CORE.BINS c ||| 2 ^ bin) c
  let n := sget 0 d.err.sentBins (32 * c + bin) + 1
  { d with err.sentBins := sput 0 d.err.sentBins (32 * c + bin) n }

/-- A core that has reached a limit becomes SUSPECT (R438). -/
def Device.judge (d : Device) (c bin unit : Nat) : Device :=
  let suspect := decide (sget 0 d.err.sentBins (32 * c + bin) ≥ d.fld F.ERR_SENT_CFG.BIN_LIMIT) ||
    decide (d.fld F.ERR_SENT_CORE.FAILS c ≥ d.fld F.ERR_SENT_CFG.TOTAL_LIMIT)
  if !suspect || d.fld F.PLOT_CORE_STATE.STATE c == 3 then d
  else
    let d := d.setFld F.PLOT_CORE_STATE.STATE 3 c
    let d := d.record { cause := 0x10, severity := 0, unitKind := 1, unit := unit, detail := [(4, d.fld F.ERR_SENT_CORE.BINS c)] }
    d.eventSig F.ERR_EVENTS.SUSPECT F.ERR_CTRL.VECTOR

/-- A failed test: the counters, the record, the failing seal, and SUSPECT at a limit. -/
def Device.sentinelFail (d : Device) (x : TestFail) : Device :=
  if !d.testRuns x then d
  else
    let bin := d.sentinelBin x.1
    let c := d.physIndex x.1 x.2.1
    let unit := x.1 * 256 + d.physical x.1 x.2.1
    let failing := d.on F.ERR_SENT_CFG.FAIL_SEAL && d.running
    let detail := [(1, x.2.2.1), (1, bin), (2, 0), (4, (Config.sentinelCrc x.2.2.1).toNat), (4, x.2.2.2)]
    let r : ErrRec := { cause := 0x0F, severity := 0, unitKind := 1, unit := unit, detail := detail }
    let d := (d.countFail c bin).record r failing
    (if failing then d.failSeal 1 else d).judge c bin unit

/-- The sentinel tests of a turn: every enabled core of every plot that is not OFF runs them; `failed` names those that fail. -/
def Device.sentinels (d : Device) (failed : List TestFail) : Device :=
  let k := d.sentinelRuns
  let plots := (List.range 64).filter fun p => d.fld F.PLOT_ID.ROLE p != 0
  let d := plots.foldl (fun (d : Device) p => d.count F.ERR_SENT_BIN.RUNS (64 * k) (d.sentinelBin p)) d
  failed.foldl Device.sentinelFail d

/-! ### The local turn start -/

/-- TURN_OUT (R28). -/
def Device.pulse (d : Device) (t : Nat) : Device := d.emit (.turnOut t)

/-- The turn unit enters IDLE (R53); a pending snapshot takes effect (log entry 170). -/
def Device.toIdle (d : Device) : Device :=
  let d := ((d.setFld F.TURN_STATUS.STATE 0).setFld F.TURN_STATUS.PHASE 0).setFld F.TURN_CTRL.ENABLE 0
  let d := d.commitTurnSnap.emptyBanks
  { d with turn.applied := false, turn.leaving := false, turn.lost := [], turn.started := false, turn.live := false, turn.due := none,
           turn.carry := false, turn.startEdge := none, turn.pinMarker := none, turn.idleSeen := d.now }

/-- SLOT queues whose commands wrote results at the boundary signal their vectors, once each (R356). -/
def Device.signalQueues (d : Device) : Device :=
  (d.host.qs.filter fun x => x.2.signal).foldl (fun (d : Device) x =>
    (d.setHq x.1 { d.hq x.1 with signal := false }).signal (d.fld F.HQ_Q_CTRL.VECTOR x.1)) d

/-- The effects of a turn boundary that are not commands of the host: levels, screen tables, the thermal event and, with `steps`, the
planned clock step. -/
def Device.boundaryEffects (d : Device) (steps : Bool) : Device :=
  let d := d.hgRefill.screenBoundary.signalQueues.flushFlumes.stackCheck
  if steps then d.plannedStep else d

/-- The rota bank that serves (R43). -/
def Device.servingBank (d : Device) : RotaBank := if d.turn.serveB then d.turn.bankB else d.turn.bankA
/-- The rota bank that takes fetches. -/
def Device.otherRota (d : Device) : RotaBank := if d.turn.serveB then d.turn.bankA else d.turn.bankB
/-- Replace the bank that takes fetches. -/
def Device.setOtherRota (d : Device) (b : RotaBank) : Device :=
  if d.turn.serveB then { d with turn.bankA := b } else { d with turn.bankB := b }

/-- Entries with their rota positions. -/
def numbered (es : List RotaEntry) : List (Nat × RotaEntry) := (List.range es.length).zip es

/-- The rota of a turn that starts (R43): the bank that was fetched for it, or the previous one without its PREFILL and SCREEN_UPDATE
entries. A fetched rota whose turn has passed is discarded. FETCH keeps what it reads (log entry 165). -/
def Device.takeRota (d : Device) (turn : Nat) : Device :=
  let o := d.otherRota
  if o.complete && o.turn == turn then
    ({ d with turn.serveB := !d.turn.serveB, turn.unexamined := numbered o.entries } : Device).setOtherRota {}
  else
    let d := if o.complete && decide (o.turn < turn) then (d.setOtherRota {}).setFld F.ROTA_STATUS.FETCH 3 else d
    let b := d.servingBank
    if !b.complete then { d with turn.unexamined := [] }
    else
      let es := (numbered b.entries).filter fun x => x.2.kind != 2 && x.2.kind != 3
      ({ d with turn.unexamined := es } : Device).event F.TURN_EVENTS.ROTA_REUSED

/-- The turn that is due starts: its registers, its seal, its budget (R39), and its rota. -/
def Device.startTurn (d : Device) (x : DueStart) : Device :=
  let p := d.fld F.TURN_TIMING.PERIOD
  let carry := d.turn.carry && x.seals
  let down := (d.children F.TURN_SEAL_CHILDREN.PORTS).filter fun k => !d.linkActive (2 * k)
  let used := (List.range 64).foldl (fun u q => if d.fld F.PLOT_ID.ROLE q = 0 then u else sput 0 u q (5 * p)) []
  let d := (d.setFld F.TURN_NUMBER.CURRENT x.turn).setFld F.ROTA_LIMITS.SENTINEL p
  let d := (d.setFld F.ROTA_CLOCK.CURRENT (d.fld F.PWR_STATUS.CLOCK_MHZ)).setFld F.TURN_STATUS.PHASE 1
  let d := { d with turn.live := true, turn.due := none, turn.prelude := false, turn.start := x.at_, turn.period := p,
                    turn.expected := x.at_ + 1000 * p, turn.admits := x.admits && d.running, turn.seals := x.seals,
                    turn.fails := x.fails ++ (if carry then [1] else []), turn.tags := [], turn.heard := [], turn.linkDown := down,
                    turn.sealSent := false, turn.carry := d.turn.carry && !x.seals, turn.decided := none, turn.verdict := 0,
                    turn.used := used, turn.pimUsed := 0, turn.scrUsed := 0, turn.deferred := 0, turn.skipped := 0,
                    turn.admitted := [] }
  let d := if carry then d.latchRestart else d
  (d.pulse x.at_).takeRota x.turn

end Sys2Proof.Machine
end

