-- ==== Sys2Proof/Machine/Turn.lean ====
section
/-! DEFINITION. Sys2Proof/Machine/Turn.lean: the commands of the turn unit (spec/02): markers, edges and ticks, the local turn start,
the deadline, the seal and its verdicts, job states, and the rota's submission. -/

namespace Sys2Proof.Machine

/-! ### Turn starts (R22 to R28, R462) -/

/-- The device follows the job's turns: RUNNING or HALTED. -/
def Device.inJob (d : Device) : Bool := d.fld F.TURN_STATUS.STATE == 1 || d.fld F.TURN_STATUS.STATE == 2

/-- The device has a turn's number to compare with: it has started one since ENABLE, or one is due. -/
def Device.begun (d : Device) : Bool := d.turn.started || d.turn.due.isSome

/-- MARKER_MISSED (R26, R27), which a HALTED device does not report. -/
def Device.markerMissed (d : Device) : Device := if d.running then d.event F.TURN_EVENTS.MARKER_MISSED else d

/-- A turn that starts without its marker (R25, R26): numbered one above the last, admitting nothing; a RUNNING device fails its seal. -/
def Device.missedTurn (d : Device) (at_ : Nat) : Device :=
  let n := d.knownTurn + 1
  let d := d.endTurn
  let x : DueStart := { turn := n, at_ := at_, admits := false, fails := [4], seals := d.running }
  d.markerMissed.begin x

/-- The reasons of R23 that a marker gives, against the device's own image and timing. -/
def Device.mismatches (d : Device) (m : MarkerMsg) : List Nat :=
  (if m.digest = d.digest64 ∧ m.epoch = d.cfgEpoch then [] else [2]) ++
    (if m.period = d.fld F.TURN_TIMING.PERIOD ∧ m.window = d.fld F.TURN_TIMING.SEAL_WINDOW then [] else [3])

/-- A HALTED device resumes on a marker (R27, Table 2.9). -/
def Device.resumesOn (d : Device) (m : MarkerMsg) : Bool :=
  m.first && d.on F.TURN_CTRL.RESUME_ARM && m.turn == d.fld F.TURN_START.START

/-- The turn unit returns to RUNNING from HALTED. -/
def Device.resume (d : Device) : Device := (d.setFld F.TURN_STATUS.STATE 1).setFld F.TURN_CTRL.RESUME_ARM 0

/-- A marker starts its turn at a moment. -/
def Device.takeMarker (d : Device) (m : MarkerMsg) (at_ : Nat) : Device :=
  let cur := d.knownTurn
  let fresh := !d.begun
  let d := d.endTurn
  let bad := d.mismatches m
  let d := if bad.isEmpty then d else d.event F.TURN_EVENTS.CONFIG_MISMATCH
  if d.running then
    let gap := if fresh then !m.first else decide (m.turn > cur + 1)
    let d := if gap then d.markerMissed else d
    let fails := bad ++ (if gap then [4] else [])
    d.begin { turn := m.turn, at_ := at_, admits := fails == [], fails := fails }
  else if d.resumesOn m then d.resume.begin { turn := m.turn, at_ := at_, admits := bad == [], fails := bad }
  else d.begin { turn := m.turn, at_ := at_, admits := false, fails := if m.first then bad ++ [9] else [], seals := m.first }

/-- A marker's deviation from the expected time (Table 2.21). -/
def Device.skew (d : Device) : Device :=
  if !d.turn.started then d
  else
    let dev : Int := (d.now : Int) - (d.turn.expected : Int)
    (d.setFld F.TURN_SKEW.LAST (twosOf 32 dev)).peak F.TURN_SKEW.MAX_ABS dev.natAbs

/-- No marker or edge has come in time: the turn starts at the expected time (R25, R26, R28). -/
def Device.tolOver (d : Device) : Bool :=
  d.inJob && d.turn.started && d.turn.due.isNone && d.turn.startEdge.isNone &&
    decide (d.now > d.turn.expected + d.fld F.TURN_TOL.MARKER_TOL)

/-- The marker of a turn that the turn root originates (R25). -/
def Device.ownMarker (d : Device) (turn : Nat) (first : Bool) : MarkerMsg :=
  { turn := turn, digest := d.digest64, jobId := d.fld F.TURN_JOB.JOB_ID, first := first, epoch := d.cfgEpoch,
    period := d.fld F.TURN_TIMING.PERIOD, window := d.fld F.TURN_TIMING.SEAL_WINDOW }

/-- The turn root originates a turn's marker at its local start. -/
def Device.originate (d : Device) (at_ : Nat) : Device :=
  let n := d.knownTurn + 1
  let fresh := !d.begun
  let d := d.endTurn
  let back := !d.running && d.on F.TURN_CTRL.RESUME_ARM
  let d := if back then d.resume else d
  let first := back || (fresh && d.running)
  let turn := if first then d.fld F.TURN_START.START else n
  let d := d.sendDown F.TURN_MARKER_CHILDREN.PORTS (markerBytes (d.ownMarker turn first))
  d.begin { turn := turn, at_ := at_, admits := d.running, seals := d.running }

/-- The turn at the expected time; a turn root originates its marker then (R25). -/
def Device.startExpected (d : Device) : Device :=
  let at_ := d.turn.expected
  let d := d.missedTurn at_
  if !d.on F.TURN_JOB.TURN_ROOT then d
  else d.sendDown F.TURN_MARKER_CHILDREN.PORTS (markerBytes (d.ownMarker d.knownTurn false))

/-- A turn whose edge or marker is overdue has started (R25, R26), also where the marker has come and the edge has not (log entry 168). -/
def Device.overdue (d : Device) : Device :=
  if d.tolOver && !(d.on F.TURN_JOB.TURN_ROOT && d.fld F.TURN_JOB.SOURCE == 2) then d.startExpected else d

/-- PIN_LAG has passed since the edge without a marker: the turn starts at the edge (R26). An edge before the device's first turn
starts nothing. -/
def Device.lagOver (d : Device) : Device :=
  match d.turn.startEdge with
  | some e =>
    if d.now < e + d.fld F.TURN_TOL.PIN_LAG then d
    else if d.turn.started && d.running then d.missedTurn e
    else { d with turn.startEdge := none }
  | none => d

/-- MARKER (R22, R23, R27, R462). -/
def markerEff (at_ port : Nat) (m : MarkerMsg) (d : Device) : Device :=
  let d := d.at_ at_
  if !d.inJob || m.jobId != d.fld F.TURN_JOB.JOB_ID || d.on F.TURN_JOB.TURN_ROOT || port != d.fld F.TURN_TREE.MARKER_PARENT then d
  else
    let d := (d.sendDown F.TURN_MARKER_CHILDREN.PORTS (markerBytes m)).overdue
    let pin := d.fld F.TURN_JOB.SOURCE == 1 && d.running
    let d := match d.turn.startEdge with
      | some e => if pin && decide (d.now > e + d.fld F.TURN_TOL.PIN_LAG) then d.lagOver else d
      | none => d
    if d.begun && decide (m.turn ≤ d.knownTurn) then d
    else
      let d := d.skew
      if !pin then d.takeMarker m d.now
      else match d.turn.startEdge with
        | some e => d.takeMarker m e
        | none => { d with turn.pinMarker := some m }

/-- MARKER. -/
def execMarker (at_ port : Nat) (m : MarkerMsg) (s : State) : Host.Outcome State Fault Refusal := s.act (markerEff at_ port m)

/-- TURN_ROOT_TIMER_TICK (R25): a tick before the end of the period is none of this timer's. -/
def rootTickEff (at_ : Nat) (d : Device) : Device :=
  let d := d.at_ at_
  if !d.inJob || !d.on F.TURN_JOB.TURN_ROOT || d.fld F.TURN_JOB.SOURCE != 2 || (d.turn.started && decide (d.now < d.turn.expected)) then d
  else d.originate d.now

/-- TURN_ROOT_TIMER_TICK. -/
def execTurnRootTimerTick (at_ : Nat) (s : State) : Host.Outcome State Fault Refusal := s.act (rootTickEff at_)

/-- An edge of TURN_IN is the next turn's: within MARKER_TOL of the expected time, any edge before the first turn (R25, R26). -/
def Device.edgeTaken (d : Device) : Bool :=
  let tol := d.fld F.TURN_TOL.MARKER_TOL
  !d.turn.started || (d.turn.due.isNone && decide (d.now + tol ≥ d.turn.expected) && decide (d.now ≤ d.turn.expected + tol))

/-- TURN_IN_EDGE (R25, R26): the root starts a turn; another device waits for the marker, or takes the one that came before. -/
def turnInEdgeEff (at_ : Nat) (d : Device) : Device :=
  let d := d.at_ at_
  if !d.inJob || d.fld F.TURN_JOB.SOURCE != 1 then d
  else
    let d := d.overdue
    if !d.edgeTaken || d.turn.startEdge.isSome then d
    else if d.on F.TURN_JOB.TURN_ROOT then d.originate d.now
    else if !d.running then d
    else match d.turn.pinMarker with
      | some m => d.takeMarker m d.now
      | none => { d with turn.startEdge := some d.now }

/-- TURN_IN_EDGE. -/
def execTurnInEdge (at_ : Nat) (s : State) : Host.Outcome State Fault Refusal := s.act (turnInEdgeEff at_)

/-- MARKER_TOL_EXPIRY (R25, R26). -/
def markerTolEff (at_ : Nat) (d : Device) : Device := (d.at_ at_).overdue

/-- MARKER_TOL_EXPIRY. -/
def execMarkerTolExpiry (at_ : Nat) (s : State) : Host.Outcome State Fault Refusal := s.act (markerTolEff at_)

/-- PIN_LAG_EXPIRY (R26). -/
def execPinLagExpiry (at_ : Nat) (s : State) : Host.Outcome State Fault Refusal := s.act fun d => (d.at_ at_).lagOver

/-- The tick that is due: one that an earlier restart left, or the timer's next. -/
def Device.tickDue (d : Device) : Nat := d.turn.idleOwed.getD d.nextTick

/-- A tick has been taken. -/
def Device.tickTaken (d : Device) : Device :=
  if d.turn.idleOwed.isSome then { d with turn.idleOwed := none } else { d with turn.idleSeen := d.nextTick }

/-- IDLE_TIMER_TICK (R28): a local turn start while IDLE, before the first turn after ENABLE, and while INCONSISTENT (log entry 54). -/
def idleTickEff (at_ : Nat) (d : Device) : Device :=
  let d := d.at_ at_
  let st := d.fld F.TURN_STATUS.STATE
  if !d.freeRuns || decide (d.now < d.tickDue) then d
  else
    let tick := d.tickDue
    let d := d.tickTaken.endTurn.pulse tick
    let d := d.hoBoundary.furrowBoundary.boundaryEffects (st != 0)
    let d := if st = 3 then d.commitTurnSnap else d
    if d.turn.leaving then d.toIdle else d

/-- IDLE_TIMER_TICK. -/
def execIdleTimerTick (at_ : Nat) (s : State) : Host.Outcome State Fault Refusal := s.act (idleTickEff at_)

/-- The turn that is due starts after its boundary: `examined` entries of its rota are examined before the time of R32 runs out. -/
def Device.openTurn (x : DueStart) (examined : Nat) (sent : List TestFail) (d : Device) : Device :=
  let d := (((d.boundaryEffects true).startTurn x).sentinels sent).examineSome examined
  if d.turn.unexamined.isEmpty then d.admissionEnds false else d

/-- LOCAL_TURN_START (R30): the turn that is due starts, after what its boundary does; a device that leaves enters IDLE. -/
def localTurnStartEff (at_ examined : Nat) (sent : List TestFail) (table bad : Nat) (d : Device) : Device :=
  match d.turn.due with
  | none => d.at_ at_
  | some x =>
    let e := (d.at_ at_).boundary.routeBoundary x.turn
    if d.turn.leaving then (e.boundaryEffects true).toIdle.pulse x.at_ else e.screenRead table bad (Device.openTurn x examined sent)

/-- LOCAL_TURN_START. -/
def execLocalTurnStart (at_ examined : Nat) (sent : List (Nat × Nat × Nat × Nat)) (table bad : Nat) (s : State) :
    Host.Outcome State Fault Refusal := s.act (localTurnStartEff at_ examined sent table bad)

/-- ADMIT_TIME_EXPIRY (R32): entries not yet examined are deferred. -/
def admitTimeEff (d : Device) : Device := if !d.turn.live || d.turn.unexamined == [] then d else d.admissionEnds true

/-- ADMIT_TIME_EXPIRY. -/
def execAdmitTimeExpiry (s : State) : Host.Outcome State Fault Refusal := s.act admitTimeEff

/-- DEADLINE (R44). -/
def deadlineEff (at_ : Nat) (d : Device) : Device :=
  let d := d.at_ at_
  if !d.turn.live || decide (d.now < d.deadlineAt) then d
  else (if d.turn.unexamined.isEmpty then d else d.admissionEnds true).deadline

/-- DEADLINE. -/
def execDeadline (at_ : Nat) (s : State) : Host.Outcome State Fault Refusal := s.act (deadlineEff at_)

/-! ### The seal (R46 to R53) -/

/-- SEAL_SEND. -/
def execSealSend (s : State) : Host.Outcome State Fault Refusal := s.act Device.sendSeal

/-- SEAL (R47, R48): the first of a child for the current turn counts; a seal root that holds every part decides at once. -/
def sealEff (port : Nat) (m : SealMsg) (d : Device) : Device :=
  if m.jobId ≠ d.fld F.TURN_JOB.JOB_ID ∨ d.turn.live = false ∨ m.turn ≠ d.turnNo ∨ d.unheard.contains port = false then d
  else
    let d := { d with turn.heard := d.turn.heard ++ [(port, m)] }
    if d.on F.TURN_JOB.SEAL_ROOT then d.sendSeal else d

/-- SEAL. -/
def execSealMsg (port : Nat) (m : SealMsg) (s : State) : Host.Outcome State Fault Refusal := s.act (sealEff port m)

/-- SEAL_CUTOFF_EXPIRY (R48): the seal root decides with what it holds. -/
def sealCutoffEff (d : Device) : Device :=
  if !d.maySeal || !d.on F.TURN_JOB.SEAL_ROOT then d
  else (if d.turn.admitted.any fun a => decide (a.state = .running) then d.deadline else d).decide_

/-- SEAL_CUTOFF_EXPIRY. -/
def execSealCutoffExpiry (s : State) : Host.Outcome State Fault Refusal := s.act sealCutoffEff

/-- A verdict of the job is in force: the turn is the current one and has none. -/
def Device.awaits (d : Device) (m : SealMsg) : Bool := d.running && d.turn.live && d.turn.verdict == 0 && m.turn == d.turnNo

/-- The turn was aborted locally, and its COMMIT arrives (R49). -/
def Device.inconsistent (d : Device) (m : SealMsg) : Device :=
  let d := (d.setFld F.TURN_STATUS.STATE 3).event F.TURN_EVENTS.INCONSISTENT
  let d := d.emptyBanks.uncorrectable { cause := 0x0B, severity := 2, unitKind := 8 }
  { d with turn.lost := d.turn.lost.erase m.turn, turn.idleSeen := d.now }

/-- COMMIT (R48, R49, R52): forwarded to the seal children, unless it is the seal root's own, which it has broadcast; in IDLE it is
dropped (log entry 169). -/
def commitEff (m : SealMsg) (consumed : List (Nat × Nat)) (d : Device) : Device :=
  if d.fld F.TURN_STATUS.STATE = 0 ∨ m.jobId ≠ d.fld F.TURN_JOB.JOB_ID then d
  else
    match d.turn.decided with
    | some (ok, own) => if ok && d.awaits m then d.commitTurn own consumed else d
    | none =>
      let d := d.sendDown F.TURN_SEAL_CHILDREN.PORTS (sealBytes 3 m)
      if d.turn.lost.contains m.turn && d.inJob then d.inconsistent m
      else if d.awaits m then d.commitTurn m consumed
      else d

/-- COMMIT. -/
def execCommitVerdict (at_ : Nat) (m : SealMsg) (consumed : List (Nat × Nat)) (s : State) : Host.Outcome State Fault Refusal :=
  s.act fun d => commitEff m consumed (d.at_ at_)

/-- ABORT (R48, R53); in IDLE it is dropped (log entry 169). -/
def abortEff (m : SealMsg) (d : Device) : Device :=
  if d.fld F.TURN_STATUS.STATE = 0 ∨ m.jobId ≠ d.fld F.TURN_JOB.JOB_ID then d
  else
    match d.turn.decided with
    | some (ok, own) => if !ok && d.awaits m then d.abortTurn own else d
    | none =>
      let d := d.sendDown F.TURN_SEAL_CHILDREN.PORTS (sealBytes 4 m)
      if d.awaits m || (d.fld F.TURN_STATUS.STATE == 2 && d.turn.live && d.turn.verdict == 0 && m.turn == d.turnNo) then d.abortTurn m
      else d

/-- ABORT. -/
def execAbortVerdict (at_ : Nat) (m : SealMsg) (s : State) : Host.Outcome State Fault Refusal := s.act fun d => abortEff m (d.at_ at_)

/-- LOCAL_ABORT (R49): P − C has come, and the commit phase begins. -/
def localAbortEff (d : Device) : Device :=
  if !d.turn.live then d
  else
    let d := (if d.turn.admitted.any fun a => decide (a.state = .running) then d.deadline else d).setFld F.TURN_STATUS.PHASE 4
    if d.running && d.turn.verdict == 0 && d.turn.decided.isNone then d.abortLocally else d

/-- LOCAL_ABORT. -/
def execLocalAbort (at_ : Nat) (s : State) : Host.Outcome State Fault Refusal := s.act fun d => localAbortEff (d.at_ at_)

/-! ### Job states (R53) -/

/-- The turn unit returns to IDLE at the next turn boundary. -/
def Device.leave (d : Device) : Device := if d.fld F.TURN_STATUS.STATE = 0 then d else { d with turn.leaving := true }

/-- A write of TURN_CTRL.ENABLE: 1 enters RUNNING from IDLE after a TURN_COMMIT, with an image active and the metergate not being
updated; 0 acts as LEAVE. -/
def enableEff (value : Bool) (d : Device) : Device :=
  if !value then d.leave
  else if d.fld F.TURN_STATUS.STATE ≠ 0 ∨ d.turn.applied = false ∨ d.cfg.image.isNone = true ∨ d.mtrState = 3 then d
  else
    let d := (d.setFld F.TURN_STATUS.STATE 1).setFld F.TURN_CTRL.ENABLE 1
    { d with turn.started := false, turn.leaving := false, turn.carry := false, turn.sealSent := true, turn.verdict := 0 }

/-- ENABLE. -/
def execTurnEnable (port : Nat) (value : Bool) (s : State) : Host.Outcome State Fault Refusal := s.act fun d => d.asHolder port (enableEff value)

/-- LEAVE. -/
def execTurnLeave (port : Nat) (s : State) : Host.Outcome State Fault Refusal := s.act fun d => d.asHolder port Device.leave

/-- TURN_COMMIT (R388). -/
def execTurnCommit (port at_ : Nat) (s : State) : Host.Outcome State Fault Refusal :=
  s.act fun d => (d.at_ at_).asHolder port Device.stageTurn

/-! ### The rota (R33, R43) -/

/-- A write of ROTA_SUBMIT: a fetch in flight and a rota that waits are replaced, unless COUNT is bad (log entry 164). -/
def rotaSubmitEff (port count : Nat) (d : Device) : Device :=
  if count = 0 ∨ count > 8192 then d.setFld F.ROTA_STATUS.FETCH 3
  else
    let w := sget 0 d.host.writer (regKey .ROTA_SUBMIT_ADDR 0)
    let fn : Fn := ⟨if w = 0 then port else w - 1, 0⟩
    let d := ({ d with turn.fetch := some (count, d.fld F.ROTA_SUBMIT_TURN.TURN, fn) } : Device).setOtherRota {}
    (d.setFld F.ROTA_STATUS.FETCH 1).emit (.hostRead fn (d.fld F.ROTA_SUBMIT_ADDR.ADDR * 32) (32 * count))

/-- ROTA_SUBMIT. -/
def execRotaSubmit (port count : Nat) (s : State) : Host.Outcome State Fault Refusal :=
  s.act fun d => d.asHolder port (rotaSubmitEff port count)

/-- ROTA_FETCH_DONE (R33, R34, R43): the rota, as the host memory gave it, is complete in the bank that takes fetches; one for a turn already started, or a read that failed, ends in
error. -/
def rotaFetchDoneEff (bytes : List Byte) (ok : Bool) (d : Device) : Device :=
  match d.turn.fetch with
  | none => d
  | some (count, turn, _) =>
    let late := d.turn.started && d.inJob && d.turn.due.isNone && decide (turn ≤ d.turnNo)
    let d := { d with turn.fetch := none }
    if !ok then (d.setFld F.ROTA_STATUS.FETCH 3).hostErr
    else if late then d.setFld F.ROTA_STATUS.FETCH 3
    else
      let b : RotaBank := { turn := turn, complete := true, entries := rotaEntries bytes count }
      (d.setOtherRota b).setFld F.ROTA_STATUS.FETCH 2

/-- ROTA_FETCH_DONE. -/
def execRotaFetchDone (bytes : List Byte) (ok : Bool) (s : State) : Host.Outcome State Fault Refusal :=
  s.act (rotaFetchDoneEff bytes ok)

end Sys2Proof.Machine
end

