-- ==== Sys2Proof/Machine/Windows.lean ====
section
/-! DEFINITION. Sys2Proof/Machine/Windows.lean: the end of a channel's window, at which what waited for it is issued (R122, R128, R130),
and the ends of the furrow unit's fetches and reads (R169, R180, R188). -/

namespace Sys2Proof.Machine

/-! ### Accesses that waited (R130) -/

/-- An append that waited has been placed: its core learns of it, unless it runs another entry by now (R77). -/
def Device.appendPlaced (d : Device) (plot core run : Nat) : Device :=
  let k := d.core plot core
  if k.run = run then d.setCore plot core { k with appends := k.appends - 1 } else d

/-- A read of the furrow unit's own has waited for its channel: it has its bytes, and FETCH_DONE ends it. -/
def Device.loadRead (d : Device) (id : Nat) : Device :=
  { d with fur.loads := d.fur.loads.map fun (x : PageLoad) =>
      if x.id = id then { x with data := d.tierBytes x.tier x.frame (64 * x.span) } else x }

/-- Carry out an access that waited, and tell what awaited it. -/
def Device.issueOne (d : Device) (k : Nat) (x : MemAcc) : Device :=
  let d := d.access k x
  match x.use with
  | .append plot core run => d.appendPlaced plot core run
  | .fetch page => d.fetchRead page
  | .load id => d.loadRead id
  | .none | .carried _ | .coding _ => d

/-- Issue what waited for a channel, in arrival order (R130); frames that were freed meanwhile lose their owners (R117), and the messages that
waited for the channel go on. -/
def Device.issueWaiting (d : Device) (k : Nat) : Device :=
  let xs := (d.chan k).waiting
  let d := d.setChan k { d.chan k with waiting := [] }
  let d := xs.foldl (fun (d : Device) x => (d.peak F.PIM_CH_WAIT.MAX_WAIT (d.now - x.at_) k).issueOne k x) d
  ((d.freeLeft k).refill k).resumeHeld

/-- EXIT_DONE (R122, R128, R130): the bank units are clear and the banks precharged, the channel serves memory again, and what waited is
issued. -/
def exitDoneEff (k at_ : Nat) (d : Device) : Device :=
  if d.chMode k ≠ 3 then d
  else
    let d := d.at_ at_
    match (d.chan k).win with
    | none => d.setMode k 0
    | some w =>
      let d := d.count F.PIM_CH_WINDOWS.PROC_US ((d.now - w.opened) / 1000) k
      let d := ((d.setChan k { d.chan k with win := none, cool := 0 }).clearUnits k).setMode k (if w.heat then 4 else 0)
      d.issueWaiting k

/-- EXIT_DONE. -/
def execExitDone (k at_ : Nat) (s : State) : Host.Outcome State Fault Refusal := s.act (exitDoneEff k at_)

/-! ### The furrow unit's reads (R169, R180, R188) -/

/-- A read of the furrow unit's own has ended with a status and the page's stored bytes: it goes to the index builder, or to the transfer
that lists the page. A page that could not be read stays unscored. -/
def Device.readTaken (d : Device) (x : PageLoad) (status : Nat) (bs : List Byte) : Device :=
  let d := ({ d with fur.loads := d.fur.loads.filter fun y => y.id != x.id } : Device).freeSources
  let f := d.furrow x.desc
  if x.op ≠ 0 then d.sendGot x.desc x.op x.page status bs
  else
    match if status = 0 then plainOf f x.coded bs else none with
    | some bs => d.buildPage x.desc (x.page - seqPage f f.rankStream 0) bs
    | none => d.noteUnscored x.desc x.page

/-- A read of the furrow unit's own that may end does: one of flash once its commands have ended, one of a host spill frame with what its
reads bring (R114), one of the reservoir when its channel's accesses do not wait, from a frame its owner may read (R118); `ok` says whether
it passes its parity. -/
def Device.loadDone (d : Device) (x : PageLoad) (ok : Bool) (tries : List (List Byte)) : Device :=
  let f := d.furrow x.desc
  let n := 64 * x.span
  if x.tier = 4 then
    match x.ended with
    | some st => d.readTaken x st x.data
    | none =>
      if d.slu.jobs.any fun j => decide (j.use = .load x.id) then d
      else
        let r := d.spillPage x.frame n tries
        match r.2 with
        | some bs => r.1.readTaken x 0 bs
        | none => (r.1.crcFailed f.owner x.frame none).readTaken x 0xC []
  else if x.tier = 2 ∧ x.data = [] ∧ d.waits (frameAddr x.frame) n = true then d.postRead (frameAddr x.frame) n f.owner (.load x.id)
  else
    match if x.tier = 2 then d.furrowBarred f x.frame false else none with
    | some d => d.readTaken x 1 []
    | none =>
      if ok then d.readTaken x 0 (if x.data = [] then d.tierBytes x.tier x.frame n else x.data)
      else
        (d.uncorrectable { cause := 1, severity := 2, status := 0xC, replays := 3, persistent := true, unitKind := 3,
                           unit := x.frame / 32768, owner := f.owner, furrow := f.id, address := frameAddr x.frame }).readTaken x 0xC []

/-- FETCH_DONE (R169, R179, R180, R188): the fetch of a page ends, or, where none can, a read of it by the furrow unit for itself. -/
def fetchDoneEff (g : Nat) (ok : Bool) (tries : List (List Byte)) (d : Device) : Device :=
  match d.fur.fetches.find? fun f => f.page == g && f.ctx.isNone && (f.src != 0 || f.ended.isSome) with
  | some x => d.fetchDone x ok
  | none =>
    match d.fur.loads.find? fun x => x.page == g with
    | some x => d.loadDone x ok tries
    | none => d

/-- FETCH_DONE. -/
def execFetchDone (page : Nat) (ok : Bool) (tries : List (List Byte)) (s : State) : Host.Outcome State Fault Refusal :=
  s.act (fetchDoneEff page ok tries)

end Sys2Proof.Machine
end

