-- ==== Sys2Proof/Machine/ResetOps.lean ====
section
/-! DEFINITION. Sys2Proof/Machine/ResetOps.lean: what a reset does to each kind of unit (R82, R155, R279, R319, R368, R428,
Table 5.5), to a unit domain, a die and the device, and what the end of a step restores. -/

namespace Sys2Proof.Machine

/-! ### Engines of step 1 -/

/-- The score frames of a channel that stand in the SCORE pool. -/
def Device.scoreFreeOf (d : Device) (k : Nat) : Nat :=
  let first := k * 32768 + d.scoreStart k / frameBytes
  let held := (d.mem5.owners.filter fun x => x.1 / 32768 == k && decide (first ≤ x.1) && entryValid x.2).length
  1024 * d.fld F.PIM_CH_STATUS.SCORE_SIZE k - (held + ((d.pim.awaiting ++ d.pim.bad).filter fun f => f.1 == k).length)

/-- A channel enters CLEARING: its free score frames leave the pool until the clear is done (R138). -/
def Device.toClearing (d : Device) (k : Nat) : Device :=
  let mode := d.fld F.PIM_CH_STATUS.MODE k
  let d := if mode = 6 then d else d.countDown F.FUR_POOL_STATUS.FREE (d.scoreFreeOf k) poolScore
  d.setFld F.PIM_CH_STATUS.MODE 6 k

/-- A channel controller is reset (R155): its commands end RESET, its window closes, its bank units are cleared and its banks precharged
(R122), and what waited is issued; a channel not in MEMORY, CLEARING, HOT or BARRED passes through CLEARING. -/
def Device.channelReset (d : Device) (k : Nat) : Device :=
  if !d.part.channel k then d
  else
    let d := d.pimDrop k 7
    let c := d.chan k
    let d := (d.setChan k { waiting := c.waiting, cool := c.cool }).setFld F.PIM_CH_STATUS.DEBT 0 k
    let mode := d.fld F.PIM_CH_STATUS.MODE k
    let d := if mode = 1 ∨ mode = 2 ∨ mode = 3 then d.toClearing k else d
    (d.clearUnits k).issueWaiting k

/-- The screen engine is reset (Tables 9.5 and 9.12): a load that is fetching ends FETCH_ERROR; during a turn the sampler requests of
screened slots fail, their entries stop and the SEAL fails; VALID tables stay VALID. -/
def Device.screenReset (d : Device) : Device :=
  let d := d.loadEnds 5
  if !d.turn.live then d
  else
    let screened := d.turn.admitted.filter fun a =>
      servesSequence a.e.kind && decide ((d.slot a.e.slot).img.screenTable < 1024) && decide (a.state = .running)
    let d := screened.foldl (fun (d : Device) a => ((d.postIdle a.e.slot).pimCut a.index).stopBare a.index) d
    d.failUncorrectable

/-- A fabric port is reset (R319): both its links go DOWN with reason RESET. -/
def Device.portReset (d : Device) (k : Nat) : Device := (d.linkReset (2 * k) 6).linkReset (2 * k + 1) 6

/-- A fabric port's reset has completed: its links are in DETECT, or DISABLED (Table 13.4). -/
def Device.portResetDone (d : Device) (k : Nat) : Device :=
  [2 * k, 2 * k + 1].foldl (fun (d : Device) l =>
    if d.linkState l = 6 then d.setFld F.FAB_LINK_STATUS.STATE (d.linkAfterReset l) l else d) d

/-- A root port's commands end and its windows close (Table 15.6). -/
def Device.rootPortReset (d : Device) (p : Nat) : Device :=
  if d.rootState p = 2 ∨ d.rootState p = 3 ∨ d.rootState p = 5 then (d.endNvme p).setFld F.NVM_PORT_STATUS.STATE 4 p else d

/-- A root port's reset has completed. -/
def Device.rootPortDone (d : Device) (p : Nat) : Device :=
  if d.rootState p = 4 then
    { d.setFld F.NVM_PORT_STATUS.STATE 2 p with
      host.initQueues := sput 0 d.host.initQueues p (d.fld F.NVM_PORT_CFG.IO_QUEUES p) }
  else d

/-! ### Plots (R82) -/

/-- A plot is reset: its cores are cleared, the entries that run on it stop without any report, and it is RESETTING. `last` goes to
LAST_RESET: 1 the driver, 2 the ladder, 3 a die reset. -/
def Device.plotReset (d : Device) (p last : Nat) : Device :=
  let hit := d.turn.admitted.filter fun a => decide (a.state = .running) && a.plotsLeft.getLsbD p
  let d := hit.foldl (fun (d : Device) a => (d.pimCut a.index).stopBare a.index) d
  let d : Device := { d with cores := d.cores.filter fun x => x.1 / 64 != p }
  let st : Nat := d.fld F.PLOT_STATUS.STATE p
  if st = 1 ∨ st = 2 then
    let d := { d with plots := sput {} d.plots p { (sget {} d.plots p : PlotState) with resetting := true } }
    (d.setFld F.PLOT_STATUS.STATE 3 p).setFld F.PLOT_STATUS.LAST_RESET last p
  else d

/-- A plot's reset has completed (Table 3.13). -/
def Device.plotResetDone (d : Device) (p : Nat) : Device :=
  let d := { d with plots := sput {} d.plots p { (sget {} d.plots p : PlotState) with resetting := false } }
  if d.fld F.PLOT_STATUS.STATE p = 3 then (d.setFld F.PLOT_STATUS.STATE 1 p).setFld F.PLOT_EVENTS.RESET_DONE 1 p else d

/-! ### Control units -/

/-- The turn unit is IDLE as if LEAVE had taken effect at once (R428): what runs stops without a report. -/
def Device.turnReset (d : Device) : Device :=
  if d.fld F.TURN_STATUS.STATE = 0 then d
  else
    let d := d.turn.admitted.foldl (fun (d : Device) a => (d.pimCut a.index).stopBare a.index) d
    d.finishCancels.flushFlumes.dropTurn.toIdle

/-- The furrow unit forgets its work in progress; descriptors and page-table entries stay in headwater. A page that was moving or being
coded stays where it is, one whose score form was being built is unscored, and the frames that had been taken are freed. -/
def Device.furrowReset (d : Device) : Device :=
  let d := d.fur.builds.foldl (fun (d : Device) b => d.buildFailed b.page) d
  let d := d.fur.coding.foldl (fun (d : Device) x => match x.ready with
    | some r => d.freePlace (d.pte x.page).tier r.1
    | none => d) d
  let d := d.fur.moves.foldl (fun (d : Device) m => d.freePlace m.tier m.frame) d
  let d := d.fur.toFree.foldl (fun (d : Device) x => d.freePlace x.2.1 x.2.2) d
  let still := d.fur.pte.map fun x => (x.1, if x.2.moving then { x.2 with moving := false } else x.2)
  let f : FurState := { desc := d.fur.desc, pte := still, dir := d.fur.dir, copies := d.fur.copies, pins := d.fur.pins,
                        unscored := d.fur.unscored, kept := d.fur.kept, nextRank := d.fur.nextRank, nextLoad := d.fur.nextLoad }
  { d with fur := f }

/-- What the handoff logic still knows of a descriptor after its reset: the parties' states, which the entry holds too, without the
commands that began them and without what a transfer had brought (log entry 175). -/
def HoLocal.afterReset (l : HoLocal) : HoLocal :=
  let tx := l.tx.map fun (t : HoTx) => { t with cmd := none, auto := false, op := 0 }
  let rx := l.rx.bind fun (r : HoRx) => if r.push then none else some (if r.done then r else { r with got := [], placing := false, pages := [] })
  { tx := tx, rx := rx }

/-- The handoff logic forgets its work in progress; the handoff entries stay in headwater (R428), and no message survives (Table 12.11). -/
def Device.handoffReset (d : Device) : Device :=
  let d := d.ho.locals.foldl (fun (d : Device) x =>
    match x.2.rx with
    | some r => if r.push || r.placing then d.freeTaken r.pages else d
    | none => d) d
  { d with ho := { entries := d.ho.entries, locals := smapVals {} (fun _ (l : HoLocal) => l.afterReset) d.ho.locals, nextOp := d.ho.nextOp } }

/-- A reset of CONTROL d: the samplers hold nothing between requests; on die 0 also the turn unit, the furrow unit and the handoff
logic. -/
def Device.controlReset (d : Device) (die : Nat) : Device := if die = 0 then d.turnReset.furrowReset.handoffReset else d

/-! ### Unit domains (Table 18.5) -/

/-- The numbers from `a`, `n` of them. -/
def span (a n : Nat) : List Nat := (List.range n).map (a + ·)

/-- STATE of sluice engines (Table 11.21): 0 READY, 1 RESETTING, 2 FAILED. -/
def Device.setEngines (d : Device) (es : List Nat) (state : Nat) : Device :=
  es.foldl (fun (d : Device) e => d.setFld F.SLU_ENG_STATUS.STATE state e) d

/-- Reset sluice engines (R279). -/
def Device.resetEngines (d : Device) (es : List Nat) : Device := (es.foldl (fun (d : Device) e => d.clearEngine e) d).setEngines es 1

/-- A unit domain's units are reset. -/
def Device.domainReset (d : Device) (domain i : Nat) : Device :=
  match domain with
  | 0 => d.resetEngines (span (16 * i) 16)
  | 1 => (span (40 * i) 40).foldl (fun (d : Device) k => d.channelReset k) d
  | 2 => (span (28 * i) 28).foldl (fun (d : Device) k => d.portReset k) d
  | 3 => (span (4 * i) 4).foldl (fun (d : Device) p => d.rootPortReset p) d
  | 4 => d.screenReset
  | 5 => d.controlReset i
  | _ => d

/-- A unit domain's reset has completed. -/
def Device.domainDone (d : Device) (domain i : Nat) : Device :=
  match domain with
  | 0 => d.setEngines (span (16 * i) 16) 0
  | 2 => (span (28 * i) 28).foldl (fun (d : Device) k => d.portResetDone k) d
  | 3 => (span (4 * i) 4).foldl (fun (d : Device) p => d.rootPortDone p) d
  | _ => d

/-! ### Self-refresh (R107, R110) -/

/-- The present channels of a stack. -/
def Device.stackChans (d : Device) (s : Nat) : List Nat := (span (40 * s) 40).filter fun k => d.part.channel k

/-- Stacks enter self-refresh: their accesses wait. -/
def Device.sleepStacks (d : Device) (ss : List Nat) : Device :=
  let d := { d with mem5.selfRefresh := ss ++ d.mem5.selfRefresh.filter fun s => !ss.contains s }
  (ss.flatMap d.stackChans).foldl (fun (d : Device) k => d.emit (.dram k 7 0 0)) d

/-- A channel is refreshed in all its banks, as at initialisation and at the end of self-refresh. -/
def Device.refreshAll (d : Device) (k : Nat) : Device := d.emit (.dram k 6 0 0)

/-- Stacks leave self-refresh: every bank is refreshed, and what waited is issued. -/
def Device.wakeStacks (d : Device) (ss : List Nat) : Device :=
  let ss := ss.filter fun s => d.mem5.selfRefresh.contains s
  let d := { d with mem5.selfRefresh := d.mem5.selfRefresh.filter fun s => !ss.contains s }
  (ss.flatMap d.stackChans).foldl (fun (d : Device) k => ((d.emit (.dram k 8 0 0)).refreshAll k).issueWaiting k) d

/-- The stacks of a die. -/
def dieStacks (die : Nat) : List Nat := span (4 * die) 4

/-! ### Dies -/

/-- The headwater addresses of a die, and how many there are (R80). -/
def dieBase (die : Nat) : Nat := die * 0x60000000
/-- Bytes of a headwater die. -/
def dieBytes : Nat := 0x60000000

/-- A headwater area has a byte on a die. -/
def onDie (die : Nat) (r : Nat × Nat) : Bool :=
  r.2 != 0 && decide (r.1 < dieBase die + dieBytes) && decide (dieBase die < r.1 + r.2)

/-- Frame owner entries clear on a die's channels, and with them what does not outlast that: the regions are FREE (R254), the handoff
table is zero (R281), the flash tier is lost; the score frames pass through CLEARING (R138). -/
def Device.dieOwners (d : Device) (die : Nat) : Device :=
  let d := ((span (160 * die) 160).filter fun k => d.part.channel k).foldl (fun (d : Device) k => d.toClearing k) d
  let mine := fun (f : Nat) => f / 32768 / 160 == die
  let pool := d.resFrames
  let freed := (d.mem5.owners.filter fun x => mine x.1 && entryValid x.2 &&
    pool.any fun r => decide (r.1 ≤ x.1) && decide (x.1 < r.1 + r.2)).length
  let d := d.setFld F.FUR_POOL_STATUS.FREE (d.fld F.FUR_POOL_STATUS.FREE poolRes + freed) poolRes
  let wipe := fun (d : Device) (a : Area) =>
    let r := (d.cfg.image.map fun im => imageArea im a).getD (0, 0)
    if r.2 = 0 then d else d.zero r.1 r.2
  let d := ((wipe d .regions |> fun d => wipe d .handoff) |> fun d => wipe d .flashTable)
  let d := { d with mem5.owners := d.mem5.owners.filter fun x => !mine x.1, mem5.flashOwners := [], slu.regions := [],
                     mem5.leaving := d.mem5.leaving.filter fun f => !mine f, mem5.leavingFlash := [] }
  ({ d with ho.entries := [], ho.locals := [], ho.park := [] } : Device).recountFlash

/-- What the device keeps beside a headwater area goes when the area is lost. -/
def Device.loseArea (d : Device) (a : Area) : Device :=
  match a with
  | .descriptors | .directory => { d with fur := { nextRank := d.fur.nextRank } }
  | .slotTable => { d with gen.slots := [] }
  | .staging => { d with gen.staging := [], gen.stageFill := 0 }
  | .screen =>
    let d := { d with scr := {} }
    { d with regs := d.regs.filter fun x => x.1 / 0x10000 != Reg.SCR_TABLE.ctorIdx }
  | .framePool =>
    let n := d.fld F.FUR_POOL_STATUS.TOTAL poolHw
    ({ d with mem5.hwTaken := [], fur.copies := [] } : Device).setFld F.FUR_POOL_STATUS.FREE n poolHw
  | _ => d

/-- Every area that the image fixes and that has a byte on the die is lost whole (R428). -/
def Device.loseAreas (d : Device) (im : Image) (die : Nat) : Device :=
  (im.areas.filter fun x => onDie die x.2).foldl (fun (d : Device) x => (d.zero x.2.1 x.2.2).loseArea x.1) d

/-- A die reset takes effect (R428): each of its units is reset, its headwater is zero, its owner entries are clear; on die 0 the turn
unit is IDLE and the power controller is at its reset step. -/
def Device.dieReset (d : Device) (die : Nat) : Device :=
  let d := (span (4 * die) 4).foldl (fun (d : Device) s => d.domainReset 1 s) d
  let d := (span (32 * die) 32).foldl (fun (d : Device) p => (d.plotReset p 3).setFld F.PLOT_STATUS.LAST_RESET 3 p) d
  let d := [0, 2, 3, 5].foldl (fun (d : Device) x => d.domainReset x die) d
  let d := if die = 1 then d.screenReset else
    ({ d with pwr.sum := 0, pwr.samples := 0, pwr.hotArmed := true, pwr.armed0 := true, pwr.armed1 := true } : Device).setFld
      F.PWR_STATUS.EMERGENCY 0 |>.setStep 0
  let d := if d.running then d.failUncorrectable else d
  ((d.dieOwners die).zero (dieBase die) dieBytes).sleepStacks (dieStacks die)

/-- A plot after its die's reset: as its role says, its program image checked (R68). -/
def Device.plotRestart (d : Device) (p : Nat) : Device :=
  let d := { d with plots := sput {} d.plots p {} }
  (d.setFld F.PLOT_STATUS.STATE (if d.fld F.PLOT_ID.ROLE p = 0 then 0 else 1) p).checkProgram p

/-- The rider reloads the active image after a die reset (R383, R428): the areas with a byte on the die are lost; the image gives the
fields that it fixes their values, on die 0 also those of the turn unit and the furrow unit. -/
def Device.dieReload (d : Device) (die : Nat) (flashOk : Bool) : Device :=
  let slot := d.fld F.CFG_STATUS.ACTIVE_SLOT
  let result := d.slotResult slot flashOk
  let d := match d.cfg.image with
    | some im => d.loseAreas im die
    | none => d
  match d.cfg.image, sget none d.cfg.slots slot with
  | some _, some im =>
    if result = 1 then
      let d := d.setFld F.CFG_STATUS.RESULT result
      let d := (span (32 * die) 32).foldl (Device.applyPlot im) d
      let d := if die = 0 then Device.restartTimer d ((d.applyAreas im).applyRota im) else d
      let d := if die = 0 then (List.range 4).foldl (fun (d : Device) i =>
          (d.setBoth F.FUR_POOL_CFG.HIGH (im.poolHigh.getD i 0) i).setBoth F.FUR_POOL_CFG.LOW (im.poolLow.getD i 0) i) d else d
      (span (32 * die) 32).foldl (fun (d : Device) p => d.plotRestart p) d
    else d.loadActive flashOk
  | _, _ => d.loadActive flashOk

/-- A die's reset has completed. -/
def Device.dieDone (d : Device) (die : Nat) (flashOk : Bool) : Device :=
  (([0, 2, 3].foldl (fun (d : Device) x => d.domainDone x die) d).wakeStacks (dieStacks die)).dieReload die flashOk

/-! ### The device -/

/-- The registers that a device warm reset leaves (R428): those it names, the reset controller's, the host ports' and the metergate's,
and those whose reset value comes from the flash. -/
def Reg.keptWarm : Reg → Bool
  | .ERR_DUMP_HOST | .RIDE_WDOG | .RIDE_DUMP_FLASH | .RIDE_DUMP_LBA | .ERR_RESET_STATUS | .HQ_PORT_STATUS | .CFG_SLOT_INFO
  | .MTR_ID | .MTR_STATUS | .MTR_PERIOD | .MTR_PRODUCED | .MTR_CONSUMED | .MTR_CTRL | .MTR_CONFIG | .MTR_FW_ADDR | .MTR_FW_CMD
  | .MTR_FW_STATUS | .MTR_VECTOR | .MTR_EVENTS | .MTR_DIGEST => true
  | _ => false

/-- SALT and the first MSG_ID are drawn (R314, R316). -/
def Device.drawSalt (d : Device) : Device :=
  let d := (d.setFld F.FAB_CTRL.SALT (d.rand 20)).rolled
  ({ d with fab.msgId := d.rand 48 } : Device).rolled

/-- Every register takes its reset value but those a warm reset leaves; the pins' last sample and the slot they chose stay (R383). -/
def Device.warmRegs (d : Device) : Device :=
  let slot := d.fld F.CFG_STATUS.ACTIVE_SLOT
  let pins := d.fld F.CFG_STATUS.PINS
  let d := { d with regs := d.regs.filter fun x => (regOfKey x.1).keptWarm, staged := [], snapTurn := none, snapWeir := none }
  ((d.setFld F.CFG_STATUS.ACTIVE_SLOT slot).setFld F.CFG_STATUS.PINS pins).setFld F.RIDE_STATUS.STATE 3

/-- What the units other than the metergate, the reset controller and the host ports hold is lost. -/
def Device.forget (d : Device) : Device :=
  let d := { d with fab := {}, rt := {}, turn := { idleFrom := d.now, idleSeen := d.now }, mem5 := {}, cores := [], plots := [], slu := {} }
  let d := { d with pim := {}, fur := {}, gen := {}, flu := {}, scr := {}, ho := {} }
  let host : HostState := { vfEnabled := d.host.vfEnabled, msix := d.host.msix }
  let cfg : CfgState := { slots := d.cfg.slots, censusNo := d.cfg.censusNo }
  let err : ErrState := { seq := d.err.seq, running := d.err.running, dumpHeld := d.err.dumpHeld, lastTurns := d.err.lastTurns,
                          riderWaiting := d.err.riderWaiting }
  let sec : SecState := { d.sec with keys := [] }
  let d := { d with host := host, cfg := cfg, err := err, sec := sec }
  { d with pwr := { off := d.pwr.off, held := d.pwr.held, perst1 := d.pwr.perst1, fatal := d.pwr.fatal, tripped := d.pwr.tripped } }

/-- A device warm reset takes effect (R428): a crash dump is taken first, registers and units are as at reset, LAST_RESET of every plot
names it (Table 3.16), headwater outside the retention area is zero, the reset is counted. -/
def Device.warmReset (d : Device) : Device :=
  let d := (d.takeDump 2 4).forget.warmRegs.drawSalt
  let d := { d.zero 0 0xC0000000 with err.pushing := true }
  let d := (List.range 64).foldl (fun (d : Device) p => d.setFld F.PLOT_STATUS.LAST_RESET 3 p) d
  (d.sleepStacks (List.range 8)).countReset

/-- A device warm reset has completed: the boot ROM restarts the rider (R401), which reloads the active image (R383). -/
def Device.warmDone (d : Device) (flashOk : Bool) : Device :=
  let d := (d.wakeStacks (List.range 8)).bootRom
  if d.riderRuns then (d.loadActive flashOk).fwProceed
  else ({ d with err.riderWaiting := false } : Device).noImage

/-! ### Steps -/

/-- What a ladder step does when it begins (R428). -/
def Device.stepEffect (d : Device) (l : Ladder) : Device :=
  match l.kind with
  | 1 => d.resetEngines [l.index]
  | 2 => d.channelReset l.index
  | 3 => d.screenReset
  | 4 => d.portReset l.index
  | 5 => d.rootPortReset l.index
  | 6 => (d.plotReset l.index (if l.cause = 1 then 1 else 2)).failUncorrectable
  | 7 => (d.domainReset l.domain l.index).failUncorrectable
  | 8 => d.dieReset l.index
  | 9 => d.warmReset
  | _ => d

/-- Take a ladder step, unless a running step covers its domain. -/
def Device.takeStep (d : Device) (l : Ladder) : Device := if d.covered l then d else (d.stepBegins l).stepEffect l

/-- What the end of a ladder step restores. -/
def Device.stepDone (d : Device) (l : Ladder) (flashOk : Bool) : Device :=
  let d := d.endStep l
  match l.kind with
  | 1 => d.setEngines [l.index] 0
  | 4 => d.portResetDone l.index
  | 5 => d.rootPortDone l.index
  | 6 => d.plotResetDone l.index
  | 7 => d.domainDone l.domain l.index
  | 8 => d.dieDone l.index flashOk
  | 9 => d.warmDone flashOk
  | _ => d

/-- The step that follows a step that has missed its limit (Table 18.4): the unit domain, the die, the device. -/
def Ladder.next (l : Ladder) : Ladder :=
  match l.step with
  | 1 => { step := 2, kind := 7, domain := (unitDomain l.kind l.index).1, index := (unitDomain l.kind l.index).2, cause := 2 }
  | 2 => { step := 3, kind := 8, index := unitDie l.kind l.domain l.index, cause := 2 }
  | _ => { step := 4, kind := 9, index := 0, cause := 2 }

/-- The unit that has missed its limit is FAILED (Tables 3.13, 11.21, 15.6). -/
def Device.unitFailed (d : Device) (l : Ladder) : Device :=
  if l.kind = 6 ∧ d.fld F.PLOT_STATUS.STATE l.index = 3 then d.setFld F.PLOT_STATUS.STATE 4 l.index
  else if l.kind = 5 ∧ d.rootState l.index = 4 then d.rootFailed l.index
  else if l.kind = 1 then d.setEngines [l.index] 2
  else if l.kind = 7 ∧ l.domain = 0 then d.setEngines (span (16 * l.index) 16) 2
  else d

/-- Step 5 (R427, R448): the FATAL record, a crash dump while headwater still answers, FATAL_N, and nothing further. -/
def Device.goFatal (d : Device) (l : Ladder) (answers : Bool) : Device :=
  let d := d.record (l.record 0x15 4)
  let d := if answers then d.takeDump 3 l.step else d
  let d := { d with err.running := [], pwr.fatal := true }
  ((d.setFld F.ERR_RESET_STATUS.ACTIVE 0).setFld F.ERR_RESET_STATUS.STEP 5).setFld F.ERR_RESET_STATUS.FATAL 1

end Sys2Proof.Machine
end

