-- ==== Sys2Proof/Machine/Faults.lean ====
section
/-! DEFINITION. Sys2Proof/Machine/Faults.lean: the commands of the reset ladder (R82, R279, R319, R427 to R429), the rider's heartbeat
and watchdog (R430, R431), dumps and pushes (R432, R433), the sentinel counters (R438) and fingerprints (R441). -/

namespace Sys2Proof.Machine

/-! ### Resets that a PF starts -/

/-- PLOT_RESET (R82): refused while the job is RUNNING. -/
def plotResetEff (p : Nat) (d : Device) : Device :=
  if p ≥ 64 then d
  else if d.running then d.setFld F.PLOT_EVENTS.RESET_REFUSED 1 p
  else d.takeStep { step := 2, kind := 6, index := p, cause := 1 }

/-- PLOT_RESET. -/
def execPlotReset (port plot : Nat) (s : State) : Host.Outcome State Fault Refusal := s.act fun d => d.asHolder port (plotResetEff plot)

/-- PLOT_RESET_DONE (Table 3.13): the running reset of the plot has completed. -/
def plotResetDoneEff (p : Nat) (d : Device) : Device :=
  match d.err.running.find? fun l => l.kind == 6 && l.index == p with
  | some l => d.stepDone l true
  | none => d

/-- PLOT_RESET_DONE. -/
def execPlotResetDone (plot : Nat) (s : State) : Host.Outcome State Fault Refusal := s.act (plotResetDoneEff plot)

/-- ENGINE_RESET (R279): never refused. -/
def engineResetEff (e : Nat) (d : Device) : Device :=
  if e < 32 then d.takeStep { step := 1, kind := 1, index := e, cause := 1 } else d

/-- ENGINE_RESET. -/
def execEngineReset (port e : Nat) (s : State) : Host.Outcome State Fault Refusal := s.act fun d => d.asHolder port (engineResetEff e)

/-- LINK_RESET (R319): the port of the link is reset; never refused. -/
def linkResetEff (l : Nat) (d : Device) : Device :=
  if d.part.link l then d.takeStep { step := 1, kind := 4, index := l / 2, cause := 1 } else d

/-- LINK_RESET. -/
def execLinkReset (port link : Nat) (s : State) : Host.Outcome State Fault Refusal := s.act fun d => d.asHolder port (linkResetEff link)

/-- A unit that ERR_RESET_CMD may name is present: KIND and DOMAIN are not reserved and INDEX names a unit of the part (R429). -/
def Part.resettable (p : Part) (kind domain index : Nat) : Bool :=
  decide (1 ≤ kind) && decide (kind ≤ 9) && !(kind == 7 && decide (domain > 5)) && decide (index < unitCount kind domain) &&
    (match kind with
     | 2 => p.channel index
     | 3 => !p.isL
     | 4 => p.port index
     | 5 => p.root index
     | 7 => if domain = 1 then p.stack index else if domain = 4 then !p.isL else true
     | _ => true)

/-- RESET_REQUEST (R429). DOMAIN counts only with KIND 7 (log entry 16). -/
def resetRequestEff (kind domain index : Nat) (d : Device) : Device :=
  let domain := if kind = 7 then domain else 0
  let l : Ladder := { step := kindStep kind, kind := kind, domain := domain, index := index, cause := 1 }
  if !d.part.resettable kind domain index then d.setFld F.ERR_RESET_STATUS.LAST_REQUEST 2
  else if l.step = 2 ∧ d.running = true then d.setFld F.ERR_RESET_STATUS.LAST_REQUEST 2
  else if d.coveredPart l then d.setFld F.ERR_RESET_STATUS.LAST_REQUEST 3
  else (d.setFld F.ERR_RESET_STATUS.LAST_REQUEST 1).takeStep l

/-- RESET_REQUEST. -/
def execResetRequest (port kind domain index : Nat) (s : State) : Host.Outcome State Fault Refusal :=
  s.act fun d => d.asHolder port (resetRequestEff kind domain index)

/-! ### The ladder -/

/-- The running step over a domain. -/
def Device.runningStep (d : Device) (kind domain index : Nat) : Option Ladder :=
  d.err.running.find? fun l => l.kind == kind && l.domain == domain && l.index == index

/-- RESET_STEP_DONE (R428): a step has completed within its limit. -/
def resetStepDoneEff (kind domain index : Nat) (flashOk : Bool) (d : Device) : Device :=
  match d.runningStep kind domain index with
  | some l => d.stepDone l flashOk
  | none => d

/-- RESET_STEP_DONE. -/
def execResetStepDone (kind domain index : Nat) (flashOk : Bool) (s : State) : Host.Outcome State Fault Refusal :=
  s.act (resetStepDoneEff kind domain index flashOk)

/-- RESET_STEP_TIMEOUT (R427): the RESET_TIMEOUT record, then the next step over the domain that contains the failed one. -/
def resetStepTimeoutEff (kind domain index : Nat) (answers : Bool) (d : Device) : Device :=
  match d.runningStep kind domain index with
  | some l =>
    let d := ((d.record (l.record 0x13 3)).endStep l).unitFailed l
    if l.step ≥ 4 then d.goFatal l answers else d.takeStep l.next
  | none => d

/-- RESET_STEP_TIMEOUT. -/
def execResetStepTimeout (kind domain index : Nat) (answers : Bool) (s : State) : Host.Outcome State Fault Refusal :=
  s.act (resetStepTimeoutEff kind domain index answers)

/-! ### The rider -/

/-- A device warm reset runs. -/
def Device.warmRuns (d : Device) : Bool := d.err.running.any fun l => decide (l.step ≥ 4)

/-- RIDER_HEARTBEAT (R430): the count advances; the first advance after a rider reset is the rider's return, and a metergate firmware
change that waits for it goes on (R431). A rider that has not been started does not advance it. -/
def heartbeatEff (d : Device) : Device :=
  let st := d.fld F.RIDE_STATUS.STATE
  if d.warmRuns || st == 0 || st == 4 then d
  else
    let d := (d.count F.RIDE_HEARTBEAT.COUNT).setFld F.RIDE_STATUS.STATE 2
    if d.err.riderWaiting then (({ d with err.riderWaiting := false } : Device).event F.RIDE_EVENTS.RIDER_UP).fwProceed else d

/-- RIDER_HEARTBEAT. -/
def execRiderHeartbeat (s : State) : Host.Outcome State Fault Refusal := s.act heartbeatEff

/-- A CFG_ command that runs ends with RESULT STATE (R431). -/
def Device.cutCfg (d : Device) : Device :=
  if !d.on F.CFG_CMD_STATUS.ACTIVE then d
  else if d.fld F.CFG_CMD_STATUS.OPCODE = 1 then
    (({ d with cfg.switchTo := none, err.pushing := false, err.pushSwitch := false } : Device).setFld F.CFG_STATUS.STATE
      (b2n d.cfg.image.isSome)).cfgEnd 0x0A F.CFG_EVENTS.SWITCH_DONE F.CFG_EVENTS.SWITCH_FAILED
  else ({ d with cfg.writing := none } : Device).cfgEnd 0x0A F.CFG_EVENTS.SLOT_WRITTEN F.CFG_EVENTS.SLOT_WRITE_FAILED

/-- WATCHDOG (R430, R431): the rider is reset through the boot ROM; the record gives the heartbeat's value. -/
def watchdogEff (d : Device) : Device :=
  if d.fld F.RIDE_STATUS.STATE ≠ 2 then d
  else
    let d := d.count F.RIDE_WDOG.MISSES
    let d := d.record { cause := 0x14, severity := 3, unitKind := 12, detail := [(4, d.fld F.RIDE_HEARTBEAT.COUNT)] }
    let d := (d.count F.RIDE_STATUS.RESETS).event F.RIDE_EVENTS.RIDER_RESET
    let d := d.cutCfg.bootRom
    let d := if d.fld F.RIDE_STATUS.STATE = 2 then d.setFld F.RIDE_STATUS.STATE 3 else d
    { d with err.riderWaiting := true }

/-- WATCHDOG. -/
def execWatchdog (s : State) : Host.Outcome State Fault Refusal := s.act watchdogEff

/-- WATCHDOG_NO_RETURN (R430): step 4 starts; WARM_RESET is set once the registers have taken their reset values. -/
def watchdogNoReturnEff (d : Device) : Device :=
  let st := d.fld F.RIDE_STATUS.STATE
  if !d.err.riderWaiting || !(st == 3 || st == 4) || d.warmRuns then d
  else (d.takeStep { step := 4, kind := 9, index := 0, cause := 4 }).event F.RIDE_EVENTS.WARM_RESET

/-- WATCHDOG_NO_RETURN. -/
def execWatchdogNoReturn (s : State) : Host.Outcome State Fault Refusal := s.act watchdogNoReturnEff

/-! ### Dumps and pushes -/

/-- DUMP_NOW (R432). -/
def execDumpNow (port : Nat) (s : State) : Host.Outcome State Fault Refusal := s.act fun d => d.asHolder port fun d => d.takeDump 1 0

/-- DUMP_RELEASE (R432). -/
def execDumpRelease (port : Nat) (s : State) : Host.Outcome State Fault Refusal :=
  s.act fun d => d.asHolder port fun d => { d with err.dumpHeld := false }

/-- PUSH_NOW (R433): the rider pushes the retention area, at once or once it runs again. -/
def pushNowEff (hostOk flashOk : Bool) (d : Device) : Device :=
  if d.riderRuns then d.pushRetention hostOk flashOk else { d with err.pushing := true }

/-- PUSH_NOW. -/
def execPushNow (port : Nat) (hostOk flashOk : Bool) (s : State) : Host.Outcome State Fault Refusal :=
  s.act fun d => d.asHolder port (pushNowEff hostOk flashOk)

/-- RETENTION_PUSH (R433): a push that is due after a warm reset or before a switch, once the rider runs. -/
def retentionPushEff (hostOk flashOk : Bool) (d : Device) : Device :=
  if d.err.pushing && d.riderRuns && !d.warmRuns then d.pushRetention hostOk flashOk else d

/-- RETENTION_PUSH. -/
def execRetentionPush (hostOk flashOk : Bool) (s : State) : Host.Outcome State Fault Refusal := s.act (retentionPushEff hostOk flashOk)

/-! ### Sentinels and shadows -/

/-- SENT_CLEAR (R438): every sentinel counter is zero; SUSPECT stays. -/
def sentClearEff (d : Device) : Device :=
  { d with
    err.sentBins := []
    regs := d.regs.filter fun x => x.1 / 0x10000 != Reg.ERR_SENT_BIN.ctorIdx && x.1 / 0x10000 != Reg.ERR_SENT_CORE.ctorIdx }

/-- SENT_CLEAR. -/
def execSentClear (port : Nat) (s : State) : Host.Outcome State Fault Refusal := s.act fun d => d.asHolder port sentClearEff

/-- A record of a fingerprint message (Table 18.7). -/
def printAt (data : List Byte) (i : Nat) : Print :=
  let b := 32 + 16 * i
  { turn := fieldAt data 8 8, jst := fieldAt data b 3, token := fieldAt data (b + 4) 4, logit := fieldAt data (b + 8) 1,
    hash := fieldAt data (b + 10) 2 }

/-- FINGERPRINT (R441): a shadow matches each record of its primary's message to its own. -/
def fingerprintEff (m : Msg) (d : Device) : Device :=
  let d := d.took m
  match d.cfg.image with
  | none => d
  | some im =>
    if !im.shadow || fieldAt m.data 0 1 != 0x71 || fieldAt m.data 2 2 != im.primary then d
    else (List.range (min 4096 (fieldAt m.data 6 2))).foldl (fun (d : Device) i => d.takePrint (printAt m.data i)) d

/-- FINGERPRINT. -/
def execFingerprint (m : Msg) (s : State) : Host.Outcome State Fault Refusal := s.act (fingerprintEff m)

end Sys2Proof.Machine
end

