-- ==== Sys2Proof/Machine/Handoff.lean ====
section
/-! DEFINITION. Sys2Proof/Machine/Handoff.lean: handing a request's state between pools (spec/12): the handoff messages, the expiries
and the handoff commands. -/

namespace Sys2Proof.Machine

/-! ### Taking a message -/

/-- Refuse a message about a furrow that has no descriptor here. -/
def Device.refuseId (d : Device) (m : Sys2Proof.Msg) (reason : Nat) : Device :=
  let owner := leValue ((m.data.drop 22).take 2) % 4096
  d.hoSend 0 m.src 4 owner
    (d.hoMsg (leValue ((m.data.drop 8).take 4)) owner 0x36 (leValue ((m.data.drop 0).take 8)) 0 0 0 reason 0 0 [])

/-- The types by which a handoff moves (Table 12.3), which a shadow takes no part in (R299). -/
def movesHandoff (ty : Nat) : Bool := (decide (0x31 ≤ ty) && decide (ty ≤ 0x35)) || decide (0x39 ≤ ty)

/-- Take a message of a TYPE: its failures first, its VERSION, and what the furrow it names is here (`none`: no descriptor). While the
turn unit is IDLE, what waits for a boundary follows at once. -/
def Device.hoRecv (d : Device) (m : Sys2Proof.Msg) (ty : Nat) (f : Option Nat → Device → Device) : Device :=
  let d := (d.took m).settleHandoffs
  let fld := fun (o n : Nat) => leValue ((m.data.drop o).take n)
  if fld 14 1 ≠ ty ∨ d.isShadow = true ∧ movesHandoff ty = true then d
  else if fld 15 1 ≠ 0x10 ∧ ¬(ty = 0x36 ∧ fld 21 1 = 8) then d.refuseId m 8
  else
    let d := f (d.furById (fld 8 4)) d
    if d.fld F.TURN_STATUS.STATE = 0 then d.hoBoundary else d

/-- HELLO (R286): answered with the device's own; the agreed version is the lower of the two, and what waited for it leaves. -/
def helloEff (m : Sys2Proof.Msg) (d : Device) : Device :=
  let d := (d.took m).settleHandoffs
  let fld := fun (o n : Nat) => leValue ((m.data.drop o).take n)
  if fld 14 1 ≠ 0x30 then d
  else
    let v := fld 15 1
    let owner := fld 22 2 % 4096
    let p := d.peer m.src
    let hello := fun (d : Device) =>
      if p.sent then d else d.hoRaw 0 m.src 4 owner (d.hoMsg (fld 8 4) owner 0x30 0 0 0 0 0 0 0 []) 0
    if v / 16 ≠ 1 then
      let d := d.dropHeld m.src 0x14 { sent := true, refused := true }
      let d := (hello d).hoRaw 0 m.src 4 owner (d.hoMsg (fld 8 4) owner 0x36 0 0 0 0 8 0 0 []) 0
      d.hoEvent F.FUR_HO_EVENTS.VERSION
    else
      let d := hello (d.setPeer m.src { sent := true, agreed := some (min v 0x10) })
      let d := p.held.foldl (fun (d : Device) h => d.hoRaw h.desc m.src h.cls h.owner h.data h.op) d
      -- a peer that has sent its HELLO again after this device had its version agreed is answered again (R286)
      if p.agreed.isSome then d.hoRaw 0 m.src 4 owner (d.hoMsg (fld 8 4) owner 0x30 0 0 0 0 0 0 0 []) 0 else d

/-- HELLO. -/
def execHello (m : Sys2Proof.Msg) (s : State) : Host.Outcome State Fault Refusal := s.act (helloEff m)

/-- OFFER (R287, R291, R292): with a slot image it is the recipient's, without one the home's. -/
def offerEff (m : Sys2Proof.Msg) (d : Device) : Device :=
  let fld := fun (o n : Nat) => leValue ((m.data.drop o).take n)
  let mine := decide (192 ≤ m.data.length) && fld 18 2 == d.node
  d.hoRecv m 0x31 fun i d =>
    match i with
    | none => d.refuseId m (if mine then 2 else 1)
    | some i =>
      if mine then
        d.rxOffer i { gen := fld 0 8, src := m.src, kind := fld 20 1, image := (m.data.drop 64).take 128, length := fld 32 8,
                      total := fld 40 8, at_ := d.now }
      else if d.isHome i then d.homeOffer i m.src (fld 0 8) (fld 18 2) (fld 20 1) (fld 32 8)
      else d.refuseId m 1

/-- OFFER. -/
def execOffer (m : Sys2Proof.Msg) (s : State) : Host.Outcome State Fault Refusal := s.act (offerEff m)

/-- DATA (R291). -/
def dataEff (m : Sys2Proof.Msg) (d : Device) : Device :=
  let fld := fun (o n : Nat) => leValue ((m.data.drop o).take n)
  d.hoRecv m 0x32 fun i d =>
    match i with
    | none => d
    | some i => d.rxData i m.src (fld 0 8) (fld 40 8) (m.data.drop 64)

/-- DATA. -/
def execDataMsg (m : Sys2Proof.Msg) (s : State) : Host.Outcome State Fault Refusal := s.act (dataEff m)

/-- ACCEPT (R287). -/
def acceptEff (m : Sys2Proof.Msg) (d : Device) : Device :=
  let fld := fun (o n : Nat) => leValue ((m.data.drop o).take n)
  d.hoRecv m 0x33 fun i d =>
    match i with
    | none => d
    | some i => if d.isHome i then d.homeAccept i m.src (fld 0 8) (fld 16 2) (fld 20 1) else d

/-- ACCEPT. -/
def execAccept (m : Sys2Proof.Msg) (s : State) : Host.Outcome State Fault Refusal := s.act (acceptEff m)

/-- GRANT (R288): a recipient that is ACCEPTING takes ownership at the next boundary. -/
def grantEff (m : Sys2Proof.Msg) (d : Device) : Device :=
  let gen := leValue (m.data.take 8)
  d.hoRecv m 0x34 fun i d =>
    match i with
    | none => d
    | some i =>
      if gen ≤ (d.hoEntry i).gen then d.hoStale
      else
        match (d.hoLoc i).rx with
        | some r => if r.done && !r.push && r.gen == gen then d.grantDue i gen else d
        | none => d

/-- GRANT. -/
def execGrant (m : Sys2Proof.Msg) (s : State) : Host.Outcome State Fault Refusal := s.act (grantEff m)

/-- RELEASE (R288): a donor that is OFFERING gives the request up at the next boundary. -/
def releaseEff (m : Sys2Proof.Msg) (d : Device) : Device :=
  let gen := leValue (m.data.take 8)
  d.hoRecv m 0x35 fun i d =>
    match i with
    | none => d
    | some i =>
      if gen ≤ (d.hoEntry i).gen then d.hoStale
      else
        match (d.hoLoc i).tx with
        | some t => if gen ≥ t.gen then d.releaseDue i gen else d
        | none => d

/-- RELEASE. -/
def execRelease (m : Sys2Proof.Msg) (s : State) : Host.Outcome State Fault Refusal := s.act (releaseEff m)

/-- REFUSE (R288, R290, R295, R286): to a donor, to a recipient that is ACCEPTING, to the owner of a push, or to a claimant. -/
def refuseEff (m : Sys2Proof.Msg) (d : Device) : Device :=
  let fld := fun (o n : Nat) => leValue ((m.data.drop o).take n)
  let gen := fld 0 8
  let why := fld 21 1
  d.hoRecv m 0x36 fun i d =>
    let d := if why = 8 then (d.dropHeld m.src 0x14 { sent := true, refused := true }).hoEvent F.FUR_HO_EVENTS.VERSION else d
    match i with
    | none => d
    | some i =>
      let l := d.hoLoc i
      let fromHome := decide (m.src = (d.furrow i).home)
      let donor := l.tx.any fun t => t.gen == gen && l.released.isNone && (t.rcpt == m.src || fromHome && why != 7)
      let recipient := l.rx.any fun r => r.done && !r.push && r.gen == gen && l.granted.isNone
      if donor then
        if why = 8 then d.txEnd i 6 0x14 true else d.txEnd i 2 why true
      else if recipient ∧ fromHome = true ∧ (why = 7 ∨ why = 1) then
        (d.rxDrop i (if why = 7 then 7 else 2) why).hoEvent F.FUR_HO_EVENTS.REFUSED
      else if (l.push.any fun p => p.gen == gen || p.gen + 1 == gen) ∧ fromHome = true then d.pushOver i false
      else
        match l.claim with
        | some c =>
          if l.rx.isNone && fromHome then
            ((d.setHoLoc i { l with claim := none }).hoEnd c 2 why (d.hoEntry i).gen).hoEvent F.FUR_HO_EVENTS.REFUSED
          else d
        | none => d

/-- REFUSE. -/
def execRefuse (m : Sys2Proof.Msg) (s : State) : Host.Outcome State Fault Refusal := s.act (refuseEff m)

/-- OWNER_Q (R287): the home tells its record. -/
def ownerQEff (m : Sys2Proof.Msg) (d : Device) : Device :=
  d.hoRecv m 0x37 fun i d =>
    match i with
    | none => d
    | some i =>
      let e := d.hoEntry i
      if d.isHome i then d.hoCtl i m.src 0x38 e.gen e.owner e.pending e.homeState 0 e.held else d

/-- OWNER_Q. -/
def execOwnerQ (m : Sys2Proof.Msg) (s : State) : Host.Outcome State Fault Refusal := s.act (ownerQEff m)

/-- What a party does on what the home says of its record (Table 12.7). -/
def Device.ownerIs (d : Device) (i owner pending state gen : Nat) : Device :=
  let l := d.hoLoc i
  let acting := l.rx.any fun r => r.done && !r.push
  let d :=
    match l.tx with
    | some t =>
      if owner ≠ d.node ∧ gen ≥ t.gen then d.releaseDue i gen
      else if owner = d.node ∧ state = 1 ∧ gen + 1 = t.gen then d.txEnd i 6 2 false
      else d
    | none =>
      match if acting then l.rx else none with
      | some r =>
        if owner = d.node ∧ gen = r.gen then d.grantDue i gen
        else if state = 2 ∧ gen + 1 = r.gen ∧ pending = d.node then d.hoCtl i (d.furrow i).home 0x33 r.gen r.src d.node r.kind 0 0
        else d.rxDrop i 2 1
      | none =>
        if !d.isHome i && decide (gen > (d.hoEntry i).gen) then d.modHo i fun (e : HoEntry) => { e with owner := owner, gen := gen } else d
  let d := d.modHoLoc i fun (l : HoLocal) => { l with queries := [] }
  l.queries.foldl (fun (d : Device) c => d.hoEnd c 1 0 gen owner) d

/-- OWNER_IS (R293). -/
def ownerIsEff (m : Sys2Proof.Msg) (d : Device) : Device :=
  let fld := fun (o n : Nat) => leValue ((m.data.drop o).take n)
  d.hoRecv m 0x38 fun i d =>
    match i with
    | none => d
    | some i => if m.src = (d.furrow i).home then d.ownerIs i (fld 16 2) (fld 18 2) (fld 20 1) (fld 0 8) else d

/-- OWNER_IS. -/
def execOwnerIs (m : Sys2Proof.Msg) (s : State) : Host.Outcome State Fault Refusal := s.act (ownerIsEff m)

/-- CLAIM_REQ (R287, R290): a home that owns the request offers it as donor. -/
def claimReqEff (m : Sys2Proof.Msg) (d : Device) : Device :=
  d.hoRecv m 0x39 fun i d =>
    match i with
    | none => d.refuseId m 1
    | some i =>
      let e := d.hoEntry i
      if d.isHome i = false ∨ e.homeState = 0 ∨ e.owner ≠ d.node then d.refuseId m 1
      else if e.homeState ≠ 1 ∨ d.mayOffer i = false then d.refuseId m 6
      else d.offerOrWait i 3 m.src none false

/-- CLAIM_REQ. -/
def execClaimReq (m : Sys2Proof.Msg) (s : State) : Host.Outcome State Fault Refusal := s.act (claimReqEff m)

/-- PUSH (R287): the home begins to receive the transfer of a checkpoint. -/
def pushEff (m : Sys2Proof.Msg) (d : Device) : Device :=
  let fld := fun (o n : Nat) => leValue ((m.data.drop o).take n)
  d.hoRecv m 0x3A fun i d =>
    match i with
    | none => d.refuseId m 2
    | some i =>
      let e := d.hoEntry i
      if d.isHome i = false then d.refuseId m 1
      else if fld 0 8 ≠ e.gen then d.hoStale
      else if e.homeState = 0 then d
      else if m.src ≠ e.owner then (if m.src = e.pending ∧ e.homeState ≠ 1 then d else d.refuseId m 1)
      else if (d.hoLoc i).rx.isSome = true ∨ e.homeState = 3 then d.refuseId m 6
      else
        d.beginRx i { gen := e.gen + 1, src := m.src, kind := 1, push := true, image := (m.data.drop 64).take 128,
                      total := fld 40 8, at_ := d.now }

/-- PUSH. -/
def execPushMsg (m : Sys2Proof.Msg) (s : State) : Host.Outcome State Fault Refusal := s.act (pushEff m)

/-- PUSH_ACK (R295, R212): PUSHED follows at the next boundary. -/
def pushAckEff (m : Sys2Proof.Msg) (d : Device) : Device :=
  d.hoRecv m 0x3B fun i d =>
    match i with
    | none => d
    | some i =>
      match (d.hoLoc i).push with
      | some p =>
        if p.gen = leValue (m.data.take 8) ∧ m.src = (d.furrow i).home then
          (d.modHoLoc i fun (l : HoLocal) => { l with pushed := some p.length }).pushOver i true
        else d
      | none => d

/-- PUSH_ACK. -/
def execPushAck (m : Sys2Proof.Msg) (s : State) : Host.Outcome State Fault Refusal := s.act (pushAckEff m)

/-- WITHDRAW (R287). -/
def withdrawEff (m : Sys2Proof.Msg) (d : Device) : Device :=
  d.hoRecv m 0x3C fun i d =>
    match i with
    | none => d
    | some i => if d.isHome i then d.homeWithdraw i m.src (leValue (m.data.take 8)) else d

/-- WITHDRAW. -/
def execWithdraw (m : Sys2Proof.Msg) (s : State) : Host.Outcome State Fault Refusal := s.act (withdrawEff m)

/-! ### Expiries -/

/-- HANDOFF_TIMEOUT (R287, R294): at a commit instant at which the record has been OFFERED for TIMEOUT_TURNS, the home reclaims. -/
def handoffTimeoutEff (furrow : Nat) (d : Device) : Device :=
  match d.furById furrow with
  | none => d
  | some i =>
    let e := d.hoEntry i
    if d.isHome i = false ∨ e.homeState ≠ 2 ∨ d.turn.lastCommit ≠ d.turnNo ∨ d.running = false ∨
        d.turnNo < e.since + d.fld F.FUR_HO_TIMING.TIMEOUT_TURNS then d
    else
      let f := d.furrow i
      let d := d.setHoEntry i { e with homeState := 1, owner := d.node, gen := e.gen + 2, pending := 0, kind := 0, since := d.turnNo }
      let d := if e.owner = d.node then d.txEnd i 7 0 false else d.hoCtl i e.owner 0x35 (e.gen + 2) e.owner d.node e.kind 0 0
      let d := if e.pending = d.node then d.rxDrop i 7 7 else d.hoRefuse i e.pending (e.gen + 1) 7
      let d := d.setFurrow i { f with state := 1, length := e.held }
      let d := d.record { cause := 0x0C, severity := 1, unitKind := 10, owner := f.owner, furrow := f.id,
                          detail := [(4, e.held), (4, e.offerLength)] }
      ((d.hoEvent F.FUR_HO_EVENTS.RECLAIMED).count F.FUR_HO_STATS.RECLAIMS).count F.FUR_HO_STATS.COMMITS

/-- HANDOFF_TIMEOUT. -/
def execHandoffTimeout (furrow : Nat) (s : State) : Host.Outcome State Fault Refusal := s.act (handoffTimeoutEff furrow)

/-- Ask the home who owns a furrow (R293). -/
def Device.askOwner (d : Device) (i : Nat) : Device :=
  let e := d.hoEntry i
  let d := d.count F.FUR_HO_STATS.QUERIES
  if d.isHome i then d.ownerIs i e.owner e.pending e.homeState e.gen
  else d.hoCtl i (d.furrow i).home 0x37 e.gen 0 0 0 0 0

/-- QUERY_TURNS_EXPIRY (R288): a donor that is OFFERING, or a recipient that is ACCEPTING, asks, and asks again QUERY_TURNS turns
later. -/
def queryTurnsEff (furrow : Nat) (d : Device) : Device :=
  let d := d.settleHandoffs
  match d.furById furrow with
  | none => d
  | some i =>
    let l := d.hoLoc i
    let due := fun (t : Nat) => decide (t + d.fld F.FUR_HO_TIMING.QUERY_TURNS ≤ d.turnNo)
    match l.tx, l.rx with
    | some t, _ =>
      if due t.asked && l.released.isNone then
        let t2 := { t with asked := d.turnNo }
        (d.setHoLoc i { l with tx := some t2 }).askOwner i
      else d
    | none, some r =>
      if r.done && !r.push && due r.asked && l.granted.isNone then
        let r2 := { r with asked := d.turnNo }
        (d.setHoLoc i { l with rx := some r2 }).askOwner i
      else d
    | none, none => d

/-- QUERY_TURNS_EXPIRY. -/
def execQueryTurnsExpiry (furrow : Nat) (s : State) : Host.Outcome State Fault Refusal := s.act (queryTurnsEff furrow)

/-- TRANSFER_TIMEOUT (R291, Table 12.4): the transfer is not complete REASSEMBLY_US after its OFFER. -/
def transferTimeoutEff (furrow at_ : Nat) (d : Device) : Device :=
  let d := d.at_ at_
  match d.furById furrow with
  | none => d
  | some i =>
    match (d.hoLoc i).rx with
    | some r =>
      if !r.done && decide (r.at_ + 1000 * d.fld F.SLU_TARGET_CTRL.REASSEMBLY_US ≤ d.now) then d.rxRefuse i 9 else d
    | none => d

/-- TRANSFER_TIMEOUT. -/
def execTransferTimeout (furrow at_ : Nat) (s : State) : Host.Outcome State Fault Refusal := s.act (transferTimeoutEff furrow at_)

/-! ### Commands (Table 12.10) -/

/-- Start the command at the head of a HANDOFF queue, whose 64 bytes name the opcode: INVALID for a reserved one, NO_FURROW when no
descriptor of this device has the furrow. `f` takes NODE and the descriptor. -/
def Device.hoCommand (d : Device) (q : Nat) (opcode : Nat → Bool) (cmd : List Byte) (f : Nat → Nat → HoCmd → Device → Device) : Device :=
  let d := d.settleHandoffs
  let h := HandoffCmd.ofBytes cmd
  if !d.hqFront q 3 || !opcode h.opcode then d
  else
    let c : HoCmd := { q := q, index := d.fld F.HQ_Q_STATUS.HEAD q, port := (d.ringFn .HQ_Q_BASE q).port, addr := h.addr,
                       opcode := h.opcode, op := d.ho.nextOp }
    let d := d.hoTake q
    if h.opcode = 0 ∨ h.opcode > 7 then d.hoEnd c 3 0 0
    else
      match d.furById h.furrow with
      | none => d.hoEnd c 5 0 0
      | some i => f h.node i c d

/-- HOME_OPEN: the record of a furrow that has none. -/
def homeOpenEff (node i : Nat) (c : HoCmd) (d : Device) : Device :=
  let e := d.hoEntry i
  let f := d.furrow i
  if !d.isHome i then d.hoEnd c 3 0 e.gen
  else if e.homeState ≠ 0 ∨ ¬(f.state = 2 ∨ f.state = 1 ∧ node = d.node) then d.hoEnd c 4 0 e.gen
  else (d.setHoEntry i { e with homeState := 1, owner := node, gen := 1, since := d.turnNo, furrow := f.id }).hoEnd c 1 0 1

/-- HOME_OPEN. -/
def execHomeOpen (q : Nat) (cmd : List Byte) (s : State) : Host.Outcome State Fault Refusal :=
  s.act fun d => d.hoCommand (q % 256) (· == 1) cmd homeOpenEff

/-- HOME_CLOSE: the record ends while the home owns the request. -/
def homeCloseEff (i : Nat) (c : HoCmd) (d : Device) : Device :=
  let e := d.hoEntry i
  if !d.isHome i then d.hoEnd c 3 0 e.gen
  else if e.homeState = 1 ∧ e.owner = d.node then
    (d.setHoEntry i { e with homeState := 0, since := d.turnNo }).hoEnd c 1 0 e.gen
  else d.hoEnd c 4 0 e.gen

/-- HOME_CLOSE. -/
def execHomeClose (q : Nat) (cmd : List Byte) (s : State) : Host.Outcome State Fault Refusal :=
  s.act fun d => d.hoCommand (q % 256) (· == 2) cmd fun _ => homeCloseEff

/-- MOVE and PARK: the offer starts when R290 admits it. -/
def offerCmdEff (kind rcpt i : Nat) (c : HoCmd) (d : Device) : Device :=
  if d.isShadow ∨ d.mayOffer i = false then d.hoEnd c 4 0 (d.hoEntry i).gen else d.offerOrWait i kind rcpt (some c) false

/-- MOVE. A recipient that is the device itself, or no node, makes no move. -/
def execHoMove (q : Nat) (cmd : List Byte) (s : State) : Host.Outcome State Fault Refusal :=
  s.act fun d => d.hoCommand (q % 256) (· == 3) cmd fun node i c d =>
    if node = d.node ∨ node = 0xFFFF then d.hoEnd c 3 0 (d.hoEntry i).gen else offerCmdEff 4 node i c d

/-- PARK. -/
def execHoPark (q : Nat) (cmd : List Byte) (s : State) : Host.Outcome State Fault Refusal :=
  s.act fun d => d.hoCommand (q % 256) (· == 4) cmd fun _ i c d => offerCmdEff 2 (d.furrow i).home i c d

/-- CLAIM: over a HOSTED descriptor, CLAIM_REQ to the home; in a job of one device the record goes through the same states at once
(R21). -/
def claimEff (i : Nat) (c : HoCmd) (d : Device) : Device :=
  let f := d.furrow i
  let l := d.hoLoc i
  let e := d.hoEntry i
  if d.isShadow ∨ e.localState ≠ 0 ∨ l.rx.isSome = true ∨ l.claim.isSome = true then d.hoEnd c 4 0 e.gen
  else if d.isHome i then
    if e.homeState ≠ 1 ∨ e.owner ≠ d.node then (d.hoEnd c 2 1 e.gen).hoEvent F.FUR_HO_EVENTS.REFUSED
    else if d.mayOffer i = false then d.hoEnd c 4 0 e.gen
    else
      (d.modHoLoc i fun (l : HoLocal) => { l with claim := some c }).offerOrWait i 3 d.node none false
  else if f.state ≠ 2 then d.hoEnd c 4 0 e.gen
  else (d.setHoLoc i { l with claim := some c }).hoCtl i f.home 0x39 e.gen 0 0 0 0 0 [] 0 c.op

/-- CLAIM. -/
def execHoClaim (q : Nat) (cmd : List Byte) (s : State) : Host.Outcome State Fault Refusal :=
  s.act fun d => d.hoCommand (q % 256) (· == 5) cmd fun _ => claimEff

/-- QUERY: the home's record is asked for; at the home it stands here. -/
def queryEff (i : Nat) (c : HoCmd) (d : Device) : Device :=
  let e := d.hoEntry i
  if d.isHome i then d.hoEnd c 1 0 e.gen e.owner
  else
    let d := d.modHoLoc i fun (l : HoLocal) => { l with queries := l.queries ++ [c] }
    (d.count F.FUR_HO_STATS.QUERIES).hoCtl i (d.furrow i).home 0x37 e.gen 0 0 0 0 0 [] 0 c.op

/-- QUERY. -/
def execHoQuery (q : Nat) (cmd : List Byte) (s : State) : Host.Outcome State Fault Refusal :=
  s.act fun d => d.hoCommand (q % 256) (fun o => o == 6 || o == 0 || decide (o > 7)) cmd fun _ => queryEff

/-- RECORD: the 256-byte entry goes to ADDR; a failed write ends FAILED with HOST_ERROR. -/
def recordEff (ok : Bool) (i : Nat) (c : HoCmd) (d : Device) : Device :=
  let e := d.hoEntry i
  if !d.isHome i then d.hoEnd c 3 0 e.gen
  else if ok then (d.hostWrite ⟨c.port, 0⟩ c.addr (hoBytes e)).hoEnd c 1 0 e.gen
  else d.hostErr.hoEnd c 6 0x10 e.gen

/-- RECORD. -/
def execRecordQuery (q : Nat) (cmd : List Byte) (ok : Bool) (s : State) : Host.Outcome State Fault Refusal :=
  s.act fun d => d.hoCommand (q % 256) (· == 7) cmd fun _ => recordEff ok

end Sys2Proof.Machine
end

