-- ==== Sys2Proof/Machine/Links.lean ====
section
/-! DEFINITION. Sys2Proof/Machine/Links.lean: the meanings of the fabric link commands (spec/13). -/

namespace Sys2Proof.Machine

/-! ### Training (Table 13.4) -/

/-- LINK_ENABLE (R308, R311): ENABLE written 1 on a DISABLED link whose port mode is not OFF enters DETECT; written 0
takes the link to DISABLED, an ACTIVE link with the effects of R312. -/
def linkEnableEff (l : Nat) (value : Bool) (d : Device) : Device :=
  if l ≥ 112 ∨ d.part.link l = false then d
  else
    let d := d.setFld F.FAB_LINK_CTRL.ENABLE (b2n value) l
    if value then
      (if d.linkState l = 0 ∧ d.linkExists l = true then d.setFld F.FAB_LINK_STATUS.STATE 1 l else d)
    else if d.linkState l = 0 ∨ d.linkState l = 7 then d
    else if d.linkActive l then d.linkFall l 7 0
    else
      ((d.setLink l {}).setFld F.FAB_LINK_STATUS.STATE 0 l).setFld F.FAB_LINK_STATUS.DOWN_REASON 7 l

/-- LINK_ENABLE. -/
def execLinkEnable (port link : Nat) (value : Bool) (s : State) : Host.Outcome State Fault Refusal :=
  s.act fun d => d.asHolder port (linkEnableEff link value)

/-- Run a link event only in one of the states it is defined for. -/
def Device.inLink (d : Device) (l : Nat) (states : List Nat) (f : Device → Device) : Device :=
  if l < 112 ∧ states.contains (d.linkState l) = true then f d else d

/-- SIGNAL_DETECTED (R308): DETECT to TRAIN; the link's configuration written since takes effect here (R321). -/
def execSignalDetected (link : Nat) (s : State) : Host.Outcome State Fault Refusal :=
  s.act fun d => d.inLink link [1] fun d =>
    { d.setFld F.FAB_LINK_STATUS.STATE 2 link with
      fab.cfgLive := sput (regReset d.part .FAB_LINK_CFG link) d.fab.cfgLive link (d.reg .FAB_LINK_CFG link) }

/-- Lanes of a link's half failing equalisation. -/
def halfFails (fault half : Nat) : Bool := bitsOf fault (4 * half) 4 != 0

/-- The end of training (R308, R310): every lane agreed, or one half of a degradable X8 link; otherwise the link stays in
TRAIN. -/
def trainDoneEff (l fault : Nat) (reversed : Bool) (d : Device) : Device :=
  let cfg := sget (regReset d.part .FAB_LINK_CFG l) d.fab.cfgLive l
  let x8 := F.FAB_LINK_CFG.MODE.get cfg == 1
  let d := (d.setFld F.FAB_LINK_STATUS.LANE_FAULT fault l).setFld F.FAB_LINK_STATUS.REVERSED (b2n reversed) l
  let go := fun (d : Device) (width half : Nat) =>
    ((d.setFld F.FAB_LINK_STATUS.WIDTH width l).setFld F.FAB_LINK_STATUS.HALF half l).setFld F.FAB_LINK_STATUS.STATE 3 l
  if x8 then
    if fault % 256 = 0 then go d 8 0
    else if F.FAB_LINK_CFG.DEGRADE.get cfg = 1 then
      if !halfFails fault 0 then (go d 4 0).eventSig F.FAB_EVENTS.DEGRADED F.FAB_VECTOR.VECTOR
      else if !halfFails fault 1 then (go d 4 1).eventSig F.FAB_EVENTS.DEGRADED F.FAB_VECTOR.VECTOR
      else d
    else d
  else if fault % 16 = 0 then go d 4 0 else d

/-- TRAIN_DONE. -/
def execTrainDone (link laneFault : Nat) (reversed : Bool) (s : State) : Host.Outcome State Fault Refusal :=
  s.act fun d => d.inLink link [2] (trainDoneEff link laneFault reversed)

/-- ALIGN_DONE (R308): ALIGN to PARAM; a PARAM flit goes at the next flit boundary. -/
def execAlignDone (link : Nat) (s : State) : Host.Outcome State Fault Refusal :=
  s.act fun d => d.inLink link [3] fun d => (d.setLink link {}).setFld F.FAB_LINK_STATUS.STATE 4 link

/-- TRAIN_TIMEOUT (R308): TRAIN, ALIGN or PARAM to DOWN, reason TRAIN_TIMEOUT. -/
def execTrainTimeout (link : Nat) (s : State) : Host.Outcome State Fault Refusal :=
  s.act fun d => d.inLink link [2, 3, 4] fun d => d.linkDown link 9

/-- HOLDOFF_EXPIRY (R308): DOWN to DETECT. -/
def execHoldoffExpiry (link : Nat) (s : State) : Host.Outcome State Fault Refusal :=
  s.act fun d => d.inLink link [6] fun d => d.setFld F.FAB_LINK_STATUS.STATE 1 link

/-! ### Flits received -/

/-- A flit arrives on a link in one of some states: one with a failed CRC counts (R306); `f` takes one of the TYPE the command names. -/
def Device.flitArrives (d : Device) (l : Nat) (states : List Nat) (ty : FlitType) (bs : List Byte)
    (f : Flit → Device → Device) : Device :=
  d.inLink l states fun d => if !flitCrcOk bs then d.rxBad l else if isFlit ty bs then f (Flit.ofBytes ty bs) d else d

/-- A PARAM flit (R309, R311): in PARAM it is taken, and the link becomes ACTIVE or goes DOWN for its version; on an
ACTIVE link any but a repeat of the last accepted takes the link DOWN, reason PARAM_CHANGE. -/
def paramFlitEff (l : Nat) (f : Flit) (d : Device) : Device :=
  if fieldAt f.body 0 4 ≠ 0x5A54414C then d
  else if d.linkState l = 4 then
    let d := d.setLink l { d.link l with peerSeen := true, lastParam := f.body }
    if !versionsAgree f.body then
      (d.linkDown l 8).eventSig F.FAB_EVENTS.VERSION F.FAB_VECTOR.VECTOR
    else if (d.link l).ready then d.linkUp l else d
  else if !(fieldAt f.body 10 1).testBit 0 || f.body != (d.link l).lastParam then d.linkDown l 5
  else d

/-- PARAM_FLIT. -/
def execParamFlit (link : Nat) (flit : List Byte) (s : State) : Host.Outcome State Fault Refusal :=
  s.act fun d => d.flitArrives link [4, 5] .param flit (paramFlitEff link)

/-- A packet whole in its flits has been delivered by the link layer, and its buffers are freed (R307). -/
def Device.deliver (d : Device) (l tc flits : Nat) (bs : List Byte) : Device :=
  let k := d.link l
  { d.setLink l { k with freed := k.freed.modify tc (· + flits) } with
    fab.arrived := d.fab.arrived ++ [(l, Packet.ofBytes bs)] }

/-- Put a DATA flit's bytes to the packet being received; deliver it once whole. A SOP flit begins a packet. -/
def takeBody (l : Nat) (f : Flit) (d : Device) : Device :=
  let k := d.link l
  let rx := (if f.sop then [] else k.rx) ++ f.body.take f.bodyLen
  let d := d.setLink l { k with rx := rx }
  if rx.length ≥ 32 ∧ rx.length ≥ (Packet.ofBytes rx).wireLen then
    let d := d.setLink l { d.link l with rx := [] }
    d.deliver l f.tc (flitsOf rx.length) rx
  else d

/-- A DATA flit (R306): taken in SEQ order, otherwise one NAK, and discarded until ACK + 1 arrives. -/
def dataFlitEff (l : Nat) (f : Flit) (d : Device) : Device :=
  let d := d.rxCommon l f
  let k := d.link l
  if f.seq = (k.rxAck + 1) % 4096 then
    let n := k.inFlits + 1
    let d := d.setLink l { k with rxAck := f.seq, nak := false, discarding := false, inFlits := n % 1000000 }
    let d := if n ≥ 1000000 then d.count F.FAB_LINK_TRAFFIC.IN_MFLITS 1 l else d
    takeBody l f d
  else if k.discarding then d else d.setLink l { k with nak := true, discarding := true }

/-- DATA_FLIT: a side still in PARAM discards it (R309). -/
def execDataFlit (link : Nat) (flit : List Byte) (s : State) : Host.Outcome State Fault Refusal :=
  s.act fun d => d.flitArrives link [5] .data flit (dataFlitEff link)

/-- A TURN flit (R306): taken in TSEQ order, any other discarded without a NAK. -/
def turnFlitEff (l : Nat) (f : Flit) (d : Device) : Device :=
  let d := d.rxCommon l f
  let k := d.link l
  if f.seq = (k.rxTack + 1) % 256 then
    (d.setLink l { k with rxTack := f.seq }).deliver l 0 1 (f.body.take f.bodyLen)
  else d

/-- TURN_FLIT. -/
def execTurnFlit (link : Nat) (flit : List Byte) (s : State) : Host.Outcome State Fault Refusal :=
  s.act fun d => d.flitArrives link [5] .turn flit (turnFlitEff link)

/-- IDLE_FLIT (R306, R307): acknowledgements and credits. -/
def execIdleFlit (link : Nat) (flit : List Byte) (s : State) : Host.Outcome State Fault Refusal :=
  s.act fun d => d.flitArrives link [5] .idle flit fun f d => d.rxCommon link f

/-! ### Replay and loss -/

/-- REPLAY_TIMEOUT (R306): the oldest unacknowledged DATA flits are resent in order. -/
def execReplayTimeout (link : Nat) (s : State) : Host.Outcome State Fault Refusal :=
  s.act fun d => d.inLink link [5] fun d =>
    let k := d.link link
    if k.replay.isEmpty then d
    else (d.setLink link { k with resend := k.replay }).count F.FAB_LINK_REPLAY.REPLAYS 1 link

/-- TURN_REPLAY_TIMEOUT (R306): every unacknowledged TURN flit is resent, oldest first. -/
def execTurnReplayTimeout (link : Nat) (s : State) : Host.Outcome State Fault Refusal :=
  s.act fun d => d.inLink link [5] fun d =>
    let k := d.link link
    d.setLink link { k with turnResend := k.turnReplay }

/-- REPLAY_LIMIT (R306, R311): a kept flit has been sent eight times unacknowledged, and the link goes DOWN. -/
def execReplayLimit (link : Nat) (s : State) : Host.Outcome State Fault Refusal :=
  s.act fun d => d.inLink link [5] fun d =>
    if ((d.link link).replay ++ (d.link link).turnReplay).any fun x => x.1 ≥ 8 then d.linkDown link 4 else d

/-- PEER_TRAINING (R311). -/
def execPeerTraining (link : Nat) (s : State) : Host.Outcome State Fault Refusal :=
  s.act fun d => d.inLink link [5] fun d => d.linkDown link 1

/-- FEC_FAILURE (R304, R311): 32 consecutive uncorrectable codewords. -/
def execFecFailure (link : Nat) (s : State) : Host.Outcome State Fault Refusal :=
  s.act fun d => d.inLink link [5] fun d => (d.count F.FAB_LINK_FEC.UNCORRECTABLE 32 link).linkDown link 2

/-- NO_FLIT (R311). -/
def execNoFlit (link : Nat) (s : State) : Host.Outcome State Fault Refusal :=
  s.act fun d => d.inLink link [5] fun d => d.linkDown link 3

/-! ### Transmission -/

/-- The class whose freed buffers the next flit returns, the lowest first, and how many (at most 4,095). -/
def Link.returnCredit (k : Link) : Nat × Nat :=
  match (List.range 7).find? fun c => k.freed.getD c 0 != 0 with
  | some c => (c, min (k.freed.getD c 0) 4095)
  | none => (0, 0)

/-- Complete a flit with what every flit carries (Table 13.3), and send it. -/
def Device.sendFlit (d : Device) (l : Nat) (f : Flit) : Device :=
  let k := d.link l
  let (c, n) := k.returnCredit
  let d := d.setLink l { k with nak := false, freed := k.freed.modify c (· - n) }
  let full : Flit := { f with ack := k.rxAck, tack := k.rxTack, nak := k.nak, creditTc := c, credits := n }
  d.emit (.flit l full.bytes)

/-- Count one more sending of a kept flit. -/
def bumpSent (seq : Nat) (kept : List (Nat × Flit)) : List (Nat × Flit) :=
  kept.map fun x => if x.2.seq = seq then (x.1 + 1, x.2) else x

/-- The next DATA flit of the packet being sent: it joins the replay buffer (R306). -/
def Device.sendNewData (d : Device) (l : Nat) : Device :=
  let k := d.link l
  let body := k.sending.take 240
  let f : Flit := { ty := .data, seq := k.txSeq, sop := k.sendingSop, tc := k.sendingTc, bodyLen := body.length, body := body }
  let n := k.outFlits + 1
  let d := d.setLink l { k with txSeq := (k.txSeq + 1) % 4096, sending := k.sending.drop 240, sendingSop := false,
                                replay := k.replay ++ [(1, f)], outFlits := n % 1000000 }
  let d := if n ≥ 1000000 then d.count F.FAB_LINK_TRAFFIC.OUT_MFLITS 1 l else d
  d.sendFlit l f

/-- The first queued packet of a class. -/
def Link.headOf (k : Link) (c : Nat) : Option TxPacket := k.queue.find? fun t => t.pkt.tc == c

/-- A class may send its head packet: its round credit and the peer's buffers cover the packet's flits (R307, R335). -/
def Link.canSend (k : Link) (c : Nat) : Bool :=
  match k.headOf c with
  | some t => decide (flitsOf t.pkt.wireLen ≤ k.deficit.getD c 0) && decide (flitsOf t.pkt.wireLen ≤ k.credits.getD c 0)
  | none => false

/-- A new round of deficit round robin (R335): every waiting class gains its QUANTUM, and an empty one falls to 0. -/
def Device.drrRound (d : Device) (k : Link) : Link :=
  { k with deficit := (List.range 7).map fun c =>
      if c ≠ 0 ∧ (k.headOf c).isSome = true then k.deficit.getD c 0 + d.fld F.WEIR_CLASS_ARB.QUANTUM c else 0 }

/-- The next class to send by deficit round robin (R335), with the rounds it took; at most 18 rounds cover the largest
packet. -/
def Device.drrPick (d : Device) : Nat → Link → Option (Nat × Link)
  | 0, _ => none
  | n + 1, k =>
    match [1, 2, 3, 4, 5, 6].find? k.canSend with
    | some c => some (c, k)
    | none =>
      if [1, 2, 3, 4, 5, 6].any fun c => match k.headOf c with
          | some t => decide (flitsOf t.pkt.wireLen ≤ k.credits.getD c 0)
          | none => false
      then d.drrPick n (d.drrRound k) else none

/-- Begin sending a class's head packet; the credit of a class whose queue empties falls to 0 (R335). -/
def Link.start (k : Link) (c : Nat) : Link :=
  match k.headOf c with
  | some t =>
    let n := flitsOf t.pkt.wireLen
    let queue := k.queue.erase t
    { k with queue := queue, sending := t.pkt.bytes, sendingTc := c, sendingSop := true,
             deficit := k.deficit.modify c fun x => if queue.any fun u => u.pkt.tc == c then x - n else 0,
             credits := k.credits.modify c (· - n) }
  | none => k

/-- A flit boundary of an ACTIVE link (R306, R307, R335): TURN flits first, then DATA replay flits, then new DATA flits
while the replay buffer has room, otherwise an IDLE flit. -/
def flitActive (l : Nat) (d : Device) : Device :=
  let k := d.link l
  match k.turnResend with
  | x :: rest =>
    (d.setLink l { k with turnResend := rest, turnReplay := bumpSent x.2.seq k.turnReplay }).sendFlit l x.2
  | [] =>
    if k.turnQueue ≠ [] ∧ k.credits.getD 0 0 ≥ 1 ∧ k.turnReplay.length < 16 then
      let bs := k.turnQueue.headD []
      let f : Flit := { ty := .turn, seq := k.turnSeq, sop := true, tc := 0, bodyLen := bs.length, body := bs }
      (d.setLink l { k with turnQueue := k.turnQueue.tail, turnSeq := (k.turnSeq + 1) % 256,
                            credits := k.credits.modify 0 (· - 1), turnReplay := k.turnReplay ++ [(1, f)] }).sendFlit l f
    else
      match k.resend with
      | x :: rest => (d.setLink l { k with resend := rest, replay := bumpSent x.2.seq k.replay }).sendFlit l x.2
      | [] =>
        if k.replay.length ≥ 1024 then d.sendFlit l { ty := .idle }
        else if k.sending ≠ [] then d.sendNewData l
        else
          match d.drrPick 19 k with
          | some (c, k') => (d.setLink l (k'.start c)).sendNewData l
          | none => d.sendFlit l { ty := .idle }

/-- A flit boundary in PARAM (R309): a PARAM flit every 64 flit times, otherwise an IDLE flit. The link becomes ACTIVE
once both sides have seen each other. -/
def flitParam (l : Nat) (d : Device) : Device :=
  let k := d.link l
  if k.paramWait = 0 then
    let body := d.paramBody l
    let d := (d.setLink l { k with paramWait := 63, sentSeen := k.sentSeen || k.peerSeen }).sendFlit l { ty := .param, body := body }
    let k := d.link l
    if k.ready && versionsAgree k.lastParam then d.linkUp l else d
  else (d.setLink l { k with paramWait := k.paramWait - 1 }).sendFlit l { ty := .idle }

/-- FLIT_BOUNDARY (R306): the link's transmitter sends its next flit. -/
def execFlitBoundary (link : Nat) (s : State) : Host.Outcome State Fault Refusal :=
  s.act fun d =>
    if link < 112 then
      (if d.linkState link = 5 then flitActive link d
       else if d.linkState link = 4 then flitParam link d
       else d)
    else d

/-- FAB_NODE_WRITE (R321): taken only while every present link is DISABLED or DOWN. -/
def fabNodeWriteEff (node : Nat) (d : Device) : Device :=
  if (List.range 112).all fun l => !d.part.link l || d.linkState l == 0 || d.linkState l == 6 || d.linkState l == 7 then
    d.setFld F.FAB_NODE.NODE node
  else d.eventSig F.FAB_EVENTS.NODE_REFUSED F.FAB_VECTOR.VECTOR

/-- FAB_NODE_WRITE. -/
def execFabNodeWrite (port node : Nat) (s : State) : Host.Outcome State Fault Refusal :=
  s.act fun d => d.asHolder port (fabNodeWriteEff node)

end Sys2Proof.Machine
end

