-- ==== Sys2Proof/Machine/Power.lean ====
section
/-! DEFINITION. Sys2Proof/Machine/Power.lean: the reset pins and the fundamental reset (R444 to R449), the supplies (R445), the sensors
(R455) and the clock steps (R452, R453). -/

namespace Sys2Proof.Machine

/-! ### The fundamental reset (R447) -/

/-- What a fundamental reset leaves: what the fuses and the configuration flash hold, what the retention area goes with, and the pins.
The reservoir's contents are undefined (Table 5.5): no unit of it is readable under a key. -/
def Device.fundamental (d : Device) : Device :=
  let err : ErrState := { seq := d.err.seq, dumpHeld := d.err.dumpHeld }
  let sec : SecState := { floor := d.sec.floor, slots := d.sec.slots }
  let mtr : MtrState := { image := d.mtr.image, sealOk := d.mtr.sealOk, sealNo := d.mtr.sealNo, sealDigest := d.mtr.sealDigest,
                          boot := d.mtr.boot, fuse := d.mtr.fuse }
  let pwr : PwrState := { off := d.pwr.off, held := d.pwr.held, perst1 := d.pwr.perst1, tripped := d.pwr.tripped }
  let cfg : CfgState := { slots := d.cfg.slots }
  let fresh : Device := { part := d.part, now := d.now, freeCount := d.freeCount + 1, randCount := d.randCount, mem := d.mem,
                          wr := d.wr, out := d.out, err := err, sec := sec }
  { fresh.zero 0 0xC0000000 with mtr := mtr, pwr := pwr, cfg := cfg }

/-- PWRGOOD_ASSERT (R444): after a loss of power the retention area is initialised and the time since power-on begins. -/
def pwrgoodAssertEff (held : Bool) (d : Device) : Device :=
  if !d.pwr.off then d
  else
    let d := { d with pwr.off := false }
    if held then d else { d.initRetention with now := 0, err := {} }

/-- PWRGOOD_ASSERT. -/
def execPwrgoodAssert (held : Bool) (s : State) : Host.Outcome State Fault Refusal := s.pin (pwrgoodAssertEff held)

/-- PWRGOOD_DEASSERT (R447, R449): a fundamental reset; THERMTRIP_N deasserts. -/
def pwrgoodDeassertEff (d : Device) : Device :=
  if d.pwr.off then d else ({ d with pwr.off := true, pwr.tripped := false } : Device).fundamental

/-- PWRGOOD_DEASSERT. -/
def execPwrgoodDeassert (s : State) : Host.Outcome State Fault Refusal := s.pin pwrgoodDeassertEff

/-- PERST0_ASSERT (R447): a fundamental reset, counted in the retention header while power is good; FATAL_N deasserts. -/
def perst0AssertEff (d : Device) : Device :=
  if d.pwr.held then d
  else
    let d := ({ d with pwr.held := true } : Device).fundamental
    if d.pwr.off then d else d.countReset

/-- PERST0_ASSERT. -/
def execPerst0Assert (s : State) : Host.Outcome State Fault Refusal := s.pin perst0AssertEff

/-- PERST0_DEASSERT (R383, R401, Table 19.3): with power good, PROF[1:0] is sampled, the boot ROM starts the rider, the slots are
checked and the named one is loaded. -/
def perst0DeassertEff (prof : Nat) (flashOk : Bool) (d : Device) : Device :=
  if !d.pwr.held then d
  else
    let d := { d with pwr.held := false }
    if d.pwr.off || d.pwr.tripped then d
    else
      let d := (d.setFld F.CFG_STATUS.PINS (prof % 4)).setFld F.CFG_STATUS.ACTIVE_SLOT (prof % 4)
      let d := (((List.range 8).flatMap d.stackChans).foldl (fun (d : Device) k => d.refreshAll k) d).drawSalt.bootRom
      if d.riderRuns then d.loadAtBoot flashOk else d.noImage

/-- PERST0_DEASSERT. -/
def execPerst0Deassert (prof : Nat) (flashOk : Bool) (s : State) : Host.Outcome State Fault Refusal :=
  s.pin (perst0DeassertEff prof flashOk)

/-- PERST1_ASSERT (R447): H1 is lost and no domain is reset. -/
def perst1AssertEff (d : Device) : Device :=
  if d.pwr.perst1 then d
  else
    let d := { d with pwr.perst1 := true }
    if d.dead then d else d.portLost 1 0

/-- PERST1_ASSERT. -/
def execPerst1Assert (s : State) : Host.Outcome State Fault Refusal := s.pin perst1AssertEff

/-- PERST1_DEASSERT (R447): H1's link may train again. -/
def execPerst1Deassert (s : State) : Host.Outcome State Fault Refusal := s.pin fun d => { d with pwr.perst1 := false }

/-! ### Supplies and sensors -/

/-- SUPPLY_FAULT (R445). -/
def supplyFaultEff (rail : Nat) (d : Device) : Device :=
  let d := if rail < 11 then d.setFld F.PWR_RAIL.OUT_OF_RANGE 1 rail else d
  d.pwrEvent F.PWR_EVENTS.SUPPLY_FAULT

/-- SUPPLY_FAULT. -/
def execSupplyFault (rail : Nat) (s : State) : Host.Outcome State Fault Refusal := s.act (supplyFaultEff rail)

/-- The highest of a list of readings. -/
def hottestOf : List Int → Option Int
  | [] => none
  | x :: xs => match hottestOf xs with
    | some y => some (max x y)
    | none => some x

/-- Put a temperature reading into a field. -/
def Device.putTemp (d : Device) (f : Field) (v : Option Int) : Device :=
  match v with
  | some t => d.setFld f (twosOf 16 t)
  | none => d

/-- One rail's reading (Table 19.14); a sample of VCORE0 or VCORE1 at or below 810 A arms its emergency again (R453). -/
def Device.putRail (d : Device) (r : RailReading) : Device :=
  if r.rail ≥ 11 then d
  else
    let d := (d.setFld F.PWR_RAIL.MV r.mv r.rail).setFld F.PWR_RAIL.CURRENT_A r.quarterAmps r.rail
    let d := (d.peak F.PWR_RAIL.PEAK_A r.quarterAmps r.rail).setFld F.PWR_RAIL.OUT_OF_RANGE (b2n r.outOfRange) r.rail
    let low := decide (r.quarterAmps ≤ 3240)
    if r.rail = 1 ∧ low = true then { d with pwr.armed0 := true }
    else if r.rail = 2 ∧ low = true then { d with pwr.armed1 := true } else d

/-- A sample of every sensor: the readings, the alert and, at the first hot reading, the emergency step (R453, R455). -/
def Device.sample1 (d : Device) (x : Sensors) : Device :=
  let d := (d.putTemp F.PWR_THERM.DIE0_MAX (hottestOf (x.junction0 ++ x.headwater0))).putTemp F.PWR_THERM.DIE1_MAX
    (hottestOf (x.junction1 ++ x.headwater1))
  let d := d.putTemp F.PWR_THERM.STACK_MAX (hottestOf x.stackBases)
  let d := d.setFld F.PWR_THERM.PEAK (twosOf 16 (max (signedOf 16 (d.fld F.PWR_THERM.PEAK)) d.hottest))
  let d := (d.peak F.PWR_STATUS.PEAK_W x.watts)
  let d := { d with pwr.sum := d.pwr.sum + x.watts, pwr.samples := d.pwr.samples + 1 }
  let d := (x.rails.foldl Device.putRail d).alertPin
  let hot := decide (d.threshold F.PWR_THERM_CFG.EMERG_C ≤ d.hottest)
  let step := hot && d.pwr.hotArmed
  let d : Device := { d with pwr.hotArmed := !hot }
  if step then d.emergencyStep F.PWR_EVENTS.EMERG_THERMAL else d

/-- SENSOR_SAMPLE (R449, R455): a junction at 115 °C or above trips the device while power is good, its stacks in self-refresh; otherwise the sample is taken. -/
def sensorSampleEff (at_ : Nat) (x : Sensors) (d : Device) : Device :=
  let d := d.at_ at_
  let trip := (x.junction0 ++ x.junction1).any fun t => decide (1150 ≤ t)
  if d.pwr.off then d
  else if trip then ({ d with pwr.tripped := true } : Device).sleepStacks (List.range 8)
  else if d.dead then d else d.sample1 x

/-- SENSOR_SAMPLE. -/
def execSensorSample (at_ : Nat) (x : Sensors) (s : State) : Host.Outcome State Fault Refusal := s.pin (sensorSampleEff at_ x)

/-- VCORE_OVERCURRENT (R453): rail 1 is VCORE0, rail 2 VCORE1. -/
def overcurrentEff (rail : Nat) (d : Device) : Device :=
  if rail = 1 ∧ d.pwr.armed0 = true then ({ d with pwr.armed0 := false } : Device).emergencyStep F.PWR_EVENTS.EMERG_CURRENT
  else if rail = 2 ∧ d.pwr.armed1 = true then ({ d with pwr.armed1 := false } : Device).emergencyStep F.PWR_EVENTS.EMERG_CURRENT
  else d

/-- VCORE_OVERCURRENT. -/
def execVcoreOvercurrent (rail : Nat) (s : State) : Host.Outcome State Fault Refusal := s.act (overcurrentEff rail)

/-- IDLE_STEP_TICK (R452): a planned step decision while the turn unit is IDLE. -/
def idleStepEff (at_ : Nat) (d : Device) : Device :=
  let d := d.at_ at_
  if d.fld F.TURN_STATUS.STATE = 0 then d.plannedStep else d

/-- IDLE_STEP_TICK. -/
def execIdleStepTick (at_ : Nat) (s : State) : Host.Outcome State Fault Refusal := s.act (idleStepEff at_)

end Sys2Proof.Machine
end

