-- ==== Sys2Proof/Machine/RegWrite.lean ====
section
/-! DEFINITION. Sys2Proof/Machine/RegWrite.lean: register accesses that have no behaviour of their own (R8 to R10, R351, R385, R387,
R394, R395, R461), and reads with their effect on RC fields (R10, R428). A write to a field that has a command of its own is that
command; here it leaves the field (log entry 38). -/

namespace Sys2Proof.Machine

/-! ### Finding a register -/

/-- The copy of a register at an offset, if one begins there. -/
def Place.copy (p : Place) (off : Nat) : Option Nat :=
  if off < p.base then none
  else
    let rel := off - p.base
    let a := if p.s1 = 0 then 0 else min (rel / p.s1) (p.c1 - 1)
    let b := if p.s2 = 0 then 0 else min ((rel - p.s1 * a) / p.s2) (p.c2 - 1)
    if p.s1 * a + p.s2 * b = rel then some (a * p.c2 + b) else none

/-- The register copy at an offset of a BAR. -/
def regAt (bar off : Nat) : Option (Reg × Nat) :=
  Reg.all.findSome? fun r => if r.place.bar = bar then (r.place.copy off).map fun i => (r, i) else none

/-- The bits that an access of `size` bytes at an offset covers (R9); none for any other width or alignment. -/
def accessMask (off size : Nat) : Option Word :=
  if size = 8 ∧ off % 8 = 0 then some (BitVec.allOnes 64)
  else if size = 4 ∧ off % 8 = 0 then some 0x00000000FFFFFFFF
  else if size = 4 ∧ off % 8 = 4 then some 0xFFFFFFFF00000000
  else none

/-- The value written, at its place in the register. -/
def accessValue (off value : Nat) : Word := BitVec.ofNat 64 (if off % 8 = 4 then value % 2 ^ 32 * 2 ^ 32 else value)

/-! ### What a write does to a field -/

/-- The fields whose writes are commands of their own. -/
def ownCommand : List Field :=
  [F.TURN_CTRL.ENABLE, F.TURN_CTRL.LEAVE, F.FAB_NODE.NODE, F.FAB_LINK_CTRL.ENABLE, F.FAB_LINK_CTRL.RESET, F.HG_CTRL.ENABLE,
   F.HG_DROP_BASE.ADDR, F.HQ_CONTROL.LEASE_MS, F.HQ_Q_CTRL.ENABLE, F.NVM_PORT_CFG.ENABLE, F.PIM_DQ_TAIL.TAIL, F.FUR_CQ_TAIL.TAIL,
   F.MTR_CONSUMED.CONSUMED]

/-- The enumerated fields with reserved codes, and their highest defined code: a write of a reserved code leaves the field (R395). -/
def enumTop : List (Field × Nat) := [(F.TURN_JOB.SOURCE, 2), (F.FAB_LINK_CFG.PRECODE, 2), (F.NVM_EXT_CFG.KIND, 2)]

/-- A value outside a field's stated range is taken as the nearest limit (R461). -/
def Field.clamp (f : Field) (v : Nat) : Nat :=
  match f.rng with
  | some (lo, hi) => max lo (min hi v)
  | none => v

/-- A field's code is reserved. -/
def Field.reservedCode (f : Field) (v : Nat) : Bool := enumTop.any fun x => decide (x.1 = f) && decide (v > x.2)

/-- The fields of a host queue that a write leaves while the queue's ENABLE is 1 (R354). -/
def Device.queueHeld (d : Device) (f : Field) (i : Nat) : Bool :=
  ([F.HQ_Q_CTRL.KIND, F.HQ_Q_CTRL.LOG2_SIZE, F.HQ_Q_CTRL.ENGINE].contains f) && d.on F.HQ_Q_CTRL.ENABLE i

/-- A write to one field under its access code (R10): `val` and `mask` are the register's bits as written and which of them the
access covers. -/
def Device.writeField (i : Nat) (val mask : Word) (d : Device) (f : Field) : Device :=
  if f.mask &&& mask = 0 ∨ ownCommand.contains f = true then d
  else
    match f.acc with
    | .rw =>
      let x := f.get ((d.reg f.reg i &&& ~~~mask) ||| (val &&& mask))
      if f.reservedCode x || d.queueHeld f i then d else d.setFld f (f.clamp x) i
    | .w1c => d.setReg f.reg i (d.reg f.reg i &&& ~~~(val &&& mask &&& f.mask))
    | .st =>
      let x := f.get ((d.stagedReg f.reg i &&& ~~~mask) ||| (val &&& mask))
      if f.reservedCode x then d else d.setStaged f.reg i (f.set (d.stagedReg f.reg i) x)
    | _ => d

/-- The registers that hold a host address, which goes through the PF that wrote it (R349). -/
def Reg.isHostAddr : Reg → Bool
  | .ROTA_SUBMIT_ADDR | .PIM_DQ_BASE | .FUR_CQ_BASE | .SCR_CMD_ADDR | .SLU_EV_BASE | .FAB_ROUTE_LOAD_ADDR | .WEIR_TEL_BASE
  | .HQ_FLUME_BASE | .NVM_ADMIN_ADDR | .HQ_Q_BASE | .HQ_Q_CPL_BASE | .CFG_CENSUS_BASE | .CFG_CMD_ADDR | .SEC_CMD_ADDR | .MTR_FW_ADDR
  | .ERR_RING_BASE => true
  | _ => false

/-- What a write to a register does beside its fields: the PF of a host address is kept; a write of ENABLE clears the STOPPED of its
command ring (Tables 6.17, 7.16); a reserved OPCODE written to SEC_CMD ends INVALID (R405). -/
def Device.afterWrite (d : Device) (port : Nat) (r : Reg) (i : Nat) (val mask : Word) : Device :=
  let d := if r.isHostAddr then { d with host.writer := sput 0 d.host.writer (regKey r i) (port + 1) } else d
  let opcode := F.SEC_CMD.OPCODE.get val
  if r = .SEC_CMD ∧ mask.getLsbD 0 = true ∧ (opcode = 0 ∨ opcode > 8) then d.secBegin port opcode 0 true true id
  else if mask.getLsbD 31 then
    match r with
    | .FUR_CQ_CTRL => d.setFld F.FUR_CQ_HEAD.STOPPED 0
    | .PIM_DQ_CTRL => d.setFld F.PIM_DQ_HEAD.STOPPED 0
    | _ => d
  else d

/-- A write that a register takes. -/
def Device.writeReg (d : Device) (port : Nat) (r : Reg) (i : Nat) (val mask : Word) : Device :=
  if d.part.absent r i then d
  else (r.fields.foldl (Device.writeField i val mask) d).afterWrite port r i val mask

/-! ### Doorbells and MSI-X tables (R347, R348) -/

/-- The doorbell that an access of a function begins in: the TAIL or CONSUMED of a host queue (false), or a CANCEL doorbell (true). -/
def doorbellAt (fn : Fn) (bar off : Nat) : Option Bool :=
  if fn.vf ≠ 0 then (if bar = 0 ∧ off < 8 then some true else none)
  else if bar ≠ 2 then none
  else if off < 0x100000 then (if off % 0x1000 < 16 then some false else none)
  else if off < 0x100008 then some true
  else none

/-- Count a write that a doorbell ignores since it is no naturally aligned 64-bit write (R348, R359). -/
def Device.doorbellIgnored (d : Device) (cancel : Bool) : Device :=
  (if cancel then d.count F.HQ_STATS.CANCEL_IGNORED else d).count F.HQ_STATS.DOORBELL_IGNORED

/-- The first 32-bit word of an MSI-X table that an access lies at: word n of the PFs' table, or of a VF's (log entry 157). -/
def msixAt (fn : Fn) (bar off : Nat) : Option Nat :=
  if fn.vf ≠ 0 then
    (if bar = 0 ∧ 0x1000 ≤ off ∧ off < 0x1400 then some ((fn.port * 32 + fn.vf) * 8192 + (off - 0x1000) / 4) else none)
  else if bar = 2 ∧ 0xE00000 ≤ off ∧ off < 0xE08000 then some ((off - 0xE00000) / 4)
  else none

/-- What a word of an MSI-X table holds after reset: the Mask bit of Vector Control is set, the rest is 0. -/
def msixReset (n : Nat) : Nat := if n % 4 = 3 then 1 else 0

/-- A word of an MSI-X table. -/
def Device.msixWord (d : Device) (n : Nat) : Nat := sget (msixReset n) d.host.msix n

/-- Write words of an MSI-X table: the low address bits and the reserved bits of Vector Control stay 0. -/
def Device.writeMsix (d : Device) (n size value : Nat) : Device :=
  (List.range (size / 4)).foldl (fun (d : Device) k =>
    let m := n + k
    let w := value / 2 ^ (32 * k) % 2 ^ 32
    let w := if m % 4 = 0 then w / 4 * 4 else if m % 4 = 3 then w % 2 else w
    { d with host.msix := sput (msixReset m) d.host.msix m w }) d

/-- A naturally aligned 64-bit write of a doorbell: that of CANCEL, TAIL or CONSUMED (R348, R355, R359). -/
def Device.doorbell (d : Device) (fn : Fn) (cancel : Bool) (off value : Nat) : Device :=
  if cancel then cancelEff fn value true d
  else if off % 0x1000 = 0 then hqTailEff (off / 0x1000) value d
  else hqConsumedEff (off / 0x1000) value d

/-- A write that reaches no register: a doorbell's, or one to an MSI-X table. -/
def Device.otherWrite (d : Device) (fn : Fn) (bar off size value : Nat) : Device :=
  match doorbellAt fn bar off, msixAt fn bar off with
  | some c, _ => if size = 8 ∧ off % 8 = 0 then d.doorbell fn c off value else d.doorbellIgnored c
  | none, some n => if (accessMask off size).isSome then d.writeMsix n size value else d
  | none, none => d

/-- A write to a BAR of a PF. -/
def registerWriteEff (port bar off size value : Nat) (d : Device) : Device :=
  let at_ := off / 8 * 8
  match accessMask off size, regAt bar at_ with
  | some mask, some (r, i) =>
    let eff := fun (d : Device) => d.writeReg port r i (accessValue off value) mask
    if bar = 4 then eff d
    else if r = .HQ_CONTROL then d
    else d.asHolder port eff ((decide (0x200000 ≤ at_) && decide (at_ < 0x400000)) || (decide (0x2000000 ≤ at_) && decide (at_ < 0x2400000)))
  | some _, none => if bar = 4 then d else d.asHolder port (fun d => d.otherWrite ⟨port, 0⟩ bar off size value) true
  | none, _ => if (doorbellAt ⟨port, 0⟩ bar off).isSome then d.asHolder port (fun d => d.otherWrite ⟨port, 0⟩ bar off size value) true else d

/-- REGISTER_WRITE (R9, R10, R351): a VF has no register but its doorbell and its MSI-X table (R347). -/
def execRegisterWrite (fn : Fn) (bar off size value : Nat) (s : State) : Host.Outcome State Fault Refusal :=
  s.act fun d =>
    if fn.vf ≠ 0 then (if d.barClosed then d else d.otherWrite fn bar off size value) else registerWriteEff fn.port bar off size value d

/-! ### Reads -/

/-- The registers that a read finds while steps 3 and 4 run (R428). -/
def Reg.openInReset : Reg → Bool
  | .ID_REV | .FEATURE | .ERR_RESET_STATUS | .RIDE_STATUS => true
  | _ => false

/-- The registers that a read finds in BOOT_FAIL (R401). -/
def Reg.openInFail : Reg → Bool
  | .ID_REV | .FEATURE | .HQ_CONTROL | .SEC_STATUS | .SEC_KEY_POLICY | .SEC_KEYS_USED | .SEC_CMD_ADDR | .SEC_CMD | .SEC_CMD_STATUS
  | .SEC_CTRL | .SEC_EVENTS | .SEC_KEY_ID => true
  | _ => false

/-- The time left of the lease, ms, rounded down; 0 with none or lapsed. -/
def Device.leaseLeft (d : Device) : Nat :=
  let ms := d.fld F.HQ_CONTROL.LEASE_MS
  if d.holder.isNone || ms == 0 || d.on F.HQ_CONTROL.LAPSED then 0 else (d.host.leaseFrom + ms * 1000000 - d.now) / 1000000

/-- HEARTBEAT of the metergate: it has advanced every 1 ms since its firmware began to run (Table 17.17). -/
def Device.mtrHeartbeat (d : Device) : Nat :=
  if d.fld F.MTR_STATUS.STATE = 1 ∨ d.fld F.MTR_STATUS.STATE = 3 then (d.now - d.mtr.runFrom) / 1000000 % 65536 else 0

/-- What a read finds in BAR4 beside its registers (R420): the certificates, and the records of this boot; a reserved range reads
zero, as does a place of the ring that holds no record. -/
def Device.bar4Bytes (d : Device) (off size : Nat) : List Byte :=
  (List.range size).map fun i =>
    let a := off + i
    if 0x1000 ≤ a ∧ a < 0x2000 then (certificateWindow d.part.uid).getD (a - 0x1000) 0
    else if 0x80000 ≤ a ∧ a < 0x100000 then (sget [] d.mtr.ring ((a - 0x80000) / 512)).getD ((a - 0x80000) % 512) 0
    else 0

/-- What a read finds in BAR2: the MSI-X table; doorbells, the pending bits and the rest read zero (R348). -/
def Device.bar2Bytes (d : Device) (off size : Nat) : List Byte :=
  match msixAt ⟨0, 0⟩ 2 off with
  | some n => (List.range (size / 4)).flatMap fun k => leBytes 4 (d.msixWord (n + k))
  | none => List.replicate size 0

/-- The value that a read of a register copy finds: write-only fields read 0 (Table 0.3). -/
def Device.readValue (d : Device) (bar : Nat) (r : Reg) (i : Nat) : Word :=
  let shut := bar == 0 && ((d.err.running.any fun l => decide (l.step ≥ 3)) && !r.openInReset ||
    d.on F.ERR_RESET_STATUS.FATAL || d.fld F.RIDE_STATUS.STATE == 4 && !r.openInFail)
  if shut then 0
  else
    let v := d.reg r i
    let v := r.fields.foldl (fun v f => if f.acc = .wo then v &&& ~~~f.mask else v) v
    if r = .HQ_CONTROL then F.HQ_CONTROL.REMAINING_MS.set v d.leaseLeft
    else if r = .MTR_STATUS then F.MTR_STATUS.HEARTBEAT.set v d.mtrHeartbeat
    else v

/-- The RC fields that a read covers take their reset value, in the bits that it returned (R10). -/
def Device.readClears (d : Device) (r : Reg) (i : Nat) (mask : Word) : Device :=
  r.fields.foldl (fun (d : Device) f =>
    if f.acc = .rc then
      let m := f.mask &&& mask
      d.setReg r i ((d.reg r i &&& ~~~m) ||| (regReset d.part r i &&& m))
    else d) d

/-- A read by a PF: what it returns, of a register or of BAR4's windows, and the RC fields that the holder's read clears (R351). A read that returns zero because BAR0 is
shut clears nothing. -/
def rcReadEff (port bar off size : Nat) (d : Device) : Device :=
  let at_ := off / 8 * 8
  let zeros := List.replicate size (0 : Byte)
  match accessMask off size, regAt bar at_ with
  | some mask, some (r, i) =>
    let bytes := (leBytes 8 (d.readValue bar r i).toNat).drop (off % 8) |>.take size
    let d := d.emit (.readReturn ⟨port, 0⟩ bar off bytes)
    if d.holder = some port ∧ d.barClosed = false ∧ d.fld F.RIDE_STATUS.STATE ≠ 4 then d.readClears r i mask else d
  | some _, none => d.emit (.readReturn ⟨port, 0⟩ bar off (if bar = 4 then d.bar4Bytes off size else if bar = 2 then d.bar2Bytes off size else zeros))
  | none, _ => d.emit (.readReturn ⟨port, 0⟩ bar off zeros)

/-- What a read of a VF finds: its MSI-X table; its doorbell and the rest read zero (R347, R348). -/
def Device.vfBytes (d : Device) (fn : Fn) (bar off size : Nat) : List Byte :=
  match accessMask off size, msixAt fn bar off with
  | some _, some n => (List.range (size / 4)).flatMap fun k => leBytes 4 (d.msixWord (n + k))
  | _, _ => List.replicate size 0

/-- RC_FIELD_READ (R10); at step 5 of the ladder every read returns zero (R428). -/
def execRcFieldRead (at_ : Nat) (fn : Fn) (bar off size : Nat) (s : State) : Host.Outcome State Fault Refusal :=
  s.pin fun d =>
    if d.pwr.off || d.pwr.held || d.pwr.tripped then d
    else if d.pwr.fatal then d.emit (.readReturn fn bar off (List.replicate size 0))
    else if fn.vf ≠ 0 then d.emit (.readReturn fn bar off (d.vfBytes fn bar off size))
    else rcReadEff fn.port bar off size (d.at_ at_)

end Sys2Proof.Machine
end

