-- ==== Sys2Proof/Machine/Dispatch.lean ====
section
/-! DEFINITION. Sys2Proof/Machine/Dispatch.lean: one arm per command. -/

namespace Sys2Proof.Machine

/-- The effect of a command on everything but the queue. -/
def exec (i : Instr) (s : State) : Host.Outcome State Fault Refusal :=
      match i with
      | .localTurnStart at_ examined sent table bad => Sys2Proof.Machine.execLocalTurnStart at_ examined sent table bad s
      | .turnRootTimerTick at_ => Sys2Proof.Machine.execTurnRootTimerTick at_ s
      | .turnInEdge at_ => Sys2Proof.Machine.execTurnInEdge at_ s
      | .idleTimerTick at_ => Sys2Proof.Machine.execIdleTimerTick at_ s
      | .marker at_ port m => Sys2Proof.Machine.execMarker at_ port m s
      | .markerTolExpiry at_ => Sys2Proof.Machine.execMarkerTolExpiry at_ s
      | .pinLagExpiry at_ => Sys2Proof.Machine.execPinLagExpiry at_ s
      | .admitTimeExpiry => Sys2Proof.Machine.execAdmitTimeExpiry s
      | .deadline at_ => Sys2Proof.Machine.execDeadline at_ s
      | .sealSend => Sys2Proof.Machine.execSealSend s
      | .sealMsg port m => Sys2Proof.Machine.execSealMsg port m s
      | .sealCutoffExpiry => Sys2Proof.Machine.execSealCutoffExpiry s
      | .commitVerdict at_ m consumed => Sys2Proof.Machine.execCommitVerdict at_ m consumed s
      | .abortVerdict at_ m => Sys2Proof.Machine.execAbortVerdict at_ m s
      | .localAbort at_ => Sys2Proof.Machine.execLocalAbort at_ s
      | .turnEnable port value => Sys2Proof.Machine.execTurnEnable port value s
      | .turnLeave port => Sys2Proof.Machine.execTurnLeave port s
      | .turnCommit port at_ => Sys2Proof.Machine.execTurnCommit port at_ s
      | .rotaSubmit port count => Sys2Proof.Machine.execRotaSubmit port count s
      | .rotaFetchDone bytes ok => Sys2Proof.Machine.execRotaFetchDone bytes ok s
      | .entryStart plot core => Sys2Proof.Machine.execEntryStart plot core s
      | .lds insn => Sys2Proof.Machine.execLds insn s
      | .mma insn => Sys2Proof.Machine.execMma insn s
      | .accr insn part fmt => Sys2Proof.Machine.execAccr insn part fmt s
      | .attn insn op => Sys2Proof.Machine.execAttn insn op s
      | .vop insn op bf16 => Sys2Proof.Machine.execVop insn op bf16 s
      | .vtr insn f => Sys2Proof.Machine.execVtr insn f s
      | .cvt insn src dst => Sys2Proof.Machine.execCvt insn src dst s
      | .coreLd insn file => Sys2Proof.Machine.execCoreLd insn file s
      | .coreSt insn file => Sys2Proof.Machine.execCoreSt insn file s
      | .mld insn => Sys2Proof.Machine.execMld insn s
      | .mst insn => Sys2Proof.Machine.execMst insn s
      | .mat insn => Sys2Proof.Machine.execMat insn s
      | .xput insn => Sys2Proof.Machine.execXput insn s
      | .xwait insn => Sys2Proof.Machine.execXwait insn s
      | .append insn => Sys2Proof.Machine.execAppend insn s
      | .coreBar insn => Sys2Proof.Machine.execCoreBar insn s
      | .coreSend insn => Sys2Proof.Machine.execCoreSend insn s
      | .coreRecv insn => Sys2Proof.Machine.execCoreRecv insn s
      | .scalar insn op => Sys2Proof.Machine.execScalar insn op s
      | .endEntry plot core => Sys2Proof.Machine.execEndEntry plot core s
      | .queryPost slot draft => Sys2Proof.Machine.execQueryPost slot draft s
      | .selectionPost slot draft => Sys2Proof.Machine.execSelectionPost slot draft s
      | .plotReset port plot => Sys2Proof.Machine.execPlotReset port plot s
      | .plotResetDone plot => Sys2Proof.Machine.execPlotResetDone plot s
      | .memoryAccess at_ addr len owner write pfq data parity => Sys2Proof.Machine.execMemoryAccess at_ addr len owner write pfq data parity s
      | .mr4Read k rate => Sys2Proof.Machine.execMr4Read k rate s
      | .refreshDue k bank issue => Sys2Proof.Machine.execRefreshDue k bank issue s
      | .windowOpen at_ => Sys2Proof.Machine.execWindowOpen at_ s
      | .enteringDone k rate => Sys2Proof.Machine.execEnteringDone k rate s
      | .windowEnd k => Sys2Proof.Machine.execWindowEnd k s
      | .exitDone k at_ => Sys2Proof.Machine.execExitDone k at_ s
      | .clearingDone k => Sys2Proof.Machine.execClearingDone k s
      | .pimRank k q scans host parity badAt badBank => Sys2Proof.Machine.execPimRank k q scans host parity badAt badBank s
      | .swrite k q host parity badBank => Sys2Proof.Machine.execSwrite k q host parity badBank s
      | .sread k q parity badBank => Sys2Proof.Machine.execSread k q parity badBank s
      | .sclear k q => Sys2Proof.Machine.execSclear k q s
      | .pimFence k q => Sys2Proof.Machine.execPimFence k q s
      | .pimDqTailWrite port tail => Sys2Proof.Machine.execPimDqTailWrite port tail s
      | .pimDqFetch bytes => Sys2Proof.Machine.execPimDqFetch bytes s
      | .furCqTailWrite port tail => Sys2Proof.Machine.execFurCqTailWrite port tail s
      | .furCreate bytes => Sys2Proof.Machine.execFurCreate bytes s
      | .furDestroy bytes => Sys2Proof.Machine.execFurDestroy bytes s
      | .destroyComplete => Sys2Proof.Machine.execDestroyComplete s
      | .furSet bytes => Sys2Proof.Machine.execFurSet bytes s
      | .furRead bytes => Sys2Proof.Machine.execFurRead bytes s
      | .codedFrameReady page parity => Sys2Proof.Machine.execCodedFrameReady page parity s
      | .reservoirMerge id => Sys2Proof.Machine.execReservoirMerge id s
      | .rankRequest m => Sys2Proof.Machine.execRankRequest m s
      | .rankReply m => Sys2Proof.Machine.execRankReply m s
      | .rankCutExpiry at_ => Sys2Proof.Machine.execRankCutExpiry at_ s
      | .fetchCutExpiry at_ => Sys2Proof.Machine.execFetchCutExpiry at_ s
      | .fetchDone page ok tries => Sys2Proof.Machine.execFetchDone page ok tries s
      | .furrowRead m tries parity => Sys2Proof.Machine.execFurrowRead m tries parity s
      | .spillwayEvict pool pick => Sys2Proof.Machine.execSpillwayEvict pool pick s
      | .moveDone page refused => Sys2Proof.Machine.execMoveDone page refused s
      | .openSlot q cmd image entry header => Sys2Proof.Machine.execOpenSlot q cmd image entry header s
      | .closeSlot q cmd => Sys2Proof.Machine.execCloseSlot q cmd s
      | .slotSet q cmd image => Sys2Proof.Machine.execSlotSet q cmd image s
      | .slotRead q cmd ok => Sys2Proof.Machine.execSlotRead q cmd ok s
      | .slotPause at_ q cmd => Sys2Proof.Machine.execSlotPause at_ q cmd s
      | .slotResume at_ q cmd => Sys2Proof.Machine.execSlotResume at_ q cmd s
      | .tokBuffer q cmd => Sys2Proof.Machine.execTokBuffer q cmd s
      | .bufferAdd q cmd => Sys2Proof.Machine.execBufferAdd q cmd s
      | .prefillStagingDone slot tokens ok => Sys2Proof.Machine.execPrefillStagingDone slot tokens ok s
      | .samplerTarget slot lists table bad => Sys2Proof.Machine.execSamplerTarget slot lists table bad s
      | .draftStep slot lists table bad => Sys2Proof.Machine.execDraftStep slot lists table bad s
      | .samplerHeads slot lists table bad => Sys2Proof.Machine.execSamplerHeads slot lists table bad s
      | .scrLoad port handle bytes header => Sys2Proof.Machine.execScrLoad port handle bytes header s
      | .loadFetchDone parity => Sys2Proof.Machine.execLoadFetchDone parity s
      | .scrRetire port handle => Sys2Proof.Machine.execScrRetire port handle s
      | .screenUpdate index parity => Sys2Proof.Machine.execScreenUpdate index parity s
      | .scrubTick at_ hwBad resBad => Sys2Proof.Machine.execScrubTick at_ hwBad resBad s
      | .cancelDoorbell at_ fn value aligned => Sys2Proof.Machine.execCancelDoorbell at_ fn value aligned s
      | .flumeInterruptTest at_ => Sys2Proof.Machine.execFlumeInterruptTest at_ s
      | .hostError req => Sys2Proof.Machine.execHostError req s
      | .sluCopy e c host seen again parity => Sys2Proof.Machine.execSluCopy e c host seen again parity s
      | .sluWrite e c host seen parity => Sys2Proof.Machine.execSluWrite e c host seen parity s
      | .sluRead e c => Sys2Proof.Machine.execSluRead e c s
      | .sluAtomic e c => Sys2Proof.Machine.execSluAtomic e c s
      | .sluFlush e c => Sys2Proof.Machine.execSluFlush e c s
      | .flashRead e c at_ => Sys2Proof.Machine.execFlashRead e c at_ s
      | .flashWrite e c at_ host seen parity => Sys2Proof.Machine.execFlashWrite e c at_ host seen parity s
      | .signalWord e c parity => Sys2Proof.Machine.execSignalWord e c parity s
      | .waitValue e c host parity => Sys2Proof.Machine.execWaitValue e c host parity s
      | .waitValueTimeout e c => Sys2Proof.Machine.execWaitValueTimeout e c s
      | .allocFrame e c => Sys2Proof.Machine.execAllocFrame e c s
      | .freeFrame e c => Sys2Proof.Machine.execFreeFrame e c s
      | .registerRegion e c host parity => Sys2Proof.Machine.execRegisterRegion e c host parity s
      | .revokeRegion e c => Sys2Proof.Machine.execRevokeRegion e c s
      | .revokeComplete region => Sys2Proof.Machine.execRevokeComplete region s
      | .sluiceSend e c => Sys2Proof.Machine.execSluiceSend e c s
      | .sluNop e c => Sys2Proof.Machine.execSluNop e c s
      | .packetReceived at_ link p sameJob parity => Sys2Proof.Machine.execPacketReceived at_ link p sameJob parity s
      | .writeMessage m parity => Sys2Proof.Machine.execWriteMessage m parity s
      | .readReq m host seen parity => Sys2Proof.Machine.execReadReq m host seen parity s
      | .readResp m parity => Sys2Proof.Machine.execReadResp m parity s
      | .atomicReq m parity => Sys2Proof.Machine.execAtomicReq m parity s
      | .atomicResp m => Sys2Proof.Machine.execAtomicResp m s
      | .ackMsg m => Sys2Proof.Machine.execAckMsg m s
      | .nackMsg m => Sys2Proof.Machine.execNackMsg m s
      | .odpFault m => Sys2Proof.Machine.execOdpFault m s
      | .sendMessage m => Sys2Proof.Machine.execSendMessage m s
      | .retransmitTimeout msgId host seen => Sys2Proof.Machine.execRetransmitTimeout msgId host seen s
      | .reassemblyTimeout src msgId => Sys2Proof.Machine.execReassemblyTimeout src msgId s
      | .memoryExpiry src msgId => Sys2Proof.Machine.execMemoryExpiry src msgId s
      | .faultDelayExpiry msgId host seen => Sys2Proof.Machine.execFaultDelayExpiry msgId host seen s
      | .odpPageReady region page tries => Sys2Proof.Machine.execOdpPageReady region page tries s
      | .sluFlushStart port node => Sys2Proof.Machine.execSluFlushStart port node s
      | .engineReset port e => Sys2Proof.Machine.execEngineReset port e s
      | .hello m => Sys2Proof.Machine.execHello m s
      | .offer m => Sys2Proof.Machine.execOffer m s
      | .dataMsg m => Sys2Proof.Machine.execDataMsg m s
      | .accept m => Sys2Proof.Machine.execAccept m s
      | .grant m => Sys2Proof.Machine.execGrant m s
      | .release m => Sys2Proof.Machine.execRelease m s
      | .refuse m => Sys2Proof.Machine.execRefuse m s
      | .ownerQ m => Sys2Proof.Machine.execOwnerQ m s
      | .ownerIs m => Sys2Proof.Machine.execOwnerIs m s
      | .claimReq m => Sys2Proof.Machine.execClaimReq m s
      | .pushMsg m => Sys2Proof.Machine.execPushMsg m s
      | .pushAck m => Sys2Proof.Machine.execPushAck m s
      | .withdraw m => Sys2Proof.Machine.execWithdraw m s
      | .handoffTimeout furrow => Sys2Proof.Machine.execHandoffTimeout furrow s
      | .queryTurnsExpiry furrow => Sys2Proof.Machine.execQueryTurnsExpiry furrow s
      | .transferTimeout furrow at_ => Sys2Proof.Machine.execTransferTimeout furrow at_ s
      | .homeOpen q cmd => Sys2Proof.Machine.execHomeOpen q cmd s
      | .homeClose q cmd => Sys2Proof.Machine.execHomeClose q cmd s
      | .hoMove q cmd => Sys2Proof.Machine.execHoMove q cmd s
      | .hoPark q cmd => Sys2Proof.Machine.execHoPark q cmd s
      | .hoClaim q cmd => Sys2Proof.Machine.execHoClaim q cmd s
      | .hoQuery q cmd => Sys2Proof.Machine.execHoQuery q cmd s
      | .recordQuery q cmd ok => Sys2Proof.Machine.execRecordQuery q cmd ok s
      | .linkEnable port link value => Sys2Proof.Machine.execLinkEnable port link value s
      | .linkReset port link => Sys2Proof.Machine.execLinkReset port link s
      | .signalDetected link => Sys2Proof.Machine.execSignalDetected link s
      | .trainDone link laneFault reversed => Sys2Proof.Machine.execTrainDone link laneFault reversed s
      | .alignDone link => Sys2Proof.Machine.execAlignDone link s
      | .trainTimeout link => Sys2Proof.Machine.execTrainTimeout link s
      | .holdoffExpiry link => Sys2Proof.Machine.execHoldoffExpiry link s
      | .paramFlit link flit => Sys2Proof.Machine.execParamFlit link flit s
      | .dataFlit link flit => Sys2Proof.Machine.execDataFlit link flit s
      | .turnFlit link flit => Sys2Proof.Machine.execTurnFlit link flit s
      | .idleFlit link flit => Sys2Proof.Machine.execIdleFlit link flit s
      | .replayTimeout link => Sys2Proof.Machine.execReplayTimeout link s
      | .turnReplayTimeout link => Sys2Proof.Machine.execTurnReplayTimeout link s
      | .replayLimit link => Sys2Proof.Machine.execReplayLimit link s
      | .peerTraining link => Sys2Proof.Machine.execPeerTraining link s
      | .fecFailure link => Sys2Proof.Machine.execFecFailure link s
      | .noFlit link => Sys2Proof.Machine.execNoFlit link s
      | .packetTransmit at_ cls => Sys2Proof.Machine.execPacketTransmit at_ cls s
      | .fabNodeWrite port node => Sys2Proof.Machine.execFabNodeWrite port node s
      | .routeLoad port bytes => Sys2Proof.Machine.execRouteLoad port bytes s
      | .routeLoadDone image ok => Sys2Proof.Machine.execRouteLoadDone image ok s
      | .armRoute port => Sys2Proof.Machine.execArmRoute port s
      | .armImmediate port => Sys2Proof.Machine.execArmImmediate port s
      | .drainWindowEnd => Sys2Proof.Machine.execDrainWindowEnd s
      | .routeHoldExpiry at_ => Sys2Proof.Machine.execRouteHoldExpiry at_ s
      | .routingNotice payload host => Sys2Proof.Machine.execRoutingNotice payload host s
      | .hgEnable port value => Sys2Proof.Machine.execHgEnable port value s
      | .hgDropBaseWrite port addr => Sys2Proof.Machine.execHgDropBaseWrite port addr s
      | .weirRefill at_ => Sys2Proof.Machine.execWeirRefill at_ s
      | .weirCommit port => Sys2Proof.Machine.execWeirCommit port s
      | .telemetrySample at_ ages => Sys2Proof.Machine.execTelemetrySample at_ ages s
      | .holderClaim at_ port => Sys2Proof.Machine.execHolderClaim at_ port s
      | .leaseRenew port at_ => Sys2Proof.Machine.execLeaseRenew port at_ s
      | .holderRelease port => Sys2Proof.Machine.execHolderRelease port s
      | .leaseWrite port at_ ms => Sys2Proof.Machine.execLeaseWrite port at_ ms s
      | .leaseLapse at_ => Sys2Proof.Machine.execLeaseLapse at_ s
      | .portLost port cause => Sys2Proof.Machine.execPortLost port cause s
      | .vfFlr fn disabled => Sys2Proof.Machine.execVfFlr fn disabled s
      | .hqQEnable port q value => Sys2Proof.Machine.execHqQEnable port q value s
      | .hqTail port q tail => Sys2Proof.Machine.execHqTail port q tail s
      | .hqConsumed port q count => Sys2Proof.Machine.execHqConsumed port q count s
      | .sluiceFetch q bytes => Sys2Proof.Machine.execSluiceFetch q bytes s
      | .nvmPortEnable port root value => Sys2Proof.Machine.execNvmPortEnable port root value s
      | .rootLinkUp root rate width flitMode accepted => Sys2Proof.Machine.execRootLinkUp root rate width flitMode accepted s
      | .rootLinkTimeout root => Sys2Proof.Machine.execRootLinkTimeout root s
      | .rootInitDone root spaces trim => Sys2Proof.Machine.execRootInitDone root spaces trim s
      | .rootInitTimeout root => Sys2Proof.Machine.execRootInitTimeout root s
      | .rootLinkDown root => Sys2Proof.Machine.execRootLinkDown root s
      | .nvmPortReset port root => Sys2Proof.Machine.execNvmPortReset port root s
      | .rootResetDone root => Sys2Proof.Machine.execRootResetDone root s
      | .nvmeCompletion at_ root entry => Sys2Proof.Machine.execNvmeCompletion at_ root entry s
      | .ioTimeout root id => Sys2Proof.Machine.execIoTimeout root id s
      | .adminTimeout root => Sys2Proof.Machine.execAdminTimeout root s
      | .controllerDma root addr bytes write data => Sys2Proof.Machine.execControllerDma root addr bytes write data s
      | .nvmAdminStart port root block ok => Sys2Proof.Machine.execNvmAdminStart port root block ok s
      | .profileSwitch port slot => Sys2Proof.Machine.execProfileSwitch port slot s
      | .profileSwitchDone flashOk hostTook nvmeTook => Sys2Proof.Machine.execProfileSwitchDone flashOk hostTook nvmeTook s
      | .slotWrite port slot bytes => Sys2Proof.Machine.execSlotWrite port slot bytes s
      | .slotWriteDone image sections hostOk flashOk => Sys2Proof.Machine.execSlotWriteDone image sections hostOk flashOk s
      | .censusStart port scope first last => Sys2Proof.Machine.execCensusStart port scope first last s
      | .censusQuery payload => Sys2Proof.Machine.execCensusQuery payload s
      | .censusReply payload => Sys2Proof.Machine.execCensusReply payload s
      | .censusEnd => Sys2Proof.Machine.execCensusEnd s
      | .keyGenerate port slot rsvd => Sys2Proof.Machine.execKeyGenerate port slot rsvd s
      | .keyExport port slot manager onCurve rsvd hostOk => Sys2Proof.Machine.execKeyExport port slot manager onCurve rsvd hostOk s
      | .keyImport port slot record rsvd hostOk => Sys2Proof.Machine.execKeyImport port slot record rsvd hostOk s
      | .keyRetire port slot rsvd => Sys2Proof.Machine.execKeyRetire port slot rsvd s
      | .attest port nonce rsvd hostOk => Sys2Proof.Machine.execAttest port nonce rsvd hostOk s
      | .identityCmd port rsvd hostOk => Sys2Proof.Machine.execIdentityCmd port rsvd hostOk s
      | .fwWrite port slot bytes image rsvd hostOk flashOk => Sys2Proof.Machine.execFwWrite port slot bytes image rsvd hostOk flashOk s
      | .fwFloor port rsvd => Sys2Proof.Machine.execFwFloor port rsvd s
      | .metergateStart => Sys2Proof.Machine.execMetergateStart s
      | .intervalClose => Sys2Proof.Machine.execIntervalClose s
      | .tallyNow port => Sys2Proof.Machine.execTallyNow port s
      | .mtrClose port => Sys2Proof.Machine.execMtrClose port s
      | .periodClose => Sys2Proof.Machine.execPeriodClose s
      | .recordSign => Sys2Proof.Machine.execRecordSign s
      | .mtrConsumedWrite port value => Sys2Proof.Machine.execMtrConsumedWrite port value s
      | .metergateFwChange port bytes image hostOk flashOk => Sys2Proof.Machine.execMetergateFwChange port bytes image hostOk flashOk s
      | .fwDrainTimeout => Sys2Proof.Machine.execFwDrainTimeout s
      | .meterQuery payload => Sys2Proof.Machine.execMeterQuery payload s
      | .resetRequest port kind domain index => Sys2Proof.Machine.execResetRequest port kind domain index s
      | .resetStepDone kind domain index flashOk => Sys2Proof.Machine.execResetStepDone kind domain index flashOk s
      | .resetStepTimeout kind domain index answers => Sys2Proof.Machine.execResetStepTimeout kind domain index answers s
      | .riderHeartbeat => Sys2Proof.Machine.execRiderHeartbeat s
      | .watchdog => Sys2Proof.Machine.execWatchdog s
      | .watchdogNoReturn => Sys2Proof.Machine.execWatchdogNoReturn s
      | .dumpNow port => Sys2Proof.Machine.execDumpNow port s
      | .dumpRelease port => Sys2Proof.Machine.execDumpRelease port s
      | .pushNow port hostOk flashOk => Sys2Proof.Machine.execPushNow port hostOk flashOk s
      | .retentionPush hostOk flashOk => Sys2Proof.Machine.execRetentionPush hostOk flashOk s
      | .sentClear port => Sys2Proof.Machine.execSentClear port s
      | .fingerprint m => Sys2Proof.Machine.execFingerprint m s
      | .pwrgoodAssert held => Sys2Proof.Machine.execPwrgoodAssert held s
      | .pwrgoodDeassert => Sys2Proof.Machine.execPwrgoodDeassert s
      | .perst0Assert => Sys2Proof.Machine.execPerst0Assert s
      | .perst0Deassert prof flashOk => Sys2Proof.Machine.execPerst0Deassert prof flashOk s
      | .perst1Assert => Sys2Proof.Machine.execPerst1Assert s
      | .perst1Deassert => Sys2Proof.Machine.execPerst1Deassert s
      | .supplyFault rail => Sys2Proof.Machine.execSupplyFault rail s
      | .sensorSample at_ x => Sys2Proof.Machine.execSensorSample at_ x s
      | .vcoreOvercurrent rail => Sys2Proof.Machine.execVcoreOvercurrent rail s
      | .idleStepTick at_ => Sys2Proof.Machine.execIdleStepTick at_ s
      | .registerWrite fn bar off size value => Sys2Proof.Machine.execRegisterWrite fn bar off size value s
      | .rcFieldRead at_ fn bar off size => Sys2Proof.Machine.execRcFieldRead at_ fn bar off size s
      | .flitBoundary link => Sys2Proof.Machine.execFlitBoundary link s
      | .hostLinkTrained port rate lanes flitMode vfs => Sys2Proof.Machine.execHostLinkTrained port rate lanes flitMode vfs s
      | .rfmRequest k bank => Sys2Proof.Machine.execRfmRequest k bank s

end Sys2Proof.Machine
end

