-- ==== Sys2Proof/Safety.lean ====
section
/-! DEFINITION. Sys2Proof/Safety.lean: the terms in which the statements speak of states: when the device carries out a PF's write, what
a frame is, and the invariant of a state between commands. -/

namespace Sys2Proof

/-- A little-endian field of a message's bytes. -/
def Msg.num (m : Msg) (o n : Nat) : Nat := leValue ((m.data.drop o).take n)

end Sys2Proof

namespace Sys2Proof.Machine

/-- The device lives and carries out what a PF writes to BAR0 or BAR2 through a port: no step 3 or 4 runs, that PF is the holder, and no
profile switch runs (R351, R385, R428). -/
abbrev Device.accepts (d : Device) (port : Nat) : Prop :=
  d.dead = false ∧ d.barClosed = false ∧ d.holder = some port ∧ d.fld F.CFG_STATUS.STATE ≠ 2

/-- No byte of memory differs between two devices, and every register but those named is the same in every copy. -/
def Device.framed (d e : Device) (rs : List Reg) : Prop :=
  (∀ a, e.byte a = d.byte a) ∧ ∀ r j, j < 0x10000 → r ∉ rs → e.reg r j = d.reg r j

/-- A state with another device, the writes of that device landed in its memory. -/
def State.put (s : State) (d : Device) : State := { s with dev := { d with mem := Memory.land s.dev.mem d.wr, wr := [] } }

/-- What holds of a state between commands: memory is in its canonical form and no command's write waits to land. -/
abbrev State.settled (s : State) : Prop := Memory.wf s.dev.mem = true ∧ s.dev.wr = []

/-- A state between commands on a device that carries commands out. -/
abbrev State.awake (s : State) : Prop := s.settled ∧ s.dev.dead = false

/-- A state between commands on a device that carries out what a PF writes through a port. -/
abbrev State.takes (s : State) (port : Nat) : Prop := s.settled ∧ s.dev.accepts port

/-- A state between commands on a device that carries out what a PF writes to the CFG_ and HQ_ blocks through a port, which a profile
switch leaves open (R385). -/
abbrev State.takesOpen (s : State) (port : Nat) : Prop :=
  s.settled ∧ s.dev.dead = false ∧ s.dev.barClosed = false ∧ s.dev.holder = some port

/-- A state between commands in which the core of an instruction runs an entry and does not wait, and no register of the core fails
its parity check. -/
abbrev State.runs (s : State) (i : CoreInsn) (a : Admitted) : Prop :=
  s.awake ∧ (s.dev.running? i fun _ => false) = some a ∧ i.parity < 5

/-- The core of an instruction. -/
def State.coreOf (s : State) (i : CoreInsn) : Core := s.dev.core i.plot i.core

/-- The device once what an instruction reads has passed its parity check: a replay that cured it is counted. -/
def Device.replayed (d : Device) (i : CoreInsn) : Device := if i.parity = 0 then d else d.count F.ERR_COUNTS.REPLAYED

/-- A context that a core's instruction opens on its plot's engine for an operation, and the device with it. -/
def State.coreOpens (s : State) (i : CoreInsn) (x : Desc) : Option (Nat × Device) :=
  s.dev.openCtx (coreEngine i.plot) x (.core i.plot i.core (s.coreOf i).run ((s.coreOf i).entry.getD 0) s.dev.turnNo) ⟨0, 0⟩

/-- A state between commands in which a context of a sluice engine holds a descriptor of an opcode that may start now: none before it in its
program holds it back or stops it, and no access of it waits for a window to close (R130, R251). -/
abbrev State.begins (s : State) (e c op : Nat) (x : SluCtx) : Prop :=
  s.awake ∧ s.dev.ctx e c = some x ∧ x.desc.opcode = op ∧ x.started = false ∧ x.done = false ∧ s.dev.mayStart x = true ∧
    s.dev.stoppedBy x = false ∧ s.dev.descWaits x.desc = false

/-- The device once a SLUICE queue's next descriptor has been read into its program (R251, R356). -/
def Device.descTaken (d : Device) (q : Nat) (desc : Desc) : Device :=
  let b := d.hqTake q
  { b.setHq q { b.hq q with reserved := (b.hq q).reserved + 2 } with slu.progs := if desc.chain then d.slu.progs else sput 0 d.slu.progs q (sget 0 d.slu.progs q + 1), slu.progLen := sput 0 d.slu.progLen q (if desc.chain then sget 0 d.slu.progLen q + 1 else 0) }

/-- A context opened for a descriptor of a SLUICE queue, and the device with it. -/
def Device.descOpened (d : Device) (q : Nat) (desc : Desc) : Option (Nat × Device) :=
  (d.descTaken q desc).openCtx (d.fld F.HQ_Q_CTRL.ENGINE q) desc
    (.hostQ q (d.fld F.HQ_Q_STATUS.HEAD q) (sget 0 d.slu.progs q) (sget 0 d.slu.progLen q)) ⟨(d.ringFn .HQ_Q_BASE q).port, desc.func⟩

/-- The device that acts on an admitted request: the message is off its engine's list, counted at its region, and its bytes are counted. -/
def Device.admitted (d : Device) (m : Sys2Proof.Msg) : Device := ((d.take m).hold m.hdr.region).gotOwn m

/-- The device with a context's descriptor marked as started. -/
def Device.ctxBegun (d : Device) (e c : Nat) : Device := d.modCtx e c fun y => { y with started := true }

/-- A state between commands in which a window is open on a channel and the command it runs next, of a queue, is one that it carries
out; `list` is a RANK's page list. -/
abbrev State.inWindow (s : State) (k q opcode : Nat) (w : PimWin) (x : PimCmd) (list : List Byte) : Prop :=
  s.awake ∧ s.dev.chMode k = 2 ∧ (s.dev.chan k).win = some w ∧ w.heat = false ∧ s.dev.nextPim k = some (q, x) ∧ x.opcode = opcode ∧
    (s.dev.pimBegun x).pimRefused k q x list = false ∧ (s.dev.pimBegun x).pimOwner k x list = none

/-- No failed message of the handoff logic waits to be acted on, and no transfer waits for the writes that place its pages. -/
abbrev Device.hoSettled (d : Device) : Prop := d.ho.failed = [] ∧ ∀ x ∈ d.ho.locals, (x.2.rx.any fun r => r.placing) = false

/-- A state between commands, in a turn, in which no handoff work stands over and a handoff message of a TYPE, of this device's version,
names the furrow of descriptor `k` (R283, R286, R299). -/
abbrev State.hears (s : State) (m : Sys2Proof.Msg) (ty k : Nat) : Prop :=
  s.awake ∧ s.dev.hoSettled ∧ s.dev.isShadow = false ∧ s.dev.fld F.TURN_STATUS.STATE ≠ 0 ∧ m.num 14 1 = ty ∧ m.num 15 1 = 0x10 ∧
    s.dev.furById (m.num 8 4) = some k

/-- A state between commands in which a handoff command of some bytes, about descriptor `k`, stands at the head of a queue. -/
abbrev State.hoFront (s : State) (q k : Nat) (cmd : List Byte) : Prop :=
  s.awake ∧ s.dev.hoSettled ∧ q < 256 ∧ s.dev.hqFront q 3 = true ∧ s.dev.furById (HandoffCmd.ofBytes cmd).furrow = some k

/-- The handoff command at the head of a queue. -/
def Device.frontCmd (d : Device) (q : Nat) (cmd : List Byte) : HoCmd :=
  { q := q, index := d.fld F.HQ_Q_STATUS.HEAD q, port := (d.ringFn .HQ_Q_BASE q).port, addr := (HandoffCmd.ofBytes cmd).addr,
    opcode := (HandoffCmd.ofBytes cmd).opcode, op := d.ho.nextOp }

/-- A state between commands in which a slot command stands at the head of a SLOT queue and may be processed. -/
abbrev State.slotFront (s : State) (q : Nat) : Prop := s.awake ∧ q < 256 ∧ s.dev.atBoundary = true ∧ s.dev.hqFront q 1 = true

/-- The device once the boundary's own effects are done and a queue's entry is taken. -/
def Device.taken (d : Device) (q : Nat) : Device := d.boundary.hqTake q

/-- The device when the slot command of a queue has left it in a state with a RESULT. -/
def Device.slotEnds (d : Device) (q : Nat) (e : Device) (result : Nat) : Device :=
  e.slotDone q (d.boundary.fld F.HQ_Q_STATUS.HEAD q) result

/-- The commands that reach a dead device too: the pins, a sensor sample, and a read (which a dead device answers with zeros or not at
all). -/
def reachesDead : Instr → Bool
  | .pwrgoodAssert _ | .pwrgoodDeassert | .perst0Assert | .perst0Deassert _ _ | .perst1Assert | .perst1Deassert | .sensorSample _ _
  | .rcFieldRead _ _ _ _ _ => true
  | _ => false

/-- The metergate's own commands, but for the firmware change, which reads host memory, and the audit query, which sends. -/
def metering : Instr → Bool
  | .metergateStart | .intervalClose | .tallyNow _ | .mtrClose _ | .periodClose | .recordSign | .mtrConsumedWrite _ _ | .fwDrainTimeout => true
  | _ => false

/-- Commands that touch no memory: writes of single registers and queue indices but those of a CANCEL doorbell, refreshes and mode reads, censuses, the security
commands, the metergate's, samples and clock steps. -/
def keepsMemory : Instr → Bool
  | .leaseRenew _ _ | .leaseWrite _ _ _ | .hqTail _ _ _ | .hqConsumed _ _ _ | .pimDqTailWrite _ _ | .furCqTailWrite _ _
  | .refreshDue _ _ _ | .rfmRequest _ _ | .mr4Read _ _ | .windowOpen _
  | .profileSwitch _ _ | .slotWrite _ _ _ | .censusStart _ _ _ _ | .censusQuery _ | .censusReply _ | .censusEnd
  | .keyGenerate _ _ _ | .keyExport _ _ _ _ _ _ | .keyImport _ _ _ _ _ | .keyRetire _ _ _ | .attest _ _ _ _ | .identityCmd _ _ _
  | .fwFloor _ _ | .meterQuery _ | .riderHeartbeat | .dumpRelease _ | .sentClear _ | .supplyFault _ | .sensorSample _ _
  | .vcoreOvercurrent _ | .idleStepTick _ | .rcFieldRead _ _ _ _ _ | .perst1Deassert => true
  | .registerWrite fn bar off _ _ => doorbellAt fn bar off != some true
  | c => metering c

end Sys2Proof.Machine
end

