-- ==== Sys2Proof/Certificates/Slice0/Obligations.lean ====
section
/-! DEFINITION. Sys2Proof/Certificates/Slice0/Obligations.lean: the statements for the provers, one definition each. -/

open Sys2Proof Sys2Proof.Machine

/-- Written by the PF that holds control: ENABLE 1 in IDLE, with a TURN_COMMIT applied, an image active and the metergate not being
updated, makes TURN_STATUS.STATE 1 and ENABLE 1 with no turn started yet, and changes no other register and no memory; otherwise it
changes nothing. LEAVE, and ENABLE 0, mark the device as leaving at the next turn boundary and change nothing else; in IDLE they change
nothing. (R53, R389.) -/
def Obligations.EnableAndLeave : Prop :=
  ∀ (s : State) (port : Nat), s.takes port →
    (s.dev.fld F.TURN_STATUS.STATE = 0 → s.dev.turn.applied = true → s.dev.cfg.image.isNone = false → s.dev.mtrState ≠ 3 →
      ∃ t, exec (.turnEnable port true) s = .next t ∧ t.dev.fld F.TURN_STATUS.STATE = 1 ∧ t.dev.fld F.TURN_CTRL.ENABLE = 1 ∧
        t.dev.turn.started = false ∧ s.dev.framed t.dev [.TURN_STATUS, .TURN_CTRL]) ∧
    ((s.dev.fld F.TURN_STATUS.STATE ≠ 0 ∨ s.dev.turn.applied = false ∨ s.dev.cfg.image.isNone = true ∨ s.dev.mtrState = 3) →
      exec (.turnEnable port true) s = .next s) ∧
    (s.dev.fld F.TURN_STATUS.STATE ≠ 0 →
      exec (.turnEnable port false) s = .next { s with dev := { s.dev with turn.leaving := true } } ∧
      exec (.turnLeave port) s = .next { s with dev := { s.dev with turn.leaving := true } }) ∧
    (s.dev.fld F.TURN_STATUS.STATE = 0 → exec (.turnEnable port false) s = .next s ∧ exec (.turnLeave port) s = .next s)

/-- A TURN_COMMIT write through the holder's PF: with a fault in the staged values it leaves STAGE_RESULT 3, the lowest faulty offset in
CFG_STAGE_FAULT.OFFSET and TURN_EVENTS.PAIR_MISMATCH 1, and the snapshot that waits is as it was; without one, while IDLE or before the
first turn, STAGE_RESULT is 2; otherwise STAGE_RESULT is 1 and the snapshot of the staged values waits. (R388, R389.) -/
def Obligations.TurnCommitStages : Prop :=
  ∀ (s : State) (port at_ : Nat), s.takes port →
    (∀ off, lowest (turnFaults (s.dev.at_ at_) (Device.applySnap false s.dev.staged (s.dev.at_ at_))) = some off →
      ∃ t, exec (.turnCommit port at_) s = .next t ∧ t.dev.fld F.TURN_STATUS.STAGE_RESULT = 3 ∧
        t.dev.fld F.CFG_STAGE_FAULT.OFFSET = off % 2 ^ F.CFG_STAGE_FAULT.OFFSET.w ∧ t.dev.fld F.TURN_EVENTS.PAIR_MISMATCH = 1 ∧
        t.dev.snapTurn = s.dev.snapTurn ∧ s.dev.framed t.dev [.TURN_STATUS, .CFG_STAGE_FAULT, .TURN_EVENTS]) ∧
    (lowest (turnFaults (s.dev.at_ at_) (Device.applySnap false s.dev.staged (s.dev.at_ at_))) = none →
      (s.dev.idleForCommit = true → ∃ t, exec (.turnCommit port at_) s = .next t ∧ t.dev.fld F.TURN_STATUS.STAGE_RESULT = 2) ∧
      (s.dev.idleForCommit = false → ∃ t, exec (.turnCommit port at_) s = .next t ∧ t.dev.fld F.TURN_STATUS.STAGE_RESULT = 1 ∧
        t.dev.snapTurn = some s.dev.staged ∧ s.dev.framed t.dev [.TURN_STATUS]))

/-- ROTA_SUBMIT through the holder's PF with a COUNT of 1 to 8,192 puts ROTA_STATUS.FETCH at 1, sends one host read of 32 bytes an entry
from ROTA_SUBMIT_ADDR and empties the bank that takes fetches; another COUNT puts FETCH at 3. The end of a fetch puts FETCH at 3, with a
host error, on an error, FETCH at 3 for a turn already started, and otherwise FETCH at 2 with the bank holding the entries of Table 2.5
that the bytes spell, complete, for the submitted turn. Nothing else changes. (R33, R43.) -/
def Obligations.RotaSubmitAndFetch : Prop :=
  (∀ (s : State) (port count : Nat), s.takes port →
    (count = 0 ∨ count > 8192 → exec (.rotaSubmit port count) s = .next (s.put (s.dev.setFld F.ROTA_STATUS.FETCH 3))) ∧
    (0 < count → count ≤ 8192 →
      let w := sget 0 s.dev.host.writer (regKey .ROTA_SUBMIT_ADDR 0)
      let fn : Fn := ⟨if w = 0 then port else w - 1, 0⟩
      exec (.rotaSubmit port count) s = .next (s.put (((({ s.dev with turn.fetch := some (count, s.dev.fld F.ROTA_SUBMIT_TURN.TURN, fn) } : Device).setOtherRota {}).setFld
        F.ROTA_STATUS.FETCH 1).emit (.hostRead fn (s.dev.fld F.ROTA_SUBMIT_ADDR.ADDR * 32) (32 * count)))))) ∧
  (∀ (s : State) (es : List Byte) (count turn : Nat) (fn : Fn), s.awake → s.dev.turn.fetch = some (count, turn, fn) →
    exec (.rotaFetchDone es false) s =
      .next (s.put (({ s.dev with turn.fetch := none } : Device).setFld F.ROTA_STATUS.FETCH 3).hostErr) ∧
    (s.dev.turn.started = true → s.dev.inJob = true → s.dev.turn.due = none → turn ≤ s.dev.turnNo →
      exec (.rotaFetchDone es true) s = .next (s.put (({ s.dev with turn.fetch := none } : Device).setFld F.ROTA_STATUS.FETCH 3))) ∧
    (s.dev.turn.started = false ∨ s.dev.inJob = false ∨ turn > s.dev.turnNo →
      exec (.rotaFetchDone es true) s = .next (s.put ((({ s.dev with turn.fetch := none } : Device).setOtherRota
        { turn := turn, complete := true, entries := rotaEntries es count }).setFld F.ROTA_STATUS.FETCH 2))))

/-- On a device that is RUNNING: the first marker of its job from its marker parent makes the turn with the marker's number due, at once
(a source other than PIN); the root's timer tick makes a turn due at the tick, numbered TURN_START.START when the device has not begun; an
edge of TURN_IN, which lies in its window, makes a turn due at the root, and elsewhere completes a marker that came before it, or waits
for the marker; a marker not come within MARKER_TOL makes the next turn due at the expected time; one not come within PIN_LAG of the edge
makes it due at the edge. (R22, R25, R26, R462.) -/
def Obligations.TurnStartsBecomeDue : Prop :=
  ∀ (s : State) (at_ : Nat), s.awake → s.dev.running = true →
    (∀ port m, m.jobId = s.dev.fld F.TURN_JOB.JOB_ID → s.dev.on F.TURN_JOB.TURN_ROOT = false → port = s.dev.fld F.TURN_TREE.MARKER_PARENT →
      s.dev.fld F.TURN_JOB.SOURCE ≠ 1 → s.dev.turn.started = false → s.dev.turn.due = none → s.dev.turn.startEdge = none →
      ∃ t x, exec (.marker at_ port m) s = .next t ∧ t.dev.turn.due = some x ∧ x.turn = m.turn ∧ x.at_ = max s.dev.now at_ ∧
        t.dev.turn.started = true) ∧
    (s.dev.on F.TURN_JOB.TURN_ROOT = true → s.dev.fld F.TURN_JOB.SOURCE = 2 →
      (s.dev.turn.started = true → s.dev.turn.expected ≤ max s.dev.now at_) →
      ∃ t x, exec (.turnRootTimerTick at_) s = .next t ∧ t.dev.turn.due = some x ∧ x.at_ = max s.dev.now at_ ∧
        (s.dev.begun = false → s.dev.turn.live = false → x.turn = s.dev.fld F.TURN_START.START ∧ x.admits = true)) ∧
    (s.dev.fld F.TURN_JOB.SOURCE = 1 → (s.dev.at_ at_).tolOver = false → (s.dev.at_ at_).edgeTaken = true → s.dev.turn.startEdge = none →
      (s.dev.on F.TURN_JOB.TURN_ROOT = true → ∃ t x, exec (.turnInEdge at_) s = .next t ∧ t.dev.turn.due = some x ∧
        x.at_ = max s.dev.now at_) ∧
      (s.dev.on F.TURN_JOB.TURN_ROOT = false → s.dev.turn.pinMarker = none → ∃ t, exec (.turnInEdge at_) s = .next t ∧
        t.dev.turn = { s.dev.turn with startEdge := some (max s.dev.now at_) } ∧ s.dev.framed t.dev []) ∧
      (∀ m, s.dev.on F.TURN_JOB.TURN_ROOT = false → s.dev.turn.pinMarker = some m → ∃ t x, exec (.turnInEdge at_) s = .next t ∧
        t.dev.turn.due = some x ∧ x.turn = m.turn ∧ x.at_ = max s.dev.now at_)) ∧
    ((s.dev.at_ at_).tolOver = true → (s.dev.on F.TURN_JOB.TURN_ROOT && s.dev.fld F.TURN_JOB.SOURCE == 2) = false →
      ∃ t x, exec (.markerTolExpiry at_) s = .next t ∧ t.dev.turn.due = some x ∧ x.turn = s.dev.knownTurn + 1 ∧
        x.at_ = s.dev.turn.expected ∧ x.admits = false) ∧
    (∀ e, s.dev.turn.startEdge = some e → e + s.dev.fld F.TURN_TOL.PIN_LAG ≤ max s.dev.now at_ → s.dev.turn.started = true →
      ∃ t x, exec (.pinLagExpiry at_) s = .next t ∧ t.dev.turn.due = some x ∧ x.turn = s.dev.knownTurn + 1 ∧ x.at_ = e ∧ x.admits = false)

/-- With a turn start due and no entry of the rota examined in time, LOCAL_TURN_START makes TURN_NUMBER.CURRENT the number of that turn,
live from its moment, with nothing due any more; on a device that leaves, TURN_STATUS.STATE and TURN_CTRL.ENABLE become 0 and TURN_OUT
pulses. A tick of the free-running timer while IDLE that is due counts as taken, and the timer runs on. (R28, R30, R53.) -/
def Obligations.LocalTurnStartBegins : Prop :=
  (∀ (s : State) (at_ : Nat) (x : DueStart), s.awake → s.dev.turn.due = some x →
    (s.dev.turn.leaving = false →
      ∀ table bad, ∃ t, exec (.localTurnStart at_ 0 [] table bad) s = .next t ∧ t.dev.fld F.TURN_NUMBER.CURRENT = x.turn % 2 ^ F.TURN_NUMBER.CURRENT.w ∧
        t.dev.turn.live = true ∧ t.dev.turn.due = none ∧ t.dev.turn.start = x.at_ ∧ t.dev.turn.verdict = 0) ∧
    (s.dev.turn.leaving = true →
      ∀ k sent table bad, ∃ t, exec (.localTurnStart at_ k sent table bad) s = .next t ∧ t.dev.fld F.TURN_STATUS.STATE = 0 ∧ t.dev.turn.due = none ∧
        t.dev.turn.leaving = false ∧ t.dev.out.getLast? = some (.turnOut x.at_))) ∧
  (∀ (s : State) (at_ : Nat), s.awake → s.dev.fld F.TURN_STATUS.STATE = 0 → s.dev.turn.live = false →
    s.dev.turn.idleOwed = none → s.dev.turn.leaving = false → s.dev.nextTick ≤ max s.dev.now at_ →
    ∃ t, exec (.idleTimerTick at_) s = .next t ∧ t.dev.turn.idleSeen = s.dev.nextTick ∧ t.dev.turn.idleFrom = s.dev.turn.idleFrom)

/-- In a live turn with entries of the rota not examined, ADMIT_TIME_EXPIRY puts TURN_STATUS.PHASE at 2, and defers those entries; in a
live turn at or after its deadline, DEADLINE puts PHASE at 3; LOCAL_ABORT, when P − C has come in a RUNNING turn without a verdict or
decision, makes LAST_VERDICT 3 and the device HALTED. (R32, R44, R49.) -/
def Obligations.AdmissionAndDeadlinePhases : Prop :=
  ∀ (s : State), s.awake → s.dev.turn.live = true →
    (s.dev.turn.unexamined ≠ [] → ∃ t, exec .admitTimeExpiry s = .next t ∧ t.dev.fld F.TURN_STATUS.PHASE = 2 ∧ t.dev.turn.unexamined = [] ∧
      t.dev.turn.deferred = s.dev.turn.deferred + s.dev.turn.unexamined.length) ∧
    (∀ at_, (s.dev.at_ at_).deadlineAt ≤ max s.dev.now at_ → ∃ t, exec (.deadline at_) s = .next t ∧ t.dev.fld F.TURN_STATUS.PHASE = 3) ∧
    (s.dev.running = true → s.dev.turn.verdict = 0 → s.dev.turn.decided = none → s.dev.turn.admitted = [] →
      ∀ at_, ∃ t, exec (.localAbort at_) s = .next t ∧ t.dev.fld F.TURN_STATUS.STATE = 2 ∧ t.dev.fld F.TURN_STATUS.LAST_VERDICT = 3 ∧
        t.dev.fld F.TURN_STATUS.LAST_REASON = 7 ∧ t.dev.turn.verdict = 3 ∧ t.dev.turn.lost = s.dev.turnNo :: s.dev.turn.lost)

/-- SEAL_SEND, when the device may seal and every part is in, counts the seal as sent, and at the seal root decides COMMIT exactly when
nothing failed and the count is JOB_SIZE. A SEAL of the job and turn from a child not heard is kept. SEAL_CUTOFF_EXPIRY at a root that may
still seal makes the decision. A COMMIT the device awaits leaves LAST_VERDICT 1 and EXCL_COUNT at its number of tags; an ABORT it awaits
leaves LAST_VERDICT 2, its reason, and the device HALTED. (R47, R48, R52, R53.) -/
def Obligations.SealAndVerdicts : Prop :=
  ∀ (s : State), s.awake →
    (s.dev.maySeal = true → s.dev.sealReady = true → ∃ t, exec .sealSend s = .next t ∧ t.dev.turn.sealSent = true ∧
      (s.dev.on F.TURN_JOB.SEAL_ROOT = true → ∃ m, t.dev.turn.decided =
        some (!s.dev.mergedSeal.fail && s.dev.mergedSeal.count == s.dev.fld F.TURN_JOB.JOB_SIZE, m))) ∧
    (∀ port m, m.jobId = s.dev.fld F.TURN_JOB.JOB_ID → s.dev.turn.live = true → m.turn = s.dev.turnNo → s.dev.unheard.contains port = true →
      ∃ t, exec (.sealMsg port m) s = .next t ∧ t.dev.turn.heard = s.dev.turn.heard ++ [(port, m)]) ∧
    (s.dev.maySeal = true → s.dev.on F.TURN_JOB.SEAL_ROOT = true →
      ∃ t, exec .sealCutoffExpiry s = .next t ∧ t.dev.turn.decided.isSome = true ∧ t.dev.turn.sealSent = true) ∧
    (∀ at_ m consumed, m.jobId = s.dev.fld F.TURN_JOB.JOB_ID → s.dev.awaits m = true → s.dev.turn.lost.contains m.turn = false →
      s.dev.turn.decided = none →
      (∃ t, exec (.commitVerdict at_ m consumed) s = .next t ∧ t.dev.fld F.TURN_STATUS.LAST_VERDICT = 1 ∧
        t.dev.fld F.TURN_STATUS.EXCL_COUNT = m.excl.length % 2 ^ F.TURN_STATUS.EXCL_COUNT.w) ∧
      (∃ t, exec (.abortVerdict at_ m) s = .next t ∧ t.dev.turn.verdict = 2 ∧ t.dev.fld F.TURN_STATUS.LAST_VERDICT = 2 ∧
        t.dev.fld F.TURN_STATUS.LAST_REASON = m.reason % 2 ^ F.TURN_STATUS.LAST_REASON.w ∧ t.dev.fld F.TURN_STATUS.STATE = 2))

/-- On a core that runs an entry and does not wait, with no register fault: VOP other than a reduction writes its 32 lanes, each by the
lane operation, into v[A]; a reduction writes the one value of the reduction, of FP32 lanes or of BF16 halves, into every lane, a sum
drawing a free value; VTR writes the function of each lane of v[B], and SINCOSPI the cosines after the sines; CVT and ACCR write the
converted elements of v[B] and of the accumulators, and refuse an unknown format as illegal. Each then retires: the program counter moves
by 8, LAST_PC and MAX_GAP are kept, and the plot's floating-point status takes what saturated or made a NaN. With a register that fails
its parity check each is uncorrectable at once instead. (R57, R59, R60, R64, R70, R421.) -/
def Obligations.VectorInstructionsRetire : Prop :=
  (∀ (s : State) (i : CoreInsn) (a : Admitted), s.runs i a →
    (∀ op bf, op ≠ .sum → op ≠ .maxAll → op ≠ .minAll →
      let out := (List.range 32).map (fun n => laneOp op bf (((s.coreOf i).vreg i.a).getD n 0) (((s.coreOf i).vreg i.b).getD n 0)
        (((s.coreOf i).vreg i.c).getD n 0))
      exec (.vop i op bf) s = .next (s.put ((s.dev.fpStatus i.plot 0 (vopNan op bf out)).retire i (min i.cycles 4)
        ((s.coreOf i).setLanes (32 * i.a) out)))) ∧
    (∀ op bf, op = .sum ∨ op = .maxAll ∨ op = .minAll →
      let x := reduceReg op s.dev.freeCount
        (if bf then ((s.coreOf i).vreg i.b).flatMap (fun y => [widen y, widen (y / 65536)]) else (s.coreOf i).vreg i.b)
      exec (.vop i op bf) s = .next (s.put (((if op = .sum then s.dev.drew else s.dev).fpStatus i.plot 0 (nan32 x)).retire i (min i.cycles 4)
        ((s.coreOf i).setLanes (32 * i.a) (List.replicate 32 x))))) ∧
    (∀ f,
      let out := ((s.coreOf i).vreg i.b).map (vfunApply f false) ++
        (if f = .sincospi then ((s.coreOf i).vreg i.b).map (vfunApply f true) else [])
      exec (.vtr i f) s = .next (s.put ((s.dev.fpStatus i.plot 0 (out.any nan32)).retire i (min i.cycles 4)
        ((s.coreOf i).setLanes (32 * i.a) out)))) ∧
    (∀ src dst f g, fmtOf src = some f → fmtOf dst = some g → ∀ ls sat nan,
      packValues g i.nonsat (((s.coreOf i).elems i.b f.bits 32).map fun e =>
        f.scaledValue e (((s.coreOf i).elems i.b 8 (4 * f.bits + 1)).getD (4 * f.bits) 0)) = (ls, sat, nan) →
      exec (.cvt i src dst) s =
        .next (s.put ((s.dev.fpStatus i.plot sat nan).retire i (min i.cycles 8) ((s.coreOf i).setLanes (32 * i.a) ls)))) ∧
    (∀ src dst, fmtOf src = none ∨ fmtOf dst = none → exec (.cvt i src dst) s = .next (s.put (s.dev.refuse i 0x12))) ∧
    (∀ part fmt f, fmtOf fmt = some f → ∀ ls sat nan,
      packValues f i.nonsat ((s.coreOf i).accValues part i.a (min i.c 64)) = (ls, sat, nan) → exec (.accr i part fmt) s =
        .next (s.put ((s.dev.fpStatus i.plot sat nan).retire i (min i.cycles 32) ((s.coreOf i).setLanes (32 * i.b) ls)))) ∧
    (∀ part fmt, fmtOf fmt = none → exec (.accr i part fmt) s = .next (s.put (s.dev.refuse i 3)))) ∧
  (∀ (s : State) (i : CoreInsn) (a : Admitted), s.awake → (s.dev.running? i fun _ => false) = some a → 5 ≤ i.parity →
    ∀ c ∈ [Instr.vop i .add false, .vtr i .exp2, .cvt i 0 8, .accr i .acc 8, .scalar i .move, .lds i, .mma i, .coreLd i .vector,
      .coreSt i .vector, .mld i, .mst i, .mat i, .xput i, .append i, .coreSend i, .coreRecv i, .coreBar i],
      exec c s = .next (s.put (s.dev.coreUncorrectable i 1 0 0 [(4, 0)] false)))

/-- On a core that runs an entry and does not wait, with no register fault, a scalar operation other than a branch or loop writes its
value into s[A] and retires; a branch, and a conditional branch on a register that is not 0, put the program counter at the target; a
conditional branch on 0 only retires; a loop counts s[A] down, wrapping at 64 bits, and branches while it is not 0. (R70.) -/
def Obligations.ScalarInstructionsRetire : Prop :=
  ∀ (s : State) (i : CoreInsn) (a : Admitted), s.runs i a →
    (∀ op, (∀ t, op ≠ .branch t ∧ op ≠ .branchIf t ∧ op ≠ .loop t) → exec (.scalar i op) s = .next (s.put (s.dev.retire i 1
      ((s.coreOf i).setS i.a (scalarValue op ((s.coreOf i).sreg i.b) ((s.coreOf i).sreg i.c)))))) ∧
    (∀ t,
      let goes := fun (d : Device) => d.setCore i.plot i.core { d.core i.plot i.core with pc := t }
      let counted := (s.coreOf i).setS i.a ((s.coreOf i).sreg i.a - 1)
      exec (.scalar i (.branch t)) s = .next (s.put (goes (s.dev.retire i 1 (s.coreOf i)))) ∧
      ((s.coreOf i).sreg i.a ≠ 0 → exec (.scalar i (.branchIf t)) s = .next (s.put (goes (s.dev.retire i 1 (s.coreOf i))))) ∧
      ((s.coreOf i).sreg i.a = 0 → exec (.scalar i (.branchIf t)) s = .next (s.put (s.dev.retire i 1 (s.coreOf i)))) ∧
      ((s.coreOf i).sreg i.a = 1 → exec (.scalar i (.loop t)) s = .next (s.put (s.dev.retire i 1 ((s.coreOf i).setS i.a 0)))) ∧
      (1 < (s.coreOf i).sreg i.a → (s.coreOf i).sreg i.a < 2 ^ 64 → exec (.scalar i (.loop t)) s = .next (s.put (goes (s.dev.retire i 1 counted)))) ∧
      ((s.coreOf i).sreg i.a = 0 → exec (.scalar i (.loop t)) s = .next (s.put (goes (s.dev.retire i 1 ((s.coreOf i).setS i.a (2 ^ 64 - 1)))))))

/-- On a core that runs an entry and does not wait, with no register fault: LD whose range lies in whole words of headwater and in its
register file puts the bytes into the registers and retires; ST stores the registers' bytes at its address, which latches a post that they
complete, and retires; a bad range is refused as an illegal instruction. LDS of a good tensor reference makes its rows the stationary
vectors, by its format, lanes and length. A parity error that a replay clears is counted in ERR_COUNTS.REPLAYED and changes nothing else;
one that three replays do not clear is uncorrectable. (R67, R70, R102, R103, R113.) -/
def Obligations.LoadsAndStoresRetire : Prop :=
  ∀ (s : State) (i : CoreInsn) (a : Admitted), s.runs i a →
    (∀ file, ldstBad file i.a ((s.coreOf i).sreg i.b) i.c = true →
      exec (.coreLd i file) s = .next (s.put (s.dev.refuse i 0x20)) ∧ exec (.coreSt i file) s = .next (s.put (s.dev.refuse i 0x21))) ∧
    (∀ file, ldstBad file i.a ((s.coreOf i).sreg i.b) i.c = false → i.parity ≤ 3 →
      exec (.coreLd i file) s = .next (s.put ((s.dev.replayed i).retire i (ceilDiv i.c 128)
        ((s.coreOf i).loadRegs file i.a ((s.dev.replayed i).bytes ((s.coreOf i).sreg i.b) i.c)))) ∧
      exec (.coreSt i file) s = .next (s.put ((((s.dev.replayed i).store ((s.coreOf i).sreg i.b)
        ((s.coreOf i).regBytes file i.a i.c)).notePosts (s.dev.replayed i) ((s.coreOf i).sreg i.b) i.c).retire i (ceilDiv i.c 64) (s.coreOf i)))) ∧
    (∀ file, ldstBad file i.a ((s.coreOf i).sreg i.b) i.c = false → 3 < i.parity →
      exec (.coreLd i file) s = .next (s.put (s.dev.coreUncorrectable i 1 3 ((s.coreOf i).sreg i.b) [(4, 0)])) ∧
      exec (.coreSt i file) s = .next (s.put (s.dev.coreUncorrectable i 1 3 ((s.coreOf i).sreg i.b) [(4, 0)]))) ∧
    (∀ f bs, fmtOf ((s.coreOf i).tref i.a).fmt = some f → (s.coreOf i).trefBad i.a (i.b * ((s.coreOf i).tref i.a).row) = false →
      0 < i.b → i.b ≤ 16 →
      ((s.coreOf i).tref i.a).row * f.bits ≤ 32768 → ((s.coreOf i).tref i.a).fmt ≠ 0xA → ((s.coreOf i).tref i.a).fmt ≠ 0xC → i.parity ≤ 3 →
      (s.dev.replayed i).trefBytes ((s.coreOf i).tref i.a) f.bits (i.b * ((s.coreOf i).tref i.a).row) = .ok bs →
      exec (.lds i) s = .next (s.put ((s.dev.replayed i).retire i (ceilDiv (i.b * ((s.coreOf i).tref i.a).row * f.bits) 1024)
        ((s.dev.replayed i).stationary (s.coreOf i) ((s.coreOf i).tref i.a) f i.b bs))))

/-- On a core that runs an entry and does not wait, with no register fault and no parity error: MMA of a good tensor reference whose
format pairs with the stationary one streams its rows into the accumulators in at most 1,536 cycles and retires, its accumulators INT32
exactly for a pair of integers; a pair of formats that the unit does not have is refused as illegal; ATTN of an entry that attends, on the
core that the page-list entry goes to, with formats that pair, reads the page as it stands or expanded, takes the block into m, l and o of
each query head, and retires in the cycles of its block; without a page list it is refused as illegal (log entry 33). (R62, R65, R70, R75,
log 33.) -/
def Obligations.MatrixAndAttentionRetire : Prop :=
  ∀ (s : State) (i : CoreInsn) (a : Admitted), s.runs i a →
    (∀ f g e kind bs, fmtOf ((s.coreOf i).tref i.a).fmt = some f → fmtOf (s.coreOf i).statFmt = some g →
      pairOf ((s.coreOf i).tref i.a).fmt (s.coreOf i).statFmt = some (e, kind) →
      (s.coreOf i).trefBad i.a (i.b * ((s.coreOf i).tref i.a).row) = false →
      i.b * ceilDiv ((s.coreOf i).tref i.a).row e ≤ 1536 → i.c + i.b ≤ 64 → i.parity ≤ 3 →
      (s.dev.replayed i).trefBytes ((s.coreOf i).tref i.a) f.bits (i.b * ((s.coreOf i).tref i.a).row) = .ok bs →
      let st := (s.dev.replayed i).mmaStream (s.coreOf i) ((s.coreOf i).tref i.a) f g e kind i.b i.c bs
      exec (.mma i) s = .next (s.put (((s.dev.replayed i).mmaCounts i.plot i.b i.c kind st).retire i
          (i.b * ceilDiv ((s.coreOf i).tref i.a).row e) { st.1 with accInt := kind == .int }))) ∧
    (pairOf ((s.coreOf i).tref i.a).fmt (s.coreOf i).statFmt = none → exec (.mma i) s = .next (s.put (s.dev.refuse i 2))) ∧
    (∀ op, s.dev.fur.attend.find? (fun y => y.entry == a.index) = none → exec (.attn i op) s = .next (s.put (s.dev.refuse i 4))) ∧
    (∀ op x h f g e kind bs, s.dev.fur.attend.find? (fun y => y.entry == a.index) = some x → s.dev.headEntry i.plot op.head = h →
      fmtOf (s.dev.furrow x.desc).fmt = some f →
      fmtOf op.qfmt = some g → pairOf (s.dev.furrow x.desc).fmt op.qfmt = some (e, kind) → op.r ≤ 256 → i.parity ≤ 3 →
      attnCycles op.r (headDim (s.dev.furrow x.desc)) e h.qPerKv ≤ 1536 → h.plot = i.plot → h.coreOf i.b = i.core →
      (s.dev.replayed i).pageAt
        (bitsOf (s.dev.load (x.listAddr + 2048 * streamOf (s.dev.furrow x.desc) h + 8 * i.b) 8) 48 16 * frameBytes)
        (bitsOf (s.dev.load (x.listAddr + 2048 * streamOf (s.dev.furrow x.desc) h + 8 * i.b) 8) 20 11)
        (512 * headDim (s.dev.furrow x.desc) * elemBytes (s.dev.furrow x.desc).fmt) = .ok bs →
      let st := (s.dev.replayed i).attnHeads (s.coreOf i) f g e kind (headDim (s.dev.furrow x.desc)) h.qPerKv i.a op bs
      exec (.attn i op) s = .next (s.put (((s.dev.replayed i).attnCounts i.plot h.qPerKv st).retire i
          (attnCycles op.r (headDim (s.dev.furrow x.desc)) e h.qPerKv) st.1)))

/-- On a core that runs an entry and does not wait, with no register fault: an operation past its reference's LIMIT is not sent, and ends
REMOTE_ACCESS_VIOLATION; within it, with a free context of the plot's engine, a context opens with the operation of the reference that the
instruction names, and the instruction retires, MLD, MST and MAT waiting for the answer, XPUT counting one more put; a reference past the
table or a bad size is refused as illegal; XPUT with 64 puts unanswered waits. XWAIT retires when its test passes and waits when it does
not. (R70, R271, R272, R274.) -/
def Obligations.RemoteInstructionsIssue : Prop :=
  ∀ (s : State) (i : CoreInsn) (a : Admitted), s.runs i a →
    (s.dev.fld F.SLU_MREF_BASE.COUNT ≤ i.a →
      exec (.mld i) s = .next (s.put (s.dev.refuse i 0x22)) ∧ exec (.mst i) s = .next (s.put (s.dev.refuse i 0x23)) ∧
      exec (.mat i) s = .next (s.put (s.dev.refuse i 0x24)) ∧ exec (.xput i) s = .next (s.put (s.dev.refuse i 0x25))) ∧
    (∀ (r : MRef) (off n : Nat), r = s.dev.mref i.a → off = (s.coreOf i).sreg i.c → n = (s.coreOf i).sreg (i.c + 1) →
      i.a < s.dev.fld F.SLU_MREF_BASE.COUNT → 256 ≤ n → n ≤ 1048576 → n % 256 = 0 → (s.coreOf i).sreg i.b % 256 = 0 →
      inHeadwater ((s.coreOf i).sreg i.b) n = true →
      (off + n > r.limit →
        exec (.mld i) s = .next (s.put (s.dev.remoteFailed i.plot i.core 1 r.node)) ∧
        exec (.mst i) s = .next (s.put (s.dev.remoteFailed i.plot i.core 1 r.node)) ∧
        ((s.coreOf i).unanswered < 64 → exec (.xput i) s = .next (s.put (s.dev.remoteFailed i.plot i.core 1 r.node)))) ∧
      (off + n ≤ r.limit →
        (∀ c d, s.coreOpens i (r.fill { opcode := 3, cls := 3, atPlacement := true, loc := (s.coreOf i).sreg i.b } off n) = some (c, d) →
          exec (.mld i) s = .next (s.put (d.retire i 1 { s.coreOf i with wait := .remote (coreEngine i.plot) c }))) ∧
        (∀ c d, s.coreOpens i (r.fill { opcode := 2, cls := 3, atPlacement := true, loc := (s.coreOf i).sreg i.b } off n) = some (c, d) →
          exec (.mst i) s = .next (s.put (d.retire i 1 { s.coreOf i with wait := .remote (coreEngine i.plot) c }))) ∧
        (∀ c d, s.coreOpens i (r.fill
            { opcode := 2, cls := 1, atPlacement := true, loc := (s.coreOf i).sreg i.b, compare := r.offset + 8 * r.counter + 1 } off n) =
            some (c, d) → (s.coreOf i).unanswered < 64 →
          exec (.xput i) s = .next (s.put (d.retire i 1 { s.coreOf i with xputs := (s.coreOf i).xputs + 1, unanswered := (s.coreOf i).unanswered + 1, wait := .none }))) ∧
        (64 ≤ (s.coreOf i).unanswered → exec (.xput i) s = .next (s.put (s.dev.setCore i.plot i.core { s.coreOf i with wait := .xput })))) ∧
      ((s.dev.freeCtx (coreEngine i.plot)).isSome = true → ∀ x, (s.coreOpens i x).isSome = true)) ∧
    (∀ c d, i.a < s.dev.fld F.SLU_MREF_BASE.COUNT → i.flags % 4 ≠ 0 → ((s.dev.mref i.a).offset + (s.coreOf i).sreg i.c) % 8 = 0 →
      (s.coreOf i).sreg i.c + 8 ≤ (s.dev.mref i.a).limit →
      s.coreOpens i ((s.dev.mref i.a).fill { ({ opcode := 4, cls := 3, subop := i.flags % 4, tag := i.c } : Desc) with
        operand := (s.coreOf i).sreg i.b, compare := (s.coreOf i).sreg (i.b + 1) } ((s.coreOf i).sreg i.c) 8) = some (c, d) →
      exec (.mat i) s = .next (s.put (d.retire i 1 { s.coreOf i with wait := .remote (coreEngine i.plot) c }))) ∧
    (i.flags % 2 = 1 → (s.coreOf i).xputs = 0 → exec (.xwait i) s = .next (s.put (s.dev.retire i 1 { s.coreOf i with wait := .none }))) ∧
    (i.flags % 2 = 1 → (s.coreOf i).xputs ≠ 0 → exec (.xwait i) s = .next (s.put (s.dev.setCore i.plot i.core { s.coreOf i with wait := .xwait }))) ∧
    (i.flags % 2 = 0 → inHeadwater ((s.coreOf i).sreg i.a) 8 = true → (s.coreOf i).sreg i.a % 8 = 0 → i.parity ≤ 3 →
      ((s.coreOf i).sreg i.b ≤ s.dev.load ((s.coreOf i).sreg i.a) 8 →
        exec (.xwait i) s = .next (s.put ((s.dev.replayed i).retire i 1 { s.coreOf i with wait := .none }))) ∧
      (s.dev.load ((s.coreOf i).sreg i.a) 8 < (s.coreOf i).sreg i.b →
        exec (.xwait i) s = .next (s.put ((s.dev.replayed i).setCore i.plot i.core { s.coreOf i with wait := .xwait }))))

/-- ENTRY_START on a free core of a plot that is not resetting makes the next admitted entry the core's, at its program's entry point,
with s0 to s11 laid from the entry and the rest 0. END, when every append has been placed, leaves the core without an entry, past the one
it ran; with an append outstanding it waits for the placement. (R71, R77.) -/
def Obligations.EntriesStartAndEnd : Prop :=
  (∀ (s : State) (plot core : Nat) (a : Admitted), s.awake → plot < 64 → core < 64 → (s.dev.core plot core).entry = none →
    (sget {} s.dev.plots plot).resetting = false → s.dev.nextEntry plot (s.dev.core plot core).nextEntry = some a →
    ∃ t, exec (.entryStart plot core) s = .next t ∧ (t.dev.core plot core).entry = some a.index ∧
      (t.dev.core plot core).pc = ((sget {} s.dev.plots plot).entries.getD a.e.program (0, 0)).1 ∧
      (t.dev.core plot core).s = layFrom 0 (s.dev.startScalars plot core a) ∧
      (t.dev.core plot core).inbox = (s.dev.core plot core).inbox.filter fun x => decide (a.index ≤ x.1)) ∧
  (∀ (s : State) (plot core : Nat) (a : Admitted), s.runs { plot := plot, core := core } a →
    ((s.dev.core plot core).appends = 0 → exec (.endEntry plot core) s = .next (s.put
      ((((s.dev.retire { plot := plot, core := core } 1 { s.dev.core plot core with wait := .none }).setCore plot core
        { s.dev.core plot core with
          wait := .none, pc := (s.dev.core plot core).pc + 8, entry := none, nextEntry := a.index + 1,
          gap := max (s.dev.core plot core).gap 1 }).openBarrier
          a).plotEnded a.index plot))) ∧
    (0 < (s.dev.core plot core).appends →
      exec (.endEntry plot core) s = .next (s.put (s.dev.setCore plot core { s.dev.core plot core with wait := .placement }))))

/-- On a core that runs an entry and does not wait, with no register fault: an APPEND beyond the entry's tokens, or beyond the furrow's
pages, is refused with its reason; one that no rule refuses places its position, the converted K and V of its registers, in the page's
frame, pins the page, and retires. SEND, with no parity error, retires and delivers its lanes to the core it names, which goes on if it
waits for them; RECV takes what has come, or waits. BAR retires, and the cores of the entry go on once every one of them is at the
barrier; until then each waits. (R70, R75, R78.) -/
def Obligations.AppendsAndMeshTransfers : Prop :=
  ∀ (s : State) (i : CoreInsn) (a : Admitted), s.runs i a →
    (∀ fi, s.dev.entryFurrow a = some fi → i.c ≥ a.tokens + a.e.prefill →
      exec (.append i) s = .next (s.put (s.dev.appendRefused i 1 none))) ∧
    (∀ fi, s.dev.entryFurrow a = some fi → i.c < a.tokens + a.e.prefill →
      (s.dev.furrow fi).length + i.c ≥ 256 * pps (s.dev.furrow fi) → exec (.append i) s = .next (s.put (s.dev.appendRefused i 2 none))) ∧
    (∀ fi g f fm, s.dev.entryFurrow a = some fi → i.c < a.tokens + a.e.prefill → s.dev.furrow fi = f → f.length + i.c < 256 * pps f →
      streamOf f (s.dev.headEntry i.plot i.a) < streams f →
      g = seqPage f (streamOf f (s.dev.headEntry i.plot i.a)) ((f.length + i.c) / 256) →
      ((s.dev.pte g).tier = 1 ∨ (s.dev.pte g).tier = 2) → s.dev.appendOwner g f.owner = none → fmtOf f.fmt = some fm → i.parity ≤ 3 →
      let d := (s.dev.replayed i).placePosition i.plot i.core g ((f.length + i.c) % 256) (headDim f) fm
          ((s.coreOf i).appendValues fm i.nonsat (headDim f) i.b)
      exec (.append i) s = .next (s.put (d.retire i (min i.cycles 8) { s.coreOf i with appends := (d.core i.plot i.core).appends })) ∧
        d.fur.pins = g :: s.dev.fur.pins) ∧
    (i.parity ≤ 3 →
      let d := (s.dev.replayed i).retire i (min i.cycles 64) (s.coreOf i)
      exec (.coreSend i) s = .next (s.put (d.setCore (i.c / 64) (i.c % 64) ((d.core (i.c / 64) (i.c % 64)).deliver a.index
        (coreKey i.plot i.core) ((List.range (32 * i.b)).map fun n => (s.coreOf i).lane (32 * i.a + n)))))) ∧
    (i.parity = 0 → i.c ≠ coreKey i.plot i.core → (s.dev.core (i.c / 64) (i.c % 64)).nextEntry ≤ a.index →
      ∃ t, exec (.coreSend i) s = .next t ∧
        (t.dev.core (i.c / 64) (i.c % 64)).inbox = (s.dev.core (i.c / 64) (i.c % 64)).inbox ++
          [(a.index, coreKey i.plot i.core, (List.range (32 * i.b)).map fun n => (s.coreOf i).lane (32 * i.a + n))]) ∧
    ((s.coreOf i).inbox.find? (fun x => x.1 == a.index && x.2.1 == i.c) = none →
      exec (.coreRecv i) s = .next (s.put (s.dev.setCore i.plot i.core { s.coreOf i with wait := .recv i.c }))) ∧
    (∀ x, (s.coreOf i).inbox.find? (fun x => x.1 == a.index && x.2.1 == i.c) = some x → i.parity ≤ 3 → exec (.coreRecv i) s = .next (s.put
      ((s.dev.replayed i).retire i 1 ({ s.coreOf i with inbox := (s.coreOf i).inbox.erase x, wait := .none }.setLanes (32 * i.a) x.2.2)))) ∧
    exec (.coreBar i) s = .next (s.put ((s.dev.retire i 1 { s.coreOf i with wait := .barrier }).openBarrier a)) ∧
    ((∃ x ∈ entryCores a, ((s.dev.retire i 1 { s.coreOf i with wait := .barrier }).core x.1 x.2).wait ≠ .barrier ∧
        ((s.dev.retire i 1 { s.coreOf i with wait := .barrier }).core x.1 x.2).entry = some a.index) →
      exec (.coreBar i) s = .next (s.put (s.dev.retire i 1 { s.coreOf i with wait := .barrier })))

/-- On a link of the part, in the state each event is defined for: a signal takes DETECT to TRAIN; training with no lane fault takes TRAIN
to ALIGN, 8 lanes wide in an X8 link and 4 otherwise; alignment takes ALIGN to PARAM with its link logic cleared; a timeout in TRAIN,
ALIGN or PARAM takes it DOWN with reason 9; the hold-off takes DOWN to DETECT; on an ACTIVE link peer training, FEC failure, no flit and a
flit sent eight times take it DOWN with reasons 1, 2, 3 and 4. In any other state the event changes nothing. (R308, R310, R311.) -/
def Obligations.LinkTrainsAndFalls : Prop :=
  ∀ (s : State) (l : Nat), s.awake → l < 112 →
    (s.dev.linkState l = 1 → ∃ t, exec (.signalDetected l) s = .next t ∧ t.dev.linkState l = 2) ∧
    (s.dev.linkState l = 2 → ∀ rev, (∀ fault, fault % 16 = 0 →
        F.FAB_LINK_CFG.MODE.get (sget (regReset s.dev.part .FAB_LINK_CFG l) s.dev.fab.cfgLive l) ≠ 1 →
        ∃ t, exec (.trainDone l fault rev) s = .next t ∧ t.dev.linkState l = 3 ∧ t.dev.fld F.FAB_LINK_STATUS.WIDTH l = 4) ∧
      (F.FAB_LINK_CFG.MODE.get (sget (regReset s.dev.part .FAB_LINK_CFG l) s.dev.fab.cfgLive l) = 1 →
        ∃ t, exec (.trainDone l 0 rev) s = .next t ∧ t.dev.linkState l = 3 ∧ t.dev.fld F.FAB_LINK_STATUS.WIDTH l = 8)) ∧
    (s.dev.linkState l = 3 → exec (.alignDone l) s = .next (s.put ((s.dev.setLink l {}).setFld F.FAB_LINK_STATUS.STATE 4 l))) ∧
    (s.dev.linkState l = 2 ∨ s.dev.linkState l = 3 ∨ s.dev.linkState l = 4 →
      exec (.trainTimeout l) s = .next (s.put (s.dev.linkDown l 9))) ∧
    (s.dev.linkState l = 6 → exec (.holdoffExpiry l) s = .next (s.put (s.dev.setFld F.FAB_LINK_STATUS.STATE 1 l))) ∧
    (s.dev.linkState l = 5 → exec (.peerTraining l) s = .next (s.put (s.dev.linkDown l 1)) ∧
      exec (.fecFailure l) s = .next (s.put ((s.dev.count F.FAB_LINK_FEC.UNCORRECTABLE 32 l).linkDown l 2)) ∧
      exec (.noFlit l) s = .next (s.put (s.dev.linkDown l 3)) ∧
      ((((s.dev.link l).replay ++ (s.dev.link l).turnReplay).any fun x => x.1 ≥ 8) = true →
        exec (.replayLimit l) s = .next (s.put (s.dev.linkDown l 4)))) ∧
    (s.dev.linkState l ≠ 5 → exec (.peerTraining l) s = .next s ∧ exec (.fecFailure l) s = .next s ∧ exec (.noFlit l) s = .next s ∧
      exec (.replayLimit l) s = .next s)

/-- On an ACTIVE link: a DATA flit with a good CRC and the next sequence number makes ACK its number; with another number ACK stays and a
NAK goes; a TURN flit with the next TSEQ makes TACK its number and its packet arrives; with another it only acknowledges; a flit with a
bad CRC is counted and draws a NAK; an IDLE flit acknowledges and returns credits. A PARAM flit in PARAM that agrees on the version and
finds both sides ready makes the link ACTIVE; one that disagrees takes it DOWN with reason 8. The flit is read from its 256 bytes. (R305,
R306, R307, R309.) -/
def Obligations.LinkFlitsReceived : Prop :=
  ∀ (s : State) (l : Nat) (bs : List Byte), s.awake → l < 112 →
    (s.dev.linkState l = 5 → flitCrcOk bs = true →
      (isFlit .data bs = true → (Flit.ofBytes .data bs).seq = ((s.dev.link l).rxAck + 1) % 4096 →
        ∃ t, exec (.dataFlit l bs) s = .next t ∧ (t.dev.link l).rxAck = (Flit.ofBytes .data bs).seq ∧ (t.dev.link l).nak = false) ∧
      (isFlit .data bs = true → (Flit.ofBytes .data bs).seq ≠ ((s.dev.link l).rxAck + 1) % 4096 → (s.dev.link l).discarding = false →
        ∃ t, exec (.dataFlit l bs) s = .next t ∧ (t.dev.link l).rxAck = (s.dev.link l).rxAck ∧ (t.dev.link l).nak = true) ∧
      (isFlit .data bs = true → (Flit.ofBytes .data bs).seq ≠ ((s.dev.link l).rxAck + 1) % 4096 → (s.dev.link l).discarding = true →
        exec (.dataFlit l bs) s = .next (s.put (s.dev.rxCommon l (Flit.ofBytes .data bs)))) ∧
      (isFlit .turn bs = true → (Flit.ofBytes .turn bs).seq = ((s.dev.link l).rxTack + 1) % 256 →
        ∃ t, exec (.turnFlit l bs) s = .next t ∧ (t.dev.link l).rxTack = (Flit.ofBytes .turn bs).seq ∧
          t.dev.fab.arrived = s.dev.fab.arrived ++
            [(l, Packet.ofBytes ((Flit.ofBytes .turn bs).body.take (Flit.ofBytes .turn bs).bodyLen))]) ∧
      (isFlit .turn bs = true → (Flit.ofBytes .turn bs).seq ≠ ((s.dev.link l).rxTack + 1) % 256 →
        exec (.turnFlit l bs) s = .next (s.put (s.dev.rxCommon l (Flit.ofBytes .turn bs)))) ∧
      (isFlit .idle bs = true → exec (.idleFlit l bs) s = .next (s.put (s.dev.rxCommon l (Flit.ofBytes .idle bs))))) ∧
    (s.dev.linkState l = 5 → flitCrcOk bs = false → exec (.dataFlit l bs) s = .next (s.put (s.dev.rxBad l)) ∧
      exec (.turnFlit l bs) s = .next (s.put (s.dev.rxBad l)) ∧ exec (.idleFlit l bs) s = .next (s.put (s.dev.rxBad l)) ∧
      exec (.paramFlit l bs) s = .next (s.put (s.dev.rxBad l))) ∧
    (s.dev.linkState l = 4 → flitCrcOk bs = true → isFlit .param bs = true → ∀ body, body = (Flit.ofBytes .param bs).body →
      fieldAt body 0 4 = 0x5A54414C →
      (versionsAgree body = true → (s.dev.link l).sentSeen = true → (fieldAt body 10 1).testBit 0 = true →
        ∃ t, exec (.paramFlit l bs) s = .next t ∧ t.dev.linkState l = 5) ∧
      (versionsAgree body = false → exec (.paramFlit l bs) s = .next (s.put
        (((s.dev.setLink l { s.dev.link l with peerSeen := true, lastParam := body }).linkDown l 8).eventSig
          F.FAB_EVENTS.VERSION F.FAB_VECTOR.VECTOR))))

/-- At each flit boundary an ACTIVE link sends exactly one flit, and a link in PARAM with no PARAM flit due sends an IDLE flit. A replay
timeout resends the kept DATA flits, a turn replay timeout the kept TURN flits. Through the holder's PF, ENABLE 1 takes a DISABLED link
that exists to DETECT, ENABLE 0 takes a link that is not ACTIVE to DISABLED with reason 7; FAB_NODE is taken only while every present link
is DISABLED or DOWN. (R306, R308, R309, R321.) -/
def Obligations.LinkTransmitsAndReplays : Prop :=
  (∀ (s : State) (l : Nat), s.awake → l < 112 →
    (s.dev.linkState l = 5 → ∃ t, ∃ f : Flit, exec (.flitBoundary l) s = .next t ∧ t.dev.out = s.dev.out ++ [.flit l f.bytes]) ∧
    (s.dev.linkState l = 4 → (s.dev.link l).paramWait ≠ 0 → ∃ t, ∃ f : Flit, exec (.flitBoundary l) s = .next t ∧
      t.dev.out = s.dev.out ++ [.flit l f.bytes] ∧ f.ty = .idle) ∧
    (s.dev.linkState l = 5 → (s.dev.link l).replay ≠ [] → exec (.replayTimeout l) s = .next (s.put
      ((s.dev.setLink l { s.dev.link l with resend := (s.dev.link l).replay }).count F.FAB_LINK_REPLAY.REPLAYS 1 l))) ∧
    (s.dev.linkState l = 5 → exec (.turnReplayTimeout l) s = .next (s.put
      (s.dev.setLink l { s.dev.link l with turnResend := (s.dev.link l).turnReplay })))) ∧
  (∀ (s : State) (port l : Nat), s.takes port → l < 112 → s.dev.part.link l = true →
    (s.dev.linkState l = 0 → s.dev.linkExists l = true →
      ∃ t, exec (.linkEnable port l true) s = .next t ∧ t.dev.linkState l = 1 ∧ t.dev.fld F.FAB_LINK_CTRL.ENABLE l = 1) ∧
    (s.dev.linkState l ≠ 0 → s.dev.linkState l ≠ 5 → s.dev.linkState l ≠ 7 →
      ∃ t, exec (.linkEnable port l false) s = .next t ∧ t.dev.linkState l = 0 ∧ t.dev.fld F.FAB_LINK_STATUS.DOWN_REASON l = 7 ∧
        t.dev.fld F.FAB_LINK_CTRL.ENABLE l = 0)) ∧
  (∀ (s : State) (port node : Nat), s.takes port →
    (((List.range 112).all fun l => !s.dev.part.link l || s.dev.linkState l == 0 || s.dev.linkState l == 6 || s.dev.linkState l == 7) = true →
      exec (.fabNodeWrite port node) s = .next (s.put (s.dev.setFld F.FAB_NODE.NODE node))) ∧
    (((List.range 112).all fun l => !s.dev.part.link l || s.dev.linkState l == 0 || s.dev.linkState l == 6 || s.dev.linkState l == 7) = false →
      exec (.fabNodeWrite port node) s = .next (s.put (s.dev.eventSig F.FAB_EVENTS.NODE_REFUSED F.FAB_VECTOR.VECTOR))))

/-- ROUTE_LOAD through the holder's PF starts the fetch, or answers BUSY while the other bank drains; the end of the fetch leaves the map
READY with LOAD_RESULT 1, or OTHER_STATE 0 with 3 when a check fails and 4 when the read fails. ARM of a READY map for a later turn leaves
it ARMED, for a turn that is past answers 3, and without a READY map answers 4; IMMEDIATE makes a READY map active at once and the old one
drains, which ends with the drain window of an IDLE device. (R327.) -/
def Obligations.RoutingMapsLoadAndSwitch : Prop :=
  (∀ (s : State) (port bytes : Nat), s.takes port →
    (s.dev.fld F.FAB_ROUTE_STATUS.OTHER_STATE = 4 →
      exec (.routeLoad port bytes) s = .next (s.put (s.dev.setFld F.FAB_ROUTE_STATUS.LOAD_RESULT 2))) ∧
    (s.dev.fld F.FAB_ROUTE_STATUS.OTHER_STATE = 0 → ∃ t, exec (.routeLoad port bytes) s = .next t ∧
      t.dev.fld F.FAB_ROUTE_STATUS.OTHER_STATE = 1 ∧
      t.dev.out = s.dev.out ++ [.hostRead ⟨port, 0⟩ (s.dev.fld F.FAB_ROUTE_LOAD_ADDR.ADDR * 64) bytes]) ∧
    (s.dev.fld F.FAB_ROUTE_STATUS.OTHER_STATE ≠ 2 →
      exec (.armRoute port) s = .next (s.put (s.dev.setFld F.FAB_ROUTE_STATUS.SWITCH_RESULT 4)) ∧
      exec (.armImmediate port) s = .next (s.put (s.dev.setFld F.FAB_ROUTE_STATUS.SWITCH_RESULT 4))) ∧
    (s.dev.fld F.FAB_ROUTE_STATUS.OTHER_STATE = 2 →
      (s.dev.turnNo < s.dev.fld F.FAB_ROUTE_SWITCH_TURN.TURN → ∃ t, exec (.armRoute port) s = .next t ∧
        t.dev.fld F.FAB_ROUTE_STATUS.OTHER_STATE = 3 ∧ t.dev.fld F.FAB_ROUTE_STATUS.SWITCH_RESULT = 1) ∧
      (s.dev.fld F.FAB_ROUTE_SWITCH_TURN.TURN ≤ s.dev.turnNo →
        exec (.armRoute port) s = .next (s.put (s.dev.setFld F.FAB_ROUTE_STATUS.SWITCH_RESULT 3))) ∧
      ∃ t, exec (.armImmediate port) s = .next t ∧ t.dev.fld F.FAB_ROUTE_STATUS.OTHER_STATE = 4 ∧
        t.dev.fld F.FAB_ROUTE_STATUS.SWITCH_RESULT = 2 ∧
        t.dev.fld F.FAB_ROUTE_STATUS.ACTIVE_BANK = (1 - s.dev.fld F.FAB_ROUTE_STATUS.ACTIVE_BANK) % 2 ^ F.FAB_ROUTE_STATUS.ACTIVE_BANK.w)) ∧
  (∀ (s : State) (bs : List Byte) (m : MapImage), s.awake → s.dev.fld F.FAB_ROUTE_STATUS.OTHER_STATE = 1 → m = MapImage.ofBytes bs →
    (s.dev.mapOk m = true → ∃ t, exec (.routeLoadDone bs true) s = .next t ∧ t.dev.fld F.FAB_ROUTE_STATUS.OTHER_STATE = 2 ∧
      t.dev.fld F.FAB_ROUTE_STATUS.LOAD_RESULT = 1 ∧ t.dev.fld F.FAB_ROUTE_STATUS.OTHER_EPOCH = m.epoch % 256) ∧
    (s.dev.mapOk m = false → ∃ t, exec (.routeLoadDone bs true) s = .next t ∧ t.dev.fld F.FAB_ROUTE_STATUS.OTHER_STATE = 0 ∧
      t.dev.fld F.FAB_ROUTE_STATUS.LOAD_RESULT = 3 ∧ t.dev.rt = s.dev.rt) ∧
    (∃ t, exec (.routeLoadDone bs false) s = .next t ∧ t.dev.fld F.FAB_ROUTE_STATUS.OTHER_STATE = 0 ∧
      t.dev.fld F.FAB_ROUTE_STATUS.LOAD_RESULT = 4)) ∧
  (∀ (s : State), s.awake → s.dev.fld F.FAB_ROUTE_STATUS.OTHER_STATE = 4 → s.dev.fld F.TURN_STATUS.STATE = 0 →
    exec .drainWindowEnd s = .next (s.put (s.dev.setFld F.FAB_ROUTE_STATUS.OTHER_STATE 0)))

/-- PACKET_TRANSMIT of a class whose next packet is in transit, with a link for its route, puts it at the end of that link's queue.
ROUTE_HOLD_EXPIRY with one packet of the device's own past its hold drops it and counts it. An UNREACHABLE notice declares the destination
dead; the first STALE notice for a message marks it and resends it; the second fails it with STALE_EPOCH. A notice's fields are read from
its payload. (R268, R317, R325, R326.) -/
def Obligations.PacketsRouteAndNotices : Prop :=
  ∀ (s : State), s.awake →
    (∀ at_ cls p l, ((s.dev.at_ at_).countWaits cls).nextPacket cls = some p → p.pkt.src ≠ s.dev.node →
      ((s.dev.at_ at_).countWaits cls).routeOf p.pkt.dest p.pkt.tc p.pkt.epoch = .link l →
      ∃ t, exec (.packetTransmit at_ cls) s = .next t ∧ (t.dev.link l).queue = (s.dev.link l).queue ++ [{ p with heldUntil := none }]) ∧
    (∀ at_ cls, ((s.dev.at_ at_).countWaits cls).nextPacket cls = none →
      exec (.packetTransmit at_ cls) s = .next (s.put ((s.dev.at_ at_).countWaits cls))) ∧
    (∀ at_ p u, s.dev.rt.wait = [p] → p.heldUntil = some u → u ≤ max s.dev.now at_ → (s.dev.at_ at_).movable p = false →
      p.pkt.src = s.dev.node → exec (.routeHoldExpiry at_) s =
        .next (s.put (({ s.dev.at_ at_ with rt.wait := [] } : Device).count F.FAB_ROUTE_STATS.HELD_DROPS |>.responseCut p.pkt.msgId))) ∧
    (∀ p host, fieldAt p 0 1 = 0x42 → exec (.routingNotice p host) s = .next (s.put (s.dev.declareDead (fieldAt p 6 2)))) ∧
    (∀ p host o, fieldAt p 0 1 = 0x41 → s.dev.outMsg (fieldAt p 8 6) = some o → o.node = fieldAt p 6 2 → fieldAt p 14 1 = o.attempt % 16 →
      (o.stale = true → exec (.routingNotice p host) s = .next (s.put ((s.dev.settle o 3).event F.SLU_EVENTS.STALE_EPOCH))) ∧
      (∀ ms, ms = s.dev.slu.msgs.map (fun (x : OutMsg) => if x.msgId = fieldAt p 8 6 then { o with stale := true } else x) → o.stale = false →
        exec (.routingNotice p host) s = .next (s.put (({ s.dev with slu.msgs := ms } : Device).resend { o with stale := true } host))))

/-- HG_CTRL.ENABLE written 1 while it is 1, or 0, only takes the bit; written from 0 to 1 it sets every level to its BURST; HG_DROP_BASE
takes its address and makes the drop ring live through the PF that wrote it. A WEIR_COMMIT that passes its checks stages the snapshot, and
one that fails leaves the fault's offset. A refill without a pending snapshot raises the level of each class weir by its RATE up to its
BURST. A telemetry sample while sampling is off changes nothing, and while it is on, of one source with room in the ring, advances
PRODUCED by one record. (R337, R339, R340, R342, R388.) -/
def Obligations.HeadgateAndWeirs : Prop :=
  (∀ (s : State) (port : Nat), s.takes port →
    (s.dev.on F.HG_CTRL.ENABLE = true → exec (.hgEnable port true) s = .next (s.put (s.dev.setFld F.HG_CTRL.ENABLE 1))) ∧
    exec (.hgEnable port false) s = .next (s.put (s.dev.setFld F.HG_CTRL.ENABLE 0)) ∧
    (s.dev.on F.HG_CTRL.ENABLE = false → ∃ t, exec (.hgEnable port true) s = .next t ∧ t.dev.on F.HG_CTRL.ENABLE = true ∧
      (∀ o ∈ s.dev.hgOwners, t.dev.fld F.HG_LEVEL.REQ o = s.dev.fld F.HG_REQ_CFG.BURST o % 2 ^ F.HG_LEVEL.REQ.w ∧
        t.dev.fld F.HG_LEVEL.PROMPT o = s.dev.fld F.HG_PROMPT_CFG.BURST o % 2 ^ F.HG_LEVEL.PROMPT.w) ∧
      s.dev.framed t.dev [.HG_CTRL, .HG_LEVEL]) ∧
    (∀ addr, ∃ t, exec (.hgDropBaseWrite port addr) s = .next t ∧ t.dev.fld F.HG_DROP_BASE.ADDR = addr / 4096 % 2 ^ F.HG_DROP_BASE.ADDR.w ∧
      t.dev.rt.dropLive = true ∧ t.dev.ringFn .HG_DROP_BASE = ⟨port, 0⟩ ∧ s.dev.framed t.dev [.HG_DROP_BASE]) ∧
    (lowest (weirFaults (Device.applySnap true s.dev.staged s.dev)) = none → exec (.weirCommit port) s =
      .next (s.put (({ s.dev with snapWeir := some s.dev.staged } : Device).setFld F.WEIR_STATUS.STAGE_RESULT 1))) ∧
    (∀ off, lowest (weirFaults (Device.applySnap true s.dev.staged s.dev)) = some off → exec (.weirCommit port) s =
      .next (s.put ((s.dev.setFld F.WEIR_STATUS.STAGE_RESULT 3).setFld F.CFG_STAGE_FAULT.OFFSET off)))) ∧
  (∀ (s : State) (at_ : Nat), s.awake →
    (s.dev.snapWeir = none → ∃ t, exec (.weirRefill at_) s = .next t ∧ ∀ c, 1 ≤ c → c ≤ 6 →
      t.dev.classLevel c = refilled (s.dev.classLevel c) (s.dev.fld F.WEIR_CLASS_CFG.RATE c) (s.dev.fld F.WEIR_CLASS_CFG.BURST c)) ∧
    (∀ ages, s.dev.on F.WEIR_TEL_CTRL.ENABLE = false → exec (.telemetrySample at_ ages) s = .next (s.put (s.dev.at_ at_))) ∧
    (∀ ages src, s.dev.on F.WEIR_TEL_CTRL.ENABLE = true → s.dev.telSources = [src] →
      s.dev.fld F.WEIR_TEL_PRODUCED.PRODUCED - s.dev.fld F.WEIR_TEL_CONSUMED.CONSUMED < 2 ^ s.dev.fld F.WEIR_TEL_CTRL.LOG2_SIZE →
      ∃ t, exec (.telemetrySample at_ ages) s = .next t ∧ t.dev.fld F.WEIR_TEL_PRODUCED.PRODUCED =
        (s.dev.fld F.WEIR_TEL_PRODUCED.PRODUCED + 1) % 2 ^ F.WEIR_TEL_PRODUCED.PRODUCED.w ∧ s.dev.framed t.dev [.WEIR_TEL_PRODUCED]))

/-- On a device that lives and whose BARs are open: a claim through port 0 or 1 while no PF holds, or while another PF's lease has lapsed,
makes that PF the holder with the lapse cleared; a claim by the holder, or while another holds unlapsed, changes nothing. From the holder,
RENEW clears the lapse and starts the lease anew, RELEASE leaves no holder, and LEASE_MS takes the value written, at most 10,000; from
another PF they change nothing. A lease that has run out sets LAPSED and the event. (R350.) -/
def Obligations.HolderAndLease : Prop :=
  ∀ (s : State), s.awake → s.dev.barClosed = false →
    (∀ at_ port, port < 2 → (s.dev.holder = none ∨ (s.dev.holder ≠ some port ∧ s.dev.on F.HQ_CONTROL.LAPSED = true)) →
      ∃ t, exec (.holderClaim at_ port) s = .next t ∧ t.dev.holder = some port ∧ t.dev.on F.HQ_CONTROL.LAPSED = false ∧
        t.dev.fld F.HQ_EVENTS.HOLDER_CHANGE = 1 ∧ t.dev.host.leaseFrom = max s.dev.now at_) ∧
    (∀ at_ port, (s.dev.holder = some port ∨ (s.dev.holder.isSome = true ∧ s.dev.on F.HQ_CONTROL.LAPSED = false)) →
      exec (.holderClaim at_ port) s = .next (s.put (s.dev.at_ at_))) ∧
    (∀ port at_, s.dev.holder = some port →
      exec (.leaseRenew port at_) s = .next (s.put { (s.dev.at_ at_).setFld F.HQ_CONTROL.LAPSED 0 with host.leaseFrom := max s.dev.now at_ }) ∧
      (∃ t, exec (.holderRelease port) s = .next t ∧ t.dev.holder = none ∧ t.dev.fld F.HQ_EVENTS.HOLDER_CHANGE = 1) ∧
      (∀ ms, ∃ t, exec (.leaseWrite port at_ ms) s = .next t ∧
        t.dev.fld F.HQ_CONTROL.LEASE_MS = min ms 10000 % 2 ^ F.HQ_CONTROL.LEASE_MS.w ∧ t.dev.on F.HQ_CONTROL.LAPSED = false ∧
        t.dev.host.leaseFrom = max s.dev.now at_ ∧ t.dev.holder = some port ∧ s.dev.framed t.dev [.HQ_CONTROL])) ∧
    (∀ port, s.dev.holder ≠ some port → exec (.holderRelease port) s = .next s) ∧
    (∀ at_, s.dev.holder.isSome = true → s.dev.fld F.HQ_CONTROL.LEASE_MS ≠ 0 → s.dev.on F.HQ_CONTROL.LAPSED = false →
      s.dev.host.leaseFrom + s.dev.fld F.HQ_CONTROL.LEASE_MS * 1000000 ≤ max s.dev.now at_ →
      ∃ t, exec (.leaseLapse at_) s = .next t ∧ t.dev.on F.HQ_CONTROL.LAPSED = true ∧ t.dev.fld F.HQ_EVENTS.LEASE_LAPSED = 1)

/-- A host link that trains leaves its port up in D0 (H1 not while PERST1_N is asserted); a lost port and a VF reset set their events.
HQ_Q_CTRL.ENABLE written from 0 to 1 clears the queue's indices and STOPPED; any other write of it takes the value and clears STOPPED.
TAIL on an enabled queue, and CONSUMED on an enabled SLUICE queue, move the index; a doorbell of another queue is ignored and counted.
(R353, R354, R355, R358.) -/
def Obligations.PortsAndQueues : Prop :=
  (∀ (s : State), s.awake →
    (∀ port rate lanes flit vfs, port < 2 → (port = 1 → s.dev.pwr.perst1 = false) →
      ∃ t, exec (.hostLinkTrained port rate lanes flit vfs) s = .next t ∧ t.dev.portUp port = true ∧ s.dev.framed t.dev [.HQ_PORT_STATUS]) ∧
    (∀ port cause, ∃ t, exec (.portLost port cause) s = .next t ∧ t.dev.fld F.HQ_EVENTS.PORT_DOWN = 1) ∧
    (∀ fn disabled, ∃ t, exec (.vfFlr fn disabled) s = .next t ∧ t.dev.fld F.HQ_EVENTS.FLR = 1)) ∧
  (∀ (s : State) (port q : Nat), s.takesOpen port → q < 256 →
    (s.dev.on F.HQ_Q_CTRL.ENABLE q = false → ∃ t, exec (.hqQEnable port q true) s = .next t ∧ t.dev.on F.HQ_Q_CTRL.ENABLE q = true ∧
      t.dev.fld F.HQ_Q_STATUS.HEAD q = 0 ∧ t.dev.fld F.HQ_Q_STATUS.WRITTEN q = 0 ∧ t.dev.fld F.HQ_Q_STATUS.STOPPED q = 0 ∧ t.dev.hq q = {}) ∧
    (∀ v, (v = false ∨ s.dev.on F.HQ_Q_CTRL.ENABLE q = true) → exec (.hqQEnable port q v) s =
      .next (s.put ((s.dev.setFld F.HQ_Q_CTRL.ENABLE (b2n v) q).setFld F.HQ_Q_STATUS.STOPPED 0 q))) ∧
    (∀ tail, s.dev.on F.HQ_Q_CTRL.ENABLE q = true → exec (.hqTail port q tail) s =
      .next (s.put (s.dev.setHq q { s.dev.hq q with tail := tail % 4096 % s.dev.hqSize q }))) ∧
    (∀ n, s.dev.on F.HQ_Q_CTRL.ENABLE q = true → s.dev.fld F.HQ_Q_CTRL.KIND q = 2 → exec (.hqConsumed port q n) s =
      .next (s.put (s.dev.setHq q { s.dev.hq q with consumed := n }))) ∧
    (∀ n, s.dev.on F.HQ_Q_CTRL.ENABLE q = false → exec (.hqTail port q n) s = .next (s.put (s.dev.count F.HQ_STATS.DOORBELL_IGNORED)) ∧
      exec (.hqConsumed port q n) s = .next (s.put (s.dev.count F.HQ_STATS.DOORBELL_IGNORED))))

/-- A request of the device to a host that ends with an error is counted and signalled, and: stops a host queue, ends a context with
HOST_ERROR, stops a flume, stops a device-written ring, and leaves the furrow ring disabled with STOPPED 1. (R345, R358, R463.) -/
def Obligations.HostErrorsEndWhatTheyServed : Prop :=
  ∀ (s : State), s.awake →
    (∀ q, exec (.hostError (.queue q)) s = .next (s.put (s.dev.hostErr.stopQueue q))) ∧
    (∀ e c, exec (.hostError (.ctx e c)) s = .next (s.put (s.dev.hostErr.endCtx e c 0x10 0))) ∧
    (∀ h, exec (.hostError (.flume h)) s = .next (s.put (s.dev.hostErr.stopFlume h))) ∧
    (∀ r, exec (.hostError (.ring r)) s = .next (s.put (s.dev.hostErr.stopRing r))) ∧
    (exec (.hostError .other) s = .next (s.put s.dev.hostErr)) ∧
    (∃ t, exec (.hostError .furrowRing) s = .next t ∧ t.dev.fld F.FUR_CQ_CTRL.ENABLE = 0 ∧ t.dev.fld F.FUR_CQ_HEAD.STOPPED = 1 ∧
      t.dev.fld F.FUR_EVENTS.CQ_ERROR = 1)

/-- On a root port of the part: ENABLE 1 takes OFF to LINK; ENABLE 0 ends its commands and leaves it OFF; in LINK an accepted partner
begins INIT, a refused one and a timeout fail the port; in INIT the end of initialisation makes it READY with its namespaces, a timeout
fails it with a record; a READY port whose link falls returns to LINK; a reset of a port in INIT, READY or FAILED begins its step, and its
end returns the port to INIT. (R361, R368, R375.) -/
def Obligations.RootPortsMoveThroughTheirStates : Prop :=
  (∀ (s : State) (port p : Nat), s.takes port → s.dev.part.root p = true →
    (s.dev.rootState p = 0 → ∃ t, exec (.nvmPortEnable port p true) s = .next t ∧ t.dev.rootState p = 1 ∧ t.dev.on F.NVM_PORT_CFG.ENABLE p = true) ∧
    (∃ t, exec (.nvmPortEnable port p false) s = .next t ∧ t.dev.rootState p = 0) ∧
    (s.dev.rootState p = 2 ∨ s.dev.rootState p = 3 ∨ s.dev.rootState p = 5 → exec (.nvmPortReset port p) s =
      .next (s.put (((s.dev.endNvme p).setFld F.NVM_PORT_STATUS.STATE 4 p).beginStep (rootReset p 1))))) ∧
  (∀ (s : State) (p : Nat), s.awake → s.dev.part.root p = true →
    (s.dev.rootState p = 1 →
      (∀ rate width flit, ∃ t, exec (.rootLinkUp p rate width flit true) s = .next t ∧ t.dev.rootState p = 2 ∧
        sget 0 t.dev.host.initQueues p = s.dev.fld F.NVM_PORT_CFG.IO_QUEUES p) ∧
      (∀ rate width flit, exec (.rootLinkUp p rate width flit false) s = .next (s.put (s.dev.rootFailed p))) ∧
      exec (.rootLinkTimeout p) s = .next (s.put (s.dev.rootFailed p))) ∧
    (s.dev.rootState p = 2 →
      (∀ spaces trim, ∃ t, exec (.rootInitDone p spaces trim) s = .next t ∧ t.dev.rootState p = 3 ∧
        sget [] t.dev.host.spaces p = spaces ∧ t.dev.fld F.NVM_EVENTS.PORT_READY = 1) ∧
      exec (.rootInitTimeout p) s = .next (s.put
        (((s.dev.endNvme p).record { cause := 0x0E, severity := 1, unitKind := 6, unit := p, detail := [(1, 2)] }).rootFailed p))) ∧
    (s.dev.rootState p = 3 → ∃ t, exec (.rootLinkDown p) s = .next t ∧ t.dev.rootState p = 1) ∧
    (s.dev.rootState p = 4 → ∃ t, exec (.rootResetDone p) s = .next t ∧ t.dev.rootState p = 2))

/-- A completion of an admin command writes its status, clears ACTIVE and leaves RESULT 1, or 6 with an error; of a Write counts and ends
its part of the descriptor; of a Read whose data can be placed takes its units; of a deallocation or an Abort only ends it. A timeout of
an I/O command fails it and draws an Abort; one of an admin command resets the port. A controller's request into an open window is served,
another is refused and counted. NVM_ADMIN.START that finds the unit free reads its block, and submits an allowed command, with the
device's own identifier and data pointer, and sets ACTIVE; a command not allowed answers 2. (R364, R365, R366, R369.) -/
def Obligations.NvmeCommandsComplete : Prop :=
  (∀ (s : State), s.awake →
    (∀ at_ root entry c d, d = s.dev.at_ at_ → d.nvmeBy root (fieldAt entry 12 2) = some c →
      (c.kind = .admin → ∃ t, exec (.nvmeCompletion at_ root entry) s = .next t ∧ t.dev.fld F.NVM_ADMIN_STATUS.ACTIVE = 0 ∧
        t.dev.fld F.NVM_ADMIN_STATUS.NVME_STATUS = fieldAt entry 14 2 / 2 % 2 ^ F.NVM_ADMIN_STATUS.NVME_STATUS.w ∧
        t.dev.fld F.NVM_ADMIN_STATUS.RESULT = (if fieldAt entry 14 2 / 2 = 0 then 1 else 6) ∧ t.dev.fld F.NVM_EVENTS.ADMIN_DONE = 1) ∧
      (fieldAt entry 14 2 / 2 = 0 →
        (c.kind = .write → exec (.nvmeCompletion at_ root entry) s =
          .next (s.put (((d.dropNvme c).count F.NVM_PORT_ERRORS.COMMANDS 1 root).flashEnded c 0))) ∧
        (c.kind = .read ∨ c.kind = .page → d.readWaits c = none → exec (.nvmeCompletion at_ root entry) s =
          .next (s.put (((d.dropNvme c).count F.NVM_PORT_ERRORS.COMMANDS 1 root).readDone c))) ∧
        (c.kind = .trim → exec (.nvmeCompletion at_ root entry) s =
          .next (s.put ((d.dropNvme c).count F.NVM_PORT_ERRORS.COMMANDS 1 root))) ∧
        (c.kind = .abort ∨ c.kind = .setup → exec (.nvmeCompletion at_ root entry) s = .next (s.put (d.dropNvme c))))) ∧
    (∀ root id c, s.dev.nvmeBy root id = some c → c.kind = .read ∨ c.kind = .write ∨ c.kind = .trim ∨ c.kind = .page →
      exec (.ioTimeout root id) s =
        .next (s.put ((((s.dev.failNvme c 2).count F.NVM_PORT_STATS.TIMEOUTS 1 root).nvmEvent F.NVM_EVENTS.TIMEOUT).submit
          { port := root, id := 0, kind := .abort, lba := c.queue + id * 65536 } 8 0))) ∧
    (∀ root c, (s.dev.nvmeOf root).find? (fun c => c.queue == 0) = some c → exec (.adminTimeout root) s =
      .next (s.put ((((s.dev.failNvme c 2).count F.NVM_PORT_STATS.TIMEOUTS 1 root).nvmEvent F.NVM_EVENTS.TIMEOUT).resetRoot root 2))) ∧
    (∀ root addr n data, s.dev.dmaOpen root addr n = true →
      exec (.controllerDma root addr n true data) s = .next (s.put ((s.dev.store addr (fit n data)).emit (.dmaAnswer root true []))) ∧
      exec (.controllerDma root addr n false data) s = .next (s.put (s.dev.emit (.dmaAnswer root true (s.dev.bytes addr n))))) ∧
    (∀ root addr n write data, s.dev.dmaOpen root addr n = false → exec (.controllerDma root addr n write data) s =
      .next (s.put (((s.dev.count F.NVM_PORT_STATS.DMA_REFUSED 1 root).nvmEvent F.NVM_EVENTS.DMA_REFUSED).emit (.dmaAnswer root false []))))) ∧
  (∀ (s : State) (port p : Nat) (block : List Byte), s.takes port → s.dev.on F.NVM_ADMIN_STATUS.ACTIVE = false →
    (adminAllowed (fieldAt block 0 1) (fieldAt block 40 1) = 0 → ∃ t, exec (.nvmAdminStart port p block true) s = .next t ∧
      t.dev.fld F.NVM_ADMIN_STATUS.RESULT = 2 ∧ t.dev.fld F.NVM_EVENTS.ADMIN_DONE = 1) ∧
    (adminAllowed (fieldAt block 0 1) (fieldAt block 40 1) = 1 → s.dev.rootState p = 3 →
      ∃ t c, exec (.nvmAdminStart port p block true) s = .next t ∧ t.dev.fld F.NVM_ADMIN_STATUS.ACTIVE = 1 ∧
        t.dev.fld F.NVM_ADMIN_STATUS.RESULT = 0 ∧ t.dev.host.adminPort = port ∧ t.dev.host.nvme = s.dev.host.nvme ++ [c] ∧ c.port = p ∧
        c.kind = .admin ∧ c.opcode = fieldAt block 0 1 ∧ c.offset = s.dev.fld F.NVM_ADMIN_ADDR.ADDR * 4096 ∧
        t.dev.out.getLast? = some (.nvmeEntry p c.id (adminEntry (fit 64 block) c.id ((c.windows.head?.map (·.1)).getD 0)))))

/-- On a device whose SLUICE queue q may fetch: SLUICE_FETCH of the descriptor that 64 bytes spell answers a next state; where the
descriptor is valid and its place in its program is below 64, HEAD has moved by one modulo the ring's size, and the lowest free context of
the queue's engine holds the descriptor, not started, with the issuer's program and place in it; no byte of memory and no register but
HQ_Q_STATUS and SLU_ENG_STATUS has changed. An invalid descriptor, or one past its program's 64th, ends with INVALID (0x0E). A queue that
may not fetch is left as it is. (R248, R250, R251, R356.) -/
def Obligations.SluiceDescriptorFetched : Prop :=
  ∀ (s : State) (q : Nat) (bytes : List Byte), s.awake → q < 256 →
    let desc := Desc.ofBytes bytes
    let e := s.dev.fld F.HQ_Q_CTRL.ENGINE q
    let pos := sget 0 s.dev.slu.progLen q
    let x : SluCtx := { eng := e, id := (s.dev.freeCtx e).getD 0, desc := desc, fn := ⟨(s.dev.ringFn .HQ_Q_BASE q).port, desc.func⟩,
                        iss := .hostQ q (s.dev.fld F.HQ_Q_STATUS.HEAD q) (sget 0 s.dev.slu.progs q) pos }
    (s.dev.mayFetch q = true → s.dev.descInvalid desc = false → pos < 64 →
      ∃ t, exec (.sluiceFetch q bytes) s = .next t ∧ t.dev.ctx e x.id = some x ∧
        t.dev.fld F.HQ_Q_STATUS.HEAD q =
          (s.dev.fld F.HQ_Q_STATUS.HEAD q + 1) % 2 ^ s.dev.fld F.HQ_Q_CTRL.LOG2_SIZE q % 2 ^ F.HQ_Q_STATUS.HEAD.w ∧
        s.dev.framed t.dev [.HQ_Q_STATUS, .SLU_ENG_STATUS]) ∧
    (s.dev.mayFetch q = true → s.dev.descInvalid desc = true ∨ 64 ≤ pos →
      ∃ p : Nat × Device, s.dev.descOpened q desc = some p ∧ exec (.sluiceFetch q bytes) s = .next (s.put (p.2.endCtx e p.1 0x0E 0))) ∧
    (s.dev.mayFetch q = false → exec (.sluiceFetch q bytes) s = .next s)

/-- A descriptor that may start, whose local ranges are allowed: COPY places the bytes of its source and ends OK with LENGTH, or as an
uncorrectable target error where the encrypted units of a spill area fail their last replay; a coded COPY into device memory places the
object; SIGNAL places OPERAND's eight bytes; WAIT_VALUE ends OK when the word equals OPERAND, and otherwise keeps the value read; its
timeout ends it TIMEOUT_EXHAUSTED with that value; ALLOC ends with a frame, or NO_FRAME; FREE frees a headwater frame, and a reservoir
frame whose entry names the descriptor's owner, and ends REMOTE_ACCESS_VIOLATION on another owner's; NOP ends OK. A parity check that
fails its last replay ends a descriptor UNCORRECTABLE, one that a replay cures is counted. A descriptor that STOP_ON_ERROR stops ends
ABORTED; one whose accesses wait for a window to close is left unstarted and counted as waiting. (R113, R114, R130, R249, R251, R276.) -/
def Obligations.SluiceLocalOperations : Prop :=
  (∀ (s : State) (e c op : Nat) (x : SluCtx), s.begins e c op x →
    let b := s.dev.ctxBegun e c
    let y := x.desc
    (∀ hd seen again parity, op = 1 → b.localFault x y.remHost y.remote y.length false = none → b.localFault x y.locHost y.loc y.length true = none →
      let r := b.copySource x hd again
      (r.2 = none → exec (.sluCopy e c hd seen again parity) s = .next (s.put ((r.1.crcFailed y.owner y.remote none).endCtx x.eng x.id 0x0C 0))) ∧
      (∀ bs, r.2 = some bs →
        let put := fun (d : Device) => match (if y.coding = 2 ∧ y.locHost = false then encodePasses y.tables seen bs else none) with
          | some o => (d.putLocal x false y.loc o).endCtx x.eng x.id 0 (o.length + 2 ^ 63)
          | none => (d.copyPut x bs).endCtx x.eng x.id 0 y.length
        (parity < 5 → exec (.sluCopy e c hd seen again parity) s = .next (s.put (r.1.sluCheck x parity y.remHost y.remote put))) ∧
        (5 ≤ parity → exec (.sluCopy e c hd seen again parity) s = .next (s.put (r.1.sluCheck x parity y.locHost y.loc put))))) ∧
    (∀ parity, op = 8 → b.localFault x y.locHost y.loc 8 true = none → exec (.signalWord e c parity) s =
      .next (s.put (b.sluCheck x parity y.locHost y.loc fun d =>
        (d.putLocal x y.locHost y.loc (leBytes 8 y.operand)).endCtx x.eng x.id 0 0))) ∧
    (∀ hd parity, op = 9 → b.localFault x y.locHost y.loc 8 false = none →
      exec (.waitValue e c hd parity) s = .next (s.put (b.sluCheck x parity y.locHost y.loc fun d =>
        let r := d.takeSource x y.locHost y.loc 8 hd
        if leValue r.2 = y.operand then r.1.endCtx x.eng x.id 0 (leValue r.2)
        else r.1.modCtx x.eng x.id fun z => { z with result := leValue r.2 }))) ∧
    (∀ p : Nat × Device, op = 0x0A → b.allocFrame y.subop (if y.subop = 0 then x.eng / 16 * 32 else if y.subop = 2 then x.eng / 16 * 160 else x.eng / 16)
        y.owner y.shared = some p → exec (.allocFrame e c) s = .next (s.put (p.2.endCtx x.eng x.id 0 p.1))) ∧
    (op = 0x0A → b.allocFrame y.subop (if y.subop = 0 then x.eng / 16 * 32 else if y.subop = 2 then x.eng / 16 * 160 else x.eng / 16)
        y.owner y.shared = none → exec (.allocFrame e c) s = .next (s.put (b.endCtx x.eng x.id 0x0F 0))) ∧
    (op = 0x0B → inHeadwater y.loc 1 = true → exec (.freeFrame e c) s = .next (s.put ((b.freeHw y.loc).endCtx x.eng x.id 0 0))) ∧
    (op = 0x0B → resvBase ≤ y.loc → b.place y.loc ≠ .reserved →
      (entryValid (b.ownerEntry (frameOf y.loc)) = true → entrySlot (b.ownerEntry (frameOf y.loc)) = y.owner → exec (.freeFrame e c) s =
        .next (s.put ((match b.place y.loc with
          | .scoreRegion _ => b.freeScore (frameOf y.loc)
          | _ => b.freeRes y.loc).endCtx x.eng x.id 0 0))) ∧
      (entryValid (b.ownerEntry (frameOf y.loc)) = false ∨ entrySlot (b.ownerEntry (frameOf y.loc)) ≠ y.owner →
        exec (.freeFrame e c) s = .next (s.put ((b.record
          { cause := 3, severity := 1, status := 1, unitKind := 2, unit := x.eng, owner := y.owner, address := y.loc, detail := [(2, b.ownerEntry (frameOf y.loc))] }).endCtx x.eng x.id 1 0)))) ∧
    (op = 0x0F → exec (.sluNop e c) s = .next (s.put (b.endCtx x.eng x.id 0 0)))) ∧
  (∀ (s : State) (e c : Nat) (x : SluCtx), s.awake → s.dev.ctx e c = some x → x.done = false →
    (x.started = true → x.desc.opcode = 9 → exec (.waitValueTimeout e c) s = .next (s.put (s.dev.endCtx e c 2 x.result))) ∧
    (x.started = false → x.desc.opcode = 0x0F → s.dev.mayStart x = true → s.dev.stoppedBy x = true →
      exec (.sluNop e c) s = .next (s.put (s.dev.endCtx e c 0x12 0))) ∧
    (∀ parity, x.started = false → x.desc.opcode = 8 → s.dev.mayStart x = true → s.dev.stoppedBy x = false → s.dev.descWaits x.desc = true →
      exec (.signalWord e c parity) s = .next (s.put (s.dev.noteWait x.desc.loc 8))))

/-- A SIGNAL of a host queue that may start, whose eight bytes in device memory below the reservoir it may write: after it the eight bytes
at LOCAL are those of OPERAND, the least significant first, and every other byte of memory reads as before. (R249.) -/
def Obligations.SignalWritesItsWord : Prop :=
  ∀ (s : State) (e c : Nat) (x : SluCtx), s.begins e c 8 x → x.desc.locHost = false → x.desc.loc + 8 ≤ resvBase →
    (∃ q n g p, x.iss = .hostQ q n g p) → (s.dev.ctxBegun e c).localFault x false x.desc.loc 8 true = none →
      ∃ t, exec (.signalWord e c 0) s = .next t ∧
        (∀ k, k < 8 → t.dev.byte (x.desc.loc + k) = BitVec.ofNat 8 (x.desc.operand / 2 ^ (8 * k))) ∧
        (∀ a, (a < x.desc.loc ∨ x.desc.loc + 8 ≤ a) → t.dev.byte a = s.dev.byte a)

/-- REGISTER of a FREE region with an image that R257 admits leaves the region VALID with the image's fields, the entry's own GEN and a
SECRET of the generator; of a region that is not FREE it ends REGION_STATE; an image that R257 refuses ends INVALID. A parity check that
fails its last replay ends it as an uncorrectable error. REVOKE leaves a VALID region REVOKING, and ends REGION_STATE on another.
REVOKE_COMPLETE on a REVOKING region with no message in flight leaves it FREE with GEN one higher modulo 65,536; on another it changes
nothing. (R255, R256, R257, R260.) -/
def Obligations.RegionsRegisterAndRevoke : Prop :=
  (∀ (s : State) (e c : Nat) (x : SluCtx) (hd : List Byte), s.begins e c 0x0C x →
    let b := s.dev.ctxBegun e c
    let r := b.takeSource x x.desc.locHost x.desc.loc 32 hd
    let g := Region.ofImage r.2 x.fn.port
    let old := s.dev.region x.desc.region
    b.localFault x x.desc.locHost x.desc.loc 32 false = none → x.desc.region ≠ 0xFFFF →
      (old.state = 0 → r.1.regionInvalid g = false → ∃ t, exec (.registerRegion e c hd 0) s = .next t ∧
        t.dev.region x.desc.region = { g with gen := old.gen, secret := s.dev.rand 48, state := 1 }) ∧
      (∀ parity, 4 ≤ parity → exec (.registerRegion e c hd parity) s = .next (s.put (b.sluCheck x parity x.desc.locHost x.desc.loc fun d => d))) ∧
      (old.state ≠ 0 → exec (.registerRegion e c hd 0) s = .next (s.put (r.1.endCtx x.eng x.id 0x13 0))) ∧
      (old.state = 0 → r.1.regionInvalid g = true → exec (.registerRegion e c hd 0) s = .next (s.put (r.1.endCtx x.eng x.id 0x0E 0)))) ∧
  (∀ (s : State) (e c : Nat) (x : SluCtx), s.begins e c 0x0D x →
    ((s.dev.region x.desc.region).state = 1 → ∃ t, exec (.revokeRegion e c) s = .next t ∧
      t.dev.region x.desc.region = { s.dev.region x.desc.region with state := 2 }) ∧
    ((s.dev.region x.desc.region).state ≠ 1 → exec (.revokeRegion e c) s = .next (s.put ((s.dev.ctxBegun e c).endCtx x.eng x.id 0x13 0)))) ∧
  (∀ (s : State) (r : Nat), s.awake →
    ((s.dev.region r).state = 2 → (s.dev.region r).inFlight = 0 → ∃ t, exec (.revokeComplete r) s = .next t ∧
      t.dev.region r = { s.dev.region r with state := 0, gen := ((s.dev.region r).gen + 1) % 65536 }) ∧
    ((s.dev.region r).state ≠ 2 ∨ (s.dev.region r).inFlight ≠ 0 → exec (.revokeComplete r) s = .next s))

/-- A descriptor that may start, to a node that is not marked dead: ATOMIC and SEND register one message and send it; a READ asks for
LENGTH bytes in messages of at most the message size each; a WRITE within one message size sends its bytes, and completes at once where it
goes to the device itself without AT_PLACEMENT; a longer WRITE registers one message for each message size of its bytes; KEY is 0 to the
furrow window; FLUSH ends at once with nothing unanswered and otherwise waits for every unanswered message to the node; a flash read or
write of allowed frames behind a READY root port issues its NVMe commands. To a dead node each ends DEAD_TARGET (4). SLU_FLUSH_START while
no flush is active shows the node, and ends 0, 4, or is ACTIVE. (R249, R262, R265, R269, R275.) -/
def Obligations.SluiceMessagesGoOut : Prop :=
  (∀ (s : State) (e c op : Nat) (x : SluCtx), s.begins e c op x →
    let b := s.dev.ctxBegun e c
    let y := x.desc
    let m := s.dev.msgBytes
    (op ∈ [2, 3] → b.localFault x y.locHost y.loc y.length (op == 3) = none → s.dev.rt.dead.contains y.node = true → ∀ hd seen parity,
      (op = 2 → exec (.sluWrite e c hd seen parity) s = .next (s.put (b.endCtx x.eng x.id 4 0))) ∧
      (op = 3 → exec (.sluRead e c) s = .next (s.put (b.endCtx x.eng x.id 4 0)))) ∧
    (op ∈ [4, 5, 0x0E] → s.dev.rt.dead.contains y.node = true →
      (op = 4 → exec (.sluAtomic e c) s = .next (s.put (b.endCtx x.eng x.id 4 0))) ∧
      (op = 5 → exec (.sluFlush e c) s = .next (s.put (b.endCtx x.eng x.id 4 0))) ∧
      (op = 0x0E → exec (.sluiceSend e c) s = .next (s.put (b.endCtx x.eng x.id 4 0)))) ∧
    (s.dev.rt.dead.contains y.node = false →
      (∀ hd seen parity, op = 2 → 0 < y.length → y.length ≤ m → b.localFault x y.locHost y.loc y.length false = none →
        exec (.sluWrite e c hd seen parity) s = .next (s.put (b.sluCheck x parity y.locHost y.loc fun d =>
          let r := d.takeSource x y.locHost y.loc y.length hd
          let f := putFields y r.1.fab.msgId 1
          let z := (r.1.expect x 1 y.length).post
            { msgId := 0, eng := x.eng, ctx := x.id, node := y.node, cls := y.cls, src := y.loc, srcHost := y.locHost, len := r.2.length,
              code := wireCode y, hdr := { key := windowKey y, offset := y.remote, region := y.region, op := 1, owner := y.owner, operand := f.1, compare := f.2 } } (r.2.take m) (seen.take m)
          if y.node = z.node ∧ y.atPlacement = false then z.endCtx x.eng x.id 0 y.length else z))) ∧
      (∀ hd seen, op = 2 → 0 < m → y.region ≠ 0xFFFF → wireCode y = 0 → (y.node ≠ s.dev.node ∨ y.atPlacement = true) → b.localFault x y.locHost y.loc y.length false = none →
        ∃ t, exec (.sluWrite e c hd seen 0) s = .next t ∧ (t.dev.ctx x.eng x.id).map (fun z => (z.pending, z.done)) = some (ceilDiv y.length m, false) ∧
          (t.dev.slu.msgs.map fun o => (o.src, o.len, o.hdr.offset, o.hdr.key)) = (s.dev.slu.msgs.map fun o => (o.src, o.len, o.hdr.offset, o.hdr.key)) ++
            (List.range (ceilDiv y.length m)).map fun i => (y.loc + i * m, min m (y.length - i * m), y.remote + i * m, y.key)) ∧
      (op = 3 → 0 < m → b.localFault x y.locHost y.loc y.length true = none →
        ∃ t, exec (.sluRead e c) s = .next t ∧ (t.dev.ctx x.eng x.id).map (fun z => (z.pending, z.done)) = some (ceilDiv y.length m, false) ∧
          (t.dev.slu.msgs.map fun o => (o.dst, o.len, o.node, o.hdr)) = (s.dev.slu.msgs.map fun o => (o.dst, o.len, o.node, o.hdr)) ++
            (List.range (ceilDiv y.length m)).map fun i => (y.loc + i * m, min m (y.length - i * m), y.node,
              { key := windowKey y, offset := if y.region = 0xFFFF then y.remote else y.remote + i * m, region := y.region, op := 2, codedWire := wireCode y != 0, tables := y.tables, owner := y.owner, operand := min m (y.length - i * m), compare := if y.region = 0xFFFF then i * m else 0 })) ∧
      (op = 4 → exec (.sluAtomic e c) s = .next (s.put ((b.modCtx x.eng x.id fun z => { z with pending := 1 }).post
        { msgId := 0, eng := x.eng, ctx := x.id, node := y.node, cls := y.cls, len := 8,
          hdr := { key := windowKey y, offset := y.remote, region := y.region, op := 4, owner := y.owner, subop := y.subop, operand := y.operand,
                   compare := y.compare } } []))) ∧
      (op = 0x0E → exec (.sluiceSend e c) s = .next (s.put ((b.modCtx x.eng x.id fun z => { z with pending := 1 }).post
        { msgId := 0, eng := x.eng, ctx := x.id, node := y.node, cls := y.cls, len := x.payload.length, data := x.payload,
          hdr := { op := 9, owner := y.owner } } x.payload))) ∧
      (op = 5 → exec (.sluFlush e c) s = .next (s.put (if s.dev.unanswered y.node = [] then b.endCtx x.eng x.id 0 0
        else b.modCtx x.eng x.id fun z => { z with watch := s.dev.unanswered y.node }))))) ∧
  (∀ (s : State) (e c at_ : Nat) (x : SluCtx), s.awake → (s.dev.at_ at_).ctx e c = some x → x.started = false → x.done = false → (s.dev.at_ at_).mayStart x = true →
    (s.dev.at_ at_).stoppedBy x = false → (s.dev.at_ at_).descWaits x.desc = false →
    let b := (s.dev.at_ at_).ctxBegun e c
    let y := x.desc
    (y.opcode = 6 → b.localFault x y.locHost y.loc y.length true = none → b.flashFault x false = none →
      exec (.flashRead e c at_) s = .next (s.put (b.flashCommands x .read [] y.length))) ∧
    (∀ hd seen parity, y.opcode = 7 → b.localFault x y.locHost y.loc y.length false = none → b.flashFault x true = none →
      exec (.flashWrite e c at_ hd seen parity) s = .next (s.put (b.sluCheck x parity y.locHost y.loc fun d =>
        let r := d.takeSource x y.locHost y.loc y.length hd
        let bs := (if y.coding = 2 then encodePasses y.tables seen r.2 else none).getD r.2
        let n := ceilDiv bs.length 4096 * 4096
        r.1.flashCommands x .write (bs ++ List.replicate (n - bs.length) 0) n)))) ∧
  (∀ (s : State) (port node : Nat), s.takes port → s.dev.on F.SLU_FLUSH_STATUS.ACTIVE = false → node < 65536 →
    ∃ t, exec (.sluFlushStart port node) s = .next t ∧ t.dev.fld F.SLU_FLUSH_STATUS.NODE = node ∧
      (s.dev.rt.dead.contains node = true → t.dev.fld F.SLU_FLUSH_STATUS.STATUS = 4) ∧
      (s.dev.rt.dead.contains node = false → s.dev.unanswered node = [] → t.dev.fld F.SLU_FLUSH_STATUS.STATUS = 0) ∧
      (s.dev.rt.dead.contains node = false → s.dev.unanswered node ≠ [] →
        t.dev.on F.SLU_FLUSH_STATUS.ACTIVE = true ∧ t.dev.slu.flushWatch = s.dev.unanswered node))

/-- An answer that names an unanswered message of this device to its sender: an ACK settles a write or a SEND as OK; a NACK settles any
message with the status it carries; a READ_RESP, expanded where it is coded, places its bytes at the message's destination and settles it,
and ends it as an uncorrectable error where its placing fails its last replay; an ATOMIC_RESP gives the old value as RESULT; a FAULT below
FAULT_LIMIT makes the message wait the delay it gives, and the FAULT_LIMIT-th settles it with PAGE_FAULT_RETRY (5); the delay's end sends
it again under a new ID, unanswered. RETRANSMIT_TIMEOUT sends the message again while RETRIES is below LIMIT, and else settles it
TIMEOUT_EXHAUSTED (2). (R263, R264, R266, R270.) -/
def Obligations.SluiceAnswersAreTaken : Prop :=
  ∀ (s : State), s.awake →
    (∀ (m : Msg) (o : OutMsg), s.dev.outMsg m.hdr.reqId = some o → o.node = m.src →
      (o.hdr.op = 1 ∨ o.hdr.op = 9 → exec (.ackMsg m) s = .next (s.put ((s.dev.take m).settle o 0))) ∧
      exec (.nackMsg m) s = .next (s.put ((s.dev.take m).settle o (max 1 m.hdr.subop))) ∧
      (∀ x, o.hdr.op = 2 → s.dev.ctx o.eng o.ctx = some x → x.abandoned = false → s.dev.respWaits m = none →
        let n := if o.hdr.region = 0xFFFF then min o.len m.data.length else o.len
        (∀ bs parity, parity ≤ 3 → (if m.hdr.codedWire then expandAll m.data o.len else .ok (fit n m.data)) = .ok bs →
          let b := if parity = 0 then s.dev.take m else (s.dev.take m).count F.ERR_COUNTS.REPLAYED
          exec (.readResp m parity) s = .next (s.put (((((b.gotOwn m).putLocal x x.desc.locHost o.dst (fit n bs)).modCtx o.eng o.ctx fun y =>
            { y with placed := y.placed + n, result := y.result + n })).settle o 0))) ∧
        (∀ parity, 3 < parity →
          let st := if !x.desc.locHost && decide (resvBase ≤ o.dst) then 0x0C else 0x0D
          exec (.readResp m parity) s = .next (s.put (((s.dev.take m).uncorrectable
            { cause := 1, severity := 2, status := st, replays := 3, unitKind := 2, unit := o.eng, owner := o.hdr.owner, address := o.dst }).settle o st)))) ∧
      (o.hdr.op = 4 → exec (.atomicResp m) s =
        .next (s.put (((s.dev.take m).modCtx o.eng o.ctx fun y => { y with result := m.hdr.operand }).settle o 0))) ∧
      (o.faults + 1 < s.dev.fld F.SLU_ODP.FAULT_LIMIT → exec (.odpFault m) s =
        .next (s.put (((s.dev.take m).count F.SLU_ENG_RETRY.FAULTS 1 o.eng).modMsg o.msgId fun x =>
          { x with faults := x.faults + 1, faultWait := true, waiting := m.hdr.operand }))) ∧
      (s.dev.fld F.SLU_ODP.FAULT_LIMIT ≤ o.faults + 1 → exec (.odpFault m) s =
        .next (s.put (((s.dev.take m).count F.SLU_ENG_RETRY.FAULTS 1 o.eng).settle o 5)))) ∧
    (∀ (id : Nat) (o : OutMsg) (hd seen : List Byte), s.dev.outMsg id = some o →
      (o.faultWait = true → ∃ t, exec (.faultDelayExpiry id hd seen) s = .next t ∧ t.dev.fab.msgId = (s.dev.fab.msgId + 1) % 2 ^ 48 ∧
        ∃ p ∈ t.dev.slu.msgs, p = { o with msgId := s.dev.fab.msgId, attempt := 0, retries := 0, stale := false, faultWait := false }) ∧
      (o.faultWait = false → o.retries < s.dev.fld F.SLU_RETRY.LIMIT → exec (.retransmitTimeout id hd seen) s =
        .next (s.put (((((s.dev.count F.SLU_ENG_RETRY.RETRIES 1 o.eng).modCtx o.eng o.ctx fun x => { x with retries := x.retries + 1 }).modMsg id
          fun _ => { o with retries := o.retries + 1 })).resend { o with retries := o.retries + 1 } hd seen))) ∧
      (o.faultWait = false → s.dev.fld F.SLU_RETRY.LIMIT ≤ o.retries → exec (.retransmitTimeout id hd seen) s =
        .next (s.put (((s.dev.count F.SLU_ENG_RETRY.EXHAUSTED 1 o.eng).event F.SLU_EVENTS.TIMEOUT_EXHAUSTED).settle o 2))))

/-- A whole message to a region that is not held already: one that its memory of finished messages holds (not a read) is answered from
memory; one whose check fails is rejected with the first failing reason of Table 11.7; an admitted write (expanded where it is coded),
read or atomic is counted; where a page of its range draws FAULT it ends so, where its range can be accessed it is carried out and
answered under its parity checks, and otherwise it is held. A SEND is acknowledged once and delivered. A furrow read that no furrow serves
is rejected with reason FURROW (8), another is served. A reassembly timeout frees the context and releases an admitted write's count. An
expired memory of a message is forgotten. A page that has been read, from a drive or a spill frame, is placed, its table entry set
RESIDENT, and what waited goes on; one that could not be read ends what waited. (R114, R258, R259, R263, R267, R270, R273.) -/
def Obligations.TargetsAdmitRejectAndRemember : Prop :=
  ∀ (s : State), s.awake →
    (∀ (m : Msg) hd seen parity, m.hdr.op ∈ [1, 2, 4] → m.hdr.region ≠ 0xFFFF → m.checked = false →
      ((s.dev.take m).slu.held.any fun x => x.src == m.src && x.msgId == m.msgId) = false →
      let run := fun (c : Instr) (o : Nat) (d : Device) => m.hdr.op = o → exec c s = .next (s.put d)
      let all := fun (d : Device) => run (.writeMessage m parity) 1 d ∧ run (.readReq m hd seen parity) 2 d ∧ run (.atomicReq m parity) 4 d
      let b := s.dev.admitted m
      let w := { m with checked := true }
      let g := b.region m.hdr.region
      let need := fun (n : Nat) => b.odpNeed w n g (msgRanges w n)
      let ready := fun (n : Nat) => (msgRanges w n).all fun r => (need n).1.regionReady g r.1 r.2
      (∀ x, m.hdr.op ≠ 2 → s.dev.remembered m.src m.msgId = some x → all ((s.dev.take m).answerMemory m x)) ∧
      (m.hdr.op = 2 ∨ s.dev.remembered m.src m.msgId = none →
        ((s.dev.take m).violation m m.data.length ≠ 0 → all ((s.dev.take m).reject m m.data.length ((s.dev.take m).violation m m.data.length))) ∧
        ((s.dev.take m).violation m m.data.length = 0 →
          (∀ n bs, (m.hdr.op = 1 → (if m.hdr.codedWire then expandAll m.data 0 else .ok m.data) = .ok bs ∧ n = bs.length ∧
                (m.hdr.codedWire = true → m.hdr.offset + n ≤ g.length ∧ b.framesOk g m.hdr.offset n true = true)) →
              (m.hdr.op = 2 → n = m.hdr.operand) → (m.hdr.op = 4 → n = 8) →
            ((need n).2 = true → all (need n).1) ∧
            ((need n).2 = false → ready n = true →
              run (.writeMessage m parity) 1 ((need n).1.targetCheck w parity fun d => (d.regionWrite g m.hdr.offset bs).writeDone w) ∧
              run (.readReq m hd seen parity) 2 ((need n).1.targetCheck w parity fun d =>
                d.respond w m.hdr.region (d.regionRead (d.region m.hdr.region) m.hdr.offset m.hdr.operand hd) seen) ∧
              run (.atomicReq m parity) 4 ((need n).1.targetCheck w parity fun d => d.applyAtomic w)) ∧
            ((need n).2 = false → ready n = false →
              ∀ i ∈ [Instr.writeMessage m parity, .readReq m hd seen parity, .atomicReq m parity], (m.hdr.op = 1 → i = .writeMessage m parity) →
                (m.hdr.op = 2 → i = .readReq m hd seen parity) → (m.hdr.op = 4 → i = .atomicReq m parity) →
                ∃ t, exec i s = .next t ∧ t.dev.slu.held = (need n).1.slu.held ++ [w])) ∧
          (∀ err, m.hdr.op = 1 → m.hdr.codedWire = true → expandAll m.data 0 = .error err →
            exec (.writeMessage m parity) s = .next (s.put (b.targetError w 2 [(1, err.row)])))))) ∧
    (∀ m : Msg, m.hdr.op = 9 → s.dev.remembered m.src m.msgId = none →
      ∃ t, exec (.sendMessage m) s = .next t ∧ t.dev.slu.delivered = s.dev.slu.delivered ++ [m] ∧
        t.dev.slu.finished = s.dev.slu.finished ++ [{ src := m.src, msgId := m.msgId, status := 0, old := 0, atomic := false }]) ∧
    (∀ (m : Msg) tries parity, m.hdr.op = 2 → m.hdr.region = 0xFFFF → m.checked = false →
      (s.dev.furrowServes m.src m.hdr.offset m.hdr.owner = none →
        exec (.furrowRead m tries parity) s = .next (s.put ((s.dev.take m).reject m m.data.length 8))) ∧
      (∀ i, s.dev.furrowServes m.src m.hdr.offset m.hdr.owner = some i →
        let g := (s.dev.furrow i).base + m.hdr.offset % 2 ^ 32
        ((s.dev.pte g).tier = 2 → s.dev.waits (frameAddr (s.dev.pte g).frame) (m.hdr.compare + m.hdr.operand) = false) →
        exec (.furrowRead m tries parity) s = .next (s.put ((s.dev.take m).servePage m g tries parity)))) ∧
    (∀ src id, ∃ t, exec (.memoryExpiry src id) s = .next t ∧ t.dev.remembered src id = none) ∧
    (∀ src id c, s.dev.rxCtx src id = some c → c.admitted = true → c.hdr.op = 1 →
      (∀ m ∈ s.dev.slu.inbox ++ s.dev.slu.held ++ s.dev.slu.serving.map (·.m), ¬ (m.src = src ∧ m.msgId = id)) →
      (∀ j ∈ s.dev.slu.jobs, ∀ m n, j.use = .serve m n → ¬ (m.src = src ∧ m.msgId = id)) →
      exec (.reassemblyTimeout src id) s = .next (s.put ((s.dev.setRx (s.dev.fab.ctxs.filter (· != c)) c.engine).abandon (c.msg 0) c.total))) ∧
    (∀ src id, ∃ t, exec (.reassemblyTimeout src id) s = .next t ∧ ∀ m ∈ t.dev.slu.held, m.src = src → m.msgId = id → m.checked = false) ∧
    (∀ r page x tries, s.dev.odpOf r page = some x →
      let spilled := ((s.dev.extentOf x.flash).map fun e => s.dev.fld F.NVM_EXT_CFG.KIND e == 2).getD false
      let place := fun (d : Device) (bs : List Byte) =>
        ((({ d with slu.odp := d.slu.odp.erase x } : Device).writeMem x.frame (fit frameBytes bs)).storeVal x.entryAddr 4 (2 ^ 30 + frameOf x.frame)).resumeHeld
      (spilled = false → x.ended = some 0 → s.dev.waits x.frame frameBytes = false → exec (.odpPageReady r page tries) s = .next (s.put (place s.dev x.data))) ∧
      (∀ st, spilled = false → x.ended = some st → st ≠ 0 → exec (.odpPageReady r page tries) s =
        .next (s.put ((({ s.dev with slu.odp := s.dev.slu.odp.erase x } : Device).freeRes x.frame).odpLost x st))) ∧
      (∀ d bs, spilled = true → s.dev.spillPage x.flash frameBytes tries = (d, some bs) → s.dev.waits x.frame frameBytes = false →
        exec (.odpPageReady r page tries) s = .next (s.put (place d bs))))

/-- A packet that has arrived: for another node it goes on in transit; a malformed one is dropped, counted and signalled; one of no bank
of this device's epochs is counted as stale and noticed; a sealed one without its owner's key, or whose tag is wrong, and one whose own
bytes fail their parity check, is dropped and counted; one in clear passes to its message: an answer packet is handed on whole, another
joins or opens the context of its message, and one that has been taken already is counted as a duplicate. (R318, R323.) -/
def Obligations.PacketsAreReceived : Prop :=
  ∀ (s : State) (at_ link : Nat) (p : Packet) (sj : Bool) (parity : Nat), s.awake →
    let n : Device := s.dev.at_ at_
    let b : Device := { n with fab.arrived := n.fab.arrived.erase (link, p) }
    let is := fun (d : Device) => exec (.packetReceived at_ link p sj parity) s = .next (s.put d)
    let dropped := fun (f ev : Field) => is (b.dropPacket f ev)
    (p.dest ≠ s.dev.node → is (b.transit p)) ∧
    (p.dest = s.dev.node →
      (malformed p = true → dropped F.FAB_RX_DROPS.MALFORMED F.FAB_EVENTS.MALFORMED) ∧
      (malformed p = false → p.tc ≠ 0 → s.dev.bankFor p.epoch = none → is ((b.count F.FAB_ROUTE_STATS.STALE_SENT).notice 0x41 p)) ∧
      (malformed p = false → (p.tc = 0 ∨ (s.dev.bankFor p.epoch).isSome = true) →
        (p.enc = true → b.hasKey (p.op.owner % 4096) = false → dropped F.FAB_RX_DROPS.NO_KEY F.FAB_EVENTS.NO_KEY) ∧
        (p.enc = true → b.hasKey (p.op.owner % 4096) = true →
          (b.openPkt p = none → dropped F.FAB_RX_DROPS.TAG F.FAB_EVENTS.TAG) ∧
          (∀ bs, b.openPkt p = some bs → parity < 5 → is (b.rxPacket p bs sj parity))) ∧
        (5 ≤ parity → (p.enc = true → b.hasKey (p.op.owner % 4096) = true) → dropped F.FAB_RX_DROPS.TAG F.FAB_EVENTS.TAG) ∧
        (p.enc = false → parity < 5 →
          is (b.rxPacket p p.payload sj parity) ∧
          (answerPacket p = true → ∃ t, exec (.packetReceived at_ link p sj parity) s = .next t ∧ t.dev.slu.inbox = s.dev.slu.inbox ++
            [{ src := p.src, msgId := p.msgId, attempt := p.attempt, hdr := p.op, tc := p.tc, sameJob := sj }] ∧ s.dev.framed t.dev []) ∧
          (∀ c, answerPacket p = false → p.kind = 1 → s.dev.rxCtx p.src p.msgId = some c → p.total = c.total →
            (c.bitmap.testBit (p.offset / 4096) = true → is (b.count F.FAB_RX_STATS.DUPLICATES)) ∧
            (c.bitmap.testBit (p.offset / 4096) = false → is (b.rxTake c p p.payload parity))))))

/-- An access to the reservoir that R102 and R118 allow and whose parity holds, at a replay or at once, is carried out where its channel
serves memory, and joins the channel's waiting accesses in order, counted, while the channel is entering, in or leaving processor mode or
its stack is in self-refresh; a check that fails its last replay is an uncorrectable error; a reserved range and another owner's frame
draw the record of R102 and R118. A refresh that falls due with fewer than four owed may be postponed, counted as such, and those issued
are counted and leave the debt; an RFM is counted and issued. (R102, R107, R110, R113, R118, R130, R151.) -/
def Obligations.ReservoirAccessesAndRefresh : Prop :=
  ∀ (s : State), s.awake →
    (∀ at_ addr len owner write pfq data parity, resvBase ≤ addr →
      let b := s.dev.at_ at_
      let k := (addr - resvBase) / channelBytes
      let x : MemAcc := { at_ := b.now, addr := addr, len := len, owner := owner, write := write, pfq := pfq, data := data }
      let run := fun (d : Device) => exec (.memoryAccess at_ addr len owner write pfq data parity) s = .next (s.put d)
      (s.dev.check addr len owner write pfq = .reserved →
        run (b.record { cause := 6, severity := 1, status := 1, unitKind := 3, unit := k, owner := owner, address := addr })) ∧
      (∀ o, s.dev.check addr len owner write pfq = .owner o →
        run (b.record { cause := 3, severity := 1, status := 1, unitKind := 3, unit := k, owner := owner, address := addr, detail := [(2, o)] })) ∧
      (s.dev.check addr len owner write pfq = .ok →
        (3 < parity → run (b.uncorrectable { cause := 1, severity := 2, status := 0x0C, replays := 3, persistent := !write, unitKind := 3, unit := k, owner := owner, address := addr, detail := [(4, 0)] })) ∧
        (parity ≤ 3 →
          let c := if parity = 0 then b else b.count F.ERR_COUNTS.REPLAYED
          (s.dev.chWaits k = true → run ((c.setChan k { s.dev.chan k with waiting := (s.dev.chan k).waiting ++ [x] }).noteWait addr 1)) ∧
          (s.dev.chWaits k = false → run (c.access k x) ∧
            (write = false → parity = 0 → ∀ t, exec (.memoryAccess at_ addr len owner write pfq data parity) s = .next t → s.dev.framed t.dev []))))) ∧
    (∀ k bank, s.dev.part.channel k = true → bank < 16 → s.dev.chMode k ≠ 2 → s.dev.mem5.selfRefresh.contains (k / 40) = false →
      ((s.dev.chan k).debt bank < 4 → exec (.refreshDue k bank 0) s = .next (s.put ((s.dev.count F.PIM_CH_REFRESH.POSTPONED 1 k).setDebts k
        ((List.range 16).map fun b => if b = bank then (s.dev.chan k).debt bank + 1 else (s.dev.chan k).debt b)))) ∧
      (∀ issue, 0 < issue →
        let n := min issue ((s.dev.chan k).debt bank + 1)
        exec (.refreshDue k bank issue) s = .next (s.put (((s.dev.count F.PIM_CH_REFRESH.REFPB n k).emit (.dram k 1 bank n)).setDebts k
          ((List.range 16).map fun b => if b = bank then (s.dev.chan k).debt bank + 1 - n else (s.dev.chan k).debt b))))) ∧
    (∀ k bank, s.dev.part.channel k = true →
      exec (.rfmRequest k bank) s = .next (s.put ((s.dev.count F.PIM_CH_REFRESH.RFM 1 k).emit (.dram k 2 bank 0))))

/-- With a window that R131 to R136 allow, WINDOW_OPEN takes the channel of the oldest bid to ENTERING with that window; ENTERING_DONE
takes ENTERING to PROCESSOR with the rate read; WINDOW_END takes PROCESSOR to EXITING when nothing remains to run, the next step does not
fit or MR4 has read beyond 4x; EXIT_DONE takes EXITING to MEMORY, or to HOT after heat, with no window, and issues what waited;
CLEARING_DONE takes CLEARING to MEMORY, or to BARRED without a score region; an MR4 reading beyond 4x takes MEMORY to HOT, and of two
later readings below it in a row the second takes HOT back. (R128, R131, R133, R138, R152.) -/
def Obligations.ChannelModes : Prop :=
  (∀ (s : State) (at_ : Nat) (b : Bid), s.awake →
    let d := s.dev.at_ at_
    let limit := min (d.fld F.PIM_CTRL.WINDOW_LIMIT) (d.deadlineAt - 2000 - d.now)
    s.dev.part.isL = false → d.running = true → s.dev.turn.unexamined = [] → 500 < limit → d.tracks < d.fld F.ROTA_LIMITS.PIM_ALLOT →
      d.bestBid = some b → b.2.2.1 < 320 → ∃ t, exec (.windowOpen at_) s = .next t ∧ t.dev.chMode b.2.2.1 = 1 ∧
        (t.dev.chan b.2.2.1).win = some
          { entry := b.2.1, self := b.2.2.2, opened := max s.dev.now at_, limit := limit,
            clears := min 128 (s.dev.pim.awaiting.filter fun f => f.1 == b.2.2.1).length } ∧
        s.dev.framed t.dev [.PIM_CH_STATUS, .PIM_CH_WINDOWS]) ∧
  (∀ (s : State) (k : Nat), s.awake → k < 320 →
    (∀ rate w, rate ≤ 3 → s.dev.chMode k = 1 → (s.dev.chan k).win = some w →
      ∃ t, exec (.enteringDone k rate) s = .next t ∧ t.dev.chMode k = 2 ∧ t.dev.fld F.PIM_CH_STATUS.RATE k = rate ∧
        (t.dev.chan k).win = some { w with t := 500 + 250 * w.clears, heat := rate == 3 }) ∧
    (∀ w, s.dev.chMode k = 2 → (s.dev.chan k).win = some w → (w.heat = true ∨ s.dev.nextPim k = none ∨ ∃ q x, s.dev.nextPim k = some (q, x) ∧ s.dev.stepEnds k w x = true) →
      ∃ t, exec (.windowEnd k) s = .next t ∧ t.dev.chMode k = 3) ∧
    (∀ w at_, s.dev.chMode k = 3 → (s.dev.chan k).win = some w →
      let b := (s.dev.at_ at_).count F.PIM_CH_WINDOWS.PROC_US ((max s.dev.now at_ - w.opened) / 1000) k
      exec (.exitDone k at_) s = .next (s.put ((((b.setChan k { s.dev.chan k with win := none, cool := 0 }).clearUnits k).setMode k (if w.heat then 4 else 0)).issueWaiting k)) ∧
      (s.dev.mem5.leaving = [] → s.dev.slu.held = [] → s.dev.fab.ctxs = [] → (s.dev.chan k).waiting = [] → (s.dev.chan k).hold0 = [] → (s.dev.chan k).hold1 = [] →
        ∃ t, exec (.exitDone k at_) s = .next t ∧ t.dev.chMode k = (if w.heat then 4 else 0) ∧ (t.dev.chan k).win = none)) ∧
    (s.dev.chMode k = 6 → ∃ t, exec (.clearingDone k) s = .next t ∧
      t.dev.chMode k = (if s.dev.fld F.PIM_CH_STATUS.SCORE_SIZE k = 0 then 5 else 0)) ∧
    (s.dev.part.channel k = true →
      (s.dev.chMode k = 0 → ∃ t, exec (.mr4Read k 3) s = .next t ∧ t.dev.chMode k = 4 ∧ t.dev.fld F.PIM_CH_STATUS.RATE k = 3) ∧
      (∀ rate, rate < 3 → s.dev.chMode k = 4 → ∃ t, exec (.mr4Read k rate) s = .next t ∧
        t.dev.chMode k = (if 1 ≤ (s.dev.chan k).cool then 0 else 4) ∧ t.dev.fld F.PIM_CH_STATUS.RATE k = rate)))

/-- In an open window whose next command is allowed: a RANK whose scans reach its last page ends OK with its best pages, one whose scans
go on keeps what they have reached, and one that a check fails for good ends UNCORRECTABLE; an SWRITE and SREAD that fit take their time
of Table 6.8, and again at each replay, and end OK; an SCLEAR that fits whole clears its frames at 250 ns each and ends OK; a fence ends
OK with the counts since the one before, and starts them anew. The driver ring's TAIL takes the value written, and the descriptors up to
it are read; a fetch moves HEAD and queues the descriptor, unless its queue is full. Whatever the command, list and window, a RANK keeps
at most TOPN best pages, never scores more than COUNT, and its clock does not go back. (R133, R139, R140, R145, R148, R154.) -/
def Obligations.ReservoirCommandsRun : Prop :=
  (∀ (s : State) (k q : Nat) (w : PimWin) (x : PimCmd) (host list : List Byte) (op parity bank : Nat), s.inWindow k q op w x list →
    let b := s.dev.pimBegun x
    let again := b.setWin k { w with t := w.t + swTime x.dsz * (1 + min parity 3) }
    let cured := if parity = 0 then again else again.count F.ERR_COUNTS.REPLAYED
    let lost := ((again.badFrame k x x.frame bank).endPim k q x 5).refill k
    (op = 3 → list = [] → w.t + swTime x.dsz ≤ w.limit →
      (parity ≤ 3 → exec (.sread k q parity bank) s = .next (s.put (((cured.store x.a
        ((List.range 256).flatMap fun p => s.dev.readMem (frameAddr (k * 32768 + x.frame) + scoreByte x.dim x.slot p 0) x.dim)).endPim k q x 0).refill k))) ∧
      (3 < parity → exec (.sread k q parity bank) s = .next (s.put lost))) ∧
    (op = 2 → list = [] → w.t + swTime x.dsz ≤ w.limit →
      (parity ≤ 3 → exec (.swrite k q host parity bank) s = .next (s.put (((cured.putForm k x
        (if x.list ≠ [] then x.list else if x.aspace then host else s.dev.bytes x.a (256 * x.dim))).endPim k q x 0).refill k))) ∧
      (3 < parity → exec (.swrite k q host parity bank) s = .next (s.put lost))) ∧
    (op = 4 → list = [] → w.t + 250 * x.count ≤ w.limit →
      exec (.sclear k q) s = .next (s.put ((((b.zeroFrames k x x.count).setWin k { w with t := w.t + 250 * x.count }).endPim k q x 0).refill k)) ∧
      ∀ n i, n < x.count → i < frameBytes → (s.put (b.zeroFrames k x x.count)).dev.byte (frameAddr (k * 32768 + x.frame + n) + i) = 0) ∧
    (op = 15 → list = [] → w.t + 50 ≤ w.limit →
      let e := b.setWin k { w with t := w.t + 50 }
      let n := (if q = 0 then (s.dev.chan k).cmds0 else (s.dev.chan k).cmds1) + 1
      let worst := if q = 0 then (s.dev.chan k).worst0 else (s.dev.chan k).worst1
      let told := if x.rank.isNone && x.build.isNone then e.pimWrite x x.a (pack [(6, x.b), (2, 0), (4, n), (1, worst), (3, 0)]) else e
      let f := (told.endPim k q x 0).fenced k x
      let z := f.setChan k (if q = 0 then { f.chan k with cmds0 := 0, worst0 := 0 } else { f.chan k with cmds1 := 0, worst1 := 0 })
      exec (.pimFence k q) s = .next (s.put ((if x.pfq && x.irq then (z.event F.PIM_EVENTS.DQ_FENCE).msix (z.ringFn .PIM_DQ_BASE) (z.fld F.PIM_DQ_CTRL.VECTOR) else z).refill k)))) ∧
  (∀ (s : State) (k q scans : Nat) (w : PimWin) (x : PimCmd) (host : List Byte) (parity badAt badBank : Nat),
    let b := s.dev.pimBegun x
    s.inWindow k q 1 w x (b.listOf x host) →
      let data := b.queryOf x host ++ b.listOf x host
      let qb := data.take (64 + x.qn * x.dim)
      let list := data.drop (64 + x.qn * x.dim)
      let r := b.rankRun k x qb list (badPage parity badAt) w scans
      let v := r.w.replayed (r.replays parity)
      let c := b.rankCounted k w r (r.replays parity)
      let done := c.rankKept k x qb r { v with t := v.t + v.lead + 200 }
      let ends := fun (d : Device) => exec (.pimRank k q scans host parity badAt badBank) s = .next (s.put (d.refill k))
      (r.failed = none → x.count ≤ r.scored → ends (done.endPim k q (r.cmd x) 0)) ∧
      (r.failed = none → r.scored < x.count → r.full = false → ends (c.rankKept k x qb r v)) ∧
      (r.failed.isSome = true → parity ≤ 4 → ends ((done.badFrame k x (pageEntry list badAt).2.2.2 badBank).endPim k q (r.cmd x) 5)) ∧
      (r.failed.isSome = true → 4 < parity → ends ((done.badQuery k x).endPim k q (r.cmd x) 5))) ∧
  (∀ (s : State) (port tail : Nat), s.takes port → s.dev.part.isL = false →
    let size := 2 ^ s.dev.fld F.PIM_DQ_CTRL.LOG2_SIZE
    let old := s.dev.fld F.PIM_DQ_TAIL.TAIL
    (s.dev.on F.PIM_DQ_CTRL.ENABLE = false ∨ s.dev.on F.PIM_DQ_HEAD.STOPPED = true →
      exec (.pimDqTailWrite port tail) s = .next (s.put (s.dev.setFld F.PIM_DQ_TAIL.TAIL tail))) ∧
    (s.dev.on F.PIM_DQ_CTRL.ENABLE = true → s.dev.on F.PIM_DQ_HEAD.STOPPED = false → exec (.pimDqTailWrite port tail) s =
      .next (s.put ((List.range ((tail + size - old) % size)).foldl (fun (d : Device) i =>
        d.emit (.hostRead (d.ringFn .PIM_DQ_BASE) (d.fld F.PIM_DQ_BASE.ADDR * 4096 + 32 * ((old + i) % size)) 32)) (s.dev.setFld F.PIM_DQ_TAIL.TAIL tail))))) ∧
  (∀ (s : State) (bytes : List Byte), s.awake → s.dev.part.isL = false → s.dev.on F.PIM_DQ_CTRL.ENABLE = true → s.dev.on F.PIM_DQ_HEAD.STOPPED = false →
    s.dev.fld F.PIM_DQ_HEAD.HEAD ≠ s.dev.fld F.PIM_DQ_TAIL.TAIL →
      let x := PimDesc.ofBytes bytes
      ((s.dev.chan x.channel).isFull 1 = false → exec (.pimDqFetch bytes) s = .next (s.put ((s.dev.setFld F.PIM_DQ_HEAD.HEAD
        ((s.dev.fld F.PIM_DQ_HEAD.HEAD + 1) % 2 ^ s.dev.fld F.PIM_DQ_CTRL.LOG2_SIZE)).queuePim 1 (pimOfDesc x)))) ∧
      ((s.dev.chan x.channel).isFull 1 = true → exec (.pimDqFetch bytes) s = .next s)) ∧
  (∀ (d : Device) (k : Nat) (x : PimCmd) (qb list : List Byte) (bad : Option Nat) (w : PimWin) (scans : Nat),
    x.best.length ≤ x.topn → ((d.rankRun k x qb list bad w scans).best.length ≤ x.topn ∧
      x.scored ≤ (d.rankRun k x qb list bad w scans).scored ∧ (d.rankRun k x qb list bad w scans).scored ≤ max x.count x.scored ∧
      w.t ≤ (d.rankRun k x qb list bad w scans).w.t))

/-- For a running entry whose selection is open: QUERY_POST of a RESERVOIR furrow takes a new ranking and queues its RANKs, and of a
REMOTE one sends a request to HOME; SELECTION_POST of an INDEX furrow makes the list of the entries posted; RESERVOIR_MERGE of a ranking
that has fenced ends it; a RANK_REQUEST of another turn is answered outcome 5, for a furrow that this device's record does not give the
requester 3, with candidates that are not scored 4, without a grant 2, and otherwise queues its RANKs under the requester's grant; a
RANK_REPLY of another turn, for no entry that waits, or after the selection is final, is discarded with RANK_LATE, one in time with DONE
or PARTIAL makes the list, and another falls back to the selection before. A ranking cutoff that is due cuts every ranking and every
selection of an entry that runs; a fetch cutoff that is due marks a list that is not held out as cut, counts its absent pages as missing
and turns them missing in it. (R172, R173, R176, R177, R178, R186.) -/
def Obligations.RankingsAndCutoffs : Prop :=
  ∀ (s : State), s.awake →
    (∀ slot draft x, s.dev.attendOf slot draft = some x → x.final = false → x.heldOut = false → s.dev.attendRuns x = true →
      let area := s.dev.selArea slot draft
      let b := s.dev.setAttend { x with queried := true }
      let qn := s.dev.load (area + 3) 1
      let f := s.dev.furrow x.desc
      let query := s.dev.bytes (area + 0x40) (min 1088 (64 + qn * scoreDim f.dsz))
      (x.queried = false → x.mode = 2 → s.dev.load (area + 1) 1 = 1 → exec (.queryPost slot draft) s =
        .next (s.put ((b.newRank.2).queueRanks { id := b.newRank.1, slot := slot, draft := draft, turn := s.dev.turnNo, desc := x.desc, top := f.top }
          x.entry x.candFirst x.candEnd qn query))) ∧
      (x.queried = false → x.mode = 3 → s.dev.load (area + 1) 1 = 1 → exec (.queryPost slot draft) s =
        .next (s.put (b.internalSend (x.plot / 32) (.furrow x.desc .none) f.home f.owner 4
          (pack [(8, s.dev.turnNo), (4, f.id), (2, s.dev.node), (1, 0x21), (1, f.top), (4, x.candFirst), (4, x.candEnd), (1, qn), (1, f.dsz), (6, 0), (16, 0), (16, 0)] ++ query)))) ∧
      (x.mode = 1 → s.dev.load (area + 1) 1 = 2 → exec (.selectionPost slot draft) s =
        .next (s.put (s.dev.takeRanking x (s.dev.selection slot draft) false)))) ∧
    (∀ id r, s.dev.fur.rankings.find? (fun r => r.id == id && r.waiting == []) = some r →
      exec (.reservoirMerge id) s = .next (s.put (s.dev.endRanking r false))) ∧
    (∀ m : Msg,
      let b := s.dev.took m
      let at_ := fun (o n : Nat) => leValue ((m.data.drop o).take n)
      let reply := fun (owner outcome : Nat) => exec (.rankRequest m) s = .next (s.put (b.rankReply (at_ 12 2) (at_ 0 8) (at_ 8 4) owner outcome 0 []))
      let found := b.fur.desc.find? fun x => x.2.state == 2 && x.2.id == at_ 8 4 && b.isHome x.1 && b.recordOwner x.1 == some (at_ 12 2)
      let late := exec (.rankReply m) s = .next (s.put (b.event F.FUR_EVENTS.RANK_LATE))
      (at_ 14 1 = 0x21 → at_ 0 8 ≠ s.dev.turnNo → reply m.hdr.owner 5) ∧
      (at_ 14 1 = 0x21 → at_ 0 8 = s.dev.turnNo →
        (found = none → reply m.hdr.owner 3) ∧
        (∀ i f, found = some (i, f) →
          let bad := decide (at_ 20 4 > pps f) || (List.range (at_ 20 4 - at_ 16 4)).any fun k => !(b.pte (seqPage f f.rankStream (at_ 16 4 + k))).scored
          let grant := b.granted.find? fun a => a.e.kind == 4 && a.e.arg % 65536 == at_ 12 2
          (bad = true → reply f.owner 4) ∧
          (bad = false → grant = none → reply f.owner 2) ∧
          (∀ a, bad = false → grant = some a → exec (.rankRequest m) s = .next (s.put (b.newRank.2.queueRanks
            { id := b.newRank.1, requester := some (at_ 12 2), msgId := m.msgId, turn := at_ 0 8, desc := i, top := at_ 15 1 } a.index (at_ 16 4) (at_ 20 4) (at_ 24 1) (m.data.drop 64)))))) ∧
      (at_ 14 1 = 0x22 → at_ 0 8 ≠ s.dev.turnNo → late) ∧
      (at_ 14 1 = 0x22 → at_ 0 8 = s.dev.turnNo →
        let waits := s.dev.fur.attend.find? fun x => x.mode == 3 && x.queried && (s.dev.furrow x.desc).id == at_ 8 4
        (waits = none → late) ∧
        (∀ x, waits = some x →
          (x.final = true ∨ x.heldOut = true ∨ b.attendRuns x = false → late) ∧
          (x.final = false → x.heldOut = false → b.attendRuns x = true →
            (at_ 15 1 ≤ 1 → exec (.rankReply m) s = .next (s.put (b.takeRanking x (replyEntries m.data) (at_ 15 1 == 1)))) ∧
            (1 < at_ 15 1 → exec (.rankReply m) s = .next (s.put (b.fallBackPrevious x))))))) ∧
    (∀ at_, (s.dev.at_ at_).running = true → s.dev.turn.started = true →
      let b := s.dev.at_ at_
      (s.dev.turn.start + 1000 * s.dev.fld F.FUR_TIMING.RANK_CUT ≤ max s.dev.now at_ →
        let c := s.dev.fur.rankings.foldl (fun (d : Device) r => d.cutRanking r) b
        exec (.rankCutExpiry at_) s = .next (s.put (c.fur.attend.foldl (fun (d : Device) x => if d.attendRuns x then d.cutSelection x else d) c))) ∧
      (∀ x, s.dev.turn.start + 1000 * s.dev.fld F.FUR_TIMING.FETCH_CUT ≤ max s.dev.now at_ → s.dev.fur.attend = [x] → x.cut = false → x.heldOut = false →
        let gone := b.absentPages x
        let y := { x with cut := true }
        let c : Device := { b.setAttend y with fur.missing := (gone.map fun p => x.desc * 65536 + p).foldl (fun (acc : List Nat) k => if acc.contains k then acc else k :: acc) s.dev.fur.missing }
        exec (.fetchCutExpiry at_) s = .next (s.put (if c.attendRuns y then c.loseListed y (gone.filter fun p =>
          (List.range (streams (c.furrow x.desc))).any fun t => !y.lost.contains (seqPage (c.furrow x.desc) t p)) else c))))

/-- CODED_FRAME_READY of a waiting page that can be read, that its owner may read and whose read passes its parity: where coding gains,
the object goes into a frame of the page's tier and is noted for the next boundary; a page that coding does not shorten stays raw; a read
that fails its last replay is an uncorrectable error and leaves the page raw. A fetch that ends well leaves the list of fetches, and one
that fails turns its page missing; one of the reservoir has copied the page's used bytes; a read of the furrow unit's own goes to what
asked for it. With a pool at or above LOW that is not evicting SPILLWAY_EVICT changes nothing; below it, it drops a spare copy or begins
the move of the page used least recently; at HIGH it stops. A move that ends well is done and waits for its boundary; one that fails
leaves the moves with MOVE_FAILED, or, refused by the home for want of frames, goes to flash. (R99, R113, R167, R179, R183, R184.) -/
def Obligations.PagesCodedFetchedAndMoved : Prop :=
  ∀ (s : State), s.awake →
    (∀ g x parity, s.dev.fur.coding.find? (fun x => x.page == g && x.ready.isNone) = some x → (s.dev.pte g).moving = false →
      let f := s.dev.furrow x.desc
      let e := s.dev.pte g
      let hw := e.tier == 1
      let b := if parity = 0 then s.dev else s.dev.count F.ERR_COUNTS.REPLAYED
      let is := fun (d : Device) => exec (.codedFrameReady g parity) s = .next (s.put d)
      (e.tier = 2 → s.dev.readable 2 e.frame (rawBytes f) = false → is (s.dev.postRead (frameAddr e.frame) (rawBytes f) f.owner (.coding g))) ∧
      (s.dev.readable e.tier e.frame (rawBytes f) = true → (e.tier = 2 → s.dev.furrowBarred f e.frame false = none) →
        (parity ≤ 3 →
          let o := encodeObject (if f.fmt < 8 then 0 else 1) (b.pageBytes g (rawBytes f))
          (o = none → is { b with fur.coding := b.fur.coding.erase x }) ∧
          (∀ bs p, o = some bs → b.allocFrame (if hw then poolHw else poolRes) (if hw then hwPlot e.frame else e.frame / 32768 / 160) f.owner = some p →
            is (({ p.2 with fur.coding := p.2.fur.coding.map fun (z : Coding) => if z = x then { x with ready := some (if hw then p.1 / frameBytes else frameOf p.1, bs.length / 64) } else z } : Device).postWrite p.1 bs)) ∧
          (∀ bs, o = some bs → b.allocFrame (if hw then poolHw else poolRes) (if hw then hwPlot e.frame else e.frame / 32768 / 160) f.owner = none → is b)) ∧
        (3 < parity →
          let z := s.dev.uncorrectable { cause := 1, severity := 2, status := if e.tier = 2 then 0x0C else 0x0D, replays := 3, persistent := true, unitKind := if e.tier = 2 then 3 else 9, unit := if e.tier = 2 then e.frame / 32768 else 0, owner := f.owner, furrow := f.id, address := if e.tier = 1 then e.frame * frameBytes else frameAddr e.frame }
          is { z with fur.coding := z.fur.coding.erase x }))) ∧
    (∀ g x ok tries, s.dev.fur.fetches.find? (fun f => f.page == g && f.ctx.isNone && (f.src != 0 || f.ended.isSome)) = some x → x.ctx = none →
      let is := fun (d : Device) => exec (.fetchDone g ok tries) s = .next (s.put d)
      (x.ended = some 0 → is (s.dev.fetchEnds x)) ∧
      (∀ st, x.ended = some st → st ≠ 0 → is (s.dev.fetchFailed x st)) ∧
      (x.ended = none → x.src ≠ 0 → x.read = false → s.dev.furrowBarred (s.dev.furrow x.desc) (frameOf x.src) false = none →
        s.dev.waits x.src (s.dev.fetchLen x) = false → ok = true → is ((s.dev.store x.addr (s.dev.readMem x.src (s.dev.fetchLen x))).fetchEnds x)) ∧
      (x.ended = none → x.src ≠ 0 → x.read = true → ok = true → is (s.dev.fetchEnds x))) ∧
    (∀ g x ok tries, s.dev.fur.fetches.find? (fun f => f.page == g && f.ctx.isNone && (f.src != 0 || f.ended.isSome)) = none →
      s.dev.fur.loads.find? (fun x => x.page == g) = some x →
      let is := fun (d : Device) => exec (.fetchDone g ok tries) s = .next (s.put d)
      (∀ st, x.tier = 4 → x.ended = some st → is (s.dev.readTaken x st x.data)) ∧
      (x.tier = 2 → x.data ≠ [] → s.dev.furrowBarred (s.dev.furrow x.desc) x.frame false = none → ok = true → is (s.dev.readTaken x 0 x.data)) ∧
      (∀ d, x.tier = 2 → (x.data ≠ [] ∨ s.dev.waits (frameAddr x.frame) (64 * x.span) = false) → s.dev.furrowBarred (s.dev.furrow x.desc) x.frame false = some d → is (d.readTaken x 1 []))) ∧
    (∀ pool pick, pool < 2 →
      let b : Device := if s.dev.fur.evicting.contains pool then s.dev else { s.dev with fur.evicting := pool :: s.dev.fur.evicting }
      let free := s.dev.fld F.FUR_POOL_STATUS.FREE pool
      let evicts := s.dev.fur.evicting.contains pool = true ∨ free < s.dev.fld F.FUR_POOL_CFG.LOW pool
      let is := fun (d : Device) => exec (.spillwayEvict pool pick) s = .next (s.put d)
      (¬ evicts → exec (.spillwayEvict pool pick) s = .next s) ∧
      (evicts → s.dev.fld F.FUR_POOL_CFG.HIGH pool ≤ free → is { s.dev with fur.evicting := s.dev.fur.evicting.filter (· != pool) }) ∧
      (evicts → free + s.dev.leaving pool < s.dev.fld F.FUR_POOL_CFG.HIGH pool →
        (pool = 0 ∧ b.spareCopies ≠ [] → ∀ g gs, b.byAge b.spareCopies pick = g :: gs → is (b.dropCopy g)) ∧
        (pool = 1 ∨ b.byAge b.spareCopies pick = [] → is (b.spill pool (b.byAge (b.movablePages (pool + 1)) pick))))) ∧
    (∀ g m refused, s.dev.fur.moves.find? (fun m => m.page == g && !m.done) = some m → m.ctx = none →
      let is := fun (d : Device) => exec (.moveDone g refused) s = .next (s.put d)
      (m.ended = some 0 → is { s.dev with fur.moves := s.dev.fur.moves.map fun (x : Move) => if x = m then { m with done := true } else x }) ∧
      (∀ n, m.ended = some (n + 1) → (m.tier = 3 → refused = true → is (s.dev.moveRefused m)) ∧
        (m.tier ≠ 3 ∨ refused = false → is (s.dev.moveFailed m))))

/-- With a command of 64 bytes at the head of the ring at a boundary, b being the device after the boundary's own effects: CREATE of a
well-formed image with a free descriptor and a free run of granules makes the lowest free descriptor that furrow, of LENGTH 0, and
completes OK with its index; an image that R162 refuses completes INVALID (5), an ID in use DUPLICATE (7), without a descriptor 2, without
granules 3. DESTROY of an unnamed furrow leaves it in state 3 and waits, and of one that a slot names completes BUSY (6); its completion
frees it. SET changes the fields R162 names; READ answers the descriptor's bytes; a free index completes 8; a reserved OPCODE completes
INVALID. FUR_CQ_TAIL takes the value written, and the commands up to it are read. (R161, R162.) -/
def Obligations.FurrowRingCommands : Prop :=
  (∀ (s : State) (bytes : List Byte), s.awake → s.dev.furReady = true →
    let b := s.dev.boundary
    let op := furOpcode bytes
    let img := Furrow.ofBytes bytes
    let k := furIndex bytes
    (op = 1 →
      let is := fun (d : Device) => exec (.furCreate bytes) s = .next (s.put d)
      (b.furInvalid img = true → is (b.furComplete 1 5 0)) ∧
      (b.furInvalid img = false → (b.furById img.id).isSome = true → is (b.furComplete 1 7 0)) ∧
      (b.furInvalid img = false → b.furById img.id = none →
        let free := firstFrom (fun k => (b.furrow k).state == 0) 0 262144
        (free = none → is (b.furComplete 1 2 0)) ∧
        (∀ n, free = some n → b.freeRun (granules img) = none → is (b.furComplete 1 3 0)) ∧
        (∀ n g, free = some n → b.freeRun (granules img) = some g → is (((b.setFurrow n
          { img with base := g * 4096, length := 0, pushed := 0, openScore := 0, lastUse := 0 }).setHoEntry n {}).furComplete 1 1 n)))) ∧
    ((b.furrow k).state = 0 →
      (op = 2 → exec (.furDestroy bytes) s = .next (s.put (b.furComplete 2 8 k))) ∧
      (op = 3 → exec (.furSet bytes) s = .next (s.put (b.furComplete 3 8 k))) ∧
      (op = 4 → exec (.furRead bytes) s = .next (s.put (b.furComplete 4 8 k)))) ∧
    ((b.furrow k).state ≠ 0 →
      (op = 2 → b.slotNames (b.furrow k).id = true → exec (.furDestroy bytes) s = .next (s.put (b.furComplete 2 6 k))) ∧
      (op = 2 → b.slotNames (b.furrow k).id = false → exec (.furDestroy bytes) s =
        .next (s.put { b.setFurrow k { b.furrow k with state := 3 } with fur.destroying := some k })) ∧
      (op = 3 → let f := b.furrow k
        let g := { f with mode := img.mode, sink := img.sink, recent := img.recent, top := img.top, spillHome := img.spillHome, openHw := img.openHw, scBase := img.scBase, scCount := img.scCount }
        (b.furInvalid g = false → img.home = f.home → (b.hasScores k = false ∨ (img.scBase = f.scBase ∧ img.scCount = f.scCount)) →
          exec (.furSet bytes) s = .next (s.put ((b.setFurrow k g).furComplete 3 1 k))) ∧
        (b.furInvalid g = true ∨ img.home ≠ f.home → exec (.furSet bytes) s = .next (s.put (b.furComplete 3 5 k)))) ∧
      (op = 4 → exec (.furRead bytes) s = .next (s.put (b.furComplete 4 1 k (furrowBytes (b.furrow k)))))) ∧
    (op = 0 ∨ 4 < op → exec (.furRead bytes) s = .next (s.put (b.furComplete (op % 256) 5 0)))) ∧
  (∀ (s : State) (k : Nat), s.awake → s.dev.fur.destroying = some k → s.dev.atBoundary = true → s.dev.furrowQuiet k = true →
    (s.dev.hoLoc k).rx = none →
      let z := ({ s.dev.boundary with fur.destroying := none } : Device).freeFurrow k
      exec .destroyComplete s = .next (s.put ((if z.furReady then z.furComplete 2 1 k else z).setHoLoc k {}))) ∧
  (∀ (s : State) (port tail : Nat), s.takes port →
    let size := 2 ^ s.dev.fld F.FUR_CQ_CTRL.LOG2_SIZE
    let old := s.dev.fld F.FUR_CQ_TAIL.TAIL
    (s.dev.on F.FUR_CQ_CTRL.ENABLE = false ∨ s.dev.on F.FUR_CQ_HEAD.STOPPED = true →
      exec (.furCqTailWrite port tail) s = .next (s.put (s.dev.setFld F.FUR_CQ_TAIL.TAIL tail))) ∧
    (s.dev.on F.FUR_CQ_CTRL.ENABLE = true → s.dev.on F.FUR_CQ_HEAD.STOPPED = false → exec (.furCqTailWrite port tail) s =
      .next (s.put ((List.range ((tail + size - old) % size)).foldl (fun (d : Device) i =>
        d.emit (.hostRead (d.ringFn .FUR_CQ_BASE) (d.fld F.FUR_CQ_BASE.ADDR * 4096 + 64 * ((old + i) % size)) 64)) (s.dev.setFld F.FUR_CQ_TAIL.TAIL tail)))))

/-- In a turn, at the home: an OFFER of the next generation by the owner leaves the record OFFERED to its recipient; a second OFFER to the
same recipient changes nothing; an ACCEPT of the next generation by the recipient that is pending, or of an offer that the home has not
heard of by its owner, leaves it ACCEPTED; a WITHDRAW by the owner leaves it OWNED with nothing pending; a HANDOFF_TIMEOUT that is due
gives the request back to the home with a generation two higher, and its furrow the held length; an OWNER_Q is answered with the record.
OFFER, ACCEPT and WITHDRAW never change the record's generation, and the commit of an ACCEPTED record raises it by one and makes the
pending party the owner. (R287, R294, R295.) -/
def Obligations.HomeRecordsFollowTable12_5 : Prop :=
  (∀ (s : State) (m : Sys2Proof.Msg) (k : Nat), s.dev.isHome k = true →
    let e := s.dev.hoEntry k
    let b := s.dev.took m
    (s.hears m 0x31 k → ¬(192 ≤ m.data.length ∧ m.num 18 2 = s.dev.node) → m.src = e.owner → m.num 0 8 = e.gen + 1 →
      (e.homeState = 1 ∨ (e.homeState = 2 ∧ m.num 18 2 ≠ e.pending) → exec (.offer m) s = .next (s.put (b.setHoEntry k
        { e with homeState := 2, pending := m.num 18 2, since := s.dev.turnNo, offerLength := m.num 32 8, kind := m.num 20 1 }))) ∧
      (e.homeState = 2 → m.num 18 2 = e.pending → exec (.offer m) s = .next (s.put b))) ∧
    (s.hears m 0x33 k → (e.homeState = 1 ∧ m.num 16 2 = e.owner) ∨ (e.homeState = 2 ∧ m.src = e.pending) → m.num 0 8 = e.gen + 1 →
      exec (.accept m) s = .next (s.put (b.setHoEntry k { e with homeState := 3, pending := m.src, since := s.dev.turnNo, kind := m.num 20 1 }))) ∧
    (s.hears m 0x3C k → e.homeState = 2 → m.src = e.owner → m.num 0 8 = e.gen + 1 →
      exec (.withdraw m) s = .next (s.put (b.setHoEntry k { e with homeState := 1, pending := 0, kind := 0, since := s.dev.turnNo }))) ∧
    (s.hears m 0x37 k → exec (.ownerQ m) s =
      .next (s.put ((s.dev.took m).hoCtl k m.src 0x38 e.gen e.owner e.pending e.homeState 0 e.held)))) ∧
  (∀ (s : State) (furrow k : Nat), s.awake → s.dev.furById furrow = some k → s.dev.isHome k = true → (s.dev.hoEntry k).homeState = 2 →
    s.dev.turn.lastCommit = s.dev.turnNo → s.dev.running = true →
      (s.dev.hoEntry k).since + s.dev.fld F.FUR_HO_TIMING.TIMEOUT_TURNS ≤ s.dev.turnNo →
        ∃ t, exec (.handoffTimeout furrow) s = .next t ∧ (t.dev.hoEntry k).homeState = 1 ∧ (t.dev.hoEntry k).owner = s.dev.node ∧
          (t.dev.hoEntry k).gen = (s.dev.hoEntry k).gen + 2 ∧ (t.dev.furrow k).state = 1 ∧ (t.dev.furrow k).length = (s.dev.hoEntry k).held) ∧
  (∀ (d : Device) (k a b c x y : Nat), ((d.homeOffer k a b c x y).hoEntry k).gen = (d.hoEntry k).gen ∧
    ((d.homeAccept k a b c x).hoEntry k).gen = (d.hoEntry k).gen ∧ ((d.homeWithdraw k a b).hoEntry k).gen = (d.hoEntry k).gen) ∧
  (∀ (d : Device) (k : Nat), (d.hoEntry k).homeState = 3 → ((d.commitAccepted k).hoEntry k).gen = (d.hoEntry k).gen + 1 ∧
    ((d.commitAccepted k).hoEntry k).owner = (d.hoEntry k).pending ∧ ((d.commitAccepted k).hoEntry k).homeState = 1)

/-- In a turn: a HELLO of a version with major 1 agrees on the lower of the two, one of another major marks the peer refused; an OFFER at
its free recipient begins a transfer and leaves it RECEIVING; DATA is kept, and refused with a foreign geometry, and completes the
transfer with its last byte; a GRANT or RELEASE of the generation awaited waits for the boundary, and an old one is stale; a REFUSE ends
the donor's offer; an OWNER_IS from the home is acted on; a CLAIM_REQ at an owning home starts the offer, and elsewhere is refused; a PUSH
at the home begins its transfer; a PUSH_ACK ends the push; an unanswered party asks the home after QUERY_TURNS; a transfer overdue is
refused. (R286, R288, R291, R293, R295.) -/
def Obligations.HandoffPartiesAct : Prop :=
  (∀ (s : State) (m : Sys2Proof.Msg), s.awake → s.dev.hoSettled → m.num 14 1 = 0x30 →
    (m.num 15 1 / 16 = 1 → ∃ t, exec (.hello m) s = .next t ∧ (t.dev.peer m.src).agreed = some (min (m.num 15 1) 0x10)) ∧
    (m.num 15 1 / 16 ≠ 1 → ∃ t, exec (.hello m) s = .next t ∧ (t.dev.peer m.src).refused = true ∧ t.dev.fld F.FUR_HO_EVENTS.VERSION = 1)) ∧
  (∀ (s : State) (m : Sys2Proof.Msg) (k : Nat),
    let b := s.dev.took m
    let e := s.dev.hoEntry k
    let l := s.dev.hoLoc k
    let f := s.dev.furrow k
    (s.hears m 0x31 k → 192 ≤ m.data.length → m.num 18 2 = s.dev.node → e.gen < m.num 0 8 → f.state = 2 → e.localState = 0 → l.rx = none →
      ∃ t, exec (.offer m) s = .next t ∧ (t.dev.hoEntry k).localState = 2 ∧ (t.dev.hoLoc k).rx =
        some { gen := m.num 0 8, src := m.src, kind := m.num 20 1, image := (m.data.drop 64).take 128, length := m.num 32 8, total := m.num 40 8, at_ := s.dev.now }) ∧
    (∀ r, s.hears m 0x32 k → e.gen < m.num 0 8 → l.rx = some r → r.gen = m.num 0 8 → r.src = m.src → r.done = false →
      let r2 := { r with got := sput [] r.got (m.num 40 8) (m.data.drop 64) }
      let xs := joined 0 r2.got
      let c := b.setHoLoc k { l with rx := some r2 }
      let bad := decide (192 ≤ xs.length) && !sameGeometry xs f
      (bad = true → exec (.dataMsg m) s = .next (s.put (c.rxRefuse k 3))) ∧
      (bad = false → xs.length < r.total → exec (.dataMsg m) s = .next (s.put c)) ∧
      (bad = false → r.total ≤ xs.length → exec (.dataMsg m) s = .next (s.put (c.rxComplete k r2 (xs.take r.total))))) ∧
    (s.hears m 0x34 k → (m.num 0 8 ≤ e.gen → exec (.grant m) s = .next (s.put b.hoStale)) ∧
      (∀ r, e.gen < m.num 0 8 → l.rx = some r → r.done = true → r.push = false → r.gen = m.num 0 8 →
        exec (.grant m) s = .next (s.put (b.grantDue k (m.num 0 8))))) ∧
    (s.hears m 0x35 k → (m.num 0 8 ≤ e.gen → exec (.release m) s = .next (s.put b.hoStale)) ∧
      (∀ x, e.gen < m.num 0 8 → l.tx = some x → x.gen ≤ m.num 0 8 → exec (.release m) s = .next (s.put (b.releaseDue k (m.num 0 8))))) ∧
    (∀ x, s.hears m 0x36 k → l.tx = some x → x.gen = m.num 0 8 → l.released = none → x.rcpt = m.src → m.num 21 1 ≠ 8 →
      exec (.refuse m) s = .next (s.put (b.txEnd k 2 (m.num 21 1) true))) ∧
    (s.hears m 0x38 k → m.src = f.home → exec (.ownerIs m) s = .next (s.put (b.ownerIs k (m.num 16 2) (m.num 18 2) (m.num 20 1) (m.num 0 8)))) ∧
    (s.hears m 0x39 k → (s.dev.isHome k = false → exec (.claimReq m) s = .next (s.put (b.refuseId m 1))) ∧
      (s.dev.isHome k = true → e.homeState = 1 → e.owner = s.dev.node → s.dev.mayOffer k = true →
        exec (.claimReq m) s = .next (s.put (b.offerOrWait k 3 m.src none false)))) ∧
    (s.hears m 0x3A k → s.dev.isHome k = true → e.homeState = 1 → m.num 0 8 = e.gen → m.src = e.owner → l.rx = none →
      ∃ t, exec (.pushMsg m) s = .next t ∧ (t.dev.hoLoc k).rx = some
        { gen := e.gen + 1, src := m.src, kind := 1, push := true,
          image := (m.data.drop 64).take 128, total := m.num 40 8, at_ := s.dev.now }) ∧
    (∀ p, s.hears m 0x3B k → l.push = some p → p.gen = m.num 0 8 → m.src = f.home →
      exec (.pushAck m) s = .next (s.put ((b.modHoLoc k fun (l : HoLocal) => { l with pushed := some p.length }).pushOver k true)))) ∧
  (∀ (s : State) (furrow k : Nat), s.awake → s.dev.furById furrow = some k →
    let l := s.dev.hoLoc k
    (∀ x : HoTx, s.dev.hoSettled → l.tx = some x → l.released = none → x.asked + s.dev.fld F.FUR_HO_TIMING.QUERY_TURNS ≤ s.dev.turnNo →
      let y := { x with asked := s.dev.turnNo }
      exec (.queryTurnsExpiry furrow) s = .next (s.put ((s.dev.setHoLoc k { l with tx := some y }).askOwner k))) ∧
    (∀ at_ r, l.rx = some r → r.done = false → r.at_ + 1000 * s.dev.fld F.SLU_TARGET_CTRL.REASSEMBLY_US ≤ max s.dev.now at_ →
      exec (.transferTimeout furrow at_) s = .next (s.put ((s.dev.at_ at_).rxRefuse k 9))))

/-- With the command of 64 bytes at the head of a HANDOFF queue and its furrow known, b being the device with the entry taken: at the
home, HOME_OPEN of a HOSTED furrow without a record makes it OWNED by the node at generation 1; HOME_CLOSE of a record the home owns ends
it; QUERY answers generation and owner; RECORD writes the entry to host memory, or ends FAILED with HOST_ERROR. MOVE and PARK that R290
admits start the offer or wait for the push; CLAIM over a HOSTED descriptor sends CLAIM_REQ to the home, and at a home that owns the
request starts its offer to itself; QUERY elsewhere asks the home. A command that names no furrow completes 5, one of a reserved OPCODE 3.
(R21, R290, R297.) -/
def Obligations.HandoffCommandsComplete : Prop :=
  (∀ (s : State) (q k : Nat) (cmd : List Byte), s.hoFront q k cmd →
    let b := s.dev.hoTake q
    let h := HandoffCmd.ofBytes cmd
    let c := s.dev.frontCmd q cmd
    let e := s.dev.hoEntry k
    let f := s.dev.furrow k
    let l := s.dev.hoLoc k
    (h.opcode = 1 → b.isHome k = true → e.homeState = 0 → (f.state = 2 ∨ (f.state = 1 ∧ h.node = s.dev.node)) → exec (.homeOpen q cmd) s =
      .next (s.put ((b.setHoEntry k { e with homeState := 1, owner := h.node, gen := 1, since := s.dev.turnNo, furrow := f.id }).hoEnd c 1 0 1))) ∧
    (h.opcode = 2 → b.isHome k = true → e.homeState = 1 → e.owner = s.dev.node → exec (.homeClose q cmd) s =
      .next (s.put ((b.setHoEntry k { e with homeState := 0, since := s.dev.turnNo }).hoEnd c 1 0 e.gen))) ∧
    (h.opcode = 3 → h.node ≠ s.dev.node → h.node ≠ 0xFFFF → b.isShadow = false → b.mayOffer k = true →
      exec (.hoMove q cmd) s = .next (s.put (b.offerOrWait k 4 h.node (some c) false))) ∧
    (h.opcode = 4 → b.isShadow = false → b.mayOffer k = true →
      exec (.hoPark q cmd) s = .next (s.put (b.offerOrWait k 2 f.home (some c) false))) ∧
    (h.opcode = 5 → b.isShadow = false → e.localState = 0 → l.rx = none → l.claim = none →
      (b.isHome k = false → f.state = 2 → exec (.hoClaim q cmd) s =
        .next (s.put ((b.setHoLoc k { l with claim := some c }).hoCtl k f.home 0x39 e.gen 0 0 0 0 0 [] 0 c.op))) ∧
      (b.isHome k = true → e.homeState = 1 → e.owner = s.dev.node → b.mayOffer k = true → exec (.hoClaim q cmd) s =
        .next (s.put ((b.setHoLoc k { l with claim := some c }).offerOrWait k 3 s.dev.node none false)))) ∧
    (h.opcode = 6 →
      (b.isHome k = true → exec (.hoQuery q cmd) s = .next (s.put (b.hoEnd c 1 0 e.gen e.owner))) ∧
      (b.isHome k = false → exec (.hoQuery q cmd) s = .next (s.put (((b.setHoLoc k { l with queries := l.queries ++ [c] }).count
        F.FUR_HO_STATS.QUERIES).hoCtl k f.home 0x37 e.gen 0 0 0 0 0 [] 0 c.op)))) ∧
    (h.opcode = 7 → b.isHome k = true →
      exec (.recordQuery q cmd true) s = .next (s.put ((b.hostWrite ⟨c.port, 0⟩ h.addr (hoBytes e)).hoEnd c 1 0 e.gen)) ∧
      exec (.recordQuery q cmd false) s = .next (s.put (b.hostErr.hoEnd c 6 0x10 e.gen)))) ∧
  (∀ (s : State) (q : Nat) (cmd : List Byte), s.awake → s.dev.hoSettled → q < 256 → s.dev.hqFront q 3 = true →
    let h := HandoffCmd.ofBytes cmd
    (h.opcode = 2 → s.dev.furById h.furrow = none → exec (.homeClose q cmd) s = .next (s.put ((s.dev.hoTake q).hoEnd (s.dev.frontCmd q cmd) 5 0 0))) ∧
    (h.opcode = 0 ∨ 7 < h.opcode → exec (.hoQuery q cmd) s = .next (s.put ((s.dev.hoTake q).hoEnd (s.dev.frontCmd q cmd) 3 0 0))))

/-- With a slot command of 64 bytes at the head of a SLOT queue, at a boundary or while IDLE, b being the device with the boundary's
effects done and the entry taken: OPEN of a slot in use answers 4, of an image that cannot be read 6, of a furrow not owned 5, of an image
that R196 refuses or a flume that is not VALID 3, without room in its owner's headgate 2, and otherwise 1 with the slot, and its flume,
set; CLOSE frees a PAUSED, FINISHED, CANCELLED or FAILED slot; SET takes the settings; READ writes the image; PAUSE and RESUME move
between ACTIVE and PAUSED; BUFFER registers a buffer, BUFFER_ADD adds tokens within its capacity. In another state each answers 4, and a
reserved OPCODE 3. (R194, R195, R196, R233.) -/
def Obligations.SlotCommandsAnswer : Prop :=
  ∀ (s : State) (q : Nat) (cmd : List Byte), s.slotFront q →
    let b := s.dev.taken q
    let c := SlotCmd.ofBytes cmd
    let slot := c.slot
    let z := b.slot slot
    let port := (s.dev.ringFn .HQ_Q_BASE q).port
    let ends := fun (i : Instr) (d : Device) (r : Nat) => exec i s = .next (s.put (s.dev.slotEnds q d r))
    let read := b.emit (.hostRead ⟨port, 0⟩ c.addr 128)
    (c.opcode = 1 → ∀ image entry header,
      let img := SlotImg.ofBytes image
      let open_ := ends (.openSlot q cmd image entry header)
      (b.slotState slot ≠ 0 → open_ b 4) ∧
      (b.slotState slot = 0 → image.length < 128 → open_ read.hostErr 6) ∧
      (b.slotState slot = 0 → 128 ≤ image.length →
        (read.ownerOfId img.furrow = none → open_ read 5) ∧
        (∀ owner, read.ownerOfId img.furrow = some owner → (img.cls = 2 → (read.ownerOfId img.draft).isSome = true) →
          let used := img.flume != 0xFFFF && (read.gen.slots.any fun x => x.1 != slot && x.2.img.state != 0 && x.2.img.flume == img.flume)
          let ready := if (read.flume img.flume).closing then read.flushFlumes else read
          let p := if img.flume = 0xFFFF then (ready, some ({} : Flume)) else ready.readFlume slot port img.flume entry header
          (read.imageInvalid slot img owner true = true ∨ used = true → open_ read 3) ∧
          (read.imageInvalid slot img owner true = false → used = false →
            (p.2 = none → open_ p.1 3) ∧
            (∀ fl, p.2 = some fl →
              let g := if img.state = 1 then p.1.hgCharge F.HG_LEVEL.REQ F.HG_STATS.REQ_DROPS 1 owner slot img.jst 256 else (p.1, true)
              let set := g.1.setSlot slot { img := img, port := port }
              (g.2 = false → open_ g.1 2) ∧ (g.2 = true → open_ (if img.flume = 0xFFFF then set else set.setFlume img.flume fl) 1)))))) ∧
    (c.opcode = 2 →
      let d := b.freeSlot slot
      let close := ends (.closeSlot q cmd)
      (b.slotState slot ∈ [3, 5, 6, 7] →
        (∀ n f, d.fur.desc.find? (fun x => x.2.state == 3 && x.2.id == z.img.furrow) = some (n, f) → (d.fur.dying.contains n || d.fur.destroying == some n) = false →
          close (d.setFurrow n {}) 1) ∧
        (d.fur.desc.find? (fun x => x.2.state == 3 && x.2.id == z.img.furrow) = none → close d 1)) ∧
      (b.slotState slot ∉ [3, 5, 6, 7] → close b 4)) ∧
    (c.opcode = 3 → ∀ image,
      let img := SlotImg.ofBytes image
      let owner := match b.furById z.img.furrow with
        | some n => (b.furrow n).owner
        | none => 0
      let set := ends (.slotSet q cmd image)
      (b.slotState slot ∉ [1, 2, 3] ∨ b.offering slot = true → set b 4) ∧
      (b.slotState slot ∈ [1, 2, 3] → b.offering slot = false →
        (image.length < 128 → set read.hostErr 6) ∧
        (128 ≤ image.length → read.imageInvalid slot img owner false = true → set read 3) ∧
        (128 ≤ image.length → read.imageInvalid slot img owner false = false → set (read.modImg slot fun m =>
          { m with temperature := img.temperature, topP := img.topP, topK := img.topK, end0 := img.end0, end1 := img.end1, outLimit := img.outLimit, ckptK := img.ckptK, ckptPhase := img.ckptPhase, screenTable := img.screenTable, screenState := if img.screenTable = z.img.screenTable ∨ img.screenTable = 0xFFFF then z.img.screenState else read.scrAt img.screenTable 20 4, handoff := img.handoff }) 1))) ∧
    (c.opcode = 4 → ends (.slotRead q cmd true) (b.hostWrite ⟨port, 0⟩ c.addr (imageBytes z.img)) 1 ∧ ends (.slotRead q cmd false) b.hostErr 6) ∧
    (c.opcode = 0 ∨ 8 < c.opcode → ∀ ok, ends (.slotRead q cmd ok) b 3) ∧
    (c.opcode = 7 → (0 < c.count → c.count ≤ 16777216 → c.handle ≤ 65535 →
        (b.turn.admitted.any fun a => a.e.kind == 2 && a.e.arg == c.handle && decide (a.state = .running)) = false →
          ends (.tokBuffer q cmd) (b.setTokBuf c.handle { port := port, addr := c.addr, cap := c.count }) 1) ∧
      (c.count = 0 ∨ 16777216 < c.count ∨ 65535 < c.handle → ends (.tokBuffer q cmd) b 3)) ∧
    (c.opcode = 8 →
      ((b.tokBuf c.handle).written + c.count ≤ (b.tokBuf c.handle).cap →
        ends (.bufferAdd q cmd) (b.setTokBuf c.handle { b.tokBuf c.handle with written := (b.tokBuf c.handle).written + c.count }) 1) ∧
      ((b.tokBuf c.handle).cap < (b.tokBuf c.handle).written + c.count → ends (.bufferAdd q cmd) b 3)) ∧
    (∀ at_,
      let e := (s.dev.at_ at_).taken q
      let done := fun (i : Instr) (d : Device) (r : Nat) => exec i s = .next (s.put ((s.dev.at_ at_).slotEnds q d r))
      (c.opcode = 5 → (e.slotState slot = 2 → done (.slotPause at_ q cmd) ((e.moveSlot slot 3 0x0A).stateChanged slot) 1) ∧
        (e.slotState slot ≠ 2 → done (.slotPause at_ q cmd) e 4)) ∧
      (c.opcode = 6 → (e.slotState slot = 3 → e.offering slot = false → done (.slotResume at_ q cmd) ((e.moveSlot slot 2 0).stateChanged slot) 1) ∧
        (e.slotState slot ≠ 3 ∨ e.offering slot = true → done (.slotResume at_ q cmd) e 4)))

/-- For a running entry of the slot that posted a well-formed request, whose candidate lists can be read: TARGET leaves a verdict and no
request; a TARGET whose lists do not read draws the uncorrectable record and no verdict; DRAFT_STEP adds one token to the draft when its
list is not EMPTY, and marks the draft over when it is; HEADS of an EXPRESS slot after its verdict is done once. Reads of a screen table
that fail for the last time make it BAD first. A request that is not well formed leaves the post block idle and nothing else. The copy of
a prefill's tokens leaves the slot staged, the pending token first, and the interrupt test runs over every flume. (R200, R201, R205, R206,
R207, R228.) -/
def Obligations.SamplersServeRequests : Prop :=
  ∀ (s : State) (slot lists table bad : Nat), s.awake → slot < 4096 →
    let z := s.dev.slot slot
    let b := if lists = 0 then s.dev else s.dev.count F.ERR_COUNTS.REPLAYED
    let lost := (s.dev.uncorrectable
      { cause := 1, severity := 2, replays := 3, persistent := true, unitKind := 11, owner := s.dev.slotOwner slot, jst := z.img.jst, slot := slot, address := s.dev.postFld slot 232 6 }).postIdle slot
    (∀ a k, s.dev.posted slot 1 [1, 2] = some a → s.dev.furById z.img.furrow = some k →
      let is := fun (d : Device) => exec (.samplerTarget slot lists table bad) s = .next (s.put d)
      (s.dev.requestOk slot = false ∨ (a.e.kind = 2 ∧ z.ts.finalChunk = false) → is (s.dev.postIdle slot)) ∧
      (s.dev.requestOk slot = true → (a.e.kind = 2 → z.ts.finalChunk = true) →
        (3 < lists → is lost) ∧
        (lists ≤ 3 → is (b.screenRead table bad fun d => (d.verdict slot a (s.dev.furrow k)).served slot)) ∧
        (lists = 0 → table = 0 → ∃ t, exec (.samplerTarget slot lists table bad) s = .next t ∧ (t.dev.slot slot).ts.verdict = true ∧ (t.dev.slot slot).post = []))) ∧
    (∀ a k, s.dev.posted slot 2 [5] = some a → s.dev.requestOk slot = true → s.dev.furById z.img.furrow = some k →
      (3 < lists → exec (.draftStep slot lists table bad) s = .next (s.put lost)) ∧
      (lists ≤ 3 → exec (.draftStep slot lists table bad) s = .next (s.put (b.screenRead table bad fun d => d.draftStep slot (s.dev.furrow k)))) ∧
      (lists = 0 → table = 0 →
        (z.draftOver = true ∨ 8 ≤ z.ts.proposed → exec (.draftStep slot lists table bad) s = .next (s.put (s.dev.served slot))) ∧
        (z.draftOver = false → z.ts.proposed < 8 →
          let r := (s.dev.sample slot 0 ((s.dev.furrow k).length + z.ts.proposed + 1) (z.screenDraft.getD (screenOf z.img))).1
          ∃ t, exec (.draftStep slot lists table bad) s = .next t ∧ (t.dev.slot slot).ts.proposed = z.ts.proposed + b2n r.isSome ∧
            (t.dev.slot slot).draftOver = r.isNone))) ∧
    (∀ a k, s.dev.posted slot 3 [1, 2] = some a → s.dev.requestOk slot = true → s.dev.furById z.img.furrow = some k →
      z.img.cls = 1 → z.ts.verdict = true →
        (z.headsDone = true → exec (.samplerHeads slot lists table bad) s = .next (s.put (s.dev.postIdle slot))) ∧
        (z.headsDone = false → 3 < lists → exec (.samplerHeads slot lists table bad) s = .next (s.put lost)) ∧
        (z.headsDone = false → lists ≤ 3 → exec (.samplerHeads slot lists table bad) s =
          .next (s.put (b.screenRead table bad fun d => d.heads slot a (s.dev.furrow k)))) ∧
        (z.headsDone = false → lists = 0 → table = 0 → ∃ t, exec (.samplerHeads slot lists table bad) s = .next t ∧ (t.dev.slot slot).headsDone = true)) ∧
    (∀ tokens x, s.dev.gen.staging.find? (fun x => x.slot == slot) = some x →
      let xs := (if x.held then [z.img.pending] else []) ++ (tokens ++ List.replicate x.count 0).take x.count
      exec (.prefillStagingDone slot tokens true) s = .next (s.put ((({ s.dev with gen.staging := s.dev.gen.staging.erase x } : Device).store x.addr
        (xs.flatMap fun t => leBytes 4 t)).modTs slot fun t => { t with staged := true, stageAddr := x.addr })) ∧
      exec (.prefillStagingDone slot tokens false) s = .next (s.put (s.dev.hostErr.stagingFailed x))) ∧
    (∀ at_, exec (.flumeInterruptTest at_) s = .next (s.put ((s.dev.at_ at_).testFlumes (s.dev.flu.flumes.map (·.1)))))

/-- A doorbell write of 64 aligned bits from a VF, or from the PF that holds, that may cancel the slot, naming its stamp: an ADMITTED,
ACTIVE or PAUSED slot is cancelled with its entries' reservoir commands cut; a CANCELLING slot is unchanged; a slot already over draws one
record of code 5. A write that is not aligned, of a FREE slot, of another stamp or from another function changes nothing but the counters
of HQ_STATS: no byte of memory and no other register. A write of a PF that does not hold is dropped and counted as FOREIGN. (R240, R241,
R242, R351.) -/
def Obligations.CancelDoorbell : Prop :=
  ∀ (s : State) (at_ : Nat) (fn : Fn) (value : Nat), s.awake → s.dev.barClosed = false →
    let b := s.dev.at_ at_
    let slot := cancelSlotNo value
    let z := s.dev.slot slot
    let is := fun (d : Device) => exec (.cancelDoorbell at_ fn value true) s = .next (s.put d)
    ((fn.vf ≠ 0 ∨ s.dev.holder = some fn.port) → z.img.jst = cancelJst value → s.dev.mayCancel slot fn = true →
      (z.img.state = 4 → is b) ∧
      (z.img.state ∈ [1, 2, 3] → is (((b.entriesOf slot).foldl (fun (d : Device) k => d.pimCut k) b).cancelSlot slot)) ∧
      (4 < z.img.state → z.alreadyDone = true → is b) ∧
      (4 < z.img.state → z.alreadyDone = false → is (((b.setSlot slot { z with alreadyDone := true }).statusRecord slot 5).flushRecords))) ∧
    (∀ aligned, (aligned = false ∨ z.img.state = 0 ∨ z.img.jst ≠ cancelJst value ∨ s.dev.mayCancel slot fn = false) →
      ∃ t, exec (.cancelDoorbell at_ fn value aligned) s = .next t ∧ s.dev.framed t.dev [.HQ_STATS] ∧ t.dev.gen = s.dev.gen) ∧
    (∀ aligned, fn.vf = 0 → s.dev.holder ≠ some fn.port →
      exec (.cancelDoorbell at_ fn value aligned) s = .next (s.put (b.count F.HQ_STATS.FOREIGN)))

/-- On a part with a screen engine and no command active: LOAD of a handle in use ends with RESULT 6, of a size out of range 3, of a
header that cannot be read 5; with space it makes the handle FETCHING, of the header's OWNER, with the command active and its copy issued.
The end of a good copy whose checks pass makes it STAGED, RESULT 1; one whose checks fail, or a failed copy, frees it with 3 or 5. RETIRE
of a loaded handle waits, active, for the next boundary, at which it frees it, or answers BUSY (2) while a slot names it. An update entry
copies the next piece and finishes. A scrub of a block whose copies agree notes the turn and changes no byte and no register but those of
the scrub. (R225, R226, R227, R228.) -/
def Obligations.ScreenTablesLoadAndRetire : Prop :=
  (∀ (s : State) (port h bytes : Nat) (header : List Byte), s.takes port → h < 1024 → bytes < 2 ^ 32 → s.dev.part.isL = false → s.dev.on F.SCR_CMD_STATUS.ACTIVE = false →
    let host := s.dev.fld F.SCR_CMD_ADDR.ADDR * 4096
    let fn := s.dev.ringFn .SCR_CMD_ADDR
    let failed := fun (d : Device) (r : Nat) => exec (.scrLoad port h bytes header) s = .next (s.put ((d.scrResult h r).event F.SCR_EVENTS.LOAD_FAILED))
    let used := s.dev.scr.tables.map (·.2)
    let hw := firstFit (s.dev.fld F.SCR_AREA.ADDR * 65536) (s.dev.fld F.SCR_AREA.SIZE_MIB * 0x100000) 4096 bytes (used.map fun t => (t.hw, t.bytes))
    let res := firstFit (s.dev.fld F.SCR_RES_AREA.ADDR * 65536) (s.dev.fld F.SCR_RES_AREA.SIZE_MIB * 0x100000) 65536 bytes (used.map fun t => (t.res, t.bytes))
    (s.dev.scrState h ≠ 0 → failed s.dev 6) ∧
    (s.dev.scrState h = 0 → bytes = 0 ∨ 0x4000000 < bytes → failed s.dev 3) ∧
    (s.dev.scrState h = 0 → 0 < bytes → bytes ≤ 0x4000000 →
      (hw = none ∨ res = none → failed s.dev 4) ∧
      (∀ a b, hw = some a → res = some b →
        let read := s.dev.emit (.hostRead fn host 128)
        let o := (headerOwner header).1
        (header.length < 128 → failed read.hostErr 5) ∧
        (128 ≤ header.length → ∃ t, exec (.scrLoad port h bytes header) s = .next t ∧ t.dev.scrState h = 1 ∧ t.dev.on F.SCR_CMD_STATUS.ACTIVE = true ∧
          t.dev.scrTable h = { hw := a, res := b, bytes := bytes, owner := o } ∧
          t.dev.scr.load = some { handle := h, hw := a, res := b, bytes := bytes, owner := o, port := port, addr := host }))) ∧
    (s.dev.scrState h < 2 → exec (.scrRetire port h) s = .next (s.put (s.dev.scrResult h 6))) ∧
    (2 ≤ s.dev.scrState h → ∃ t, exec (.scrRetire port h) s = .next t ∧ t.dev.scr.retire = some h ∧ t.dev.on F.SCR_CMD_STATUS.ACTIVE = true ∧
      t.dev.fld F.SCR_CMD_STATUS.HANDLE = h ∧ t.dev.fld F.SCR_CMD_STATUS.RESULT = 0 ∧ s.dev.framed t.dev [.SCR_CMD_STATUS])) ∧
  (∀ (d : Device) (h : Nat), d.scr.retire = some h → h < 1024 →
    (d.fld F.SCR_TABLE.USERS h = 0 → d.retireNow.scrState h = 0 ∧ d.retireNow.fld F.SCR_CMD_STATUS.RESULT = 1) ∧
    (d.fld F.SCR_TABLE.USERS h ≠ 0 → d.retireNow.scrState h = d.scrState h ∧ d.retireNow.fld F.SCR_CMD_STATUS.RESULT = 2)) ∧
  (∀ (s : State) (l : ScrLoad) (status parity : Nat), s.awake → s.dev.scr.load = some l → s.dev.scr.fetchEnded = some (l.handle, status) → l.handle < 1024 →
    let image := s.dev.readMem l.res l.bytes
    let b := if parity = 0 then s.dev else s.dev.count F.ERR_COUNTS.REPLAYED
    let is := fun (d : Device) => exec (.loadFetchDone parity) s = .next (s.put d)
    (status ≠ 0 → is (s.dev.loadEnds 5)) ∧
    (status = 0 → parity ≤ 3 → tableOk image l.bytes = false ∨ (headerOwner image).1 ≠ l.owner → is (b.loadEnds 3)) ∧
    (status = 0 → parity ≤ 3 → tableOk image l.bytes = true → (headerOwner image).1 = l.owner → is (b.loadEnds 1) ∧
      ∃ t, exec (.loadFetchDone parity) s = .next t ∧ t.dev.scrState l.handle = 2 ∧ t.dev.fld F.SCR_CMD_STATUS.RESULT = 1 ∧ t.dev.scr.load = none) ∧
    (status = 0 → 3 < parity → is ((s.dev.uncorrectable
      { cause := 7, severity := 2, replays := 3, persistent := true, unitKind := 4, owner := l.owner, detail := [(2, l.handle), (4, 0)] }).loadEnds 3))) ∧
  (∀ (s : State) (k parity : Nat) (a : Admitted), s.awake → s.dev.admittedAt k = some a → a.e.kind = 3 → a.state = .running →
    let h := a.e.arg % 1024
    let piece := s.dev.fld F.SCR_TABLE.DONE h + sget 0 s.dev.scr.pieces h
    let t := s.dev.scrTable h
    s.dev.scrState h = 2 → piece < s.dev.fld F.SCR_TABLE.PIECES h →
      (parity ≤ 3 →
        let c := (if parity = 0 then s.dev else s.dev.count F.ERR_COUNTS.REPLAYED).store (t.hw + piece * 0x100000) (s.dev.readMem (t.res + piece * 0x100000) (s.dev.pieceBytes h piece))
        exec (.screenUpdate k parity) s = .next (s.put (({ c with scr.pieces := sput 0 c.scr.pieces h (sget 0 s.dev.scr.pieces h + 1) } : Device).modAdmitted k
          fun a => { a with state := .finished, plotsLeft := 0 }))) ∧
      (3 < parity → exec (.screenUpdate k parity) s = .next (s.put (s.dev.uncorrectable
        { cause := 7, severity := 2, replays := 3, persistent := true, unitKind := 4, owner := s.dev.fld F.SCR_TABLE.OWNER h, detail := [(2, h), (4, 256 * piece)] })))) ∧
  (∀ (s : State) (at_ : Nat) (hwBad resBad : List Nat), s.awake → s.dev.fld F.SCR_SCRUB.INTERVAL ≠ 0 →
    exec (.scrubTick at_ hwBad resBad) s = .next (s.put (((s.dev.at_ at_).validTables.foldl (Device.scrubTable hwBad resBad) (s.dev.at_ at_)).scrubCycle)) ∧
    ∀ h, s.dev.validTables = [h] → hwBad.contains h = false → resBad.contains h = false →
      let x := s.dev.scrTable h
      let block := sget 0 s.dev.scr.scrubAt h
      let n := min 4096 (x.bytes - 4096 * block)
      s.dev.bytes (x.hw + 4096 * block) n = s.dev.readMem (x.res + 4096 * block) n →
        ∃ t, exec (.scrubTick at_ hwBad resBad) s = .next t ∧ s.dev.framed t.dev [.SCR_SCRUB] ∧ sget 0 t.dev.scr.clean (h * 16384 + block) = s.dev.turnNo)

/-- From the holder with no CFG_ command active and the rider running: PROFILE_SWITCH ends BUSY (9) with the failing conditions, or begins
SWITCHING; SLOT_WRITE of the active slot ends STATE (10), of an image too large CONTENT (7), and otherwise erases the slot; while a
command is active each is ignored; without the rider each ends STATE. The end of a switch whose target verifies makes that image active
with RESULT 1; of one that does not keeps the old image. A census starts with the device's own record; a reply of a node already recorded
is dropped, of a new one is placed; its end clears ACTIVE. A query is answered. (R384, R385, R386, R391, R392.) -/
def Obligations.ProfilesAndCensus : Prop :=
  (∀ (s : State) (port slot bytes : Nat), s.takesOpen port →
    (s.dev.on F.CFG_CMD_STATUS.ACTIVE = true → exec (.profileSwitch port slot) s = .next s ∧ exec (.slotWrite port slot bytes) s = .next s) ∧
    (s.dev.on F.CFG_CMD_STATUS.ACTIVE = false →
      (s.dev.fld F.RIDE_STATUS.STATE ≠ 2 → (∃ t, exec (.profileSwitch port slot) s = .next t ∧ t.dev.fld F.CFG_CMD_STATUS.RESULT = 10 ∧
          t.dev.fld F.CFG_EVENTS.SWITCH_FAILED = 1) ∧
        (∃ t, exec (.slotWrite port slot bytes) s = .next t ∧ t.dev.fld F.CFG_CMD_STATUS.RESULT = 10 ∧ t.dev.fld F.CFG_EVENTS.SLOT_WRITE_FAILED = 1)) ∧
      (s.dev.fld F.RIDE_STATUS.STATE = 2 →
        (s.dev.busyWhy ≠ 0 → ∃ t, exec (.profileSwitch port slot) s = .next t ∧ t.dev.fld F.CFG_CMD_STATUS.RESULT = 9 ∧
          t.dev.fld F.CFG_CMD_STATUS.BUSY_WHY = s.dev.busyWhy ∧ t.dev.on F.CFG_CMD_STATUS.ACTIVE = false) ∧
        (s.dev.busyWhy = 0 → ∃ t, exec (.profileSwitch port slot) s = .next t ∧ t.dev.fld F.CFG_STATUS.STATE = 2 ∧
          t.dev.cfg.switchTo = some (slot % 4) ∧ t.dev.on F.CFG_CMD_STATUS.ACTIVE = true ∧
          s.dev.framed t.dev [.CFG_CMD_STATUS, .CFG_STATUS]) ∧
        (slot % 4 = s.dev.fld F.CFG_STATUS.ACTIVE_SLOT → ∃ t, exec (.slotWrite port slot bytes) s = .next t ∧
          t.dev.fld F.CFG_CMD_STATUS.RESULT = 10 ∧ t.dev.cfg = s.dev.cfg) ∧
        (slot % 4 ≠ s.dev.fld F.CFG_STATUS.ACTIVE_SLOT → 0x3800000 < bytes → ∃ t, exec (.slotWrite port slot bytes) s = .next t ∧
          t.dev.fld F.CFG_CMD_STATUS.RESULT = 7 ∧ t.dev.cfg = s.dev.cfg) ∧
        (slot % 4 ≠ s.dev.fld F.CFG_STATUS.ACTIVE_SLOT → bytes ≤ 0x3800000 → ∃ t, exec (.slotWrite port slot bytes) s = .next t ∧
          sget none t.dev.cfg.slots (slot % 4) = none ∧ t.dev.cfg.writing = some (slot % 4, bytes))))) ∧
  (∀ (s : State) (slot : Nat) (fl ho nv : Bool), s.awake → s.dev.cfg.switchTo = some slot →
    (∀ im, sget none s.dev.cfg.slots slot = some im → s.dev.slotResult slot fl = 1 → ∃ t, exec (.profileSwitchDone fl ho nv) s = .next t ∧
      t.dev.cfg.image = some im ∧ t.dev.fld F.CFG_STATUS.STATE = 1 ∧ t.dev.fld F.CFG_CMD_STATUS.RESULT = 1 ∧ t.dev.on F.CFG_CMD_STATUS.ACTIVE = false) ∧
    (s.dev.slotResult slot fl ≠ 1 → ∃ t, exec (.profileSwitchDone fl ho nv) s = .next t ∧ t.dev.cfg.image = s.dev.cfg.image ∧
      t.dev.cfg.switchTo = none ∧ t.dev.on F.CFG_CMD_STATUS.ACTIVE = false)) ∧
  (∀ (s : State) (slot n : Nat) (bytes : List Byte) (sections : Sections), s.awake → s.dev.cfg.writing = some (slot, n) →
    let im := imageOfBytes (fit n bytes) sections
    (∀ fl, ∃ t, exec (.slotWriteDone bytes sections false fl) s = .next t ∧ t.dev.fld F.CFG_CMD_STATUS.RESULT = 11 ∧ t.dev.cfg = { s.dev.cfg with writing := none }) ∧
    (∃ t, exec (.slotWriteDone bytes sections true false) s = .next t ∧ t.dev.fld F.CFG_CMD_STATUS.RESULT = 12 ∧ t.dev.cfg = { s.dev.cfg with writing := none }) ∧
    (∃ t, exec (.slotWriteDone bytes sections true true) s = .next t ∧ sget none t.dev.cfg.slots slot = some im ∧ t.dev.cfg.writing = none ∧
      t.dev.fld F.CFG_CMD_STATUS.RESULT = imageCheck s.dev.part im % 256 ∧ t.dev.on F.CFG_CMD_STATUS.ACTIVE = false)) ∧
  (∀ (s : State) (port scope first last : Nat), s.takesOpen port → s.dev.on F.CFG_CENSUS_STATUS.ACTIVE = false →
    (scope ∈ [1, 2] → ∃ t, exec (.censusStart port scope first last) s = .next t ∧ t.dev.on F.CFG_CENSUS_STATUS.ACTIVE = true ∧
      t.dev.cfg.census = some (s.dev.cfg.censusNo + 1, [s.dev.node]) ∧ t.dev.fld F.CFG_CENSUS_STATUS.RECEIVED = 1) ∧
    (scope ∉ [1, 2] → exec (.censusStart port scope first last) s = .next s)) ∧
  (∀ (s : State), s.awake →
    (∀ q, s.dev.node ≠ 0xFFFF → fieldAt q 0 1 = 0x51 →
      let who := fieldAt q 2 2
      let job := fieldAt q 4 2
      let noted := { s.dev with cfg.queries := ((who, fieldAt q 8 8) :: s.dev.cfg.queries).take 16 }
      let told := noted.sendBare who 4 (noted.censusReply job (fieldAt q 8 8))
      ((fieldAt q 1 1 ≠ 1 ∨ job ≠ s.dev.fld F.TURN_JOB.JOB_ID ∨ (who, fieldAt q 8 8) ∈ s.dev.cfg.queries) → exec (.censusQuery q) s = .next (s.put told)) ∧
      (fieldAt q 1 1 = 1 → job = s.dev.fld F.TURN_JOB.JOB_ID → (who, fieldAt q 8 8) ∉ s.dev.cfg.queries →
        exec (.censusQuery q) s = .next (s.put (s.dev.sealPeers.foldl (fun d n => d.sendBare n 4 (fit 32 q)) told)))) ∧
    (∀ bs c ns, s.dev.cfg.census = some (c, ns) → fieldAt bs 8 8 = c % 2 ^ 64 → fieldAt bs 0 1 = 0x52 →
      (fieldAt bs 4 2 ∈ ns → exec (.censusReply bs) s = .next (s.put (s.dev.countSat F.CFG_CENSUS_STATUS.DROPPED))) ∧
      (fieldAt bs 4 2 ∉ ns → ns.length < 2 ^ s.dev.fld F.CFG_CENSUS_BASE.LOG2_SIZE → ∃ t, exec (.censusReply bs) s = .next t ∧
        t.dev.cfg.census = some (c, ns ++ [fieldAt bs 4 2]))) ∧
    (s.dev.on F.CFG_CENSUS_STATUS.ACTIVE = true → ∃ t, exec .censusEnd s = .next t ∧ t.dev.cfg.census = none ∧
      t.dev.on F.CFG_CENSUS_STATUS.ACTIVE = false ∧ t.dev.fld F.CFG_EVENTS.CENSUS_DONE = 1))

/-- From the holder, with well-formed fields and an accessible buffer, outside BOOT_FAIL: KEY_GENERATE and KEY_IMPORT that R406, R408 and
R409 admit install a key with its KEY_ID and end OK (1); a slot with a key answers STATE (4), a policy that forbids 5; KEY_EXPORT that is
admitted ends OK and leaves every key; KEY_RETIRE of a key not in use leaves the slot without one, and of one in use answers BUSY (2) and
keeps it; ATTEST and IDENTITY write the report and the record; FW_WRITE of an image that verifies and is not older than the floor puts it
into the other slot, and of any other leaves that slot EMPTY with the result of the check; FW_FLOOR raises the fuse to the running SVN. In
BOOT_FAIL every one but FW_WRITE ends STATE, and a FW_WRITE that ends OK has the boot ROM repeat its steps. (R401, R404, R405, R406, R409,
R410.) -/
def Obligations.SecurityCommandsEnd : Prop :=
  (∀ (s : State) (port slot : Nat), s.takes port → s.dev.fld F.SEC_STATUS.STATE ≠ 0 → slot < 4096 →
    let b := fun (n : Nat) => s.dev.setFld F.SEC_CMD_STATUS.OPCODE n
    (s.dev.hasKey slot = true → exec (.keyGenerate port slot false) s = .next (s.put ((b 1).secEnd 4))) ∧
    (s.dev.hasKey slot = false → s.dev.policyOk 0 slot = false → exec (.keyGenerate port slot false) s = .next (s.put ((b 1).secEnd 5))) ∧
    (s.dev.hasKey slot = false → s.dev.policyOk 0 slot = true → s.dev.countsUnder slot = false →
      ∃ t, exec (.keyGenerate port slot false) s = .next t ∧ t.dev.hasKey slot = true ∧
        t.dev.fld F.SEC_KEY_ID.KEY_ID slot = keyId (t.dev.ownerKey slot) % 2 ^ 64 ∧ t.dev.fld F.SEC_CMD_STATUS.RESULT = 1 ∧
        ∀ k, k ≠ slot → t.dev.ownerKey k = s.dev.ownerKey k) ∧
    (∀ m, s.dev.hasKey slot = true → s.dev.policyOk 1 slot = true →
      (Config.sha384 (fit 97 m)).toNat = (s.dev.cfg.image.map fun (im : Image) => im.kmHash).getD 0 →
        ∃ t, exec (.keyExport port slot m true false true) s = .next t ∧ t.dev.sec = s.dev.sec ∧ t.dev.fld F.SEC_CMD_STATUS.RESULT = 1 ∧
          s.dev.framed t.dev [.SEC_CMD_STATUS, .SEC_EVENTS]) ∧
    (∀ bs, s.dev.hasKey slot = false → s.dev.policyOk 2 slot = true → s.dev.countsUnder slot = false →
      fieldAt bs 0 4 = 0x5A544B57 → fieldAt bs 6 1 = 2 → fieldAt bs 4 2 = slot →
      let u := Config.keyUnwrap (wrapKek (Config.ecdhX (ascii "WRAP" ++ leBytes 8 s.dev.part.uid) (((fit 160 bs).drop 16).take 97))
        (fixedInfo 2 slot (fieldAt bs 8 8))) (((fit 160 bs).drop 113).take 40)
      ∃ t, exec (.keyImport port slot bs false true) s = .next t ∧
        (∀ k, u = some k → keyId (leBytes 32 k.toNat) = fieldAt bs 8 8 → keyId (leBytes 32 k.toNat) ≠ 0 →
          t.dev.ownerKey slot = leBytes 32 k.toNat ∧ t.dev.fld F.SEC_CMD_STATUS.RESULT = 1) ∧
        (u = none → t.dev.hasKey slot = false ∧ t.dev.fld F.SEC_CMD_STATUS.RESULT = 7)) ∧
    (s.dev.hasKey slot = true → s.dev.keyInUse slot = true → exec (.keyRetire port slot false) s = .next (s.put ((b 4).secEnd 2))) ∧
    (s.dev.hasKey slot = true → s.dev.keyInUse slot = false →
      ∃ t, exec (.keyRetire port slot false) s = .next t ∧ t.dev.hasKey slot = false ∧ t.dev.fld F.SEC_KEY_ID.KEY_ID slot = 0 ∧
        t.dev.fld F.SEC_CMD_STATUS.RESULT = 1 ∧ t.dev.mtr = s.dev.mtr) ∧
    (∀ nonce, exec (.attest port nonce false true) s =
      .next (s.put (((((b 5).secRead port 32).secWrite port 64 (((b 5).secRead port 32).report nonce))).secEnd 1))) ∧
    (exec (.identityCmd port false true) s = .next (s.put (((b 6).secWrite port 0 (identityRecord s.dev.part.uid)).secEnd 1))) ∧
    (∀ n bytes, slot < 2 → slot ≠ s.dev.fld F.SEC_STATUS.FW_SLOT →
      let im := fwOfBytes (fit n bytes)
      let stays := fun (ho fl : Bool) (x : Option FwImage) (r : Nat) => ∃ t, exec (.fwWrite port slot n bytes false ho fl) s = .next t ∧
        t.dev.sec = { s.dev.sec with slots := sput none s.dev.sec.slots slot x } ∧ t.dev.fld F.SEC_CMD_STATUS.RESULT = r
      (∀ fl, stays false fl none 8) ∧ (∀ fl, fwVerifies s.dev.part im = false → stays true fl none 9) ∧
      (fwVerifies s.dev.part im = true →
        (∀ fl, im.svn < s.dev.sec.floor → stays true fl none 10) ∧
        (s.dev.sec.floor ≤ im.svn → stays true false none 11 ∧ stays true true (some im) 1))) ∧
    (s.dev.fld F.SEC_STATUS.FW_SVN ≤ s.dev.sec.floor → exec (.fwFloor port false) s = .next (s.put ((b 8).secEnd 4))) ∧
    (s.dev.sec.floor < s.dev.fld F.SEC_STATUS.FW_SVN → ∃ t, exec (.fwFloor port false) s = .next t ∧
      t.dev.sec.floor = s.dev.fld F.SEC_STATUS.FW_SVN ∧ t.dev.fld F.SEC_CMD_STATUS.RESULT = 1)) ∧
  (∀ (s : State) (port slot : Nat) (r o : Bool) (bs : List Byte), s.takes port → s.dev.fld F.SEC_STATUS.STATE = 0 →
    let ends := fun (c : Instr) (n : Nat) => exec c s = .next (s.put ((s.dev.setFld F.SEC_CMD_STATUS.OPCODE n).secEnd 4))
    (∀ n bytes, slot < 2 → fwVerifies s.dev.part (fwOfBytes (fit n bytes)) = true → s.dev.sec.floor ≤ (fwOfBytes (fit n bytes)).svn →
      s.dev.cfg.image.isSome = true → exec (.fwWrite port slot n bytes false true true) s = .next (s.put (({ ((s.dev.setFld F.SEC_CMD_STATUS.OPCODE
        7).secRead port n) with sec.slots := sput none s.dev.sec.slots slot (some (fwOfBytes (fit n bytes))) } : Device).secEnd 1).bootRom)) ∧
    ends (.keyGenerate port slot r) 1 ∧ ends (.keyExport port slot bs true r o) 2 ∧ ends (.keyImport port slot bs r o) 3 ∧ ends (.keyRetire port slot r) 4 ∧
      ends (.attest port bs r o) 5 ∧ ends (.identityCmd port r o) 6 ∧ ends (.fwFloor port r) 8)

/-- On a live device: METERGATE_START acts once, in STARTING with the rider running; INTERVAL_CLOSE closes a period that has reached
INTERVAL; TALLY_NOW closes at once while IDLE or HALTED and otherwise notes the demand; MTR_CLOSE closes; PERIOD_CLOSE repeats a close
that waited; RECORD_SIGN signs the next record while the ring has room, and sets RING_FULL without; MTR_CONSUMED moves only between its
value and PRODUCED; a firmware change is refused (2) in a turn, (3) unsigned, (4) for a lower SVN, and otherwise begins UPDATING; its
timeout ends it BUSY (5); a query of a node that is not an audit node is refused, one of an audit node is answered. (R413, R415, R416,
R417, R418.) -/
def Obligations.MetergateCommands : Prop :=
  ∀ (s : State), s.awake →
    (s.dev.mtrState = 0 → s.dev.riderRuns = true → exec .metergateStart s = .next (s.put s.dev.meterStart)) ∧
    (s.dev.mtrState ≠ 0 → exec .metergateStart s = .next s) ∧
    (s.dev.atInterval = true → s.dev.mtr.due = none → exec .intervalClose s = .next (s.put (s.dev.closePeriod 1 (some (s.dev.mtr.period.last + 1))))) ∧
    (∀ port, port < 2 →
      (s.dev.fld F.TURN_STATUS.STATE ∈ [0, 2] → exec (.tallyNow port) s = .next (s.put (s.dev.closePeriod 2 none))) ∧
      (s.dev.fld F.TURN_STATUS.STATE ∉ [0, 2] → ∃ t, exec (.tallyNow port) s = .next t ∧ t.dev.mtr.demand = true ∧ s.dev.framed t.dev []) ∧
      (exec (.mtrClose port) s = .next (s.put (s.dev.closePeriod 3 none))) ∧
      (∀ v, s.dev.fld F.MTR_CONSUMED.CONSUMED ≤ v → v ≤ s.dev.fld F.MTR_PRODUCED.PRODUCED →
        exec (.mtrConsumedWrite port v) s = .next (s.put (s.dev.setFld F.MTR_CONSUMED.CONSUMED v).fwProceed)) ∧
      (∀ v, (v < s.dev.fld F.MTR_CONSUMED.CONSUMED ∨ s.dev.fld F.MTR_PRODUCED.PRODUCED < v) → exec (.mtrConsumedWrite port v) s = .next s) ∧
      (∀ n bytes ho fl, s.dev.mtr.change = none →
        let im := mtrOfBytes (fit n bytes)
        let b := s.dev.emit (.hostRead ⟨port, 0⟩ (s.dev.fld F.MTR_FW_ADDR.ADDR * 4096) n)
        (s.dev.fld F.TURN_STATUS.STATE ≠ 0 → exec (.metergateFwChange port n bytes ho fl) s = .next (s.put (s.dev.fwDone 2 s.dev.mtrState))) ∧
        (s.dev.fld F.TURN_STATUS.STATE = 0 → mtrVerifies s.dev.part im = false → exec (.metergateFwChange port n bytes true fl) s = .next (s.put (b.fwDone 3 s.dev.mtrState))) ∧
        (s.dev.fld F.TURN_STATUS.STATE = 0 → mtrVerifies s.dev.part im = true →
          (im.svn < s.dev.mtr.image.svn → exec (.metergateFwChange port n bytes true fl) s = .next (s.put (b.fwDone 4 s.dev.mtrState))) ∧
          (s.dev.mtr.image.svn ≤ im.svn → 1023 ≤ s.dev.mtr.fuse → exec (.metergateFwChange port n bytes true fl) s = .next (s.put (b.fwDone 6 s.dev.mtrState))) ∧
          (s.dev.mtr.image.svn ≤ im.svn → s.dev.mtr.fuse < 1023 → exec (.metergateFwChange port n bytes true fl) s = .next (s.put
            (((((({ b with mtr.change := some (im, fl, s.dev.mtrState) } : Device).setFld F.MTR_STATUS.STATE 3).setFld
              F.MTR_FW_STATUS.ACTIVE 1).setFld F.MTR_FW_STATUS.RESULT 0).closePeriod 4 none).fwProceed)))))) ∧
    (∀ cause, s.dev.mtr.due = some cause → s.dev.mtr.period.started = true →
      exec .periodClose s = .next (s.put (s.dev.closePeriod cause (some (s.dev.mtr.period.last + 1))))) ∧
    (s.dev.signs = true → s.dev.mtr.queue ≠ [] →
      (1024 ≤ s.dev.fld F.MTR_PRODUCED.PRODUCED - s.dev.fld F.MTR_CONSUMED.CONSUMED →
        exec .recordSign s = .next (s.put (s.dev.mtrEvent F.MTR_EVENTS.RING_FULL))) ∧
      (s.dev.fld F.MTR_PRODUCED.PRODUCED - s.dev.fld F.MTR_CONSUMED.CONSUMED < 1024 →
        exec .recordSign s = .next (s.put s.dev.signNext.fwProceed))) ∧
    (∀ im fl st, s.dev.mtr.change = some (im, fl, st) →
      ∃ t, exec .fwDrainTimeout s = .next t ∧ t.dev.mtr.change = none ∧ t.dev.fld F.MTR_FW_STATUS.RESULT = 5 ∧ t.dev.fld F.MTR_FW_STATUS.ACTIVE = 0) ∧
    (∀ q, (s.dev.mtr.image.audit.take 8).contains (fieldAt q 2 2) = false →
      exec (.meterQuery q) s = .next (s.put (s.dev.mtrEvent F.MTR_EVENTS.QUERY_REFUSED))) ∧
    (∀ q, s.dev.mtrState = 1 → (s.dev.mtr.image.audit.take 8).contains (fieldAt q 2 2) = true → fieldAt q 0 1 = 0x61 → 0 < fieldAt q 1 1 →
      fieldAt q 1 1 ≤ 7 →
      let asked := (List.range (fieldAt q 1 1)).map (fieldAt q 8 8 + ·)
      let held := if fieldAt q 4 4 = s.dev.mtr.boot then asked.filter fun k => decide (k < s.dev.fld F.MTR_PRODUCED.PRODUCED) && decide (s.dev.fld F.MTR_PRODUCED.PRODUCED ≤ k + 1024) else []
      let status := if held.length = fieldAt q 1 1 then 0 else if held = [] then 2 else 1
      exec (.meterQuery q) s = .next (s.put (s.dev.sendBare (fieldAt q 2 2) 6 (pack [(1, 0x62), (1, held.length), (1, status), (1, 0),
        (2, s.dev.node), (2, 0), (4, s.dev.mtr.boot), (4, 0), (8, fieldAt q 8 8), (8, 0)] ++
        held.flatMap fun k => fit 512 (sget [] s.dev.mtr.ring (k % 1024))))))

/-- From the holder: PLOT_RESET is refused while the job is RUNNING and otherwise begins step 2 over the plot; ENGINE_RESET and LINK_RESET
of a link of the part begin step 1; RESET_REQUEST names a unit that is not there, or asks for step 2 while RUNNING: REFUSED (2); one a
running step covers: COVERED (3); otherwise it is taken (1). The end of a running step ends it. A step that misses its limit draws
RESET_TIMEOUT and is followed by the next step over the domain that contains it, and a device reset that misses it is FATAL: the device is
dead. A step that a running step covers changes nothing. (R82, R279, R319, R427, R429.) -/
def Obligations.ResetLadder : Prop :=
  (∀ (s : State) (port : Nat), s.takes port →
    (∀ p, p < 64 → s.dev.running = true → exec (.plotReset port p) s = .next (s.put (s.dev.setFld F.PLOT_EVENTS.RESET_REFUSED 1 p))) ∧
    (∀ p, p < 64 → s.dev.running = false → exec (.plotReset port p) s =
      .next (s.put (s.dev.takeStep { step := 2, kind := 6, index := p, cause := 1 }))) ∧
    (∀ e, e < 32 → exec (.engineReset port e) s = .next (s.put (s.dev.takeStep { step := 1, kind := 1, index := e, cause := 1 }))) ∧
    (∀ l, s.dev.part.link l = true → exec (.linkReset port l) s =
      .next (s.put (s.dev.takeStep { step := 1, kind := 4, index := l / 2, cause := 1 }))) ∧
    (∀ kind domain index,
      let dom := if kind = 7 then domain else 0
      let l : Ladder := { step := kindStep kind, kind := kind, domain := dom, index := index, cause := 1 }
      let run := fun (d : Device) => exec (.resetRequest port kind domain index) s = .next (s.put d)
      (s.dev.part.resettable kind dom index = false → run (s.dev.setFld F.ERR_RESET_STATUS.LAST_REQUEST 2)) ∧
      (s.dev.part.resettable kind dom index = true → kindStep kind = 2 → s.dev.running = true → run (s.dev.setFld F.ERR_RESET_STATUS.LAST_REQUEST 2)) ∧
      (s.dev.part.resettable kind dom index = true → ¬(kindStep kind = 2 ∧ s.dev.running = true) →
        (s.dev.coveredPart l = true → run (s.dev.setFld F.ERR_RESET_STATUS.LAST_REQUEST 3)) ∧
        (s.dev.coveredPart l = false → run ((s.dev.setFld F.ERR_RESET_STATUS.LAST_REQUEST 1).takeStep l))))) ∧
  (∀ (s : State), s.awake →
    (∀ p l, s.dev.err.running.find? (fun l => l.kind == 6 && l.index == p) = some l → exec (.plotResetDone p) s = .next (s.put (s.dev.stepDone l true))) ∧
    (∀ k dom x l fl, s.dev.runningStep k dom x = some l → exec (.resetStepDone k dom x fl) s = .next (s.put (s.dev.stepDone l fl))) ∧
    (∀ k dom x l a, s.dev.runningStep k dom x = some l →
      (l.step < 4 → exec (.resetStepTimeout k dom x a) s =
        .next (s.put ((((s.dev.record (l.record 0x13 3)).endStep l).unitFailed l).takeStep l.next))) ∧
      (4 ≤ l.step → ∃ t, exec (.resetStepTimeout k dom x a) s = .next t ∧ t.dev.pwr.fatal = true ∧ t.dev.dead = true ∧
        t.dev.fld F.ERR_RESET_STATUS.STEP = 5 ∧ t.dev.fld F.ERR_RESET_STATUS.FATAL = 1 ∧ t.dev.err.running = []))) ∧
  (∀ (d : Device) (l : Ladder), d.covered l = true → d.takeStep l = d)

/-- On a live device in no warm reset: a heartbeat of a started rider counts and leaves it RUNNING, and one that ends a rider reset sets
RIDER_UP; WATCHDOG resets a RUNNING rider, which is awaited, and ends a CFG_ command; without the rider's return the device is reset. From
the holder, DUMP_NOW takes a dump, DUMP_RELEASE releases it, PUSH_NOW pushes at once with the rider and otherwise later, SENT_CLEAR zeroes
every sentinel counter and no other register. A push that is due happens once the rider runs. A shadow takes each record of its primary's
fingerprints; another device ignores them. (R430, R431, R432, R433, R438, R441.) -/
def Obligations.RiderDumpsAndSentinels : Prop :=
  (∀ (s : State), s.awake →
    (s.dev.warmRuns = false → s.dev.fld F.RIDE_STATUS.STATE ∈ [1, 2, 3] → s.dev.mtr.change = none →
      ∃ t, exec .riderHeartbeat s = .next t ∧ t.dev.fld F.RIDE_STATUS.STATE = 2 ∧ t.dev.err.riderWaiting = false ∧
        (s.dev.err.riderWaiting = true → t.dev.fld F.RIDE_EVENTS.RIDER_UP = 1) ∧
        s.dev.framed t.dev [.RIDE_HEARTBEAT, .RIDE_STATUS, .RIDE_EVENTS]) ∧
    (s.dev.fld F.RIDE_STATUS.STATE = 2 → ∃ t, exec .watchdog s = .next t ∧ t.dev.err.riderWaiting = true ∧
      (t.dev.fld F.RIDE_STATUS.STATE = 3 ∨ t.dev.fld F.RIDE_STATUS.STATE = 4) ∧ t.dev.on F.CFG_CMD_STATUS.ACTIVE = false) ∧
    (s.dev.fld F.RIDE_STATUS.STATE ≠ 2 → exec .watchdog s = .next s) ∧
    (s.dev.err.riderWaiting = true → s.dev.fld F.RIDE_STATUS.STATE = 3 → s.dev.warmRuns = false → exec .watchdogNoReturn s =
      .next (s.put ((s.dev.takeStep { step := 4, kind := 9, index := 0, cause := 4 }).event F.RIDE_EVENTS.WARM_RESET))) ∧
    (∀ ho fl, s.dev.err.pushing = true → s.dev.riderRuns = true → s.dev.warmRuns = false →
      exec (.retentionPush ho fl) s = .next (s.put (s.dev.pushRetention ho fl))) ∧
    (∀ ho fl, s.dev.err.pushing = false → exec (.retentionPush ho fl) s = .next s) ∧
    (∀ (m : Sys2Proof.Msg) im, s.dev.cfg.image = some im → fieldAt m.data 0 1 = 0x71 → fieldAt m.data 2 2 = im.primary →
      (im.shadow = true → fieldAt m.data 6 2 = 1 → exec (.fingerprint m) s = .next (s.put ((s.dev.took m).takePrint (printAt m.data 0)))) ∧
      (im.shadow = false → exec (.fingerprint m) s = .next (s.put (s.dev.took m))))) ∧
  (∀ (s : State) (port : Nat), s.takes port →
    (exec (.dumpNow port) s = .next (s.put (s.dev.takeDump 1 0))) ∧
    (∃ t, exec (.dumpRelease port) s = .next t ∧ t.dev.err.dumpHeld = false ∧ s.dev.framed t.dev []) ∧
    (∀ ho fl, s.dev.riderRuns = true → exec (.pushNow port ho fl) s = .next (s.put (s.dev.pushRetention ho fl))) ∧
    (∀ ho fl, s.dev.riderRuns = false → ∃ t, exec (.pushNow port ho fl) s = .next t ∧ t.dev.err.pushing = true ∧ s.dev.framed t.dev []) ∧
    (∃ t, exec (.sentClear port) s = .next t ∧ (∀ j, j < 0x10000 → t.dev.reg .ERR_SENT_BIN j = regReset s.dev.part .ERR_SENT_BIN j ∧
      t.dev.reg .ERR_SENT_CORE j = regReset s.dev.part .ERR_SENT_CORE j) ∧ s.dev.framed t.dev [.ERR_SENT_BIN, .ERR_SENT_CORE]))

/-- PWRGOOD_ASSERT brings power, with time since power-on beginning anew where retention was lost; PWRGOOD_DEASSERT and PERST0_ASSERT are
fundamental resets: every register at its reset value and headwater below the retention area zero; PERST0_DEASSERT with power good samples
PROF and ends the hold; PERST1 holds and frees H1 and resets nothing. SUPPLY_FAULT marks its rail. A junction sampled at 115 C or above
trips a powered device, which is then dead; an overcurrent of an armed core rail takes the emergency step once; an idle tick while IDLE
takes a planned step decision. (R444, R445, R447, R449, R452, R453, R455.) -/
def Obligations.PinsSuppliesAndSensors : Prop :=
  (∀ (s : State), s.settled →
    let fresh := fun (t : State) => (∀ r j, t.dev.reg r j = regReset s.dev.part r j) ∧ ∀ a, a < 0xC0000000 → t.dev.byte a = 0
    (s.dev.pwr.off = true → (∃ t, exec (.pwrgoodAssert false) s = .next t ∧ t.dev.pwr.off = false ∧ t.dev.now = 0) ∧
      (∃ t, exec (.pwrgoodAssert true) s = .next t ∧ t.dev.pwr.off = false ∧ t.dev.now = s.dev.now ∧ s.dev.framed t.dev [])) ∧
    (s.dev.pwr.off = false → ∃ t, exec .pwrgoodDeassert s = .next t ∧ t.dev.pwr.off = true ∧ t.dev.pwr.tripped = false ∧ t.dev.pwr.fatal = false ∧ fresh t) ∧
    (s.dev.pwr.held = false → ∃ t, exec .perst0Assert s = .next t ∧ t.dev.pwr.held = true ∧ t.dev.pwr.fatal = false ∧ fresh t) ∧
    (∀ prof fl, s.dev.pwr.held = true → s.dev.pwr.off = false → s.dev.pwr.tripped = false →
      ∃ t, exec (.perst0Deassert prof fl) s = .next t ∧ t.dev.pwr.held = false ∧ t.dev.fld F.CFG_STATUS.PINS = prof % 4 ∧
        t.dev.fld F.CFG_STATUS.ACTIVE_SLOT = prof % 4) ∧
    (s.dev.dead = false → s.dev.pwr.perst1 = false → exec .perst1Assert s = .next (s.put (({ s.dev with pwr.perst1 := true } : Device).portLost 1 0))) ∧
    (∃ t, exec .perst1Deassert s = .next t ∧ t.dev.pwr.perst1 = false ∧ s.dev.framed t.dev []) ∧
    (∀ at_ (x : Sensors), s.dev.pwr.off = false →
      ((∃ v ∈ x.junction0 ++ x.junction1, 1150 ≤ v) → ∃ t, exec (.sensorSample at_ x) s = .next t ∧ t.dev.pwr.tripped = true ∧ t.dev.dead = true ∧
        s.dev.framed t.dev []) ∧
      ((∀ v ∈ x.junction0 ++ x.junction1, v < 1150) → s.dev.dead = false →
        exec (.sensorSample at_ x) s = .next (s.put ((s.dev.at_ at_).sample1 x))))) ∧
  (∀ (s : State), s.awake →
    (∀ rail, rail < 11 → ∃ t, exec (.supplyFault rail) s = .next t ∧ t.dev.fld F.PWR_RAIL.OUT_OF_RANGE rail = 1 ∧ t.dev.fld F.PWR_EVENTS.SUPPLY_FAULT = 1) ∧
    (s.dev.pwr.armed0 = true → exec (.vcoreOvercurrent 1) s =
      .next (s.put (({ s.dev with pwr.armed0 := false } : Device).emergencyStep F.PWR_EVENTS.EMERG_CURRENT))) ∧
    (s.dev.pwr.armed0 = false → exec (.vcoreOvercurrent 1) s = .next s) ∧
    (∀ at_, s.dev.fld F.TURN_STATUS.STATE = 0 → exec (.idleStepTick at_) s = .next (s.put (s.dev.at_ at_).plannedStep)) ∧
    (∀ at_, s.dev.fld F.TURN_STATUS.STATE ≠ 0 → exec (.idleStepTick at_) s = .next (s.put (s.dev.at_ at_))))

/-- For every register copy of BAR0, BAR2 or BAR4 but HQ_CONTROL (whose fields have their own commands), present on the part, and each of
its RW fields with a stated range lo to hi, but those whose writes are commands with rules of their own, those with reserved codes (R395),
and those of an enabled queue (R354): a 64-bit write of any value by the holder leaves the field at the nearest value to the one written
that lies within lo to hi. (R461.) -/
def Obligations.WritesOutsideARangeClamp : Prop :=
  ∀ (s : State) (port bar off v : Nat) (r : Reg) (k lo hi : Nat) (f : Field), s.takes port → off % 8 = 0 → regAt bar off = some (r, k) → k < 0x10000 →
    r ≠ .HQ_CONTROL → s.dev.part.absent r k = false → f ∈ r.fields → f.acc = .rw → f.rng = some (lo, hi) →
      f ∉ ownCommand → enumTop.any (fun x => decide (x.1 = f)) = false → s.dev.queueHeld f k = false →
        ∃ t, exec (.registerWrite ⟨port, 0⟩ bar off 8 v) s = .next t ∧
          t.dev.fld f k = max lo (min hi (f.get (BitVec.ofNat 64 v))) ∧ lo ≤ t.dev.fld f k ∧ t.dev.fld f k ≤ hi

/-- A write by a function of any BAR, outside the doorbells (R348), that is neither an aligned 64-bit access nor an aligned 32-bit access
to a half of a register changes nothing; a read of such a width or alignment on a device that answers returns bytes of zero and changes no
register and no memory. A 32-bit write to a half leaves every field of the register that lies wholly in the other half as it was; a write
to a staged field leaves its value in use. (R9.) -/
def Obligations.RegisterAccessWidths : Prop :=
  (∀ (s : State) (fn : Fn) (at_ bar off size v : Nat), s.settled → ¬(size = 8 ∧ off % 8 = 0) → ¬(size = 4 ∧ off % 4 = 0) → doorbellAt fn bar off = none →
    exec (.registerWrite fn bar off size v) s = .next s ∧
    (s.dev.dead = false → ∃ t, exec (.rcFieldRead at_ fn bar off size) s = .next t ∧ s.dev.framed t.dev [] ∧
      t.dev.out = s.dev.out ++ [.readReturn fn bar off (List.replicate size 0)])) ∧
  (∀ (s : State) (port bar off v : Nat) (r : Reg) (k : Nat) (f : Field), s.takes port → off % 8 = 0 → regAt bar off = some (r, k) → k < 0x10000 → f ∈ r.fields →
    (32 ≤ f.lo → ∃ t, exec (.registerWrite ⟨port, 0⟩ bar off 4 v) s = .next t ∧ t.dev.fld f k = s.dev.fld f k) ∧
    (f.lo + f.w ≤ 32 → ∃ t, exec (.registerWrite ⟨port, 0⟩ bar (off + 4) 4 v) s = .next t ∧ t.dev.fld f k = s.dev.fld f k) ∧
    (f.acc = .ro ∨ f.acc = .rc ∨ f.acc = .st → ∃ t, exec (.registerWrite ⟨port, 0⟩ bar off 8 v) s = .next t ∧ t.dev.fld f k = s.dev.fld f k))

/-- For a PF that is not the holder, while no step 3 or 4 runs: a write of BAR0 or BAR2 other than HQ_CONTROL, as a register write or as a
command, is dropped and adds one to HQ_STATS.FOREIGN; it may still claim, where no PF holds, and close the metergate's period. Both PFs
read the same bytes; its read changes no register. A cancel of a VF acts as it would under any holder. (R351.) -/
def Obligations.OnlyTheHolderWrites : Prop :=
  ∀ (s : State) (port at_ : Nat), s.awake → s.dev.barClosed = false → s.dev.holder ≠ some port → port < 2 →
    let dropped := fun (c : Instr) => exec c s = .next (s.put (s.dev.count F.HQ_STATS.FOREIGN))
    (∀ bar off size v m r, bar ≠ 4 → accessMask off size = some m → regAt bar (off / 8 * 8) = some r → r.1 ≠ .HQ_CONTROL →
      dropped (.registerWrite ⟨port, 0⟩ bar off size v)) ∧
    (∀ x y z, dropped (.plotReset port x) ∧ dropped (.engineReset port x) ∧ dropped (.linkReset port x) ∧ dropped (.resetRequest port x y z) ∧
      dropped (.dumpNow port) ∧ dropped (.sentClear port) ∧ dropped (.hqTail port x y) ∧ dropped (.profileSwitch port x) ∧
      dropped (.censusStart port x y z) ∧ dropped (.keyRetire port x false) ∧ dropped (.scrRetire port x) ∧ dropped (.pimDqTailWrite port x) ∧
      dropped (.furCqTailWrite port x) ∧ dropped (.sluFlushStart port x) ∧ dropped (.nvmPortReset port x)) ∧
    (s.dev.holder = none → ∃ t, exec (.holderClaim at_ port) s = .next t ∧ t.dev.holder = some port) ∧
    (exec (.mtrClose port) s = .next (s.put (s.dev.closePeriod 3 none))) ∧
    (∀ bar off size other, other < 2 → ∃ t u bs, exec (.rcFieldRead at_ ⟨port, 0⟩ bar off size) s = .next t ∧ exec (.rcFieldRead at_ ⟨other, 0⟩ bar off size) s = .next u ∧
      t.dev.out = s.dev.out ++ [.readReturn ⟨port, 0⟩ bar off bs] ∧ u.dev.out = s.dev.out ++ [.readReturn ⟨other, 0⟩ bar off bs] ∧ s.dev.framed t.dev []) ∧
    (∀ fn v, fn.vf ≠ 0 → (s.dev.slot (cancelSlotNo v)).img.jst = cancelJst v → (s.dev.slot (cancelSlotNo v)).img.state ∈ [1, 2, 3] →
      (s.dev.at_ at_).mayCancel (cancelSlotNo v) fn = true →
      let b := s.dev.at_ at_
      let u := ((b.entriesOf (cancelSlotNo v)).foldl (fun (d : Device) k => d.pimCut k) b).cancelSlot (cancelSlotNo v)
      exec (.cancelDoorbell at_ fn v true) s = .next (s.put u))

/-- For every command c, every state and every rest of a queue: the step of the state with c at the front of its queue is exec of c on the
state with the queue's rest, first in, first out. With an empty queue the step answers the same state: that idling is the model's own
choice (log entry 30). (R1, R356.) -/
def Obligations.StepTakesTheFrontCommand : Prop :=
  (∀ (c : Instr) (rest : List Instr) (s : State), step { s with pending := c :: rest } = exec c { s with pending := rest }) ∧
  (∀ s : State, s.pending = [] → step s = .next s)

/-- Every command on every state answers a next state, never a fault or a refusal; the queue is as exec found it, and no write of the
command waits. On a device that is dead (power off, held in reset, tripped, or fatal) every command but the pins, a sensor sample and a
read changes nothing at all. While step 3 or 4 of the ladder runs, the holder's writes to BAR0 and BAR2 change nothing. (R428, R447, R448,
R449.) -/
def Obligations.EveryCommandCompletes : Prop :=
  (∀ (c : Instr) (s : State), ∃ t, exec c s = .next t ∧ t.pending = s.pending ∧ t.dev.wr = []) ∧
  (∀ (c : Instr) (s : State), s.settled → s.dev.dead = true → reachesDead c = false → exec c s = .next s) ∧
  (∀ (s : State) (port x y z : Nat), s.awake → s.dev.barClosed = true →
    exec (.plotReset port x) s = .next s ∧ exec (.engineReset port x) s = .next s ∧ exec (.linkReset port x) s = .next s ∧
    exec (.resetRequest port x y z) s = .next s ∧ exec (.hqTail port x y) s = .next s ∧ exec (.profileSwitch port x) s = .next s ∧
    exec (.censusStart port x y z) s = .next s ∧ exec (.keyGenerate port x false) s = .next s ∧ exec (.scrRetire port x) s = .next s ∧
    exec (.pimDqTailWrite port x) s = .next s ∧ exec (.furCqTailWrite port x) s = .next s ∧ exec (.dumpNow port) s = .next s)

/-- Right after reset the queue is empty, memory is in its canonical form and lists the retention header's MAGIC alone, every other byte
reads 0 (log entry 11), no PF holds, the turn unit is IDLE, no error bit of the ladder is set, no link is up and no slot of the profile
flash holds an image (log entry 40, the model's choice). (R351, R383, R401, R447.) -/
def Obligations.ResetState : Prop :=
  State.reset.settled ∧ State.reset.pending = [] ∧ State.reset.dev.dead = false ∧ State.reset.dev.holder = none ∧
  State.reset.dev.fld F.TURN_STATUS.STATE = 0 ∧ State.reset.dev.fld F.ERR_RESET_STATUS.STEP = 0 ∧ State.reset.dev.fld F.RIDE_STATUS.STATE = 2 ∧
  State.reset.dev.fld F.SEC_STATUS.STATE = 1 ∧ State.reset.dev.fld F.CFG_STATUS.STATE = 0 ∧ State.reset.dev.on F.CFG_EVENTS.NO_IMAGE = true ∧
  (∀ k, State.reset.dev.slotState k = 0) ∧ (∀ r, (State.reset.dev.region r).state = 0) ∧ (∀ k, (State.reset.dev.furrow k).state = 0) ∧
  (∀ p, p < 4 → sget none State.reset.dev.cfg.slots p = none) ∧
  (∀ a, a ∉ [0xC0000000, 0xC0000001, 0xC0000002, 0xC0000003] → State.reset.dev.byte a = 0)

/-- For every state whose memory is in its canonical form (addresses strictly rising, no entry equal to what an unlisted address reads as)
and in which no command's write waits to land: a step, whatever command stands at the front and whatever the rest of the state, answers a
next state of the same kind, whose queue is the old one without its front. So equal memories are equal data in every state that steps
reach, and a queue of n commands is empty after n steps. (R80, R356.) -/
def Obligations.StepsKeepMemoryCanonical : Prop :=
  (∀ s : State, s.settled → ∃ t, step s = .next t ∧ t.settled ∧ t.pending = s.pending.tail) ∧
  (∀ s : State, s.settled → ∃ t : State, (∃ run : Nat → State, run 0 = s ∧ run s.pending.length = t ∧ ∀ k, k < s.pending.length →
    step (run k) = .next (run (k + 1)) ∧ (run k).settled) ∧ t.settled ∧ t.pending = [])

/-- For every state: a write of a single register or queue index, a refresh or mode read, a census command, a security command, a
metergate command, a sample or a clock step, when it answers a next state, leaves every byte of memory as it was. The metergate's own
commands leave every register outside the MTR_ block, and all of the turn, slot, furrow, handoff, sluice, channel, screen, security and
power state, as they were. (R10, R411, R420.) -/
def Obligations.CommandsKeepWhatTheyDoNotName : Prop :=
  (∀ (c : Instr) (s t : State), s.settled → keepsMemory c = true → exec c s = .next t → ∀ a, t.dev.byte a = s.dev.byte a) ∧
  (∀ (c : Instr) (s t : State), s.settled → metering c = true → exec c s = .next t →
    s.dev.framed t.dev [.MTR_ID, .MTR_STATUS, .MTR_PERIOD, .MTR_PRODUCED, .MTR_CONSUMED, .MTR_CONFIG, .MTR_FW_STATUS, .MTR_EVENTS, .MTR_DIGEST] ∧
    t.dev.turn = s.dev.turn ∧ t.dev.gen = s.dev.gen ∧ t.dev.fur = s.dev.fur ∧ t.dev.ho = s.dev.ho ∧ t.dev.slu = s.dev.slu ∧ t.dev.pim = s.dev.pim ∧
    t.dev.scr = s.dev.scr ∧ t.dev.sec = s.dev.sec ∧ t.dev.pwr = s.dev.pwr ∧ t.dev.mem5 = s.dev.mem5 ∧ t.dev.cores = s.dev.cores)
end

