-- ==== Sys2Proof/Laws/Bytes.lean ====
section
/-! SUPPORT. Sys2Proof/Laws/Bytes.lean: little-endian bytes (R7) give their number back, and the bytes of a flit pass its check (R305). -/

namespace Sys2Proof

/-- A number has as many bytes as asked for. -/
@[simp] theorem leBytes_length (n v : Nat) : (leBytes n v).length = n := by
  induction n generalizing v with
  | zero => rfl
  | succ n ih => simp [leBytes, ih]

/-- The bytes of a number spell it, up to their width. -/
theorem leValue_leBytes (n v : Nat) : leValue (leBytes n v) = v % 256 ^ n := by
  induction n generalizing v with
  | zero => simp [leBytes, leValue, Nat.mod_one]
  | succ n ih =>
    simp only [leBytes, leValue, ih, BitVec.toNat_ofNat]
    rw [Nat.pow_succ (n := 256) (m := n), Nat.mul_comm (256 ^ n) 256, Nat.mod_mul]

/-- The last eight bytes of a byte string of 256. -/
theorem fieldAt_tail (bs : List Byte) (v : Nat) (h : bs.length = 248) : fieldAt (bs ++ leBytes 8 v) 248 8 = v % 2 ^ 64 := by
  have e : (256 : Nat) ^ 8 = 2 ^ 64 := by decide
  rw [fieldAt, List.drop_left' h, List.take_of_length_le (by simp), leValue_leBytes, e]

/-- The part of a flit's bytes that its CRC covers is 248 bytes long. -/
theorem Flit.covered_length (f : Flit) : (leBytes 8 f.header ++ (f.body ++ List.replicate 240 (0 : Byte)).take 240).length = 248 := by
  rw [List.length_append, leBytes_length, List.length_take, List.length_append, List.length_replicate]; omega

/-- The bytes of a flit pass its check. -/
theorem flitCrcOk_bytes (f : Flit) : flitCrcOk f.bytes = true := by
  simp only [flitCrcOk, Flit.bytes, fieldAt_tail _ _ f.covered_length, List.take_left' f.covered_length, beq_iff_eq]
  exact Nat.mod_eq_of_lt (BitVec.isLt _)

/-- Bytes whose last eight spell another number than their CRC-64 fail the check. -/
theorem flitCrcOk_damaged (bs : List Byte) (h : bs.length = 248) :
    flitCrcOk (bs ++ leBytes 8 ((Config.crc64 bs).toNat + 1)) = false := by
  simp only [flitCrcOk, fieldAt_tail _ _ h, List.take_left' h, beq_eq_false_iff_ne]
  have := (Config.crc64 bs).isLt
  omega

end Sys2Proof
end

