-- ==== Sys2Proof/Laws/Fields.lean ====
section
/-! SUPPORT. Sys2Proof/Laws/Fields.lean: a register and a field read the same under an update of any other part of the device. -/

namespace Sys2Proof.Machine

@[simp] theorem Device.reg_of_now (d : Device) (x : Nat) (r : Reg) (i : Nat) : (({ d with now := x } : Device).reg r i) = d.reg r i := rfl
@[simp] theorem Device.fld_of_now (d : Device) (x : Nat) (f : Field) (i : Nat) : (({ d with now := x } : Device).fld f i) = d.fld f i := rfl
@[simp] theorem Device.reg_of_staged (d : Device) (x : SMap Word) (r : Reg) (i : Nat) : (({ d with staged := x } : Device).reg r i) = d.reg r i := rfl
@[simp] theorem Device.fld_of_staged (d : Device) (x : SMap Word) (f : Field) (i : Nat) : (({ d with staged := x } : Device).fld f i) = d.fld f i := rfl
@[simp] theorem Device.reg_of_snapTurn (d : Device) (x : Option (SMap Word)) (r : Reg) (i : Nat) : (({ d with snapTurn := x } : Device).reg r i) = d.reg r i := rfl
@[simp] theorem Device.fld_of_snapTurn (d : Device) (x : Option (SMap Word)) (f : Field) (i : Nat) : (({ d with snapTurn := x } : Device).fld f i) = d.fld f i := rfl
@[simp] theorem Device.reg_of_snapWeir (d : Device) (x : Option (SMap Word)) (r : Reg) (i : Nat) : (({ d with snapWeir := x } : Device).reg r i) = d.reg r i := rfl
@[simp] theorem Device.fld_of_snapWeir (d : Device) (x : Option (SMap Word)) (f : Field) (i : Nat) : (({ d with snapWeir := x } : Device).fld f i) = d.fld f i := rfl
@[simp] theorem Device.reg_of_freeCount (d : Device) (x : Nat) (r : Reg) (i : Nat) : (({ d with freeCount := x } : Device).reg r i) = d.reg r i := rfl
@[simp] theorem Device.fld_of_freeCount (d : Device) (x : Nat) (f : Field) (i : Nat) : (({ d with freeCount := x } : Device).fld f i) = d.fld f i := rfl
@[simp] theorem Device.reg_of_randCount (d : Device) (x : Nat) (r : Reg) (i : Nat) : (({ d with randCount := x } : Device).reg r i) = d.reg r i := rfl
@[simp] theorem Device.fld_of_randCount (d : Device) (x : Nat) (f : Field) (i : Nat) : (({ d with randCount := x } : Device).fld f i) = d.fld f i := rfl
@[simp] theorem Device.reg_of_mem (d : Device) (x : List Host.Cell) (r : Reg) (i : Nat) : (({ d with mem := x } : Device).reg r i) = d.reg r i := rfl
@[simp] theorem Device.fld_of_mem (d : Device) (x : List Host.Cell) (f : Field) (i : Nat) : (({ d with mem := x } : Device).fld f i) = d.fld f i := rfl
@[simp] theorem Device.reg_of_wr (d : Device) (x : List MemWrite) (r : Reg) (i : Nat) : (({ d with wr := x } : Device).reg r i) = d.reg r i := rfl
@[simp] theorem Device.fld_of_wr (d : Device) (x : List MemWrite) (f : Field) (i : Nat) : (({ d with wr := x } : Device).fld f i) = d.fld f i := rfl
@[simp] theorem Device.reg_of_out (d : Device) (x : List Out) (r : Reg) (i : Nat) : (({ d with out := x } : Device).reg r i) = d.reg r i := rfl
@[simp] theorem Device.fld_of_out (d : Device) (x : List Out) (f : Field) (i : Nat) : (({ d with out := x } : Device).fld f i) = d.fld f i := rfl
@[simp] theorem Device.reg_of_err (d : Device) (x : ErrState) (r : Reg) (i : Nat) : (({ d with err := x } : Device).reg r i) = d.reg r i := rfl
@[simp] theorem Device.fld_of_err (d : Device) (x : ErrState) (f : Field) (i : Nat) : (({ d with err := x } : Device).fld f i) = d.fld f i := rfl
@[simp] theorem Device.reg_of_fab (d : Device) (x : FabState) (r : Reg) (i : Nat) : (({ d with fab := x } : Device).reg r i) = d.reg r i := rfl
@[simp] theorem Device.fld_of_fab (d : Device) (x : FabState) (f : Field) (i : Nat) : (({ d with fab := x } : Device).fld f i) = d.fld f i := rfl
@[simp] theorem Device.reg_of_rt (d : Device) (x : RouteState) (r : Reg) (i : Nat) : (({ d with rt := x } : Device).reg r i) = d.reg r i := rfl
@[simp] theorem Device.fld_of_rt (d : Device) (x : RouteState) (f : Field) (i : Nat) : (({ d with rt := x } : Device).fld f i) = d.fld f i := rfl
@[simp] theorem Device.reg_of_host (d : Device) (x : HostState) (r : Reg) (i : Nat) : (({ d with host := x } : Device).reg r i) = d.reg r i := rfl
@[simp] theorem Device.fld_of_host (d : Device) (x : HostState) (f : Field) (i : Nat) : (({ d with host := x } : Device).fld f i) = d.fld f i := rfl
@[simp] theorem Device.reg_of_turn (d : Device) (x : TurnState) (r : Reg) (i : Nat) : (({ d with turn := x } : Device).reg r i) = d.reg r i := rfl
@[simp] theorem Device.fld_of_turn (d : Device) (x : TurnState) (f : Field) (i : Nat) : (({ d with turn := x } : Device).fld f i) = d.fld f i := rfl
@[simp] theorem Device.reg_of_mem5 (d : Device) (x : MemState) (r : Reg) (i : Nat) : (({ d with mem5 := x } : Device).reg r i) = d.reg r i := rfl
@[simp] theorem Device.fld_of_mem5 (d : Device) (x : MemState) (f : Field) (i : Nat) : (({ d with mem5 := x } : Device).fld f i) = d.fld f i := rfl
@[simp] theorem Device.reg_of_cores (d : Device) (x : SMap Core) (r : Reg) (i : Nat) : (({ d with cores := x } : Device).reg r i) = d.reg r i := rfl
@[simp] theorem Device.fld_of_cores (d : Device) (x : SMap Core) (f : Field) (i : Nat) : (({ d with cores := x } : Device).fld f i) = d.fld f i := rfl
@[simp] theorem Device.reg_of_plots (d : Device) (x : SMap PlotState) (r : Reg) (i : Nat) : (({ d with plots := x } : Device).reg r i) = d.reg r i := rfl
@[simp] theorem Device.fld_of_plots (d : Device) (x : SMap PlotState) (f : Field) (i : Nat) : (({ d with plots := x } : Device).fld f i) = d.fld f i := rfl
@[simp] theorem Device.reg_of_slu (d : Device) (x : SluState) (r : Reg) (i : Nat) : (({ d with slu := x } : Device).reg r i) = d.reg r i := rfl
@[simp] theorem Device.fld_of_slu (d : Device) (x : SluState) (f : Field) (i : Nat) : (({ d with slu := x } : Device).fld f i) = d.fld f i := rfl
@[simp] theorem Device.reg_of_cfg (d : Device) (x : CfgState) (r : Reg) (i : Nat) : (({ d with cfg := x } : Device).reg r i) = d.reg r i := rfl
@[simp] theorem Device.fld_of_cfg (d : Device) (x : CfgState) (f : Field) (i : Nat) : (({ d with cfg := x } : Device).fld f i) = d.fld f i := rfl
@[simp] theorem Device.reg_of_pim (d : Device) (x : PimState) (r : Reg) (i : Nat) : (({ d with pim := x } : Device).reg r i) = d.reg r i := rfl
@[simp] theorem Device.fld_of_pim (d : Device) (x : PimState) (f : Field) (i : Nat) : (({ d with pim := x } : Device).fld f i) = d.fld f i := rfl
@[simp] theorem Device.reg_of_fur (d : Device) (x : FurState) (r : Reg) (i : Nat) : (({ d with fur := x } : Device).reg r i) = d.reg r i := rfl
@[simp] theorem Device.fld_of_fur (d : Device) (x : FurState) (f : Field) (i : Nat) : (({ d with fur := x } : Device).fld f i) = d.fld f i := rfl
@[simp] theorem Device.reg_of_gen (d : Device) (x : GenState) (r : Reg) (i : Nat) : (({ d with gen := x } : Device).reg r i) = d.reg r i := rfl
@[simp] theorem Device.fld_of_gen (d : Device) (x : GenState) (f : Field) (i : Nat) : (({ d with gen := x } : Device).fld f i) = d.fld f i := rfl
@[simp] theorem Device.reg_of_flu (d : Device) (x : FlumeState) (r : Reg) (i : Nat) : (({ d with flu := x } : Device).reg r i) = d.reg r i := rfl
@[simp] theorem Device.fld_of_flu (d : Device) (x : FlumeState) (f : Field) (i : Nat) : (({ d with flu := x } : Device).fld f i) = d.fld f i := rfl
@[simp] theorem Device.reg_of_scr (d : Device) (x : ScrState) (r : Reg) (i : Nat) : (({ d with scr := x } : Device).reg r i) = d.reg r i := rfl
@[simp] theorem Device.fld_of_scr (d : Device) (x : ScrState) (f : Field) (i : Nat) : (({ d with scr := x } : Device).fld f i) = d.fld f i := rfl
@[simp] theorem Device.reg_of_ho (d : Device) (x : HoState) (r : Reg) (i : Nat) : (({ d with ho := x } : Device).reg r i) = d.reg r i := rfl
@[simp] theorem Device.fld_of_ho (d : Device) (x : HoState) (f : Field) (i : Nat) : (({ d with ho := x } : Device).fld f i) = d.fld f i := rfl
@[simp] theorem Device.reg_of_sec (d : Device) (x : SecState) (r : Reg) (i : Nat) : (({ d with sec := x } : Device).reg r i) = d.reg r i := rfl
@[simp] theorem Device.fld_of_sec (d : Device) (x : SecState) (f : Field) (i : Nat) : (({ d with sec := x } : Device).fld f i) = d.fld f i := rfl
@[simp] theorem Device.reg_of_mtr (d : Device) (x : MtrState) (r : Reg) (i : Nat) : (({ d with mtr := x } : Device).reg r i) = d.reg r i := rfl
@[simp] theorem Device.fld_of_mtr (d : Device) (x : MtrState) (f : Field) (i : Nat) : (({ d with mtr := x } : Device).fld f i) = d.fld f i := rfl
@[simp] theorem Device.reg_of_pwr (d : Device) (x : PwrState) (r : Reg) (i : Nat) : (({ d with pwr := x } : Device).reg r i) = d.reg r i := rfl
@[simp] theorem Device.fld_of_pwr (d : Device) (x : PwrState) (f : Field) (i : Nat) : (({ d with pwr := x } : Device).fld f i) = d.fld f i := rfl
@[simp] theorem Device.part_setReg (d : Device) (r : Reg) (i : Nat) (v : Word) : (d.setReg r i v).part = d.part := rfl
@[simp] theorem Device.part_setFld (d : Device) (f : Field) (v i : Nat) : (d.setFld f v i).part = d.part := rfl
@[simp] theorem Device.now_setReg (d : Device) (r : Reg) (i : Nat) (v : Word) : (d.setReg r i v).now = d.now := rfl
@[simp] theorem Device.now_setFld (d : Device) (f : Field) (v i : Nat) : (d.setFld f v i).now = d.now := rfl
@[simp] theorem Device.staged_setReg (d : Device) (r : Reg) (i : Nat) (v : Word) : (d.setReg r i v).staged = d.staged := rfl
@[simp] theorem Device.staged_setFld (d : Device) (f : Field) (v i : Nat) : (d.setFld f v i).staged = d.staged := rfl
@[simp] theorem Device.snapTurn_setReg (d : Device) (r : Reg) (i : Nat) (v : Word) : (d.setReg r i v).snapTurn = d.snapTurn := rfl
@[simp] theorem Device.snapTurn_setFld (d : Device) (f : Field) (v i : Nat) : (d.setFld f v i).snapTurn = d.snapTurn := rfl
@[simp] theorem Device.snapWeir_setReg (d : Device) (r : Reg) (i : Nat) (v : Word) : (d.setReg r i v).snapWeir = d.snapWeir := rfl
@[simp] theorem Device.snapWeir_setFld (d : Device) (f : Field) (v i : Nat) : (d.setFld f v i).snapWeir = d.snapWeir := rfl
@[simp] theorem Device.freeCount_setReg (d : Device) (r : Reg) (i : Nat) (v : Word) : (d.setReg r i v).freeCount = d.freeCount := rfl
@[simp] theorem Device.freeCount_setFld (d : Device) (f : Field) (v i : Nat) : (d.setFld f v i).freeCount = d.freeCount := rfl
@[simp] theorem Device.randCount_setReg (d : Device) (r : Reg) (i : Nat) (v : Word) : (d.setReg r i v).randCount = d.randCount := rfl
@[simp] theorem Device.randCount_setFld (d : Device) (f : Field) (v i : Nat) : (d.setFld f v i).randCount = d.randCount := rfl
@[simp] theorem Device.mem_setReg (d : Device) (r : Reg) (i : Nat) (v : Word) : (d.setReg r i v).mem = d.mem := rfl
@[simp] theorem Device.mem_setFld (d : Device) (f : Field) (v i : Nat) : (d.setFld f v i).mem = d.mem := rfl
@[simp] theorem Device.wr_setReg (d : Device) (r : Reg) (i : Nat) (v : Word) : (d.setReg r i v).wr = d.wr := rfl
@[simp] theorem Device.wr_setFld (d : Device) (f : Field) (v i : Nat) : (d.setFld f v i).wr = d.wr := rfl
@[simp] theorem Device.out_setReg (d : Device) (r : Reg) (i : Nat) (v : Word) : (d.setReg r i v).out = d.out := rfl
@[simp] theorem Device.out_setFld (d : Device) (f : Field) (v i : Nat) : (d.setFld f v i).out = d.out := rfl
@[simp] theorem Device.err_setReg (d : Device) (r : Reg) (i : Nat) (v : Word) : (d.setReg r i v).err = d.err := rfl
@[simp] theorem Device.err_setFld (d : Device) (f : Field) (v i : Nat) : (d.setFld f v i).err = d.err := rfl
@[simp] theorem Device.fab_setReg (d : Device) (r : Reg) (i : Nat) (v : Word) : (d.setReg r i v).fab = d.fab := rfl
@[simp] theorem Device.fab_setFld (d : Device) (f : Field) (v i : Nat) : (d.setFld f v i).fab = d.fab := rfl
@[simp] theorem Device.rt_setReg (d : Device) (r : Reg) (i : Nat) (v : Word) : (d.setReg r i v).rt = d.rt := rfl
@[simp] theorem Device.rt_setFld (d : Device) (f : Field) (v i : Nat) : (d.setFld f v i).rt = d.rt := rfl
@[simp] theorem Device.host_setReg (d : Device) (r : Reg) (i : Nat) (v : Word) : (d.setReg r i v).host = d.host := rfl
@[simp] theorem Device.host_setFld (d : Device) (f : Field) (v i : Nat) : (d.setFld f v i).host = d.host := rfl
@[simp] theorem Device.turn_setReg (d : Device) (r : Reg) (i : Nat) (v : Word) : (d.setReg r i v).turn = d.turn := rfl
@[simp] theorem Device.turn_setFld (d : Device) (f : Field) (v i : Nat) : (d.setFld f v i).turn = d.turn := rfl
@[simp] theorem Device.mem5_setReg (d : Device) (r : Reg) (i : Nat) (v : Word) : (d.setReg r i v).mem5 = d.mem5 := rfl
@[simp] theorem Device.mem5_setFld (d : Device) (f : Field) (v i : Nat) : (d.setFld f v i).mem5 = d.mem5 := rfl
@[simp] theorem Device.cores_setReg (d : Device) (r : Reg) (i : Nat) (v : Word) : (d.setReg r i v).cores = d.cores := rfl
@[simp] theorem Device.cores_setFld (d : Device) (f : Field) (v i : Nat) : (d.setFld f v i).cores = d.cores := rfl
@[simp] theorem Device.plots_setReg (d : Device) (r : Reg) (i : Nat) (v : Word) : (d.setReg r i v).plots = d.plots := rfl
@[simp] theorem Device.plots_setFld (d : Device) (f : Field) (v i : Nat) : (d.setFld f v i).plots = d.plots := rfl
@[simp] theorem Device.slu_setReg (d : Device) (r : Reg) (i : Nat) (v : Word) : (d.setReg r i v).slu = d.slu := rfl
@[simp] theorem Device.slu_setFld (d : Device) (f : Field) (v i : Nat) : (d.setFld f v i).slu = d.slu := rfl
@[simp] theorem Device.cfg_setReg (d : Device) (r : Reg) (i : Nat) (v : Word) : (d.setReg r i v).cfg = d.cfg := rfl
@[simp] theorem Device.cfg_setFld (d : Device) (f : Field) (v i : Nat) : (d.setFld f v i).cfg = d.cfg := rfl
@[simp] theorem Device.pim_setReg (d : Device) (r : Reg) (i : Nat) (v : Word) : (d.setReg r i v).pim = d.pim := rfl
@[simp] theorem Device.pim_setFld (d : Device) (f : Field) (v i : Nat) : (d.setFld f v i).pim = d.pim := rfl
@[simp] theorem Device.fur_setReg (d : Device) (r : Reg) (i : Nat) (v : Word) : (d.setReg r i v).fur = d.fur := rfl
@[simp] theorem Device.fur_setFld (d : Device) (f : Field) (v i : Nat) : (d.setFld f v i).fur = d.fur := rfl
@[simp] theorem Device.gen_setReg (d : Device) (r : Reg) (i : Nat) (v : Word) : (d.setReg r i v).gen = d.gen := rfl
@[simp] theorem Device.gen_setFld (d : Device) (f : Field) (v i : Nat) : (d.setFld f v i).gen = d.gen := rfl
@[simp] theorem Device.flu_setReg (d : Device) (r : Reg) (i : Nat) (v : Word) : (d.setReg r i v).flu = d.flu := rfl
@[simp] theorem Device.flu_setFld (d : Device) (f : Field) (v i : Nat) : (d.setFld f v i).flu = d.flu := rfl
@[simp] theorem Device.scr_setReg (d : Device) (r : Reg) (i : Nat) (v : Word) : (d.setReg r i v).scr = d.scr := rfl
@[simp] theorem Device.scr_setFld (d : Device) (f : Field) (v i : Nat) : (d.setFld f v i).scr = d.scr := rfl
@[simp] theorem Device.ho_setReg (d : Device) (r : Reg) (i : Nat) (v : Word) : (d.setReg r i v).ho = d.ho := rfl
@[simp] theorem Device.ho_setFld (d : Device) (f : Field) (v i : Nat) : (d.setFld f v i).ho = d.ho := rfl
@[simp] theorem Device.sec_setReg (d : Device) (r : Reg) (i : Nat) (v : Word) : (d.setReg r i v).sec = d.sec := rfl
@[simp] theorem Device.sec_setFld (d : Device) (f : Field) (v i : Nat) : (d.setFld f v i).sec = d.sec := rfl
@[simp] theorem Device.mtr_setReg (d : Device) (r : Reg) (i : Nat) (v : Word) : (d.setReg r i v).mtr = d.mtr := rfl
@[simp] theorem Device.mtr_setFld (d : Device) (f : Field) (v i : Nat) : (d.setFld f v i).mtr = d.mtr := rfl
@[simp] theorem Device.pwr_setReg (d : Device) (r : Reg) (i : Nat) (v : Word) : (d.setReg r i v).pwr = d.pwr := rfl
@[simp] theorem Device.pwr_setFld (d : Device) (f : Field) (v i : Nat) : (d.setFld f v i).pwr = d.pwr := rfl

end Sys2Proof.Machine
end

