-- ==== Sys2Proof/Laws/State.lean ====
section
/-! SUPPORT. Sys2Proof/Laws/State.lean: what the operations on the device leave alone, one lemma per field that each touches, and how
a command's outcome is formed. -/

namespace Sys2Proof.Machine

/-! ### Outcomes -/

/-- A command's effect on a live device. -/
theorem State.act_live (s : State) (f : Device → Device) (h : s.dev.dead = false) :
    s.act f = .next { s with dev := { f s.dev with mem := Memory.land s.dev.mem (f s.dev).wr, wr := [] } } := by
  simp [State.act, State.land, h]

/-- A dead device carries nothing out. -/
theorem State.act_dead (s : State) (f : Device → Device) (h : s.dev.dead = true) :
    s.act f = .next { s with dev := { s.dev with mem := Memory.land s.dev.mem s.dev.wr, wr := [] } } := by
  simp [State.act, State.land, h]

/-- Every effect ends in a next state with the queue as it stands. -/
theorem State.act_next (s : State) (f : Device → Device) : ∃ t, s.act f = .next t ∧ t.pending = s.pending := ⟨_, rfl, rfl⟩

theorem State.pin_next (s : State) (f : Device → Device) : ∃ t, s.pin f = .next t ∧ t.pending = s.pending := ⟨_, rfl, rfl⟩

/-! ### Registers under updates of other fields -/

@[simp] theorem Device.reg_landed (d : Device) (m : List Host.Cell) (w : List MemWrite) (r : Reg) (i : Nat) :
    ({ d with mem := m, wr := w } : Device).reg r i = d.reg r i := rfl
@[simp] theorem Device.reg_emit (d : Device) (o : Out) (r : Reg) (i : Nat) : (d.emit o).reg r i = d.reg r i := rfl
@[simp] theorem Device.reg_store (d : Device) (a : Nat) (bs : List Byte) (r : Reg) (i : Nat) : (d.store a bs).reg r i = d.reg r i := by
  unfold Device.store; split <;> rfl
@[simp] theorem Device.reg_zero (d : Device) (a n : Nat) (r : Reg) (i : Nat) : (d.zero a n).reg r i = d.reg r i := rfl
@[simp] theorem Device.reg_drew (d : Device) (r : Reg) (i : Nat) : d.drew.reg r i = d.reg r i := rfl
@[simp] theorem Device.reg_rolled (d : Device) (r : Reg) (i : Nat) : d.rolled.reg r i = d.reg r i := rfl
@[simp] theorem Device.reg_at (d : Device) (t : Nat) (r : Reg) (i : Nat) : (d.at_ t).reg r i = d.reg r i := rfl
@[simp] theorem Device.reg_hostWrite (d : Device) (fn : Fn) (a : Nat) (bs : List Byte) (r : Reg) (i : Nat) :
    (d.hostWrite fn a bs).reg r i = d.reg r i := by unfold Device.hostWrite; split <;> rfl
@[simp] theorem Device.reg_msix (d : Device) (fn : Fn) (v : Nat) (r : Reg) (i : Nat) : (d.msix fn v).reg r i = d.reg r i := by
  unfold Device.msix; split <;> rfl
@[simp] theorem Device.reg_signal (d : Device) (v : Nat) (r : Reg) (i : Nat) : (d.signal v).reg r i = d.reg r i := by
  unfold Device.signal; split <;> simp


/-! ### Register keys -/

/-- The number of a register determines it. -/
theorem Reg.ctorIdx_inj {r r' : Reg} (h : r.ctorIdx = r'.ctorIdx) : r = r' := by
  have key : ∀ x : Reg, Reg.all.getD x.ctorIdx .ID_REV = x := by intro x; cases x <;> rfl
  rw [← key r, ← key r', h]

theorem regKey_inj {r r' : Reg} {i j : Nat} (hi : i < 0x10000) (hj : j < 0x10000) (h : regKey r i = regKey r' j) : r = r' ∧ i = j := by
  unfold regKey at h
  have hc : r.ctorIdx = r'.ctorIdx := by omega
  exact ⟨Reg.ctorIdx_inj hc, by omega⟩

end Sys2Proof.Machine
end

