-- ==== Sys2Proof/Laws/Tables.lean ====
section
/-! SUPPORT. Sys2Proof/Laws/Tables.lean: the laws of sparse tables: read after write, and that every operation keeps the canonical form. -/

namespace Sys2Proof.Machine

variable {α : Type} [DecidableEq α] {dflt : α}

theorem sget_scons_same (m : SMap α) (a : Nat) (x : α) (h : sget dflt m a = dflt) : sget dflt (scons dflt a x m) a = x := by
  unfold scons
  split
  · rw [h]; exact Eq.symm ‹_›
  · simp [sget]

theorem sget_scons_other (m : SMap α) {a b : Nat} (x : α) (h : b ≠ a) : sget dflt (scons dflt a x m) b = sget dflt m b := by
  unfold scons
  split
  · rfl
  · simp [sget, Ne.symm h]

omit [DecidableEq α] in
theorem sget_of_notMem (m : SMap α) (a : Nat) (h : ∀ y ∈ m, y.1 ≠ a) : sget dflt m a = dflt := by
  induction m with
  | nil => rfl
  | cons y m ih =>
    obtain ⟨k, v⟩ := y
    have hk : k ≠ a := h (k, v) (by simp)
    simp only [sget, hk, if_false]
    exact ih fun y hy => h y (List.mem_cons_of_mem _ hy)

theorem sget_sins_same (m : SMap α) (a : Nat) (x : α) (h : ∀ y ∈ m, y.1 ≠ a) : sget dflt (sins dflt a x m) a = x := by
  induction m with
  | nil => exact sget_scons_same _ _ _ rfl
  | cons y m ih =>
    obtain ⟨k, v⟩ := y
    have hk : k ≠ a := h (k, v) (by simp)
    unfold sins
    split
    · exact sget_scons_same _ _ _ (sget_of_notMem _ _ h)
    · simp only [sget, hk, if_false]
      exact ih fun y hy => h y (List.mem_cons_of_mem _ hy)

theorem sget_sins_other (m : SMap α) {a b : Nat} (x : α) (h : b ≠ a) : sget dflt (sins dflt a x m) b = sget dflt m b := by
  induction m with
  | nil => exact sget_scons_other _ _ h
  | cons y m ih =>
    obtain ⟨k, v⟩ := y
    unfold sins
    split
    · exact sget_scons_other _ _ h
    · simp only [sget, ih]

omit [DecidableEq α] in
theorem sget_filter_ne (m : SMap α) {a b : Nat} (h : b ≠ a) : sget dflt (m.filter fun y => y.1 != a) b = sget dflt m b := by
  induction m with
  | nil => rfl
  | cons y m ih =>
    obtain ⟨k, v⟩ := y
    by_cases hk : k = a
    · subst hk; simp [sget, ih, Ne.symm h]
    · simp [sget, ih, hk]

/-- A value read back at the key it was written to. -/
@[simp] theorem sget_sput_same (m : SMap α) (a : Nat) (x : α) : sget dflt (sput dflt m a x) a = x := by
  unfold sput
  refine sget_sins_same _ _ _ fun y hy => ?_
  simpa using (List.mem_filter.mp hy).2

/-- A write leaves every other key alone. -/
theorem sget_sput_other (m : SMap α) {a b : Nat} (x : α) (h : b ≠ a) : sget dflt (sput dflt m a x) b = sget dflt m b := by
  rw [sput, sget_sins_other _ _ h, sget_filter_ne _ h]

theorem sget_sput (m : SMap α) (a b : Nat) (x : α) : sget dflt (sput dflt m a x) b = if b = a then x else sget dflt m b := by
  split
  · subst_vars; simp
  · exact sget_sput_other _ _ ‹_›

/-! ### The canonical form -/

theorem swfFrom_mono {lo lo' : Nat} (h : lo' ≤ lo) : ∀ m : SMap α, swfFrom dflt lo m = true → swfFrom dflt lo' m = true
  | [], _ => rfl
  | (k, v) :: m, hw => by
    simp only [swfFrom, Bool.and_eq_true, decide_eq_true_eq] at hw ⊢
    exact ⟨⟨Nat.le_trans h hw.1.1, hw.1.2⟩, hw.2⟩

theorem swfFrom_filter (p : Nat × α → Bool) : ∀ (lo : Nat) (m : SMap α), swfFrom dflt lo m = true → swfFrom dflt lo (m.filter p) = true
  | _, [], _ => rfl
  | lo, (k, v) :: m, hw => by
    simp only [swfFrom, Bool.and_eq_true, decide_eq_true_eq] at hw
    have ih := swfFrom_filter p (k + 1) m hw.2
    by_cases hp : p (k, v) = true
    · simp [List.filter, hp, swfFrom, hw.1.1, hw.1.2, ih]
    · simp only [List.filter, hp]
      exact swfFrom_mono (by omega) _ ih

theorem swfFrom_scons {lo a : Nat} (x : α) (m : SMap α) (h : lo ≤ a) (hm : swfFrom dflt (a + 1) m = true) :
    swfFrom dflt lo (scons dflt a x m) = true := by
  unfold scons
  split
  · exact swfFrom_mono (by omega) _ hm
  · simp [swfFrom, h, hm, ‹x ≠ dflt›]

theorem swfFrom_sins (a : Nat) (x : α) : ∀ (lo : Nat) (m : SMap α), lo ≤ a → (∀ y ∈ m, y.1 ≠ a) → swfFrom dflt lo m = true →
    swfFrom dflt lo (sins dflt a x m) = true
  | lo, [], h, _, _ => swfFrom_scons x [] h rfl
  | lo, (k, v) :: m, h, hn, hw => by
    have hw' := hw
    simp only [swfFrom, Bool.and_eq_true, decide_eq_true_eq] at hw
    unfold sins
    split
    · refine swfFrom_scons x _ h ?_
      simp only [swfFrom, Bool.and_eq_true, decide_eq_true_eq]
      exact ⟨⟨by omega, hw.1.2⟩, hw.2⟩
    · have hk : k ≠ a := hn (k, v) (by simp)
      have ih := swfFrom_sins a x (k + 1) m (by omega) (fun y hy => hn y (List.mem_cons_of_mem _ hy)) hw.2
      simp only [swfFrom, Bool.and_eq_true, decide_eq_true_eq]
      exact ⟨⟨hw.1.1, hw.1.2⟩, ih⟩

/-- A write keeps the canonical form. -/
theorem swf_sput (m : SMap α) (a : Nat) (x : α) (h : swf dflt m = true) : swf dflt (sput dflt m a x) = true := by
  refine swfFrom_sins a x 0 _ (Nat.zero_le _) (fun y hy => ?_) (swfFrom_filter _ _ _ h)
  simpa using (List.mem_filter.mp hy).2

theorem swf_filter (p : Nat × α → Bool) (m : SMap α) (h : swf dflt m = true) : swf dflt (m.filter p) = true := swfFrom_filter p 0 m h

/-! ### Memory -/

theorem Memory.wf_write : ∀ (m : List Host.Cell) (a : Nat) (bs : List Byte), Memory.wf m = true → Memory.wf (Memory.write m a bs) = true
  | _, _, [], h => h
  | m, a, b :: bs, h => Memory.wf_write _ (a + 1) bs (swf_sput m a b h)

theorem Memory.wf_zero (m : List Host.Cell) (a n : Nat) (h : Memory.wf m = true) : Memory.wf (Memory.zero m a n) = true :=
  swf_filter _ m h

/-- Landing a command's writes keeps the memory's canonical form. -/
theorem Memory.wf_land : ∀ (ws : List MemWrite) (m : List Host.Cell), Memory.wf m = true → Memory.wf (Memory.land m ws) = true
  | [], _, h => h
  | .put a bs :: ws, m, h => Memory.wf_land ws _ (Memory.wf_write m a bs h)
  | .zero a n :: ws, m, h => Memory.wf_land ws _ (Memory.wf_zero m a n h)

/-- A byte outside what is written reads as before. -/
theorem Memory.get_write_other : ∀ (m : List Host.Cell) (a : Nat) (bs : List Byte) (b : Nat), (b < a ∨ a + bs.length ≤ b) →
    sget memDefault (Memory.write m a bs) b = sget memDefault m b
  | _, _, [], _, _ => rfl
  | m, a, x :: bs, b, h => by
    simp only [List.length_cons] at h
    rw [Memory.write, Memory.get_write_other _ (a + 1) bs b (by omega), sget_sput_other _ _ (by omega)]

theorem Memory.get_write : ∀ (m : List Host.Cell) (b : Nat) (bs : List Byte) (a : Nat),
    sget memDefault (Memory.write m b bs) a = if b ≤ a then bs.getD (a - b) (sget memDefault m a) else sget memDefault m a
  | m, b, [], a => by simp [Memory.write]
  | m, b, x :: bs, a => by
    rw [Memory.write, Memory.get_write _ _ bs, sget_sput]
    rcases Nat.lt_trichotomy a b with h | h | h
    · rw [if_neg (by omega), if_neg (by omega), if_neg (by omega)]
    · subst h; rw [if_neg (by omega)]; simp
    · rw [if_pos (by omega), if_neg (by omega), if_pos (by omega)]
      obtain ⟨k, rfl⟩ : ∃ k, a = b + 1 + k := ⟨a - b - 1, by omega⟩
      have e1 : b + 1 + k - (b + 1) = k := by omega
      have e2 : b + 1 + k - b = k + 1 := by omega
      rw [e1, e2]; rfl

theorem Memory.get_zero (m : List Host.Cell) (b n a : Nat) :
    sget memDefault (Memory.zero m b n) a = if b ≤ a ∧ a < b + n then 0 else sget memDefault m a := by
  unfold Memory.zero
  induction m with
  | nil => simp [sget, memDefault]
  | cons y m ih =>
    obtain ⟨k, v⟩ := y
    by_cases hk : b ≤ k ∧ k < b + n
    · rw [List.filter_cons_of_neg (by simp [hk]), ih]
      by_cases ha : b ≤ a ∧ a < b + n
      · simp [ha]
      · have : k ≠ a := fun e => ha (e ▸ hk)
        simp [ha, sget, this]
    · rw [List.filter_cons_of_pos (by simp; omega)]
      simp only [sget]
      by_cases hka : k = a
      · subst hka; simp [hk]
      · simp only [hka, if_false]; exact ih

/-- What one write gives an address, over what was there. -/
theorem Memory.get_landOne (m : List Host.Cell) (w : MemWrite) (a : Nat) :
    sget memDefault (Memory.land m [w]) a = (w.at a).getD (sget memDefault m a) := by
  cases w with
  | put b bs =>
    simp only [Memory.land, MemWrite.at, Memory.get_write]
    by_cases h1 : b ≤ a
    · by_cases h2 : a < b + bs.length
      · simp only [h1, h2, and_self, if_true, List.getD_eq_getElem?_getD]
      · have : bs.length ≤ a - b := by omega
        simp [h1, h2, List.getD_eq_getElem?_getD, List.getElem?_eq_none this]
    · simp [h1]
  | zero b n =>
    simp only [Memory.land, MemWrite.at, Memory.get_zero]
    split <;> simp

theorem writtenByte_acc (a : Nat) : ∀ (ws : List MemWrite) (acc : Option Byte),
    writtenByte a ws acc = (writtenByte a ws none).orElse fun _ => acc
  | [], acc => by cases acc <;> rfl
  | w :: ws, acc => by
    rw [writtenByte, writtenByte, writtenByte_acc a ws, writtenByte_acc a ws ((w.at a).orElse fun _ => none)]
    cases writtenByte a ws none <;> cases w.at a <;> rfl

theorem Memory.land_cons (m : List Host.Cell) (w : MemWrite) (ws : List MemWrite) :
    Memory.land m (w :: ws) = Memory.land (Memory.land m [w]) ws := by
  cases w <;> rfl

/-- A landed memory reads as the latest write that touched an address, or as before. -/
theorem Memory.get_land : ∀ (ws : List MemWrite) (m : List Host.Cell) (a : Nat),
    sget memDefault (Memory.land m ws) a = (writtenByte a ws none).getD (sget memDefault m a)
  | [], _, _ => rfl
  | w :: ws, m, a => by
    rw [Memory.land_cons, Memory.get_land ws, Memory.get_landOne, writtenByte, writtenByte_acc a ws ((w.at a).orElse fun _ => none)]
    cases writtenByte a ws none <;> cases w.at a <;> rfl

end Sys2Proof.Machine
end

