-- ==== Sys2Proof/Laws/Regs.lean ====
section
/-! SUPPORT. Sys2Proof/Laws/Regs.lean: reading a register or a field after writing one. -/

namespace Sys2Proof.Machine

/-! ### Registers -/

@[simp] theorem Device.reg_setReg_same (d : Device) (r : Reg) (i : Nat) (v : Word) : (d.setReg r i v).reg r i = v := by
  simp [Device.reg, Device.setReg]

theorem Device.reg_setReg_key (d : Device) (r r' : Reg) (i j : Nat) (v : Word) (h : regKey r' j ≠ regKey r i) :
    (d.setReg r i v).reg r' j = d.reg r' j := by
  simp only [Device.reg, Device.setReg]
  have go : ∀ (x y : Word) (m : SMap Word) (a b : Nat) (w : Word), b ≠ a → sget x (sput y m a w) b = sget x m b := by
    intro x y m a b w hab
    have hf : ∀ m : SMap Word, sget x (m.filter fun z => z.1 != a) b = sget x m b := fun m => sget_filter_ne m hab
    have hs : ∀ m : SMap Word, sget x (scons y a w m) b = sget x m b := by
      intro m; unfold scons; split
      · rfl
      · simp [sget, Ne.symm hab]
    have hi : ∀ m : SMap Word, sget x (sins y a w m) b = sget x m b := by
      intro m
      induction m with
      | nil => exact hs []
      | cons z m ih =>
        obtain ⟨k, v⟩ := z
        unfold sins
        split
        · exact hs _
        · simp only [sget, ih]
    rw [sput, hi, hf]
  exact go _ _ _ _ _ _ h

/-- A write to one register leaves every other. -/
theorem Device.reg_setReg_other (d : Device) {r r' : Reg} (i j : Nat) (v : Word) (h : r' ≠ r) (hi : i < 0x10000) (hj : j < 0x10000) :
    (d.setReg r i v).reg r' j = d.reg r' j :=
  d.reg_setReg_key _ _ _ _ _ fun hk => h (regKey_inj hj hi hk).1

theorem Device.reg_setReg_copy (d : Device) (r : Reg) {i j : Nat} (v : Word) (h : j ≠ i) : (d.setReg r i v).reg r j = d.reg r j :=
  d.reg_setReg_key _ _ _ _ _ fun hk => h (by unfold regKey at hk; omega)

/-! ### Fields -/

theorem Field.testBit_mask (f : Field) (k : Nat) (h : f.lo + f.w ≤ 64) : f.mask.getLsbD k = (decide (f.lo ≤ k) && decide (k < f.lo + f.w)) := by
  simp only [Field.mask, BitVec.getLsbD_shiftLeft, BitVec.getLsbD_ofNat, Nat.testBit_two_pow_sub_one]
  rw [Bool.eq_iff_iff]
  simp only [Bool.and_eq_true, Bool.not_eq_true', decide_eq_true_eq, decide_eq_false_iff_not]
  omega

theorem Field.testBit_place (f : Field) (v k : Nat) (h : f.lo + f.w ≤ 64) :
    (f.place v).getLsbD k = (decide (f.lo ≤ k) && decide (k < f.lo + f.w) && v.testBit (k - f.lo)) := by
  simp only [Field.place, BitVec.getLsbD_shiftLeft, BitVec.getLsbD_ofNat, Nat.testBit_mod_two_pow]
  rw [Bool.eq_iff_iff]
  simp only [Bool.and_eq_true, Bool.not_eq_true', decide_eq_true_eq, decide_eq_false_iff_not]
  constructor
  · rintro ⟨⟨h1, h2⟩, h3, h4, h5⟩; exact ⟨⟨by omega, by omega⟩, h5⟩
  · rintro ⟨⟨h1, h2⟩, h3⟩; exact ⟨⟨by omega, by omega⟩, by omega, by omega, h3⟩

theorem Field.testBit_get (f : Field) (v : Word) (k : Nat) : (f.get v).testBit k = (decide (k < f.w) && v.getLsbD (f.lo + k)) := by
  simp only [Field.get, Nat.testBit_mod_two_pow, BitVec.testBit_toNat, BitVec.getLsbD_ushiftRight]

/-- A field read back from the value it was placed in. -/
theorem Field.get_set (f : Field) (v : Word) (x : Nat) (h : f.lo + f.w ≤ 64) : f.get (f.set v x) = x % 2 ^ f.w := by
  refine Nat.eq_of_testBit_eq fun k => ?_
  rw [f.testBit_get, Nat.testBit_mod_two_pow]
  by_cases hk : k < f.w
  · have hl : f.lo + k < 64 := by omega
    have h1 : f.lo ≤ f.lo + k := by omega
    have h2 : f.lo + k < f.lo + f.w := by omega
    simp only [Field.set, BitVec.getLsbD_or, BitVec.getLsbD_and, BitVec.getLsbD_not, f.testBit_mask _ h, f.testBit_place _ _ h, hk, hl, h1, h2]
    simp
  · simp [hk]

/-- A write to a field leaves a field of other bits. -/
theorem Field.get_set_other (f g : Field) (v : Word) (x : Nat) (hf : f.lo + f.w ≤ 64) (h : f.lo + f.w ≤ g.lo ∨ g.lo + g.w ≤ f.lo) :
    g.get (f.set v x) = g.get v := by
  refine Nat.eq_of_testBit_eq fun k => ?_
  rw [g.testBit_get, g.testBit_get]
  by_cases hk : k < g.w
  · by_cases hl : g.lo + k < 64
    · have : ¬(f.lo ≤ g.lo + k ∧ g.lo + k < f.lo + f.w) := by omega
      simp only [Field.set, BitVec.getLsbD_or, BitVec.getLsbD_and, BitVec.getLsbD_not, f.testBit_mask _ hf, f.testBit_place _ _ hf, hl]
      have hd : (decide (f.lo ≤ g.lo + k) && decide (g.lo + k < f.lo + f.w)) = false := by simpa using fun h1 => by omega
      rw [hd]
      simp
    · have e1 : (f.set v x).getLsbD (g.lo + k) = false := BitVec.getLsbD_of_ge _ _ (by omega)
      have e2 : v.getLsbD (g.lo + k) = false := BitVec.getLsbD_of_ge _ _ (by omega)
      rw [e1, e2]
  · simp [hk]

/-- A field read back after it is written, with the value cut to its width. -/
theorem Device.fld_setFld_same (d : Device) (f : Field) (x i : Nat) (h : f.lo + f.w ≤ 64) : (d.setFld f x i).fld f i = x % 2 ^ f.w := by
  simp only [Device.fld, Device.setFld, Device.reg_setReg_same]
  exact f.get_set _ _ h

/-- A write to a field of one register leaves the fields of every other. -/
theorem Device.fld_setFld_reg (d : Device) {f g : Field} (x i j : Nat) (h : g.reg ≠ f.reg) (hi : i < 0x10000) (hj : j < 0x10000) :
    (d.setFld f x i).fld g j = d.fld g j := by
  simp only [Device.fld, Device.setFld, d.reg_setReg_other i j _ h hi hj]

/-- A write to a field leaves the other fields of its register. -/
theorem Device.fld_setFld_field (d : Device) {f g : Field} (x i : Nat) (hr : g.reg = f.reg) (hf : f.lo + f.w ≤ 64)
    (h : f.lo + f.w ≤ g.lo ∨ g.lo + g.w ≤ f.lo) : (d.setFld f x i).fld g i = d.fld g i := by
  simp only [Device.fld, Device.setFld, hr, Device.reg_setReg_same]
  exact f.get_set_other g _ _ hf h

/-- A write to a field leaves every other copy of its register. -/
theorem Device.fld_setFld_copy (d : Device) {f g : Field} (x : Nat) {i j : Nat} (hr : g.reg = f.reg) (h : j ≠ i) :
    (d.setFld f x i).fld g j = d.fld g j := by
  simp only [Device.fld, Device.setFld, hr, d.reg_setReg_copy f.reg _ h]

/-! ### Fields of a register table: what a field reads depends on the part and the table alone -/

/-- A field of a register table of a part. -/
def tabFld (p : Part) (m : SMap Word) (f : Field) (i : Nat) : Nat := f.get (sget (regReset p f.reg i) m (regKey f.reg i))

/-- A register table of a part with a field replaced. -/
def tabSet (p : Part) (m : SMap Word) (f : Field) (x i : Nat) : SMap Word :=
  sput (regReset p f.reg i) m (regKey f.reg i) (f.set (sget (regReset p f.reg i) m (regKey f.reg i)) x)

theorem Device.fld_tab (d : Device) (f : Field) (i : Nat) : d.fld f i = tabFld d.part d.regs f i := rfl
theorem Device.regs_setFld (d : Device) (f : Field) (x i : Nat) : (d.setFld f x i).regs = tabSet d.part d.regs f x i := rfl

theorem tabFld_same (p : Part) (m : SMap Word) (f : Field) (x i : Nat) (h : f.lo + f.w ≤ 64) : tabFld p (tabSet p m f x i) f i = x % 2 ^ f.w :=
  Device.fld_setFld_same { part := p, regs := m } f x i h
theorem tabFld_reg (p : Part) (m : SMap Word) {f g : Field} (x i j : Nat) (h : g.reg ≠ f.reg) (hi : i < 0x10000) (hj : j < 0x10000) :
    tabFld p (tabSet p m f x i) g j = tabFld p m g j := Device.fld_setFld_reg { part := p, regs := m } x i j h hi hj
theorem tabFld_field (p : Part) (m : SMap Word) {f g : Field} (x i : Nat) (hr : g.reg = f.reg) (hf : f.lo + f.w ≤ 64)
    (h : f.lo + f.w ≤ g.lo ∨ g.lo + g.w ≤ f.lo) : tabFld p (tabSet p m f x i) g i = tabFld p m g i :=
  Device.fld_setFld_field { part := p, regs := m } x i hr hf h
theorem tabFld_copy (p : Part) (m : SMap Word) {f g : Field} (x : Nat) {i j : Nat} (hr : g.reg = f.reg) (h : j ≠ i) :
    tabFld p (tabSet p m f x i) g j = tabFld p m g j := Device.fld_setFld_copy { part := p, regs := m } x hr h

end Sys2Proof.Machine
end

