-- ==== Sys2Proof/Laws/Frames.lean ====
section
/-! SUPPORT. Sys2Proof/Laws/Frames.lean: what the shared operations leave alone, and how a command acts in a state that the statements
describe. -/

namespace Sys2Proof.Machine

/-! ### Acting -/

/-- Every command ends in a next state: its device with its writes landed. -/
theorem exec_land (c : Instr) (s : State) : ∃ d, exec c s = s.land d := by
  cases c <;> exact ⟨_, rfl⟩

theorem State.land_put (s : State) (d : Device) : s.land d = .next (s.put d) := rfl

@[simp] theorem State.put_pending (s : State) (d : Device) : (s.put d).pending = s.pending := rfl

theorem State.act_put (s : State) (f : Device → Device) (h : s.dev.dead = false) : s.act f = .next (s.put (f s.dev)) := by
  simp [State.act, State.land_put, h]

theorem State.pin_put (s : State) (f : Device → Device) : s.pin f = .next (s.put (f s.dev)) := rfl

/-- A device without waiting writes, on the memory it had, is put as it is. -/
theorem State.put_eq (s : State) (d : Device) (hm : d.mem = s.dev.mem) (hw : d.wr = []) : s.put d = { s with dev := d } := by
  obtain ⟨x, q⟩ := s
  simp [State.put, hw, Memory.land]
  cases d; simp_all

theorem Device.asHolder_takes {s : State} {port : Nat} (h : s.takes port) (f : Device → Device) (o : Bool) : s.dev.asHolder port f o = f s.dev := by
  obtain ⟨-, -, h2, h3, h4⟩ := h
  simp [Device.asHolder, h2, h3, h4]

theorem State.takes.live {s : State} {port : Nat} (h : s.takes port) : s.dev.dead = false := h.2.1
theorem State.takes.awake {s : State} {port : Nat} (h : s.takes port) : s.awake := ⟨h.1, h.2.1⟩

/-- A command that acts on a live device ends in the state its effect gives. -/
theorem State.act_ex {s : State} {f : Device → Device} {P : State → Prop} (h : s.dev.dead = false) (hp : P (s.put (f s.dev))) :
    ∃ t, s.act f = .next t ∧ P t := ⟨_, s.act_put f h, hp⟩

theorem State.pin_ex {s : State} {f : Device → Device} {P : State → Prop} (hp : P (s.put (f s.dev))) : ∃ t, s.pin f = .next t ∧ P t := ⟨_, rfl, hp⟩

/-- A PF's write that the device takes ends in the state its effect gives. -/
theorem State.takes_ex {s : State} {port : Nat} {f : Device → Device} {o : Bool} {P : State → Prop} (h : s.takes port) (hp : P (s.put (f s.dev))) :
    ∃ t, s.act (fun d => d.asHolder port f o) = .next t ∧ P t := State.act_ex h.live (by rwa [Device.asHolder_takes h])

theorem State.takes_put {s : State} {port : Nat} (h : s.takes port) (f : Device → Device) (o : Bool) :
    s.act (fun d => d.asHolder port f o) = .next (s.put (f s.dev)) := by rw [State.act_put _ _ h.live, Device.asHolder_takes h]

/-- Between commands, a device with no write of its own is put as it is. -/
theorem State.put_of {s : State} {d : Device} (hs : s.settled) (hw : d.wr = s.dev.wr) (hm : d.mem = s.dev.mem) : s.put d = { s with dev := d } :=
  State.put_eq _ _ hm (hw.trans hs.2)

/-- The byte a device shows while its command runs is the one that memory holds when the command ends. -/
@[simp] theorem State.put_byte (s : State) (d : Device) (h : d.mem = s.dev.mem) (a : Nat) : (s.put d).dev.byte a = d.byte a := by
  show (match writtenByte a [] none with | some b => b | none => sget memDefault (Memory.land s.dev.mem d.wr) a) = _
  rw [← h, Memory.get_land]
  unfold Device.byte
  cases writtenByte a d.wr none <;> rfl

@[simp] theorem State.put_reg (s : State) (d : Device) (r : Reg) (i : Nat) : (s.put d).dev.reg r i = d.reg r i := rfl
@[simp] theorem State.put_fld (s : State) (d : Device) (f : Field) (i : Nat) : (s.put d).dev.fld f i = d.fld f i := rfl
@[simp] theorem State.put_part (s : State) (d : Device) : (s.put d).dev.part = d.part := rfl
@[simp] theorem State.put_now (s : State) (d : Device) : (s.put d).dev.now = d.now := rfl
@[simp] theorem State.put_regs (s : State) (d : Device) : (s.put d).dev.regs = d.regs := rfl
@[simp] theorem State.put_staged (s : State) (d : Device) : (s.put d).dev.staged = d.staged := rfl
@[simp] theorem State.put_snapTurn (s : State) (d : Device) : (s.put d).dev.snapTurn = d.snapTurn := rfl
@[simp] theorem State.put_snapWeir (s : State) (d : Device) : (s.put d).dev.snapWeir = d.snapWeir := rfl
@[simp] theorem State.put_freeCount (s : State) (d : Device) : (s.put d).dev.freeCount = d.freeCount := rfl
@[simp] theorem State.put_randCount (s : State) (d : Device) : (s.put d).dev.randCount = d.randCount := rfl
@[simp] theorem State.put_out (s : State) (d : Device) : (s.put d).dev.out = d.out := rfl
@[simp] theorem State.put_err (s : State) (d : Device) : (s.put d).dev.err = d.err := rfl
@[simp] theorem State.put_fab (s : State) (d : Device) : (s.put d).dev.fab = d.fab := rfl
@[simp] theorem State.put_rt (s : State) (d : Device) : (s.put d).dev.rt = d.rt := rfl
@[simp] theorem State.put_host (s : State) (d : Device) : (s.put d).dev.host = d.host := rfl
@[simp] theorem State.put_turn (s : State) (d : Device) : (s.put d).dev.turn = d.turn := rfl
@[simp] theorem State.put_mem5 (s : State) (d : Device) : (s.put d).dev.mem5 = d.mem5 := rfl
@[simp] theorem State.put_cores (s : State) (d : Device) : (s.put d).dev.cores = d.cores := rfl
@[simp] theorem State.put_plots (s : State) (d : Device) : (s.put d).dev.plots = d.plots := rfl
@[simp] theorem State.put_slu (s : State) (d : Device) : (s.put d).dev.slu = d.slu := rfl
@[simp] theorem State.put_cfg (s : State) (d : Device) : (s.put d).dev.cfg = d.cfg := rfl
@[simp] theorem State.put_pim (s : State) (d : Device) : (s.put d).dev.pim = d.pim := rfl
@[simp] theorem State.put_fur (s : State) (d : Device) : (s.put d).dev.fur = d.fur := rfl
@[simp] theorem State.put_gen (s : State) (d : Device) : (s.put d).dev.gen = d.gen := rfl
@[simp] theorem State.put_flu (s : State) (d : Device) : (s.put d).dev.flu = d.flu := rfl
@[simp] theorem State.put_scr (s : State) (d : Device) : (s.put d).dev.scr = d.scr := rfl
@[simp] theorem State.put_ho (s : State) (d : Device) : (s.put d).dev.ho = d.ho := rfl
@[simp] theorem State.put_sec (s : State) (d : Device) : (s.put d).dev.sec = d.sec := rfl
@[simp] theorem State.put_mtr (s : State) (d : Device) : (s.put d).dev.mtr = d.mtr := rfl
@[simp] theorem State.put_pwr (s : State) (d : Device) : (s.put d).dev.pwr = d.pwr := rfl

/-! ### Frames -/

theorem Device.reg_congr {d e : Device} (h1 : e.regs = d.regs) (h2 : e.part = d.part) (r : Reg) (i : Nat) : e.reg r i = d.reg r i := by
  simp [Device.reg, h1, h2]

theorem Device.byte_congr {d e : Device} (h1 : e.mem = d.mem) (h2 : e.wr = d.wr) (a : Nat) : e.byte a = d.byte a := by
  simp [Device.byte, h1, h2]

theorem Device.framed_refl (d : Device) (rs : List Reg) : d.framed d rs := ⟨fun _ => rfl, fun _ _ _ _ => rfl⟩

/-- A write to a register that the frame names keeps it. -/
theorem Device.framed_setReg {d e : Device} {rs : List Reg} (h : d.framed e rs) (r : Reg) (i : Nat) (v : Word) (hr : r ∈ rs) (hi : i < 0x10000) :
    d.framed (e.setReg r i v) rs := by
  refine ⟨fun a => (Device.byte_congr rfl rfl a).trans (h.1 a), fun r' j hj hn => ?_⟩
  rw [Device.reg_setReg_other _ _ _ _ (fun he => hn (by rw [he]; exact hr)) hi hj]
  exact h.2 r' j hj hn

theorem Device.framed_setFld {d e : Device} {rs : List Reg} (h : d.framed e rs) (f : Field) (x i : Nat) (hf : f.reg ∈ rs) (hi : i < 0x10000) :
    d.framed (e.setFld f x i) rs := Device.framed_setReg h _ _ _ hf hi

/-- A frame speaks of memory and registers alone. -/
theorem Device.framed_congr {d e e' : Device} {rs : List Reg} (h : d.framed e rs) (h1 : e'.mem = e.mem) (h2 : e'.wr = e.wr)
    (h3 : e'.regs = e.regs) (h4 : e'.part = e.part) : d.framed e' rs :=
  ⟨fun a => (Device.byte_congr h1 h2 a).trans (h.1 a), fun r j hj hr => (Device.reg_congr h3 h4 r j).trans (h.2 r j hj hr)⟩

/-- A frame holds of the state that a command ends in. -/
theorem State.framed_put {s : State} {d : Device} {rs : List Reg} (h : s.dev.framed d rs) (hm : d.mem = s.dev.mem) :
    s.dev.framed (s.put d).dev rs := ⟨fun a => (s.put_byte d hm a).trans (h.1 a), h.2⟩

/-! ### Folds -/

/-- A fold keeps what each of its steps keeps. -/
theorem List.foldl_keep {α β γ : Type} (p : α → γ) (f : α → β → α) (h : ∀ a b, p (f a b) = p a) : ∀ (l : List β) (a : α), p (l.foldl f a) = p a
  | [], _ => rfl
  | x :: l, a => by rw [List.foldl_cons, List.foldl_keep p f h l, h]


theorem Device.fld_congr {d e : Device} (h : ∀ r i, e.reg r i = d.reg r i) (f : Field) (i : Nat) : e.fld f i = d.fld f i := by
  simp [Device.fld, h]


end Sys2Proof.Machine
end

