-- ==== Sys2Proof/WellFormed.lean ====
section
/-! DEFINITION. Sys2Proof/WellFormed.lean: the commands whose operands name things that a ZT4096 has: a PF's port, a queue, a slot, a
link, an engine, a channel, a plot and its cores, a node number. -/

namespace Sys2Proof

/-- An operand is below a bound. -/
def under (n x : Nat) : Bool := decide (x < n)

/-- A function of a host port (R347): port 0 or 1, the PF or one of 31 VFs. -/
def fnOk (f : Fn) : Bool := under 2 f.port && under 32 f.vf

/-- A core instruction names a plot of the device and one of its 64 cores (spec/00). -/
def coreOk (x : CoreInsn) : Bool := under 64 x.plot && under 64 x.core

/-- A BAR that holds registers (R346). -/
def barOk (b : Nat) : Bool := b == 0 || b == 2 || b == 4

/-- A packet's node numbers and message number fit their fields (Table 13.6). -/
def packetOk (p : Packet) : Bool := under 65536 p.dest && under 65536 p.src && under (2 ^ 48) p.msgId

/-- A message's source and number fit their fields. -/
def msgOk (m : Msg) : Bool := under 65536 m.src && under (2 ^ 48) m.msgId

/-- What a host request serves exists: a host queue, a context of an engine, a flume, a slot. -/
def reqOk : HostReq → Bool
  | .queue q => under 256 q
  | .ctx e c => under 32 e && under 4096 c
  | .flume h => under 65535 h
  | .staging slot => under 4096 slot
  | .ring _ => true
  | .furrowRing => true
  | .pimRing => true
  | .other => true

/-- The well-formed commands. -/
def Instr.wf : Instr → Bool
  | .localTurnStart _ _ _ _ _ => true
  | .turnRootTimerTick _ => true
  | .turnInEdge _ => true
  | .idleTimerTick _ => true
  | .marker _ port _ => under 56 port
  | .markerTolExpiry _ => true
  | .pinLagExpiry _ => true
  | .admitTimeExpiry => true
  | .deadline _ => true
  | .sealSend => true
  | .sealMsg port _ => under 56 port
  | .sealCutoffExpiry => true
  | .commitVerdict _ _ _ => true
  | .abortVerdict _ _ => true
  | .localAbort _ => true
  | .turnEnable port _ => under 2 port
  | .turnLeave port => under 2 port
  | .turnCommit port _ => under 2 port
  | .rotaSubmit port _ => under 2 port
  | .rotaFetchDone _ _ => true
  | .entryStart plot core => under 64 plot && under 64 core
  | .lds insn => coreOk insn
  | .mma insn => coreOk insn
  | .accr insn _ _ => coreOk insn
  | .attn insn _ => coreOk insn
  | .vop insn _ _ => coreOk insn
  | .vtr insn _ => coreOk insn
  | .cvt insn _ _ => coreOk insn
  | .coreLd insn _ => coreOk insn
  | .coreSt insn _ => coreOk insn
  | .mld insn => coreOk insn
  | .mst insn => coreOk insn
  | .mat insn => coreOk insn
  | .xput insn => coreOk insn
  | .xwait insn => coreOk insn
  | .append insn => coreOk insn
  | .coreBar insn => coreOk insn
  | .coreSend insn => coreOk insn
  | .coreRecv insn => coreOk insn
  | .scalar insn _ => coreOk insn
  | .endEntry plot core => under 64 plot && under 64 core
  | .queryPost slot _ => under 4096 slot
  | .selectionPost slot _ => under 4096 slot
  | .plotReset port plot => under 2 port && under 64 plot
  | .plotResetDone plot => under 64 plot
  | .memoryAccess _ _ _ _ _ _ _ _ => true
  | .mr4Read k rate => under 320 k && under 4 rate
  | .refreshDue k bank _ => under 320 k && under 16 bank
  | .windowOpen _ => true
  | .enteringDone k rate => under 320 k && under 4 rate
  | .windowEnd k => under 320 k
  | .exitDone k _ => under 320 k
  | .clearingDone k => under 320 k
  | .pimRank k q _ _ _ _ badBank => under 320 k && under 2 q && under 16 badBank
  | .swrite k q _ _ badBank => under 320 k && under 2 q && under 16 badBank
  | .sread k q _ badBank => under 320 k && under 2 q && under 16 badBank
  | .sclear k q => under 320 k && under 2 q
  | .pimFence k q => under 320 k && under 2 q
  | .pimDqTailWrite port _ => under 2 port
  | .pimDqFetch _ => true
  | .furCqTailWrite port _ => under 2 port
  | .furCreate _ => true
  | .furDestroy _ => true
  | .destroyComplete => true
  | .furSet _ => true
  | .furRead _ => true
  | .codedFrameReady _ _ => true
  | .reservoirMerge _ => true
  | .rankRequest m => msgOk m
  | .rankReply m => msgOk m
  | .rankCutExpiry _ => true
  | .fetchCutExpiry _ => true
  | .fetchDone _ _ _ => true
  | .furrowRead m _ _ => msgOk m
  | .spillwayEvict pool _ => under 2 pool
  | .moveDone _ _ => true
  | .openSlot q _ _ _ _ => under 256 q
  | .closeSlot q _ => under 256 q
  | .slotSet q _ _ => under 256 q
  | .slotRead q _ _ => under 256 q
  | .slotPause _ q _ => under 256 q
  | .slotResume _ q _ => under 256 q
  | .tokBuffer q _ => under 256 q
  | .bufferAdd q _ => under 256 q
  | .prefillStagingDone slot _ _ => under 4096 slot
  | .samplerTarget slot _ _ _ => under 4096 slot
  | .draftStep slot _ _ _ => under 4096 slot
  | .samplerHeads slot _ _ _ => under 4096 slot
  | .scrLoad port handle _ _ => under 2 port && under 1024 handle
  | .loadFetchDone _ => true
  | .scrRetire port handle => under 2 port && under 1024 handle
  | .screenUpdate _ _ => true
  | .scrubTick _ _ _ => true
  | .cancelDoorbell _ fn _ _ => fnOk fn
  | .flumeInterruptTest _ => true
  | .hostError req => reqOk req
  | .sluCopy e c _ _ _ _ => under 32 e && under 4096 c
  | .sluWrite e c _ _ _ => under 32 e && under 4096 c
  | .sluRead e c => under 32 e && under 4096 c
  | .sluAtomic e c => under 32 e && under 4096 c
  | .sluFlush e c => under 32 e && under 4096 c
  | .flashRead e c _ => under 32 e && under 4096 c
  | .flashWrite e c _ _ _ _ => under 32 e && under 4096 c
  | .signalWord e c _ => under 32 e && under 4096 c
  | .waitValue e c _ _ => under 32 e && under 4096 c
  | .waitValueTimeout e c => under 32 e && under 4096 c
  | .allocFrame e c => under 32 e && under 4096 c
  | .freeFrame e c => under 32 e && under 4096 c
  | .registerRegion e c _ _ => under 32 e && under 4096 c
  | .revokeRegion e c => under 32 e && under 4096 c
  | .revokeComplete region => under 65536 region
  | .sluiceSend e c => under 32 e && under 4096 c
  | .sluNop e c => under 32 e && under 4096 c
  | .packetReceived _ link p _ _ => under 112 link && packetOk p
  | .writeMessage m _ => msgOk m
  | .readReq m _ _ _ => msgOk m
  | .readResp m _ => msgOk m
  | .atomicReq m _ => msgOk m
  | .atomicResp m => msgOk m
  | .ackMsg m => msgOk m
  | .nackMsg m => msgOk m
  | .odpFault m => msgOk m
  | .sendMessage m => msgOk m
  | .retransmitTimeout msgId _ _ => under (2 ^ 48) msgId
  | .reassemblyTimeout src msgId => under 65536 src && under (2 ^ 48) msgId
  | .memoryExpiry src msgId => under 65536 src && under (2 ^ 48) msgId
  | .faultDelayExpiry msgId _ _ => under (2 ^ 48) msgId
  | .odpPageReady region _ _ => under 65536 region
  | .sluFlushStart port node => under 2 port && under 65536 node
  | .engineReset port e => under 2 port && under 32 e
  | .hello m => msgOk m
  | .offer m => msgOk m
  | .dataMsg m => msgOk m
  | .accept m => msgOk m
  | .grant m => msgOk m
  | .release m => msgOk m
  | .refuse m => msgOk m
  | .ownerQ m => msgOk m
  | .ownerIs m => msgOk m
  | .claimReq m => msgOk m
  | .pushMsg m => msgOk m
  | .pushAck m => msgOk m
  | .withdraw m => msgOk m
  | .handoffTimeout _ => true
  | .queryTurnsExpiry _ => true
  | .transferTimeout _ _ => true
  | .homeOpen q _ => under 256 q
  | .homeClose q _ => under 256 q
  | .hoMove q _ => under 256 q
  | .hoPark q _ => under 256 q
  | .hoClaim q _ => under 256 q
  | .hoQuery q _ => under 256 q
  | .recordQuery q _ _ => under 256 q
  | .linkEnable port link _ => under 2 port && under 112 link
  | .linkReset port link => under 2 port && under 112 link
  | .signalDetected link => under 112 link
  | .trainDone link _ _ => under 112 link
  | .alignDone link => under 112 link
  | .trainTimeout link => under 112 link
  | .holdoffExpiry link => under 112 link
  | .paramFlit link _ => under 112 link
  | .dataFlit link _ => under 112 link
  | .turnFlit link _ => under 112 link
  | .idleFlit link _ => under 112 link
  | .replayTimeout link => under 112 link
  | .turnReplayTimeout link => under 112 link
  | .replayLimit link => under 112 link
  | .peerTraining link => under 112 link
  | .fecFailure link => under 112 link
  | .noFlit link => under 112 link
  | .packetTransmit _ cls => under 8 cls
  | .fabNodeWrite port node => under 2 port && under 65536 node
  | .routeLoad port _ => under 2 port
  | .routeLoadDone _ _ => true
  | .armRoute port => under 2 port
  | .armImmediate port => under 2 port
  | .drainWindowEnd => true
  | .routeHoldExpiry _ => true
  | .routingNotice _ _ => true
  | .hgEnable port _ => under 2 port
  | .hgDropBaseWrite port _ => under 2 port
  | .weirRefill _ => true
  | .weirCommit port => under 2 port
  | .telemetrySample _ _ => true
  | .holderClaim _ port => under 2 port
  | .leaseRenew port _ => under 2 port
  | .holderRelease port => under 2 port
  | .leaseWrite port _ _ => under 2 port
  | .leaseLapse _ => true
  | .portLost port _ => under 2 port
  | .vfFlr fn _ => fnOk fn
  | .hqQEnable port q _ => under 2 port && under 256 q
  | .hqTail port q _ => under 2 port && under 256 q
  | .hqConsumed port q _ => under 2 port && under 256 q
  | .sluiceFetch q _ => under 256 q
  | .nvmPortEnable port root _ => under 2 port && under 8 root
  | .rootLinkUp root _ _ _ _ => under 8 root
  | .rootLinkTimeout root => under 8 root
  | .rootInitDone root _ _ => under 8 root
  | .rootInitTimeout root => under 8 root
  | .rootLinkDown root => under 8 root
  | .nvmPortReset port root => under 2 port && under 8 root
  | .rootResetDone root => under 8 root
  | .nvmeCompletion _ root _ => under 8 root
  | .ioTimeout root _ => under 8 root
  | .adminTimeout root => under 8 root
  | .controllerDma root _ _ _ _ => under 8 root
  | .nvmAdminStart port root _ _ => under 2 port && under 8 root
  | .profileSwitch port slot => under 2 port && under 4 slot
  | .profileSwitchDone _ _ _ => true
  | .slotWrite port slot _ => under 2 port && under 4 slot
  | .slotWriteDone _ _ _ _ => true
  | .censusStart port _ _ _ => under 2 port
  | .censusQuery _ => true
  | .censusReply _ => true
  | .censusEnd => true
  | .keyGenerate port slot _ => under 2 port && under 4096 slot
  | .keyExport port slot _ _ _ _ => under 2 port && under 4096 slot
  | .keyImport port slot _ _ _ => under 2 port && under 4096 slot
  | .keyRetire port slot _ => under 2 port && under 4096 slot
  | .attest port _ _ _ => under 2 port
  | .identityCmd port _ _ => under 2 port
  | .fwWrite port slot _ _ _ _ _ => under 2 port && under 256 slot
  | .fwFloor port _ => under 2 port
  | .metergateStart => true
  | .intervalClose => true
  | .tallyNow port => under 2 port
  | .mtrClose port => under 2 port
  | .periodClose => true
  | .recordSign => true
  | .mtrConsumedWrite port _ => under 2 port
  | .metergateFwChange port _ _ _ _ => under 2 port
  | .fwDrainTimeout => true
  | .meterQuery _ => true
  | .resetRequest port _ _ _ => under 2 port
  | .resetStepDone _ _ _ _ => true
  | .resetStepTimeout _ _ _ _ => true
  | .riderHeartbeat => true
  | .watchdog => true
  | .watchdogNoReturn => true
  | .dumpNow port => under 2 port
  | .dumpRelease port => under 2 port
  | .pushNow port _ _ => under 2 port
  | .retentionPush _ _ => true
  | .sentClear port => under 2 port
  | .fingerprint m => msgOk m
  | .pwrgoodAssert _ => true
  | .pwrgoodDeassert => true
  | .perst0Assert => true
  | .perst0Deassert prof _ => under 4 prof
  | .perst1Assert => true
  | .perst1Deassert => true
  | .supplyFault rail => under 11 rail
  | .sensorSample _ _ => true
  | .vcoreOvercurrent rail => under 11 rail
  | .idleStepTick _ => true
  | .registerWrite fn bar _ _ _ => fnOk fn && barOk bar
  | .rcFieldRead _ fn bar _ _ => fnOk fn && barOk bar
  | .flitBoundary link => under 112 link
  | .hostLinkTrained port _ _ _ _ => under 2 port
  | .rfmRequest k bank => under 320 k && under 16 bank

end Sys2Proof
end

