-- ==== Sys2Proof/Tests/Slice0.lean ====
section
/-! SUPPORT. Sys2Proof/Tests/Slice0.lean: terms that the well-formedness checks refuse; for each statement with hypotheses, states and
operands that meet them; and small tests of single steps, their expected results read off the spec. -/

namespace Sys2Proof.Tests

open Sys2Proof Sys2Proof.Machine

/-! ### Ill-formed commands -/

theorem test_wf_port : (Instr.turnLeave 2).wf = false ∧ (Instr.turnLeave 1).wf = true := by decide
theorem test_wf_core : (Instr.lds { plot := 64, core := 0 }).wf = false ∧ (Instr.lds { plot := 63, core := 64 }).wf = false ∧
    (Instr.lds { plot := 63, core := 63 }).wf = true := by decide
theorem test_wf_function : (Instr.vfFlr ⟨1, 32⟩ false).wf = false ∧ (Instr.vfFlr ⟨2, 0⟩ false).wf = false ∧
    (Instr.vfFlr ⟨1, 31⟩ false).wf = true := by decide
theorem test_wf_bar : (Instr.registerWrite ⟨0, 0⟩ 1 0 8 0).wf = false ∧ (Instr.registerWrite ⟨0, 0⟩ 2 0 8 0).wf = true := by decide
theorem test_wf_packet : (Instr.packetReceived 0 0 { dest := 65536, src := 0, tc := 1 } true 0).wf = false ∧
    (Instr.packetReceived 0 112 { dest := 0, src := 0, tc := 1 } true 0).wf = false ∧
    (Instr.packetReceived 0 111 { dest := 0, src := 0, tc := 1 } true 0).wf = true := by decide
theorem test_wf_message : (Instr.writeMessage { src := 0, msgId := 2 ^ 48, hdr := { op := 1 } } 0).wf = false ∧
    (Instr.writeMessage { src := 0, msgId := 2 ^ 48 - 1, hdr := { op := 1 } } 0).wf = true := by decide
theorem test_wf_request : (Instr.hostError (.queue 256)).wf = false ∧ (Instr.hostError (.ctx 32 0)).wf = false ∧
    (Instr.hostError (.queue 255)).wf = true := by decide
theorem test_wf_slot : (Instr.closeSlot 256 []).wf = false ∧ (Instr.closeSlot 255 (List.replicate 64 0)).wf = true := by decide
theorem test_wf_link : (Instr.dataFlit 112 (List.replicate 256 0)).wf = false ∧ (Instr.dataFlit 111 (List.replicate 256 0)).wf = true := by decide

/-! ### Small states -/

/-- A state of a device alone. -/
abbrev one (d : Device) : State := { dev := d }
/-- A device that PF 0 holds. -/
def held : Device := ({} : Device).setFld F.HQ_CONTROL.HOLDER 1
/-- A device with an image active. -/
def imaged : Device := { held with cfg := { image := some {} } }
/-- A device in its turn number 5 of a job, which it seals. -/
def live : Device :=
  (({ held with turn := { started := true, live := true, seals := true, expected := 1000000, admits := true } } : Device).setFld
    F.TURN_STATUS.STATE 1).setFld F.TURN_NUMBER.CURRENT 5
/-- A decode entry, admitted and running on plot 0, of slot 0. -/
def entry0 : Admitted := { e := { plotMask := 1, kind := 1 }, index := 0, cost := 1, plotsLeft := 1 }
/-- A device whose core 0 of plot 0 runs the entry. -/
def busy : Device := ({ live with turn.admitted := [entry0] } : Device).setCore 0 0 { entry := some 0 }
/-- The marker of turn 6. -/
def marker6 : MarkerMsg := { turn := 6, digest := 0, jobId := 0, first := true, epoch := 0, period := 1000, window := 30 }
/-- A SEAL, COMMIT or ABORT payload of turn 5. -/
def seal5 : SealMsg := { turn := 5, jobId := 0, count := 1 }

/-! ### Turns -/

theorem witness_EnableAndLeave :
    ((one { imaged with turn := { applied := true } }).takes 0 ∧ imaged.fld F.TURN_STATUS.STATE = 0 ∧ imaged.cfg.image.isNone = false ∧
      imaged.mtrState ≠ 3) ∧ ((one held).takes 0 ∧ held.turn.applied = false) ∧ ((one live).takes 0 ∧ live.fld F.TURN_STATUS.STATE ≠ 0) := by
  decide

theorem witness_TurnCommitStages :
    let late := { held with staged := [(regKey .TURN_TIMING 0, 0)] }
    ((one held).takes 0 ∧ held.idleForCommit = true ∧ lowest (turnFaults (held.at_ 0) (Device.applySnap false held.staged (held.at_ 0))) = none) ∧
      ((one live).takes 0 ∧ live.idleForCommit = false ∧ lowest (turnFaults (live.at_ 0) (Device.applySnap false live.staged (live.at_ 0))) = none) ∧
      ((one late).takes 0 ∧ (lowest (turnFaults (late.at_ 0) (Device.applySnap false late.staged (late.at_ 0)))).isSome = true) := by
  decide

theorem witness_RotaSubmitAndFetch :
    let fetching := ({ live with turn.fetch := some (8192, 5, ⟨0, 0⟩) } : Device)
    (one held).takes 0 ∧ ((one fetching).awake ∧ fetching.turn.fetch = some (8192, 5, ⟨0, 0⟩) ∧ fetching.turn.started = true ∧
      fetching.inJob = true ∧ fetching.turn.due = none ∧ 5 ≤ fetching.turnNo) ∧
      ({ fetching with turn.fetch := some (1, 6, ⟨0, 0⟩) } : Device).turnNo < 6 := by
  decide

theorem witness_TurnStartsBecomeDue :
    let new := held.setFld F.TURN_STATUS.STATE 1
    let root := new.setFld F.TURN_JOB.TURN_ROOT 1
    let timer := root.setFld F.TURN_JOB.SOURCE 2
    let pin := new.setFld F.TURN_JOB.SOURCE 1
    let edge := ({ live.setFld F.TURN_JOB.SOURCE 1 with turn.startEdge := some 1000000 } : Device)
    ((one new).awake ∧ new.running = true ∧ marker6.jobId = new.fld F.TURN_JOB.JOB_ID ∧ new.on F.TURN_JOB.TURN_ROOT = false ∧
      new.fld F.TURN_JOB.SOURCE ≠ 1 ∧ new.turn.started = false ∧ new.turn.due = none ∧ new.turn.startEdge = none) ∧
    ((one timer).awake ∧ timer.running = true ∧ timer.on F.TURN_JOB.TURN_ROOT = true ∧ timer.fld F.TURN_JOB.SOURCE = 2 ∧
      timer.turn.started = false ∧ timer.begun = false ∧ timer.turn.live = false) ∧
    ((one pin).awake ∧ pin.running = true ∧ pin.fld F.TURN_JOB.SOURCE = 1 ∧ (pin.at_ 0).tolOver = false ∧ (pin.at_ 0).edgeTaken = true ∧
      pin.turn.startEdge = none ∧ pin.on F.TURN_JOB.TURN_ROOT = false ∧ pin.turn.pinMarker = none ∧
      (root.setFld F.TURN_JOB.SOURCE 1).on F.TURN_JOB.TURN_ROOT = true ∧
      ({ pin with turn.pinMarker := some marker6 } : Device).turn.pinMarker = some marker6) ∧
    ((one live).awake ∧ live.running = true ∧ (live.at_ 1100000).tolOver = true ∧
      (live.on F.TURN_JOB.TURN_ROOT && live.fld F.TURN_JOB.SOURCE == 2) = false) ∧
    ((one edge).awake ∧ edge.running = true ∧ edge.turn.startEdge = some 1000000 ∧
      1000000 + edge.fld F.TURN_TOL.PIN_LAG ≤ max edge.now 1100000 ∧ edge.turn.started = true) := by
  decide

theorem witness_LocalTurnStartBegins :
    let due := ({ held.setFld F.TURN_STATUS.STATE 1 with turn.due := some { turn := 6, at_ := 7, admits := true } } : Device)
    ((one due).awake ∧ due.turn.due = some { turn := 6, at_ := 7, admits := true } ∧ due.turn.leaving = false) ∧
      ({ due with turn.leaving := true } : Device).turn.leaving = true ∧
      ((one held).awake ∧ held.fld F.TURN_STATUS.STATE = 0 ∧
        held.turn.idleOwed = none ∧ held.turn.leaving = false ∧ held.nextTick ≤ max held.now (1000 * held.fld F.TURN_TIMING.PERIOD)) := by
  decide

theorem witness_AdmissionAndDeadlinePhases :
    let waits := ({ live with turn.unexamined := [(0, { plotMask := 1, kind := 1 })] } : Device)
    ((one live).awake ∧ live.turn.live = true ∧ (live.at_ 1000000).deadlineAt ≤ max live.now 1000000 ∧ live.running = true ∧
      live.turn.verdict = 0 ∧ live.turn.decided = none ∧ live.turn.admitted = []) ∧
      ((one waits).awake ∧ waits.turn.live = true ∧ waits.turn.unexamined ≠ []) := by
  decide

theorem witness_SealAndVerdicts :
    let root := live.setFld F.TURN_JOB.SEAL_ROOT 1
    let parent := live.setFld F.TURN_SEAL_CHILDREN.PORTS 4
    ((one root).awake ∧ root.maySeal = true ∧ root.sealReady = true ∧ root.on F.TURN_JOB.SEAL_ROOT = true) ∧
      ((one parent).awake ∧ seal5.jobId = parent.fld F.TURN_JOB.JOB_ID ∧ parent.turn.live = true ∧ seal5.turn = parent.turnNo ∧
        parent.unheard.contains 2 = true) ∧
      ((one live).awake ∧ seal5.jobId = live.fld F.TURN_JOB.JOB_ID ∧ live.awaits seal5 = true ∧ live.turn.lost.contains seal5.turn = false ∧
        live.turn.decided = none) := by
  decide

/-! ### Cores -/

/-- A core instruction of core 0 of plot 0. -/
def insn : CoreInsn := { plot := 0, core := 0 }
/-- The busy device, whose core's scalar registers are given. -/
def withS (s : SMap Nat) : Device := busy.setCore 0 0 { entry := some 0, s := s }
/-- A tensor reference to two raw rows of 32 MXINT8 elements at 0. -/
def refInt8 : Nat := 64 * 2 ^ 56 + 2 ^ 22 + 7 * 2 ^ 18
/-- A core whose t0 is the reference and whose stationary buffer is in MXINT8. -/
def withT : Device := busy.setCore 0 0 { entry := some 0, t := [(0, refInt8)], statFmt := 7, statLanes := 1, statLen := 32 }
/-- The reference's bytes. -/
def row8 : List Byte := List.replicate 32 0

theorem witness_VectorInstructionsRetire : (one busy).runs insn entry0 ∧ (fmtOf 0xC).isSome = true ∧ fmtOf 0xD = none := by decide

theorem witness_ScalarInstructionsRetire :
    (one (withS [])).runs insn entry0 ∧ ((one (withS [])).coreOf insn).sreg 0 = 0 ∧
      ((one (withS [(0, 1)])).runs insn entry0 ∧ ((one (withS [(0, 1)])).coreOf insn).sreg 0 = 1) ∧
      ((one (withS [(0, 2 ^ 64 - 1)])).runs insn entry0 ∧ 1 < ((one (withS [(0, 2 ^ 64 - 1)])).coreOf insn).sreg 0 ∧
        ((one (withS [(0, 2 ^ 64 - 1)])).coreOf insn).sreg 0 < 2 ^ 64) := by
  decide

theorem witness_LoadsAndStoresRetire :
    ((one busy).runs insn entry0 ∧ ldstBad .vector 0 (((one busy).coreOf insn).sreg 0) 2 = true ∧
      ldstBad .vector 0 (((one busy).coreOf insn).sreg 0) 128 = false ∧ ({ insn with parity := 4 } : CoreInsn).parity > 3) ∧
    ((one withT).runs { insn with b := 1 } entry0 ∧ (fmtOf (((one withT).coreOf insn).tref 0).fmt).isSome = true ∧
      ((one withT).coreOf insn).trefBad 0 32 = false ∧ (((one withT).coreOf insn).tref 0).row * 8 ≤ 32768 ∧
      (((one withT).coreOf insn).tref 0).fmt = 7 ∧ (withT.trefBytes (((one withT).coreOf insn).tref 0) 8 32).toOption = some row8) := by
  decide

theorem witness_MatrixAndAttentionRetire :
    ((one withT).runs { insn with b := 1 } entry0 ∧ pairOf (((one withT).coreOf insn).tref 0).fmt ((one withT).coreOf insn).statFmt = some (32, .exact) ∧
      ((one withT).coreOf insn).trefBad 0 32 = false ∧ 1 * ceilDiv (((one withT).coreOf insn).tref 0).row 32 ≤ 1536 ∧
      (withT.trefBytes (((one withT).coreOf insn).tref 0) 8 32).toOption = some row8) ∧
    pairOf 7 8 = none ∧ busy.fur.attend.find? (fun y => y.entry == entry0.index) = none := by
  decide

theorem witness_attn :
    let x : Attend := { slot := 0, draft := false, entry := 0, desc := 0, a := 0, mode := 0, listAddr := 0x1000 }
    let d : Device := { busy with fur.attend := [x], fur.desc := [(0, { state := 1, fmt := 8 })] }
    (one d).runs insn entry0 ∧ d.fur.attend.find? (fun y => y.entry == entry0.index) = some x ∧
      pairOf (d.furrow 0).fmt 8 = some (16, .grouped) ∧ attnCycles 256 (headDim (d.furrow 0)) 16 (d.headEntry 0 0).qPerKv ≤ 1536 ∧
      (d.headEntry 0 0).plot = 0 ∧ (d.headEntry 0 0).coreOf 0 = 0 ∧
      bitsOf (d.load (x.listAddr + 2048 * streamOf (d.furrow 0) (d.headEntry 0 0) + 8 * 0) 8) 20 11 = 0 := by
  decide

theorem witness_RemoteInstructionsIssue :
    let regs := [(1, 256)]
    let none_ := withS regs
    let d := (withS [(1, 256), (2, 0x10000)]).setFld F.SLU_MREF_BASE.COUNT 1
    let wide : Device := { d with mem := [(17, 1)] }
    (one none_).runs insn entry0 ∧ none_.fld F.SLU_MREF_BASE.COUNT ≤ 0 ∧
      ((one d).runs insn entry0 ∧ 0 < d.fld F.SLU_MREF_BASE.COUNT ∧ ((one d).coreOf insn).sreg 1 = 256 ∧ ((one d).coreOf insn).sreg 2 % 256 = 0 ∧
        inHeadwater (((one d).coreOf insn).sreg 2) 256 = true ∧ 0 + 256 > (d.mref 0).limit) ∧
      ((one wide).runs insn entry0 ∧ 0 + 256 ≤ (wide.mref 0).limit ∧ (wide.freeCtx (coreEngine 0)).isSome = true ∧
        ((wide.mref 0).offset + 0) % 8 = 0 ∧ 0 + 8 ≤ (wide.mref 0).limit) ∧
      ((one busy).runs { insn with flags := 1 } entry0 ∧ ((one busy).coreOf insn).xputs = 0) ∧
      ((one busy).runs { insn with flags := 0 } entry0 ∧ inHeadwater (((one busy).coreOf insn).sreg 0) 8 = true ∧
        ((one busy).coreOf insn).sreg 0 % 8 = 0 ∧ ((one busy).coreOf insn).sreg 0 ≤ busy.load (((one busy).coreOf insn).sreg 0) 8) := by
  decide

theorem witness_xputs :
    let d := busy.setCore 0 0 { entry := some 0, xputs := 64, unanswered := 64 }
    (one d).runs { insn with flags := 1 } entry0 ∧ ((one d).coreOf insn).xputs ≠ 0 ∧ 64 ≤ ((one d).coreOf insn).unanswered := by decide

theorem witness_EntriesStartAndEnd :
    let d : Device := { live with turn.admitted := [entry0] }
    ((one d).awake ∧ (d.core 0 63).entry = none ∧ (sget {} d.plots 0).resetting = false ∧ d.nextEntry 0 (d.core 0 63).nextEntry = some entry0) ∧
      ((one busy).runs { plot := 0, core := 0 } entry0 ∧ (busy.core 0 0).appends = 0) ∧
      ((one (busy.setCore 0 0 { entry := some 0, appends := 1 })).runs { plot := 0, core := 0 } entry0) := by
  decide

theorem witness_AppendsAndMeshTransfers :
    let a : Admitted := { entry0 with tokens := 1 }
    let d : Device := ({ live with turn.admitted := [a], fur.desc := [(0, { state := 1, ppsM1 := 1 })],
                                   gen.slots := [(0, { img := { state := 2 } })], fur.pte := [(0, { tier := 1, isOpen := true })] } : Device).setCore 0 0
      { entry := some 0 }
    let full : Device := { d with fur.desc := [(0, { state := 1, length := 256 })] }
    ((one d).runs insn a ∧ d.entryFurrow a = some 0 ∧ 1 ≥ a.tokens + a.e.prefill ∧ 0 < a.tokens + a.e.prefill ∧
      (d.furrow 0).length + 0 < 256 * pps (d.furrow 0) ∧ streamOf (d.furrow 0) (d.headEntry 0 0) < streams (d.furrow 0) ∧
      (d.pte (seqPage (d.furrow 0) (streamOf (d.furrow 0) (d.headEntry 0 0)) (((d.furrow 0).length + 0) / 256))).tier = 1 ∧
      d.appendOwner 0 (d.furrow 0).owner = none ∧ (fmtOf (d.furrow 0).fmt).isSome = true) ∧
    ((one full).runs insn a ∧ full.entryFurrow a = some 0 ∧ (full.furrow 0).length + 0 ≥ 256 * pps (full.furrow 0)) ∧
    ((one busy).runs { insn with c := 1 } entry0 ∧ 1 ≠ coreKey 0 0 ∧ ((one busy).coreOf insn).inbox.find? (fun x => x.1 == 0 && x.2.1 == 1) = none ∧
      ((one busy).dev.core 0 1).nextEntry ≤ 0) ∧
    ((one (busy.setCore 0 0 { entry := some 0, inbox := [(0, 1, [0])] })).runs { insn with c := 1 } entry0) ∧
    ((0, 1) ∈ entryCores entry0 ∧ ((busy.setCore 0 1 { entry := some 0 }).core 0 1).entry = some entry0.index) := by
  decide

/-! ### The fabric -/

/-- A device whose last link is in a state. -/
def linkIn (n : Nat) : Device := held.setFld F.FAB_LINK_STATUS.STATE n 111

theorem witness_LinkTrainsAndFalls :
    (one (linkIn 1)).awake ∧ (linkIn 1).linkState 111 = 1 ∧ (linkIn 2).linkState 111 = 2 ∧ (linkIn 3).linkState 111 = 3 ∧
      (linkIn 4).linkState 111 = 4 ∧ (linkIn 5).linkState 111 = 5 ∧ (linkIn 6).linkState 111 = 6 ∧
      F.FAB_LINK_CFG.MODE.get (sget (regReset (linkIn 2).part .FAB_LINK_CFG 111) [(111, 1)] 111) = 1 ∧
      F.FAB_LINK_CFG.MODE.get (sget (regReset (linkIn 2).part .FAB_LINK_CFG 111) [] 111) ≠ 1 ∧
      (((({ linkIn 5 with fab.links := [(111, { replay := [(8, { ty := .data })] })] } : Device).link 111).replay).any fun x => x.1 ≥ 8) = true := by
  decide

/-- The fields of a PARAM body that agrees on the version and is ready. -/
def paramBody : List Byte := pack [(4, 0x5A54414C), (1, 0x10), (1, 0x10), (4, 0), (1, 1)]
/-- A DATA flit of sequence number 1. -/
def flit1 : Flit := { ty := .data, seq := 1 }

theorem witness_LinkFlitsReceived :
    let wrap : Device := { linkIn 5 with fab.links := [(111, { rxAck := 4095, rxTack := 255, discarding := true })] }
    let ready : Device := { linkIn 4 with fab.links := [(111, { sentSeen := true })] }
    let body := (Flit.ofBytes .param { flit1 with ty := .param, body := paramBody }.bytes).body
    ((one (linkIn 5)).awake ∧ (linkIn 5).linkState 111 = 5 ∧ isFlit .data flit1.bytes = true ∧
      (Flit.ofBytes .data flit1.bytes).seq = (((linkIn 5).link 111).rxAck + 1) % 4096 ∧ isFlit .turn { flit1 with ty := .turn }.bytes = true ∧
      (Flit.ofBytes .turn { flit1 with ty := .turn }.bytes).seq = (((linkIn 5).link 111).rxTack + 1) % 256 ∧
      isFlit .idle { flit1 with ty := .idle }.bytes = true) ∧
    ((one wrap).awake ∧ 1 ≠ ((wrap.link 111).rxAck + 1) % 4096 ∧ 1 ≠ ((wrap.link 111).rxTack + 1) % 256 ∧ (wrap.link 111).discarding = true ∧
      ({ linkIn 5 with fab.links := [(111, { rxAck := 4095 })] } : Device).link 111 = { rxAck := 4095 }) ∧
    ((one ready).awake ∧ ready.linkState 111 = 4 ∧ isFlit .param { flit1 with ty := .param, body := paramBody }.bytes = true ∧
      fieldAt body 0 4 = 0x5A54414C ∧ versionsAgree body = true ∧ (ready.link 111).sentSeen = true ∧ (fieldAt body 10 1).testBit 0 = true) ∧
    versionsAgree (pack [(4, 0x5A54414C), (1, 0x20), (1, 0x20)]) = false := by
  decide +kernel

/-- The flits of `witness_LinkFlitsReceived` pass their check, and there are bytes that do not. -/
theorem witness_flit_crc : flitCrcOk flit1.bytes = true ∧ ∃ bs, flitCrcOk bs = false :=
  ⟨flitCrcOk_bytes flit1, _, flitCrcOk_damaged (List.replicate 248 0) rfl⟩

theorem witness_LinkTransmitsAndReplays :
    let kept : Device := { linkIn 5 with fab.links := [(111, { replay := [(1, { ty := .data })] })] }
    let wait : Device := { linkIn 4 with fab.links := [(111, { paramWait := 1 })] }
    (one (linkIn 5)).awake ∧ ((one wait).awake ∧ wait.linkState 111 = 4 ∧ (wait.link 111).paramWait ≠ 0) ∧
      ((one kept).awake ∧ kept.linkState 111 = 5 ∧ (kept.link 111).replay ≠ []) ∧
      ((one (linkIn 0)).takes 0 ∧ (linkIn 0).part.link 110 = true ∧ (linkIn 0).linkState 110 = 0 ∧
        ((linkIn 0).setFld F.FAB_LINK_CFG.MODE 1 110).linkExists 110 = true) ∧
      ((one (linkIn 1)).takes 0 ∧ (linkIn 1).linkState 111 ≠ 0 ∧ (linkIn 1).linkState 111 ≠ 5 ∧ (linkIn 1).linkState 111 ≠ 7) ∧
      (((List.range 112).all fun l => !held.part.link l || held.linkState l == 0 || held.linkState l == 6 || held.linkState l == 7) = true ∧
        ((List.range 112).all fun l => !(linkIn 1).part.link l || (linkIn 1).linkState l == 0 || (linkIn 1).linkState l == 6 ||
          (linkIn 1).linkState l == 7) = false) := by
  decide +kernel

/-- A map image of epoch 255 with one port set, of port 0, and no entries (Tables 14.1 and 14.2). -/
def mapBytes : List Byte :=
  let sets := leBytes 16 1
  pack [(4, 0x5A54524D), (1, 255), (1, 0), (2, 1), (4, crc32 sets), (52, 0)] ++ sets

theorem witness_RoutingMapsLoadAndSwitch :
    let at_ := fun n => held.setFld F.FAB_ROUTE_STATUS.OTHER_STATE n
    let m := MapImage.ofBytes mapBytes
    (one (at_ 0)).takes 0 ∧ (at_ 4).fld F.FAB_ROUTE_STATUS.OTHER_STATE = 4 ∧ (at_ 0).fld F.FAB_ROUTE_STATUS.OTHER_STATE = 0 ∧
      (at_ 2).fld F.FAB_ROUTE_STATUS.OTHER_STATE = 2 ∧ (at_ 2).fld F.FAB_ROUTE_SWITCH_TURN.TURN ≤ (at_ 2).turnNo ∧
      ((at_ 2).setFld F.FAB_ROUTE_SWITCH_TURN.TURN 1).turnNo < ((at_ 2).setFld F.FAB_ROUTE_SWITCH_TURN.TURN 1).fld F.FAB_ROUTE_SWITCH_TURN.TURN ∧
      ((one (at_ 1)).awake ∧ (at_ 1).fld F.FAB_ROUTE_STATUS.OTHER_STATE = 1 ∧ (at_ 1).mapOk m = true ∧
        (at_ 1).mapOk (MapImage.ofBytes (mapBytes.take 79)) = false) ∧
      ((one (at_ 4)).awake ∧ (at_ 4).fld F.TURN_STATUS.STATE = 0) := by
  decide +kernel

theorem witness_PacketsRouteAndNotices :
    let p : TxPacket := { pkt := { dest := 7, src := 3, tc := 3, epoch := 1 }, own := false }
    let bank : MapBank := { epoch := 1, sets := [(1, 2 ^ 111)], entries := [(7, 2 ^ 31 + 1)] }
    let d : Device := { linkIn 5 with rt := { bank0 := bank, wait := [p] } }
    let own : TxPacket := { pkt := { dest := 7, src := held.node, tc := 3 }, heldUntil := some 100 }
    let h : Device := { linkIn 6 with rt := { bank0 := bank, wait := [own] } }
    let o : OutMsg := { msgId := 1, eng := 0, ctx := 0, node := 7, cls := 3, hdr := { op := 1 } }
    let n : Device := { held with slu.msgs := [o] }
    ((one d).awake ∧ ((d.at_ 0).countWaits 3).nextPacket 3 = some p ∧ p.pkt.src ≠ d.node ∧
        ((d.at_ 0).countWaits 3).routeOf p.pkt.dest p.pkt.tc p.pkt.epoch = .link 111) ∧
      ((one h).awake ∧ (h.at_ 100).movable own = false ∧ h.rt.wait = [own] ∧ own.heldUntil = some 100 ∧ 100 ≤ max h.now 100 ∧ own.pkt.src = h.node) ∧
      ((held.at_ 0).countWaits 3).nextPacket 3 = none ∧
      ((one n).awake ∧ n.outMsg 1 = some o ∧ o.node = 7 ∧ 0 = o.attempt % 16 ∧ o.stale = false ∧
        ({ n with slu.msgs := [{ o with stale := true }] } : Device).outMsg 1 = some { o with stale := true }) := by
  decide

theorem witness_HeadgateAndWeirs :
    let on := held.setFld F.HG_CTRL.ENABLE 1
    let tel := (held.setFld F.WEIR_TEL_CTRL.ENABLE 1).setFld F.WEIR_TEL_LINKS1.WEIRS 1
    let bad : Device := { held with staged := [(regKey .WEIR_CLASS_CFG 6, 0)] }
    (one held).takes 0 ∧ held.on F.HG_CTRL.ENABLE = false ∧ on.on F.HG_CTRL.ENABLE = true ∧
      lowest (weirFaults (Device.applySnap true held.staged held)) = none ∧
      (lowest (weirFaults (Device.applySnap true bad.staged bad))).isSome = true ∧
      ((one held).awake ∧ held.snapWeir = none ∧ held.on F.WEIR_TEL_CTRL.ENABLE = false) ∧
      ((one tel).awake ∧ tel.on F.WEIR_TEL_CTRL.ENABLE = true ∧ tel.telSources = [127] ∧
        tel.fld F.WEIR_TEL_PRODUCED.PRODUCED - tel.fld F.WEIR_TEL_CONSUMED.CONSUMED < 2 ^ tel.fld F.WEIR_TEL_CTRL.LOG2_SIZE) := by
  decide

theorem witness_PacketsAreReceived :
    let q : Packet := { dest := held.node, src := 3, tc := 4, kind := 1, payload := List.replicate 32 0, plen := 32, total := 32, op := { op := 1 } }
    let full : Device := { held with sec.keys := [(0, List.replicate 32 1)] }
    let c : RxCtx := { src := 3, msgId := 0, engine := 3, total := 32, hdr := { op := 1 }, bitmap := 1 }
    let dup : Device := { held with fab.ctxs := [c] }
    (one held).awake ∧ (5 : Nat) ≠ held.node ∧ q.dest = held.node ∧ malformed { q with rsvd := true } = true ∧
      (malformed { q with enc := true, tc := 3 } = false ∧ held.hasKey 0 = false) ∧ full.hasKey 0 = true ∧
      (malformed q = false ∧ q.enc = false ∧ answerPacket q = false ∧ dup.rxCtx 3 0 = some c ∧ c.bitmap.testBit 0 = true ∧ q.total = c.total) ∧
      (malformed { q with op := { op := 6 }, payload := [], plen := 0, total := 0 } = false ∧
        answerPacket { q with op := { op := 6 }, payload := [], plen := 0, total := 0 } = true) := by
  decide

/-! ### Host ports and NVMe -/

theorem witness_HolderAndLease :
    let lapsed := held.setFld F.HQ_CONTROL.LAPSED 1
    let leased := held.setFld F.HQ_CONTROL.LEASE_MS 1
    ((one {}).awake ∧ ({} : Device).barClosed = false ∧ ({} : Device).holder = none) ∧
      ((one lapsed).awake ∧ lapsed.holder ≠ some 1 ∧ lapsed.on F.HQ_CONTROL.LAPSED = true) ∧
      ((one held).awake ∧ held.holder = some 0 ∧ held.on F.HQ_CONTROL.LAPSED = false ∧ held.holder ≠ some 1) ∧
      ((one leased).awake ∧ leased.holder.isSome = true ∧ leased.fld F.HQ_CONTROL.LEASE_MS ≠ 0 ∧ leased.on F.HQ_CONTROL.LAPSED = false ∧
        leased.host.leaseFrom + leased.fld F.HQ_CONTROL.LEASE_MS * 1000000 ≤ max leased.now 1000000) := by
  decide

theorem witness_PortsAndQueues :
    let on := (held.setFld F.HQ_Q_CTRL.ENABLE 1 255).setFld F.HQ_Q_CTRL.KIND 2 255
    ((one held).awake ∧ held.pwr.perst1 = false) ∧ ((one held).takesOpen 0 ∧ held.on F.HQ_Q_CTRL.ENABLE 255 = false) ∧
      ((one on).takesOpen 0 ∧ on.on F.HQ_Q_CTRL.ENABLE 255 = true ∧ on.fld F.HQ_Q_CTRL.KIND 255 = 2) := by
  decide

theorem witness_HostErrorsEndWhatTheyServed : (one held).awake := by decide

/-- A device whose root port 7 is in a state. -/
def rootIn (n : Nat) : Device := held.setFld F.NVM_PORT_STATUS.STATE n 7

theorem witness_RootPortsMoveThroughTheirStates :
    (one (rootIn 0)).takes 0 ∧ (one (rootIn 0)).awake ∧ (rootIn 0).part.root 7 = true ∧ (rootIn 0).rootState 7 = 0 ∧ (rootIn 1).rootState 7 = 1 ∧
      (rootIn 2).rootState 7 = 2 ∧ (rootIn 3).rootState 7 = 3 ∧ (rootIn 4).rootState 7 = 4 ∧ (rootIn 5).rootState 7 = 5 := by
  decide

theorem witness_NvmeCommandsComplete :
    let c : NvmeCmd := { port := 7, id := 3, kind := .admin, queue := 0, windows := [(0x10000, 4096)] }
    let w : NvmeCmd := { port := 7, id := 4, kind := .write }
    let d : Device := { rootIn 3 with host.nvme := [c, w] }
    (one d).awake ∧ (d.at_ 5).nvmeBy 7 3 = some c ∧ c.kind = .admin ∧ (d.at_ 5).nvmeBy 7 4 = some w ∧ w.kind = .write ∧
      (d.nvmeOf 7).find? (fun c => c.queue == 0) = some c ∧ d.dmaOpen 7 0x10FFF 1 = true ∧ d.dmaOpen 7 0x11000 1 = false ∧
      ((one d).takes 0 ∧ d.on F.NVM_ADMIN_STATUS.ACTIVE = false ∧ adminAllowed 0 0 = 0 ∧ adminAllowed 2 0 = 1 ∧ d.rootState 7 = 3) := by
  decide

/-! ### The sluice -/

/-- A descriptor's context on engine 31, of a PF's queue. -/
def ctxOf (desc : Desc) : SluCtx := { eng := 31, id := 0, desc := desc, fn := ⟨0, 0⟩, iss := .hostQ 0 0 0 0 }
/-- A device whose engine 31 holds a descriptor. -/
def slu (desc : Desc) : Device := { live with slu.ctxs := [ctxOf desc] }

theorem witness_SluiceDescriptorFetched :
    let d : Device := (((held.setFld F.HQ_Q_CTRL.ENABLE 1 255).setFld F.HQ_Q_CTRL.KIND 2 255).setFld F.HQ_Q_CTRL.LOG2_SIZE 6 255).setHq 255 { tail := 1 }
    (one d).awake ∧ d.mayFetch 255 = true ∧ d.descInvalid (Desc.ofBytes (pack [(2, 0x0F), (2, 5), (60, 0)])) = false ∧ sget 0 d.slu.progLen 255 < 64 ∧
      d.descInvalid (Desc.ofBytes (pack [(2, 0x10), (2, 5), (60, 0)])) = true := by
  decide +kernel

theorem witness_SluiceLocalOperations :
    let copy : Desc := { opcode := 1, loc := 0xBEF00, remote := 0, length := 256 }
    let coded : Desc := { copy with coding := 2 }
    let wait : Desc := { opcode := 9, loc := 8 }
    ((one (slu copy)).begins 31 0 1 (ctxOf copy) ∧ ((slu copy).ctxBegun 31 0).localFault (ctxOf copy) false 0 256 false = none ∧
      ((slu copy).ctxBegun 31 0).localFault (ctxOf copy) false 0xBEF00 256 true = none ∧ copy.coding ≠ 2) ∧
    ((one (slu coded)).begins 31 0 1 (ctxOf coded) ∧ coded.coding = 2 ∧ coded.locHost = false) ∧
    ((one (slu wait)).begins 31 0 9 (ctxOf wait) ∧ ((slu wait).ctxBegun 31 0).localFault (ctxOf wait) false 8 8 false = none) ∧
    (one (slu { opcode := 0x0F })).begins 31 0 0x0F (ctxOf { opcode := 0x0F }) := by
  decide

theorem witness_free :
    let free : Desc := { opcode := 0x0B, loc := 0x10000 }
    let res : Desc := { opcode := 0x0B, loc := resvBase, owner := 5 }
    let owned : Device := { slu res with mem5.owners := [(0, mkOwner 5 false)] }
    ((one (slu free)).begins 31 0 0x0B (ctxOf free) ∧ inHeadwater 0x10000 1 = true) ∧
    ((one owned).begins 31 0 0x0B (ctxOf res) ∧ resvBase ≤ res.loc ∧ (owned.ctxBegun 31 0).place res.loc ≠ .reserved ∧
      entryValid ((owned.ctxBegun 31 0).ownerEntry (frameOf res.loc)) = true ∧ entrySlot ((owned.ctxBegun 31 0).ownerEntry (frameOf res.loc)) = 5 ∧
      entryValid (((slu res).ctxBegun 31 0).ownerEntry (frameOf res.loc)) = false) := by
  decide

theorem witness_alloc :
    let d := slu { opcode := 0x0A }
    let e : Device := { d with cfg.image := some { hwFrames := [(0x10000, 4)] } }
    (one d).begins 31 0 0x0A (ctxOf { opcode := 0x0A }) ∧ ((d.ctxBegun 31 0).allocFrame 0 32 0 false).isNone = true ∧
      (one e).begins 31 0 0x0A (ctxOf { opcode := 0x0A }) ∧ ((e.ctxBegun 31 0).allocFrame 0 32 0 false).isSome = true := by
  decide

theorem witness_sluice_waits_and_stops :
    let x : SluCtx := { ctxOf { opcode := 9 } with started := true }
    let d : Device := { live with slu.ctxs := [x] }
    let y : SluCtx := { ctxOf { opcode := 0x0F, stopOnError := true } with iss := .hostQ 0 0 0 1 }
    let e : Device := { live with slu := { ctxs := [y], progErr := [(progKey 0 0, 1)] } }
    ((one d).awake ∧ d.ctx 31 0 = some x ∧ x.done = false ∧ x.started = true ∧ x.desc.opcode = 9) ∧
      ((one e).awake ∧ e.ctx 31 0 = some y ∧ y.started = false ∧ e.mayStart y = true ∧ e.stoppedBy y = true) := by
  decide

theorem witness_SignalWritesItsWord :
    let desc : Desc := { opcode := 8, loc := 0xBEFF8, operand := 2 ^ 64 - 1 }
    (one (slu desc)).begins 31 0 8 (ctxOf desc) ∧ desc.locHost = false ∧ desc.loc + 8 ≤ resvBase ∧ (ctxOf desc).iss = .hostQ 0 0 0 0 ∧
      ((slu desc).ctxBegun 31 0).localFault (ctxOf desc) false desc.loc 8 true = none := by
  decide

theorem witness_RegionsRegisterAndRevoke :
    let reg : Desc := { opcode := 0x0C, loc := 0x1000, region := 7 }
    let image := leBytes 32 (65536 * 2 ^ 160 + 2 ^ 40)
    let d : Device := { (slu reg).writeMem 0x1000 image with sec.keys := [(0, List.replicate 32 1)] }
    let d : Device := { d with mem := Memory.land d.mem d.wr, wr := [] }
    let r := (d.ctxBegun 31 0).takeSource (ctxOf reg) false 0x1000 32 []
    let rev : Desc := { opcode := 0x0D, region := 7 }
    let e : Device := { slu rev with slu.regions := [(7, { state := 1 })] }
    let f : Device := { held with slu.regions := [(7, { state := 2, gen := 65535 })] }
    ((one d).begins 31 0 0x0C (ctxOf reg) ∧ (d.ctxBegun 31 0).localFault (ctxOf reg) false 0x1000 32 false = none ∧ reg.region ≠ 0xFFFF ∧
      (d.region 7).state = 0 ∧ r.1.regionInvalid (Region.ofImage r.2 0) = false ∧ r.1.regionInvalid {} = true) ∧
      ((one e).begins 31 0 0x0D (ctxOf rev) ∧ (e.region 7).state = 1) ∧
      ((one f).awake ∧ (f.region 7).state = 2 ∧ (f.region 7).inFlight = 0) := by
  decide

theorem witness_SluiceMessagesGoOut :
    let write : Desc := { opcode := 2, node := 9, region := 0xFFFE, length := 256 }
    let read : Desc := { opcode := 3, node := 9, region := 0xFFFE, length := 256 }
    let dead : Device := { slu read with rt.dead := [9] }
    (one (slu write)).begins 31 0 2 (ctxOf write) ∧ ((slu write).ctxBegun 31 0).localFault (ctxOf write) false 0 256 false = none ∧
      (slu write).rt.dead.contains 9 = false ∧ write.region ≠ 0xFFFF ∧ write.compare = 0 ∧ write.node ≠ (slu write).node ∧ 256 ≤ (slu write).msgBytes ∧
      ((one (slu read)).begins 31 0 3 (ctxOf read) ∧ ((slu read).ctxBegun 31 0).localFault (ctxOf read) false 0 256 true = none) ∧
      ((one dead).begins 31 0 3 (ctxOf read) ∧ dead.rt.dead.contains 9 = true) ∧
      (one (slu { opcode := 4, node := 9, length := 8 })).begins 31 0 4 (ctxOf { opcode := 4, node := 9, length := 8 }) ∧
      ((one held).takes 0 ∧ held.on F.SLU_FLUSH_STATUS.ACTIVE = false ∧ held.unanswered 9 = []) := by
  decide

theorem witness_other_messages :
    (one (slu { opcode := 5, node := 9 })).begins 31 0 5 (ctxOf { opcode := 5, node := 9 }) ∧
      (one (slu { opcode := 0x0E, node := 9 })).begins 31 0 0x0E (ctxOf { opcode := 0x0E, node := 9 }) := by
  decide

theorem witness_flash :
    let read : Desc := { opcode := 6, loc := 0, length := 4096, remote := 0, owner := 5 }
    let port := ((((slu read).setFld F.NVM_PORT_STATUS.STATE 3 0).setFld F.NVM_EXT_CFG.ENABLE 1 0).setFld F.NVM_EXT_CFG.KIND 1 0).setFld F.NVM_EXT_FRAMES.FRAMES 16 0
    let d : Device := { port with mem5.flashOwners := [(0, mkOwner 5 false)], host.spaces := [(0, [{ nsid := 0, lbas := 256, ok := true }])] }
    (one d).begins 31 0 6 (ctxOf read) ∧ ((d.at_ 5).ctxBegun 31 0).localFault (ctxOf read) false 0 4096 true = none ∧
      ((d.at_ 5).ctxBegun 31 0).flashFault (ctxOf read) false = none := by
  decide

theorem witness_SluiceAnswersAreTaken :
    let o : OutMsg := { msgId := 77, eng := 31, ctx := 0, node := 9, cls := 5, hdr := { op := 1 } }
    let m : Msg := { src := 9, msgId := 1, hdr := { op := 7, reqId := 77, subop := 1 } }
    let d : Device := { slu { opcode := 2 } with slu.msgs := [o] }
    let full : OutMsg := { o with faults := d.fld F.SLU_ODP.FAULT_LIMIT, retries := d.fld F.SLU_RETRY.LIMIT }
    let e : Device := { slu { opcode := 3 } with slu.msgs := [{ o with hdr := { op := 2 }, faultWait := true }] }
    ((one d).awake ∧ d.outMsg m.hdr.reqId = some o ∧ o.node = m.src ∧ o.hdr.op = 1 ∧ 1 ≤ m.hdr.subop ∧
      o.faults + 1 < d.fld F.SLU_ODP.FAULT_LIMIT ∧ o.faultWait = false ∧ o.retries < d.fld F.SLU_RETRY.LIMIT ∧
      d.fld F.SLU_ODP.FAULT_LIMIT ≤ full.faults + 1 ∧ d.fld F.SLU_RETRY.LIMIT ≤ full.retries) ∧
    ((one e).awake ∧ e.outMsg 77 = some { o with hdr := { op := 2 }, faultWait := true } ∧ e.ctx 31 0 = some (ctxOf { opcode := 3 }) ∧
      (ctxOf { opcode := 3 }).abandoned = false) := by
  decide

theorem witness_TargetsAdmitRejectAndRemember :
    let g : Region := { state := 1, length := 65536, perm := 7, secret := 3 }
    let d : Device := { live with slu.regions := [(7, g)], sec.keys := [(0, List.replicate 32 1)] }
    let m : Msg := { src := 9, msgId := 4, hdr := { op := 1, region := 7, key := 3, offset := 65536 - 8 }, data := List.replicate 8 1 }
    let r : Msg := { m with hdr := { m.hdr with op := 2, operand := 8 }, data := [] }
    let x : Finished := { src := 9, msgId := 4, status := 0 }
    let f : Device := { d with slu.finished := [x] }
    (one d).awake ∧ ((d.take m).slu.held.any fun x => x.src == m.src && x.msgId == m.msgId) = false ∧ d.remembered 9 4 = none ∧
      (d.take m).violation m 8 = 0 ∧ ((d.admitted m).odpNeed { m with checked := true } 8 g (msgRanges { m with checked := true } 8)).2 = false ∧
      ((msgRanges { m with checked := true } 8).all fun r => (d.admitted m).regionReady g r.1 r.2) = true ∧
      (d.take m).violation { m with hdr := { m.hdr with offset := 65536 - 7 } } 8 ≠ 0 ∧ (d.take r).violation r 0 = 0 ∧
      ((one f).awake ∧ f.remembered 9 4 = some x) := by
  decide

/-- A state that waits for a page of an ODP region, and one whose region lies in the reservoir under a window. -/
theorem witness_targets_wait :
    let m : Msg := { src := 9, msgId := 4, hdr := { op := 1, region := 7, key := 3 }, data := List.replicate 8 1, checked := true }
    let g : Region := { state := 1, length := 65536, perm := 7, secret := 3, odp := true, odpTable := 0x1000 }
    let d : Device := { live with slu.regions := [(7, g)] }
    let res : Region := { state := 1, base := resvBase, length := 65536, perm := 7, secret := 3 }
    let w : Device := ({ live with slu.regions := [(7, res)] } : Device).setMode ((resvBase - resvBase) / 0x200000000) 2
    (d.odpNeed m 8 g (msgRanges m 8)).2 = true ∧
      ((msgRanges m 8).all fun r => (w.odpNeed m 8 res (msgRanges m 8)).1.regionReady res r.1 r.2) = false := by
  decide

theorem witness_targets_serve :
    let serve : Device := { live with fur.desc := [(0, { id := 1, state := 1, home := live.node })], fur.pte := [(0, { tier := 1 })],
                                      ho.entries := [(0, { owner := 9, gen := 1 })] }
    let c : RxCtx := { src := 9, msgId := 4, engine := 13, total := 8192, hdr := { op := 1, region := 7 }, admitted := true }
    let x : OdpFetch := { entryAddr := 0x1000, flash := 0, frame := 0x20000, ended := some 0, data := List.replicate 65536 7 }
    (live.furrowServes 9 (2 ^ 32) 0 = none ∧ serve.furrowServes 9 (2 ^ 32) 0 = some 0 ∧ (serve.pte 0).tier ≠ 2) ∧
      (({ live with fab.ctxs := [c] } : Device).rxCtx 9 4 = some c ∧ c.admitted = true ∧ c.hdr.op = 1) ∧
      x.ended = some 0 ∧ (live.extentOf x.flash).isNone = true ∧ live.waits x.frame frameBytes = false := by
  decide

/-! ### The reservoir -/

theorem witness_ReservoirAccessesAndRefresh :
    let d : Device := { held with mem5.owners := [(32768 * 319, mkOwner 5 false)] }
    let a := resvBase + 319 * channelBytes
    (one d).awake ∧ resvBase ≤ a ∧ d.check a 64 5 true false = .ok ∧ d.check a 64 6 false false = .owner (mkOwner 5 false) ∧
      d.check (resvBase + 320 * channelBytes) 64 5 false false = .reserved ∧ d.chWaits 319 = false ∧
      (d.setFld F.PIM_CH_STATUS.MODE 3 319).chWaits 319 = true ∧ d.part.channel 319 = true ∧ d.chMode 319 ≠ 2 ∧ (d.chan 319).debt 15 < 4 ∧
      d.mem5.selfRefresh.contains 7 = false ∧ ({ d with mem5.selfRefresh := [7] } : Device).chWaits 319 = true := by
  decide

/-- A window of entry 0. -/
def window : PimWin := { entry := 0, opened := 0, limit := 40000 }
/-- A device whose channel 319, in a mode, has the window open and a command of its maintenance queue next. -/
def chanIn (mode : Nat) (x : PimCmd) : Device :=
  (({ live with pim.chans := [(319, { win := some window, maintQ := [x] })], mem5.owners := [(32768 * 319 + 32767, mkOwner 0 false)] } : Device).setFld
    F.PIM_CH_STATUS.MODE mode 319).setFld F.PIM_CH_STATUS.SCORE_SIZE 1 319

theorem witness_ChannelModes :
    let bids : Device := { live with turn.admitted := [{ entry0 with e := { plotMask := 1, kind := 1, pim := 1 } }],
                                     pim.chans := [(319, { entryQ := [{ opcode := 3, channel := 319, entry := 0, seq := 4 }] })] }
    let d := (bids.setFld F.PIM_CTRL.WINDOW_LIMIT 2000).setFld F.ROTA_LIMITS.PIM_ALLOT 1
    let hot := ((chanIn 2 { opcode := 4, channel := 319 }).setFld F.PIM_CH_STATUS.MODE 4 319)
    ((one d).awake ∧ d.part.isL = false ∧ d.running = true ∧ d.turn.unexamined = [] ∧
      500 < min ((d.at_ 0).fld F.PIM_CTRL.WINDOW_LIMIT) ((d.at_ 0).deadlineAt - 2000 - (d.at_ 0).now) ∧ (d.at_ 0).tracks < 1 ∧
      (d.at_ 0).bestBid = some (4, 0, 319, false)) ∧
    ((one (chanIn 1 { opcode := 4, channel := 319 })).awake ∧ (chanIn 1 { opcode := 4, channel := 319 }).chMode 319 = 1 ∧
      ((chanIn 1 { opcode := 4, channel := 319 }).chan 319).win = some window) ∧
    (let e := chanIn 3 { opcode := 4, channel := 319 }
     e.chMode 319 = 3 ∧ (e.chan 319).win = some window ∧ e.mem5.leaving = [] ∧ e.slu.held = [] ∧ e.fab.ctxs = [] ∧ (e.chan 319).waiting = [] ∧
       (e.chan 319).hold0 = [] ∧ (e.chan 319).hold1 = []) ∧ (chanIn 6 { opcode := 4, channel := 319 }).chMode 319 = 6 ∧ hot.chMode 319 = 4 ∧
      hot.part.channel 319 = true ∧
      (let e : Device := { live with pim.chans := [(319, { win := some window })] }
       (e.setFld F.PIM_CH_STATUS.MODE 2 319).nextPim 319 = none) := by
  decide +kernel

theorem witness_ReservoirCommandsRun :
    let sread : PimCmd := { opcode := 3, channel := 319, frame := 32767 }
    let swrite : PimCmd := { opcode := 2, channel := 319, frame := 32767, slot := 3 }
    let sclear : PimCmd := { opcode := 4, channel := 319, frame := 32767, count := 1 }
    let fence : PimCmd := { opcode := 15, channel := 319 }
    ((one (chanIn 2 sread)).inWindow 319 1 3 window sread [] ∧ window.t + swTime sread.dsz ≤ window.limit) ∧
      (one (chanIn 2 swrite)).inWindow 319 1 2 window swrite [] ∧ (one (chanIn 2 sclear)).inWindow 319 1 4 window sclear [] ∧
      (one (chanIn 2 fence)).inWindow 319 1 15 window fence [] := by
  decide

theorem witness_rank :
    let x : PimCmd := { opcode := 1, channel := 319, count := 1, topn := 1, qn := 1, b := 0x1000, c := 0x2000 }
    let d0 := chanIn 2 x
    let d : Device := { d0 with mem := [(0x1000, 0xFF), (0x1001, 0x7F)] }
    let b := d.pimBegun x
    let data := b.queryOf x [] ++ b.listOf x []
    let qb := data.take (64 + x.qn * x.dim)
    let list := data.drop (64 + x.qn * x.dim)
    let r := fun (parity scans : Nat) => b.rankRun 319 x qb list (badPage parity 0) window scans
    (one d).inWindow 319 1 1 window x (b.listOf x []) ∧
      ((r 0 8).failed = none ∧ x.count ≤ (r 0 8).scored) ∧
      ((r 0 0).failed = none ∧ (r 0 0).scored < x.count ∧ (r 0 0).full = false) ∧
      ((r 4 8).failed.isSome = true ∧ (r 5 8).failed.isSome = true) := by
  decide +kernel

theorem witness_driver_ring :
    let d := ((held.setFld F.PIM_DQ_CTRL.ENABLE 1).setFld F.PIM_DQ_TAIL.TAIL 1)
    (one d).takes 0 ∧ d.part.isL = false ∧ d.on F.PIM_DQ_CTRL.ENABLE = true ∧ d.on F.PIM_DQ_HEAD.STOPPED = false ∧
      d.fld F.PIM_DQ_HEAD.HEAD ≠ d.fld F.PIM_DQ_TAIL.TAIL ∧ (PimDesc.ofBytes (pack [(2, 319), (30, 0)])).channel = 319 ∧
      (d.chan 319).isFull 1 = false ∧
      ((d.setChan 319 { maintQ := List.replicate 64 { opcode := 3, channel := 319 } }).chan 319).isFull 1 = true := by
  decide

/-! ### Furrows -/

/-- A running entry that attends furrow 0 in a mode of choosing, whose selection is open. -/
def attends (mode : Nat) : Attend := { slot := 0, draft := false, entry := 0, desc := 0, a := 0, mode := mode, listAddr := 0x8000 }
/-- A device with that entry, that has posted. -/
def attending (mode post : Nat) : Device :=
  { live with turn.admitted := [entry0], fur.attend := [attends mode], fur.desc := [(0, { id := 1, state := 1, home := 9 })],
              mem := (if post = 0 then [] else [(1, BitVec.ofNat 8 post)]) }

theorem witness_RankingsAndCutoffs :
    ((one (attending 2 1)).awake ∧ (attending 2 1).attendOf 0 false = some (attends 2) ∧ (attends 2).final = false ∧ (attends 2).heldOut = false ∧
      (attending 2 1).attendRuns (attends 2) = true ∧ (attends 2).queried = false ∧
      (attending 2 1).load ((attending 2 1).selArea 0 false + 1) 1 = 1) ∧
    ((one (attending 3 1)).awake ∧ (attending 3 1).attendRuns (attends 3) = true) ∧
    ((one (attending 1 2)).awake ∧ (attending 1 2).attendRuns (attends 1) = true ∧
      (attending 1 2).load ((attending 1 2).selArea 0 false + 1) 1 = 2) ∧
    (let r : Ranking := { id := 4, turn := 5, desc := 0, top := 1 }
     ({ live with fur.rankings := [r] } : Device).fur.rankings.find? (fun r => r.id == 4 && r.waiting == []) = some r) ∧
    ((live.at_ 900000).running = true ∧ live.turn.started = true ∧ live.turn.start + 1000 * live.fld F.FUR_TIMING.RANK_CUT ≤ max live.now 900000 ∧
      live.turn.start + 1000 * live.fld F.FUR_TIMING.FETCH_CUT ≤ max live.now 1000000 ∧ (attending 2 0).absentPages (attends 2) = []) := by
  decide

theorem witness_rank_messages :
    let m := fun (turn ty outcome : Nat) => ({ src := 9, msgId := 4, hdr := { op := 9 }, tc := 2, data := pack [(8, turn), (4, 1), (2, 3), (1, ty), (1, outcome)] } : Msg)
    let at_ := fun (m : Msg) (o n : Nat) => leValue ((m.data.drop o).take n)
    let d : Device := { attending 3 0 with fur.attend := [{ attends 3 with queried := true }] }
    at_ (m 5 0x21 0) 14 1 = 0x21 ∧ at_ (m 5 0x21 0) 0 8 = live.turnNo ∧ at_ (m 4 0x21 0) 0 8 ≠ live.turnNo ∧ live.fur.desc = [] ∧
      (at_ (m 5 0x22 1) 14 1 = 0x22 ∧ at_ (m 5 0x22 1) 0 8 = d.turnNo ∧ at_ (m 5 0x22 1) 15 1 ≤ 1 ∧
        d.fur.attend.find? (fun x => x.mode == 3 && x.queried && (d.furrow x.desc).id == at_ (m 5 0x22 1) 8 4) =
          some { attends 3 with queried := true } ∧ (d.took (m 5 0x22 1)).attendRuns { attends 3 with queried := true } = true) := by
  decide

theorem witness_PagesCodedFetchedAndMoved :
    let c : Coding := { page := 0, desc := 0 }
    let x : Fetch := { page := 0, desc := 0, addr := 0x10000 }
    let y : Fetch := { x with ended := some 0 }
    let m : Move := { page := 0, tier := 2 }
    let d : Device :=
      { live with fur := { desc := [(0, { id := 1, state := 1 })], pte := [(0, { tier := 2 })], coding := [c], fetches := [x], moves := [m] },
                              cfg.image := some { resFrames := [(resvBase, 4)] }, mem5.owners := [(0, mkOwner 0 false)] }
    let own := fun (x : PageLoad) => ({ d with fur := { d.fur with fetches := [], loads := [x] } } : Device)
    let l : PageLoad := { id := 3, page := 0, desc := 0, tier := 2, frame := 0, span := 64, data := [1] }
    let far := { l with tier := 4, ended := some 2 }
    (one d).awake ∧ (d.pte 0).moving = false ∧ d.readable 2 0 (rawBytes (d.furrow 0)) = true ∧ d.furrowBarred (d.furrow 0) 0 false = none ∧
      (d.setFld F.PIM_CH_STATUS.MODE 1 0).readable 2 0 (rawBytes (d.furrow 0)) = false ∧
      ((own l).fur.fetches.find? (fun f => f.page == 0 && f.ctx.isNone && (f.src != 0 || f.ended.isSome)) = none ∧
        (own l).fur.loads.find? (fun x => x.page == 0) = some l ∧ (own far).fur.loads.find? (fun x => x.page == 0) = some far ∧
        (own { l with frame := 9 }).furrowBarred ((own { l with frame := 9 }).furrow 0) 9 false ≠ none) ∧
      { y with src := resvBase, ctx := none } ∈
        ({ d with fur.fetches := [{ y with src := resvBase }] } : Device).fur.fetches ∧
      (d.allocFrame poolRes ((d.pte 0).frame / 32768 / 160) (d.furrow c.desc).owner).isSome = true ∧ d.fur.coding.find? (fun x => x.page == 0 && x.ready.isNone) = some c ∧ (d.pte 0).tier = 2 ∧
      d.fur.fetches.find? (fun f => f.page == 0) = some x ∧ x.ctx = none ∧ x.ended = none ∧ y.ended = some 0 ∧
      (d.fur.evicting.contains 1 = false ∧ d.fld F.FUR_POOL_CFG.LOW 1 ≤ d.fld F.FUR_POOL_STATUS.FREE 1) ∧
      (let e := ((d.setFld F.FUR_POOL_CFG.LOW 1 1).setFld F.FUR_POOL_CFG.HIGH 2 1)
       e.fld F.FUR_POOL_STATUS.FREE 1 < e.fld F.FUR_POOL_CFG.LOW 1 ∧
         e.fld F.FUR_POOL_STATUS.FREE 1 + e.leaving 1 < e.fld F.FUR_POOL_CFG.HIGH 1) ∧
      (d.fur.moves.find? (fun m => m.page == 0 && !m.done) = some m ∧ m.ctx = none ∧ m.ended = none) := by
  decide

/-- A furrow image that R162 accepts. -/
def furImage : Furrow := { id := 7, state := 1, recent := 1 }

theorem witness_FurrowRingCommands :
    let d := (held.setFld F.FUR_CQ_CTRL.ENABLE 1).setFld F.FUR_CQ_TAIL.TAIL 1
    let cmd := fun (op : Nat) => (furrowBytes furImage).take 56 ++ pack [(8, op)]
    let e : Device := { d with fur.desc := [(0, furImage)] }
    let g : Device := { held with fur := { desc := [(0, { furImage with state := 3 })], destroying := some 0 } }
    (furOpcode (cmd 1) = 1 ∧ furIndex (cmd 2) = 0 ∧ furOpcode (cmd 5) = 5 ∧ Furrow.ofBytes (cmd 1) = furImage) ∧
    ((one d).awake ∧ d.furReady = true ∧ d.boundary.furInvalid { furImage with recent := 0 } = true ∧ d.boundary.furInvalid furImage = false ∧
      d.boundary.furById furImage.id = none ∧ firstFrom (fun k => (d.boundary.furrow k).state == 0) 0 262144 = some 0 ∧
      d.boundary.freeRun (granules furImage) = some 0 ∧ (d.boundary.furrow 262143).state = 0) ∧
    ((one e).awake ∧ e.furReady = true ∧ (e.boundary.furById furImage.id).isSome = true ∧ (e.boundary.furrow 0).state ≠ 0 ∧
      e.boundary.slotNames (e.boundary.furrow 0).id = false) ∧
    ((one g).awake ∧ g.fur.destroying = some 0 ∧ g.atBoundary = true ∧ g.furrowQuiet 0 = true ∧ (g.hoLoc 0).rx = none) ∧ (one held).takes 0 := by
  decide

/-! ### Handoff -/

/-- Furrow 1 as descriptor 0, with its home and state. -/
def furAt (home state : Nat) : Furrow := { furImage with id := 1, home := home, state := state }
/-- A handoff message about furrow 1 (Table 12.3). -/
def hoMsg (src gen ty owner pending kind reason : Nat) (rest : List Byte) : Msg :=
  { src := src, msgId := 4, tc := 4, hdr := { op := 9 },
    data := pack [(8, gen), (4, 1), (2, 0), (1, ty), (1, 0x10), (2, owner), (2, pending), (1, kind), (1, reason), (10, 0)] ++ rest }
/-- A device in a turn with furrow 1, its handoff entry and what the logic keeps for it. -/
def hand (f : Furrow) (e : HoEntry) (l : HoLocal) : Device :=
  { live with fur.desc := [(0, f)], ho := { entries := [(0, e)], locals := [(0, l)] } }
/-- The same at the furrow's home. -/
def homeOf (f : Furrow) (e : HoEntry) : Device := (hand f e {}).setFld F.FUR_HO_BASE.HOME 1

theorem witness_HomeRecordsFollowTable12_5 :
    let d := homeOf (furAt held.node 2) { homeState := 1, owner := 9, gen := 3 }
    let o := homeOf (furAt held.node 2) { homeState := 2, owner := 9, pending := 8, gen := 3 }
    let due : Device := { o with turn.lastCommit := 5, ho.entries := [(0, { homeState := 2, owner := 9, pending := 8, gen := 3 })] }
    let due := (due.setFld F.TURN_NUMBER.CURRENT 60000)
    let due : Device := { due with turn.lastCommit := 60000 }
    (d.isHome 0 = true ∧ (one d).hears (hoMsg 9 4 0x31 0 8 3 0 []) 0x31 0 ∧ (d.hoEntry 0).homeState = 1 ∧ (hoMsg 9 4 0x31 0 8 3 0 []).num 0 8 = 3 + 1) ∧
      (o.isHome 0 = true ∧ (one o).hears (hoMsg 8 4 0x33 0 8 3 0 []) 0x33 0 ∧ (o.hoEntry 0).homeState = 2) ∧
      ((one o).hears (hoMsg 9 4 0x3C 0 8 3 0 []) 0x3C 0) ∧ ((one d).hears (hoMsg 9 4 0x37 0 0 0 0 []) 0x37 0) ∧
      ((one due).awake ∧ due.furById 1 = some 0 ∧ due.isHome 0 = true ∧ (due.hoEntry 0).homeState = 2 ∧ due.turn.lastCommit = due.turnNo ∧
        due.running = true ∧ (due.hoEntry 0).since + due.fld F.FUR_HO_TIMING.TIMEOUT_TURNS ≤ due.turnNo) := by
  decide

theorem witness_HandoffPartiesAct :
    let hello := fun v => ({ src := 9, msgId := 4, hdr := { op := 9 }, data := pack [(14, 0), (1, 0x30), (1, v)] } : Msg)
    let d := hand (furAt 7 2) {} {}
    let offer := hoMsg 9 4 0x31 0 held.node 3 0 (List.replicate 160 0)
    ((hello 0x1F).num 14 1 = 0x30 ∧ (hello 0x1F).num 15 1 / 16 = 1 ∧ (hello 0x20).num 15 1 / 16 ≠ 1) ∧
      ((one d).hears offer 0x31 0 ∧ 192 ≤ offer.data.length ∧ offer.num 18 2 = d.node ∧ (d.hoEntry 0).gen < offer.num 0 8 ∧ (d.furrow 0).state = 2 ∧
        (d.hoEntry 0).localState = 0 ∧ (d.hoLoc 0).rx = none) ∧
      (one d).hears (hoMsg 7 4 0x38 9 0 1 0 []) 0x38 0 := by
  decide +kernel

theorem witness_handoff_transfers :
    let r : HoRx := { gen := 4, src := 9, kind := 3, total := 4096, at_ := 0 }
    let rx := hand (furAt 7 2) {} { rx := some r }
    let done := hand (furAt 7 2) {} { rx := some { r with done := true } }
    let tx := hand (furAt 7 1) {} { tx := some { gen := 4, kind := 3, rcpt := 8, asked := 0 } }
    let part := hoMsg 9 4 0x32 0 0 0 0 (List.replicate 64 0)
    ((one rx).hears part 0x32 0 ∧ (rx.hoLoc 0).rx = some r ∧ (joined 0 (sput [] r.got (part.num 40 8) (part.data.drop 64))).length < min 192 r.total) ∧
      ((one done).hears (hoMsg 7 4 0x34 0 0 0 0 []) 0x34 0 ∧ (done.hoLoc 0).rx = some { r with done := true }) ∧
      ((one tx).hears (hoMsg 7 4 0x35 0 0 0 0 []) 0x35 0 ∧ (tx.hoLoc 0).tx = some { gen := 4, kind := 3, rcpt := 8, asked := 0 } ∧
        (one tx).hears (hoMsg 8 4 0x36 0 0 0 5 []) 0x36 0 ∧ (hoMsg 8 4 0x36 0 0 0 5 []).num 21 1 ≠ 8) := by
  decide

theorem witness_handoff_claims_and_pushes :
    let own := homeOf (furAt held.node 1) { homeState := 1, owner := held.node, gen := 3 }
    let other := homeOf (furAt held.node 2) { homeState := 1, owner := 9, gen := 3 }
    let push := hand (furAt 7 1) { gen := 3 } { push := some { gen := 4, turn := 5, length := 0 } }
    let tx := hand (furAt 7 1) {} { tx := some { gen := 4, kind := 3, rcpt := 8, asked := 0 } }
    let tx := tx.setFld F.TURN_NUMBER.CURRENT 60000
    let rx := hand (furAt 7 2) {} { rx := some { gen := 4, src := 9, kind := 3, at_ := 0 } }
    ((one own).hears (hoMsg 9 3 0x39 0 0 0 0 []) 0x39 0 ∧ own.isHome 0 = true ∧ (own.hoEntry 0).owner = own.node ∧ own.mayOffer 0 = true) ∧
      ((one other).hears (hoMsg 9 3 0x3A 0 0 0 0 []) 0x3A 0 ∧ other.isHome 0 = true ∧ (other.hoEntry 0).owner = 9 ∧ (other.hoLoc 0).rx = none) ∧
      ((one push).hears (hoMsg 7 4 0x3B 0 0 0 0 []) 0x3B 0 ∧ (push.hoLoc 0).push = some { gen := 4, turn := 5, length := 0 } ∧ (push.furrow 0).home = 7) ∧
      ((one tx).awake ∧ tx.furById 1 = some 0 ∧ tx.ho.failed = [] ∧ 0 + tx.fld F.FUR_HO_TIMING.QUERY_TURNS ≤ tx.turnNo) ∧
      ((one rx).awake ∧ rx.furById 1 = some 0 ∧ 0 + 1000 * rx.fld F.SLU_TARGET_CTRL.REASSEMBLY_US ≤ max rx.now 100000000) := by
  decide

/-- A device with an entry in its queue 255 of a kind. -/
def queued (d : Device) (kind : Nat) : Device :=
  (((d.setFld F.HQ_Q_CTRL.ENABLE 1 255).setFld F.HQ_Q_CTRL.KIND kind 255).setFld F.HQ_Q_CTRL.LOG2_SIZE 6 255).setHq 255 { tail := 1 }
/-- A handoff command (Table 12.9) about a furrow. -/
def hoBytesOf (opcode furrow node : Nat) : List Byte := pack [(1, opcode), (3, 0), (4, furrow), (2, node), (54, 0)]
/-- A slot command (Tables 8.5, 8.6) for slot 4095, with a HANDLE and a COUNT. -/
def slotBytes (opcode handle count : Nat) : List Byte := pack [(1, opcode), (1, 0), (2, 4095), (4, handle), (8, 0), (4, count), (44, 0)]

theorem witness_HandoffCommandsComplete :
    let new := queued (homeOf (furAt held.node 2) {}) 3
    let rec_ := queued (homeOf (furAt held.node 1) { homeState := 1, owner := held.node, gen := 1 }) 3
    let away := queued (hand (furAt 7 1) {} {}) 3
    let empty := queued (hand (furAt 7 2) {} {}) 3
    let cmd := fun (op : Nat) => hoBytesOf op 1 8
    ((List.range 9).all fun op => (HandoffCmd.ofBytes (cmd op)).opcode == op) = true ∧
      ((one new).hoFront 255 0 (cmd 1) ∧ (new.hoTake 255).isHome 0 = true ∧ (new.hoEntry 0).homeState = 0 ∧ (new.furrow 0).state = 2) ∧
      ((one rec_).hoFront 255 0 (cmd 2) ∧ (rec_.hoTake 255).isHome 0 = true ∧ (rec_.hoEntry 0).homeState = 1 ∧ (rec_.hoEntry 0).owner = rec_.node) ∧
      ((one away).hoFront 255 0 (cmd 3) ∧ (HandoffCmd.ofBytes (cmd 3)).node ≠ away.node ∧ (HandoffCmd.ofBytes (cmd 3)).node ≠ 0xFFFF ∧
        (away.hoTake 255).isShadow = false ∧ (away.hoTake 255).mayOffer 0 = true ∧ (away.hoTake 255).isHome 0 = false) ∧
      ((rec_.hoTake 255).mayOffer 0 = true ∧ (rec_.hoEntry 0).localState = 0 ∧ (rec_.hoLoc 0).rx = none ∧ (rec_.hoLoc 0).claim = none) ∧
      ((one empty).hoFront 255 0 (cmd 5) ∧ (empty.hoEntry 0).localState = 0 ∧ (empty.hoLoc 0).rx = none ∧ (empty.hoLoc 0).claim = none ∧
        (empty.hoTake 255).isHome 0 = false ∧ (empty.furrow 0).state = 2) := by
  decide

theorem witness_handoff_command_of_no_furrow :
    let empty := queued (hand (furAt 7 2) {} {}) 3
    (one empty).awake ∧ empty.hoSettled ∧ empty.hqFront 255 3 = true ∧ empty.furById (HandoffCmd.ofBytes (hoBytesOf 2 2 8)).furrow = none := by
  decide

/-! ### Slots -/

/-- An image of slot 4095 for furrow 1, in a state. -/
def slotImage (state : Nat) : SlotImg := { state := state, furrow := 1, jst := 11 }
/-- A device with a slot command in queue 255, furrow 1 owned, and slot 4095 in a state. -/
def slotDev (state : Nat) : Device :=
  queued { held with fur.desc := [(0, furAt 7 1)], gen.slots := (if state = 0 then [] else [(4095, { img := slotImage state })]) } 1

theorem witness_SlotCommandsAnswer :
    let z := (slotDev 0).taken 255
    let read := z.emit (.hostRead ⟨0, 0⟩ 0 128)
    let img := SlotImg.ofBytes (imageBytes (slotImage 3))
    let cmd := fun (op : Nat) => SlotCmd.ofBytes (slotBytes op 65535 1)
    ((List.range 10).all fun op => (cmd op).opcode == op && (cmd op).slot == 4095 && (cmd op).handle == 65535 && (cmd op).count == 1) = true ∧
    ((one (slotDev 0)).slotFront 255 ∧ z.slotState 4095 = 0 ∧ 128 ≤ (imageBytes (slotImage 3)).length ∧ read.ownerOfId img.furrow = some 0 ∧
      img.cls ≠ 2 ∧ img.flume = 0xFFFF ∧ img.state = 3 ∧ read.imageInvalid 4095 img 0 true = false ∧
      read.imageInvalid 4095 { img with cls := 3 } 0 true = true ∧ read.ownerOfId 2 = none) ∧
    ((one (slotDev 3)).slotFront 255 ∧ ((slotDev 3).taken 255).slotState 4095 = 3 ∧ ((slotDev 3).taken 255).offering 4095 = false ∧
      ((slotDev 3).taken 255).furById (((slotDev 3).taken 255).slot 4095).img.furrow = some 0 ∧
      (((slotDev 3).taken 255).freeSlot 4095).fur.desc.find? (fun x => x.2.state == 3 && x.2.id == (((slotDev 3).taken 255).slot 4095).img.furrow) = none ∧
      (((slotDev 3).taken 255).emit (.hostRead ⟨0, 0⟩ 0 128)).imageInvalid 4095 img 0 false = false) ∧
    ((one (slotDev 2)).slotFront 255 ∧ ((slotDev 2).taken 255).slotState 4095 = 2 ∧ (((slotDev 2).at_ 9).taken 255).slotState 4095 = 2 ∧
      (((slotDev 3).at_ 9).taken 255).slotState 4095 = 3) ∧ ((slotDev 2).taken 255).turn.admitted = [] ∧
    (((slotDev 2).taken 255).tokBuf 65535).written + 0 ≤ (((slotDev 2).taken 255).tokBuf 65535).cap ∧
    (((slotDev 2).taken 255).tokBuf 65535).cap < (((slotDev 2).taken 255).tokBuf 65535).written + 1 := by
  decide +kernel

theorem witness_CancelDoorbell :
    let d := slotDev 3
    (one d).awake ∧ d.barClosed = false ∧ d.holder = some 0 ∧ (d.slot 4095).img.jst = 11 ∧ d.mayCancel 4095 ⟨0, 0⟩ = true ∧
      (d.slot 4095).img.state ∈ [1, 2, 3] ∧ d.mayCancel 4095 ⟨1, 5⟩ = false ∧ ((slotDev 4).slot 4095).img.state = 4 ∧
      (4 < ((slotDev 5).slot 4095).img.state ∧ ((slotDev 5).slot 4095).alreadyDone = false ∧ (slotDev 5).mayCancel 4095 ⟨0, 0⟩ = true) := by
  decide

/-- A device in whose turn an entry of a kind for slot 0 has posted a request of some lists of one candidate, its verdict given or not. -/
def posting (kind code lists : Nat) (verdict : Bool := false) : Device :=
  { live with turn.admitted := [{ entry0 with e := { plotMask := 1, kind := kind } }], fur.desc := [(0, furAt 7 1)],
              gen.slots := [(0, { img := { slotImage 2 with cls := 1 }, ts := { verdict := verdict },
                                  post := pack [(1, code), (1, 0), (1, lists), (1, 0), (2, 1), (26, 0)] })] }

theorem witness_SamplersServeRequests :
    let st : Staging := { slot := 0, entry := 0, addr := 0x4000, held := false, count := 1 }
    let h := posting 1 3 1 true
    ((one (posting 1 1 1)).awake ∧ ((posting 1 1 1).posted 0 1 [1, 2]).isSome = true ∧ (posting 1 1 1).requestOk 0 = true ∧
      (posting 1 1 1).furById ((posting 1 1 1).slot 0).img.furrow = some 0) ∧
    ((one (posting 1 1 0)).awake ∧ (posting 1 1 0).requestOk 0 = false) ∧
    (((posting 2 1 1).posted 0 1 [1, 2]).isSome = true ∧ ((posting 2 1 1).slot 0).ts.finalChunk = false) ∧
    (((posting 1 1 1).slot 0).draftOver = false ∧ ((posting 1 1 1).slot 0).ts.proposed < 8) ∧
    ((one (posting 5 2 1)).awake ∧ ((posting 5 2 1).posted 0 2 [5]).isSome = true ∧ (posting 5 2 1).requestOk 0 = true) ∧
    ((one h).awake ∧ (h.posted 0 3 [1, 2]).isSome = true ∧ (h.slot 0).ts.verdict = true ∧ (h.slot 0).img.cls = 1 ∧ (h.slot 0).headsDone = false) ∧
    ({ live with gen.staging := [st] } : Device).gen.staging.find? (fun x => x.slot == 0) = some st := by
  decide

theorem witness_ScreenTablesLoadAndRetire :
    let at_ := fun n => held.setFld F.SCR_TABLE.STATE n 1023
    let area := (held.setFld F.SCR_AREA.SIZE_MIB 1).setFld F.SCR_RES_AREA.SIZE_MIB 1
    let l : ScrLoad := { handle := 1023, hw := 0, res := resvBase, bytes := 64, owner := 0, port := 0, addr := 0 }
    let d : Device := { held with scr := { load := some l, fetchEnded := some (1023, 0) } }
    ((one (at_ 0)).takes 0 ∧ (at_ 0).part.isL = false ∧ (at_ 0).on F.SCR_CMD_STATUS.ACTIVE = false ∧ (at_ 0).scrState 1023 = 0 ∧ (at_ 3).scrState 1023 ≠ 0) ∧
      ((one area).takes 0 ∧ (firstFit (area.fld F.SCR_AREA.ADDR * 65536) (area.fld F.SCR_AREA.SIZE_MIB * 0x100000) 4096 1 []).isSome = true ∧
        (firstFit (area.fld F.SCR_RES_AREA.ADDR * 65536) (area.fld F.SCR_RES_AREA.SIZE_MIB * 0x100000) 65536 1 []).isSome = true) ∧
      (2 ≤ (at_ 2).scrState 1023 ∧ (at_ 2).fld F.TURN_STATUS.STATE = 0 ∧ (at_ 2).fld F.SCR_TABLE.USERS 1023 = 0) ∧
      ((at_ 2).scrState 1023 = 2 ∧ ({ at_ 2 with scr.retire := some 1023 } : Device).scr.retire = some 1023 ∧ ((at_ 2).setFld F.SCR_TABLE.USERS 1 1023).fld F.SCR_TABLE.USERS 1023 ≠ 0) ∧
      ((one d).awake ∧ d.scr.load = some l ∧ d.scr.fetchEnded = some (1023, 0) ) ∧
      (let u : Admitted := { entry0 with e := { plotMask := 0, kind := 3, arg := 1023 } }
       let d : Device := ({ at_ 2 with turn.admitted := [u] } : Device).setFld F.SCR_TABLE.PIECES 1 1023
       (one d).awake ∧ d.admittedAt 0 = some u ∧ u.state = .running ∧ d.scrState 1023 = 2 ∧
         d.fld F.SCR_TABLE.DONE 1023 + sget 0 d.scr.pieces 1023 < d.fld F.SCR_TABLE.PIECES 1023) := by
  decide

theorem witness_scrub :
    let d : Device := ((held.setFld F.SCR_SCRUB.INTERVAL 250).setFld F.SCR_TABLE.STATE 3 1023).setFld F.SCR_TABLE.BLOCKS 1 1023
    let d : Device := { d with scr.tables := [(1023, { hw := 0, res := resvBase, bytes := 64 })], mem5.unitKey := [(0, 2)] }
    (one d).awake ∧ d.fld F.SCR_SCRUB.INTERVAL ≠ 0 ∧ d.validTables = [1023] ∧ sget 0 d.scr.scrubAt 1023 = 0 ∧
      d.bytes (d.scrTable 1023).hw 64 = d.readMem (d.scrTable 1023).res 64 := by
  decide +kernel

/-- The image of a screen table of one state and one mask, which allows no token (Table 9.1). -/
def tableImage : List Byte :=
  pack [(4, 0x5A545343), (2, 1), (2, 0), (4, 0), (4, 1), (2, 1), (2, 0), (4, 0), (4, 512), (2, 5), (2, 0), (4, 128), (4, 0), (4, 128),
    (4, 192), (4, 512), (4, 2293944647), (72, 0), (384, 0)]

/-- The CRC-32 of the 384 bytes after the header of `tableImage`, worked out in pieces. -/
theorem table_crc : crc32 (List.replicate 384 0) = 2293944647 := by
  have h1 : (List.replicate 96 (0 : Byte)).foldl crc32Byte 0xFFFFFFFF = 1158388305 := by decide +kernel
  have h2 : (List.replicate 96 (0 : Byte)).foldl crc32Byte 1158388305 = 1946220301 := by decide +kernel
  have h3 : (List.replicate 96 (0 : Byte)).foldl crc32Byte 1946220301 = 336434605 := by decide +kernel
  have h4 : (List.replicate 96 (0 : Byte)).foldl crc32Byte 336434605 = 2001022648 := by decide +kernel
  have h : List.replicate 384 (0 : Byte) =
      List.replicate 96 0 ++ (List.replicate 96 0 ++ (List.replicate 96 0 ++ List.replicate 96 0)) := by decide +kernel
  rw [crc32, h]
  simp only [List.foldl_append, h1, h2, h3, h4]
  rfl

theorem witness_screen_table_checks : tableOk tableImage 512 = true ∧ (headerOwner tableImage).1 = 5 := by
  have h : (tableImage.drop 128).take (512 - 128) = List.replicate 384 0 := by decide +kernel
  simp only [tableOk, h, table_crc]
  decide +kernel

theorem witness_screen_table_copied :
    let l : ScrLoad := { handle := 1023, hw := 0, res := resvBase, bytes := 512, owner := 5, port := 0, addr := 0 }
    let d : Device := { held with mem := ((List.range 512).zip tableImage).filterMap fun x => if x.2 = 0 then none else some (resvBase + x.1, x.2),
                                  mem5.unitKey := (List.range 8).map (·, 2), scr := { load := some l, fetchEnded := some (1023, 0) } }
    d.readMem l.res l.bytes = tableImage := by
  decide +kernel

/-! ### Configuration, security and the metergate -/

/-- A held device whose rider runs, with an image in profile slot 3. -/
def rider : Device := ({ held with cfg := { image := some {}, slots := [(3, some {})] } } : Device).setFld F.RIDE_STATUS.STATE 2

theorem witness_ProfilesAndCensus :
    let active := held.setFld F.CFG_CMD_STATUS.ACTIVE 1
    let to3 : Device := { rider with cfg := { image := some {}, slots := [(3, some {})], switchTo := some 3 } }
    let to2 : Device := { to3 with cfg := { image := some {}, slots := [(3, some {})], switchTo := some 2 } }
    let census : Device := { held with cfg.census := some (1, [0xFFFF]) }
    ((one active).takesOpen 0 ∧ active.on F.CFG_CMD_STATUS.ACTIVE = true) ∧
      ((one held).takesOpen 0 ∧ held.on F.CFG_CMD_STATUS.ACTIVE = false ∧ held.fld F.RIDE_STATUS.STATE ≠ 2 ∧
        held.on F.CFG_CENSUS_STATUS.ACTIVE = false) ∧
      ((one rider).takesOpen 0 ∧ rider.on F.CFG_CMD_STATUS.ACTIVE = false ∧ rider.fld F.RIDE_STATUS.STATE = 2 ∧ rider.busyWhy = 0 ∧
        4 % 4 = rider.fld F.CFG_STATUS.ACTIVE_SLOT ∧ 3 % 4 ≠ rider.fld F.CFG_STATUS.ACTIVE_SLOT) ∧
      (({ rider with fur.desc := [(0, furImage)] } : Device).busyWhy ≠ 0) ∧
      ((one to3).awake ∧ to3.cfg.switchTo = some 3 ∧ sget none to3.cfg.slots 3 = some {} ∧ to3.slotResult 3 false ≠ 1 ∧ to2.slotResult 2 true ≠ 1) ∧
      (let reply := pack [(1, 0x52), (3, 0), (2, 7), (2, 0), (8, 1)]
       (one census).awake ∧ census.cfg.census = some (1, [0xFFFF]) ∧ fieldAt reply 0 1 = 0x52 ∧ fieldAt reply 8 8 = 1 % 2 ^ 64 ∧
        fieldAt reply 4 2 ∉ [0xFFFF] ∧ [0xFFFF].length < 2 ^ census.fld F.CFG_CENSUS_BASE.LOG2_SIZE) := by
  decide +kernel

/-- An image that passes every check of Table 16.4 loads; whether a signature verifies is for `Config.ecdsaVerify`, which has no body, so
that no image can be written out here that does. -/
theorem witness_profile_that_loads (im : Image) (h : imageCheck ({} : Device).part im = 1) :
    ({ rider with cfg := { image := some {}, slots := [(3, some im)], switchTo := some 3 } } : Device).slotResult 3 true = 1 := h

theorem witness_slot_write_and_query :
    let d : Device := { rider with cfg := { writing := some (2, 4096) } }
    let query := pack [(1, 0x51), (1, 1), (2, 9), (2, 0), (2, 0), (8, 4)]
    fieldAt query 0 1 = 0x51 ∧ fieldAt query 1 1 = 1 ∧ fieldAt query 4 2 = held.fld F.TURN_JOB.JOB_ID ∧ (fieldAt query 2 2, fieldAt query 8 8) ∉ held.cfg.queries ∧
      (one d).awake ∧ d.cfg.writing = some (2, 4096) ∧ (one (held.setFld F.CFG_CENSUS_STATUS.ACTIVE 1)).awake ∧ (held.setFld F.CFG_CENSUS_STATUS.ACTIVE 1).on F.CFG_CENSUS_STATUS.ACTIVE = true ∧
      (held.setFld F.FAB_NODE.NODE 3).node ≠ 0xFFFF := by
  decide

/-- A held device out of BOOT_FAIL that may make, export and take keys, with a key in slot 4095 and none in slot 0. -/
def keyed : Device :=
  ((({ rider with sec.keys := [(4095, List.replicate 32 1)] } : Device).setFld F.SEC_STATUS.STATE 1).setFld F.SEC_KEY_POLICY.FLAGS 7).setFld
    F.SEC_KEY_POLICY.SLOT_LIMIT 4096

theorem witness_SecurityCommandsEnd :
    let used : Device := { keyed with fur.desc := [(0, { furImage with owner := 4095 })] }
    ((one keyed).takes 0 ∧ keyed.fld F.SEC_STATUS.STATE ≠ 0 ∧ keyed.hasKey 4095 = true ∧ keyed.hasKey 0 = false ∧ keyed.policyOk 0 0 = true ∧
      keyed.policyOk 1 4095 = true ∧ keyed.policyOk 2 0 = true ∧ keyed.countsUnder 0 = false ∧ keyed.keyInUse 4095 = false ∧
      (keyed.setFld F.SEC_KEY_POLICY.FLAGS 0).policyOk 0 0 = false ∧ used.keyInUse 4095 = true ∧
      1 ≠ keyed.fld F.SEC_STATUS.FW_SLOT ∧ fwVerifies keyed.part (fwOfBytes (fit 64 [])) = false ∧ keyed.sec.floor ≤ (0 : Nat) ∧ keyed.fld F.SEC_STATUS.FW_SVN ≤ keyed.sec.floor ∧
      keyed.sec.floor < (keyed.setFld F.SEC_STATUS.FW_SVN 1).fld F.SEC_STATUS.FW_SVN ∧ (0 : Nat) < ({ keyed with sec.floor := 1 } : Device).sec.floor) ∧
      ((one (keyed.setFld F.SEC_STATUS.STATE 0)).takes 0 ∧ (keyed.setFld F.SEC_STATUS.STATE 0).fld F.SEC_STATUS.STATE = 0) ∧
      (let bs := pack [(4, 0x5A544B57), (2, 0), (1, 2), (1, 0), (8, 1)]
       fieldAt bs 0 4 = 0x5A544B57 ∧ fieldAt bs 6 1 = 2 ∧ fieldAt bs 4 2 = 0) := by
  decide +kernel

theorem witness_key_manager (m : List Byte) :
    let d : Device := { keyed with cfg.image := some { kmHash := (Config.sha384 (fit 97 m)).toNat } }
    (Config.sha384 (fit 97 m)).toNat = (d.cfg.image.map fun (im : Image) => im.kmHash).getD 0 := rfl

theorem witness_MetergateCommands :
    let run := (rider.setFld F.MTR_STATUS.STATE 1)
    let atEnd : Device := { run with mtr.period := { started := true, first := 1, last := 1 }, mtr.image := { interval := 1 } }
    let dueD : Device := { run with mtr.due := some 1, mtr.period := { started := true } }
    let signs : Device := { run with mtr.queue := [{}] }
    let full := signs.setFld F.MTR_PRODUCED.PRODUCED 1024
    let change : Device := { run with mtr.change := some ({}, true, 1) }
    ((one rider).awake ∧ rider.mtrState = 0 ∧ rider.riderRuns = true ∧ run.mtrState ≠ 0) ∧
      ((one atEnd).awake ∧ atEnd.atInterval = true ∧ atEnd.mtr.due = none) ∧
      (run.fld F.TURN_STATUS.STATE ∈ [0, 2] ∧ live.fld F.TURN_STATUS.STATE ∉ [0, 2]) ∧
      (run.fld F.MTR_CONSUMED.CONSUMED ≤ 0 ∧ 0 ≤ run.fld F.MTR_PRODUCED.PRODUCED ∧ run.fld F.MTR_PRODUCED.PRODUCED < 1) ∧
      (run.mtr.change = none ∧ run.fld F.TURN_STATUS.STATE = 0 ∧ mtrVerifies run.part (mtrOfBytes (fit 64 [])) = false ∧
        run.mtr.image.svn ≤ (mtrOfBytes (fit 64 [])).svn ∧ run.mtr.fuse < 1023) ∧
      ((one dueD).awake ∧ dueD.mtr.due = some 1 ∧ dueD.mtr.period.started = true) ∧
      ((one signs).awake ∧ signs.mtrState = 1 ∧ signs.mtr.queue ≠ [] ∧
        signs.fld F.MTR_PRODUCED.PRODUCED - signs.fld F.MTR_CONSUMED.CONSUMED < 1024 ∧
        1024 ≤ full.fld F.MTR_PRODUCED.PRODUCED - full.fld F.MTR_CONSUMED.CONSUMED) ∧
      ((one change).awake ∧ change.mtr.change = some ({}, true, 1)) := by
  decide +kernel

theorem witness_meter_queries :
    let run := (rider.setFld F.MTR_STATUS.STATE 1)
    let audit : Device := { run with mtr.image := { audit := [9] } }
    (run.mtr.image.audit.take 8).contains 9 = false ∧ ((one audit).awake ∧ audit.mtrState = 1 ∧ (audit.mtr.image.audit.take 8).contains 9 = true) := by
  decide

/-! ### Resets, the rider, pins and registers -/

theorem witness_ResetLadder :
    let l : Ladder := { step := 1, kind := 1, index := 31, cause := 1 }
    let p : Ladder := { step := 2, kind := 6, index := 63, cause := 1 }
    let top : Ladder := { step := 4, kind := 9, index := 0, cause := 4 }
    let d : Device := { held with err.running := [l, p, top] }
    ((one held).takes 0 ∧ held.running = false ∧ live.running = true ∧ (one live).takes 0 ∧ held.part.link 111 = true ∧
      held.part.resettable 1 0 32 = false ∧ held.part.resettable 1 0 31 = true ∧ held.coveredPart l = false ∧
      ({ held with err.running := [l] } : Device).coveredPart l = true ∧ live.part.resettable 6 0 63 = true ∧ kindStep 6 = 2) ∧
      ((one d).awake ∧ d.err.running.find? (fun l => l.kind == 6 && l.index == 63) = some p ∧ d.runningStep 1 0 31 = some l ∧ l.step < 4 ∧
        d.runningStep 9 0 0 = some top ∧ 4 ≤ top.step) ∧ d.covered l = true := by
  decide

theorem witness_RiderDumpsAndSentinels :
    let waits := ({ rider with err.riderWaiting := true } : Device).setFld F.RIDE_STATUS.STATE 3
    let push : Device := { rider with err.pushing := true }
    let m : Msg := { src := 9, msgId := 1, hdr := { op := 9 }, data := pack [(1, 0x71), (1, 0), (2, 9), (2, 0), (2, 1)] }
    let shadow : Device := { held with cfg.image := some { shadow := true, primary := 9 } }
    ((one rider).awake ∧ rider.warmRuns = false ∧ rider.fld F.RIDE_STATUS.STATE = 2 ∧ rider.mtr.change = none ∧ rider.err.pushing = false) ∧
      ((one waits).awake ∧ waits.err.riderWaiting = true ∧ waits.fld F.RIDE_STATUS.STATE = 3 ∧ waits.warmRuns = false) ∧
      ((one push).awake ∧ push.err.pushing = true ∧ push.riderRuns = true ∧ push.warmRuns = false) ∧
      ((one shadow).awake ∧ fieldAt m.data 0 1 = 0x71 ∧ fieldAt m.data 2 2 = 9 ∧ fieldAt m.data 6 2 = 1) ∧
      ((one rider).takes 0 ∧ (one held).takes 0 ∧ held.riderRuns = false) := by
  decide

theorem witness_PinsSuppliesAndSensors :
    let off : Device := { held with pwr.off := true }
    let hold : Device := { held with pwr.held := true }
    let hot : Sensors := { junction0 := [1150], junction1 := [1149], headwater0 := [], headwater1 := [], stackBases := [], watts := 0, rails := [] }
    ((one off).settled ∧ off.pwr.off = true) ∧ ((one held).settled ∧ held.pwr.off = false ∧ held.pwr.held = false ∧ held.dead = false ∧
      held.pwr.perst1 = false) ∧ ((one hold).settled ∧ hold.pwr.held = true ∧ hold.pwr.off = false ∧ hold.pwr.tripped = false) ∧
      (1150 : Int) ∈ hot.junction0 ++ hot.junction1 ∧ (∀ v ∈ hot.junction1, v < 1150) ∧
      ((one held).awake ∧ held.pwr.armed0 = true ∧ held.fld F.TURN_STATUS.STATE = 0 ∧ live.fld F.TURN_STATUS.STATE ≠ 0 ∧
        ({ held with pwr.armed0 := false } : Device).pwr.armed0 = false) := by
  decide

theorem witness_WritesOutsideARangeClamp :
    let f := F.FAB_LINK_CFG.HOLDOFF_MS
    let r := Reg.FAB_LINK_CFG
    (one held).takes 0 ∧ regAt r.place.bar (r.offset 111) = some (r, 111) ∧ r.offset 111 % 8 = 0 ∧ held.part.absent r 111 = false ∧ f ∈ r.fields ∧
      f.acc = .rw ∧ f.rng = some (1, 65535) ∧ f ∉ ownCommand ∧ enumTop.any (fun x => decide (x.1 = f)) = false ∧ held.queueHeld f 111 = false := by
  decide +kernel

theorem witness_RegisterAccessWidths :
    (one held).settled ∧ ¬(8 = 8 ∧ 4 % 8 = 0) ∧ ¬(8 = 4 ∧ 4 % 4 = 0) ∧ doorbellAt ⟨0, 0⟩ 0 4 = none ∧ held.dead = false := by
  decide

theorem witness_OnlyTheHolderWrites :
    let d := slotDev 3
    (one held).awake ∧ held.barClosed = false ∧ held.holder ≠ some 1 ∧ ({} : Device).holder = none ∧ accessMask 0xFFC 4 = some 0xFFFFFFFF00000000 ∧
      ((one d).awake ∧ d.holder ≠ some 1 ∧ (d.slot 4095).img.jst = 11 ∧ (d.slot 4095).img.state ∈ [1, 2, 3] ∧
        ({ d with gen.slots := [(4095, { img := { slotImage 3 with flume := 5 } })],
                  flu.flumes := [(5, { isOpen := true, port := 1, vf := 31 })] } : Device).mayCancel 4095 ⟨1, 31⟩ = true) := by
  decide

theorem witness_EveryCommandCompletes :
    let off : Device := { held with pwr.off := true }
    (one off).settled ∧ off.dead = true ∧ reachesDead (.plotReset 0 0) = false ∧
      ((one ({ held with err.running := [{ step := 3, kind := 8, index := 0, cause := 1 }] } : Device)).awake ∧
        ({ held with err.running := [{ step := 3, kind := 8, index := 0, cause := 1 }] } : Device).barClosed = true) := by
  decide

theorem witness_StepsKeepMemoryCanonical : ({ State.reset with pending := [.riderHeartbeat] } : State).settled := by decide

theorem witness_CommandsKeepWhatTheyDoNotName :
    (one rider).settled ∧ keepsMemory (.recordSign) = true ∧ metering (.recordSign) = true := by
  decide

theorem witness_record_sign_completes : ∃ t, exec .recordSign (one rider) = .next t := ⟨_, rfl⟩

/-- R348: a 32-bit write to a doorbell does nothing but count. -/
theorem test_doorbell_width :
    ((held.otherWrite ⟨0, 0⟩ 2 0x1000 4 5).fld F.HQ_STATS.DOORBELL_IGNORED = 1) ∧ (held.otherWrite ⟨0, 0⟩ 2 0x1010 4 5).regs = held.regs ∧
      ((held.otherWrite ⟨0, 0⟩ 2 0xE00008 4 7).bar2Bytes 0xE00008 8 = leBytes 4 7 ++ leBytes 4 1) := by
  decide

/-! ### Values that the spec works out -/

/-- A device whose cost class 2 is that of Table 2.10. -/
def costed : Device :=
  ((((held.setFld F.ROTA_COST_A.BASE 30000 2).setFld F.ROTA_COST_A.K_TOK 9000 2).setFld F.ROTA_COST_B.K_PAGE 200 2).setFld
    F.ROTA_COST_B.K_PRE 1600 2).setFld F.ROTA_COST_B.K_FETCH 1000 2
/-- Its slot 40 is BULK of depth 8 and reads a furrow of 512 positions, all resident, which its draft furrow follows. -/
def bulk : Device :=
  { costed with fur := { desc := [(0, { state := 1, id := 1, length := 512, ppsM1 := 3, openHw := true }),
                                  (1, { state := 1, id := 2, base := 4, length := 512, ppsM1 := 3 })],
                         pte := [(0, { tier := 1 }), (1, { tier := 1 })] },
                gen := { slots := [(40, { img := { state := 2, cls := 2, depth := 8, furrow := 1, draft := 2, pendingV := true } })] } }
/-- The entry of slot 40 in Table 2.10. -/
def entry40 : RotaEntry := { kind := 1, cls := 2, specCap := 8, slot := 40, plotMask := 0xF0000 }

/-- The example of spec/02: B, and the cost of nine tokens and three pages at 1.9 and at 1.52 GHz by R37. -/
theorem test_admission_cost : costed.budget = 860000 ∧ bulk.cost entry40 = 30000 + 81000 + 150 ∧
    (bulk.setFld F.ROTA_CLOCK.CURRENT 1520).cost entry40 = 138938 := by decide +kernel
/-- The ATTN of the example of spec/03, in cycles. -/
theorem test_attn_cycles : attnCycles 64 128 16 8 = 1104 := by decide
/-- The largest finite values of Table 3.4: 448, 57,344, 28, 7.5, 6, 127/64 and 65,504. -/
theorem test_largest_values :
    ((fmtOf 0).map fun f => f.value 0x7E) = some (.fin false 14 5) ∧ ((fmtOf 1).map fun f => f.value 0x7B) = some (.fin false 7 13) ∧
    ((fmtOf 4).map fun f => f.value 0x1F) = some (.fin false 7 2) ∧ ((fmtOf 5).map fun f => f.value 0x1F) = some (.fin false 15 (-1)) ∧
    ((fmtOf 6).map fun f => f.value 7) = some (.fin false 3 1) ∧ ((fmtOf 7).map fun f => f.value 127) = some (.fin false 127 (-6)) ∧
    ((fmtOf 9).map fun f => f.value 0x7BFF) = some (.fin false 2047 5) := by decide
/-- FP32 conversions by R59: 449 saturates to 448 in E4M3, and 2.5 rounds to 2 in INT8 (ties to even). -/
theorem test_conversions :
    ((fmtOf 0).map fun f => ((f.convert false [] (.fin false 481 0)).bits, (f.convert false [] (.fin false 481 0)).sat)) = some (0x7E, true) ∧
    ((fmtOf 0xB).map fun f => (f.convert false [] (.fin false 5 (-1))).bits) = some 2 ∧
    ((fmtOf 1).map fun f => (f.convert true [] (.fin true 1 20)).bits) = some 0xFC := by decide
/-- The CRC-32 of IEEE 802.3 over the digits 1 to 9 (the standard's check value). -/
theorem test_crc32 : crc32 ((List.range 9).map fun i => BitVec.ofNat 8 (0x31 + i)) = 0xCBF43926 := by decide +kernel
/-- The score of spec/06: 9,216 with QSCALE 2^-6 and SCALE 0x3C00 is 1.125. -/
theorem test_rank_score : mul32 (mul32 (round32 [] (Fv.ofInt 9216)) 0x3C800000) (0x3C00 * 65536) = 0x3F900000 := by decide
/-- The reservoir frame of spec/05: channel 70, row 0x8ACE, and the owner entry of slot 675. -/
theorem test_reservoir_frame : (0x012345670000 - resvBase) / channelBytes = 70 ∧ rowOf 0x012345670000 = 0x8ACE ∧
    frameOf 0x012345670000 % 32768 = 17767 ∧ mkOwner 675 false = 0x82A3 := by decide

end Sys2Proof.Tests
end

/-! ## The front of the queue -/

namespace Sys2Proof.Machine

/-- Settles O56: both halves are the two equations of `step`. -/
theorem stepTakesTheFrontCommand : Obligations.StepTakesTheFrontCommand := by
  refine ⟨fun c rest s => ?_, fun s h => ?_⟩
  · simp only [step]
  · rw [step, h]

/-! ## What a write does to the fields of a register -/

/-- Two fields share no bit of a register value. -/
def Field.apart (f g : Field) : Prop := f.lo + f.w ≤ g.lo ∨ g.lo + g.w ≤ f.lo

/-- The shape of a field in its register's table (R8, R461): it lies within the register's 64 bits, and a range it states is a range
of values it can hold. -/
def Field.wellPlaced (r : Reg) (f : Field) : Prop :=
  f.reg = r ∧ 0 < f.w ∧ f.lo + f.w ≤ 64 ∧ ∀ x ∈ f.rng, x.1 ≤ x.2 ∧ x.2 < 2 ^ f.w

theorem Reg.fields_wellPlaced (r : Reg) : ∀ f ∈ r.fields, f.wellPlaced r := by
  unfold Field.wellPlaced
  cases r <;> decide

theorem Reg.fields_pairwise_apart (r : Reg) : r.fields.Pairwise Field.apart := by
  unfold Field.apart
  cases r <;> decide

theorem Field.apart_of_pairwise {l : List Field} (hl : l.Pairwise Field.apart) {f g : Field} (hf : f ∈ l) (hg : g ∈ l) (h : f ≠ g) :
    f.apart g := by
  induction l with
  | nil => cases hf
  | cons x l ih =>
    obtain ⟨hx, hl⟩ := List.pairwise_cons.mp hl
    obtain rfl | hfl := List.mem_cons.mp hf
    · obtain rfl | hgl := List.mem_cons.mp hg
      · exact absurd rfl h
      · exact hx g hgl
    · obtain rfl | hgl := List.mem_cons.mp hg
      · exact (hx f hfl).symm
      · exact ih hl hfl hgl

/-- Two fields of one register are one field or share no bit. -/
theorem Reg.fields_apart {r : Reg} {f g : Field} (hf : f ∈ r.fields) (hg : g ∈ r.fields) (h : f ≠ g) : f.apart g :=
  Field.apart_of_pairwise r.fields_pairwise_apart hf hg h

theorem Field.mask_ne_zero {f : Field} (hw : 0 < f.w) (h : f.lo + f.w ≤ 64) : f.mask ≠ 0 := by
  intro h0
  have hbit := f.testBit_mask f.lo h
  simp [h0, hw] at hbit

/-- Clearing bits of one field leaves a field apart from it. -/
theorem Field.get_clear_apart {f g : Field} (v x : Word) (hg : g.lo + g.w ≤ 64) (h : f.apart g) :
    f.get (v &&& ~~~(x &&& g.mask)) = f.get v := by
  refine Nat.eq_of_testBit_eq fun k => ?_
  rw [f.testBit_get, f.testBit_get]
  by_cases hk : k < f.w
  · have hm : g.mask.getLsbD (f.lo + k) = false := by
      rw [g.testBit_mask _ hg]
      unfold Field.apart at h
      simp only [Bool.and_eq_false_iff, decide_eq_false_iff_not]
      omega
    rw [BitVec.getLsbD_and, BitVec.getLsbD_not, BitVec.getLsbD_and, hm, Bool.and_false, Bool.not_false, Bool.and_true]
    by_cases hl : f.lo + k < 64
    · rw [decide_eq_true hl, Bool.and_true]
    · rw [BitVec.getLsbD_of_ge _ _ (Nat.le_of_not_lt hl), Bool.false_and]
  · simp [hk]

/-- A write under a mask does nothing to a field: the mask misses it, its writes are commands of their own, or its access code is one
that a write does not change in use (R10, R387). -/
def Field.untouched (f : Field) (mask : Word) : Prop :=
  f.mask &&& mask = 0 ∨ f ∈ ownCommand ∨ (f.acc ≠ .rw ∧ f.acc ≠ .w1c)

/-- What a write to one field can do (R10): nothing, or by its access code write the field, clear bits of it, or stage it. -/
theorem Device.writeField_cases (i : Nat) (val mask : Word) (d : Device) (f : Field) :
    d.writeField i val mask f = d ∨ ¬f.untouched mask ∧
      ((∃ x, d.writeField i val mask f = d.setFld f x i) ∨
        ∃ v : Word, d.writeField i val mask f = d.setReg f.reg i (d.reg f.reg i &&& ~~~(v &&& f.mask))) ∨
      ∃ v, d.writeField i val mask f = d.setStaged f.reg i v := by
  unfold Device.writeField
  split
  · exact .inl rfl
  · next hnot =>
    rw [List.contains_iff_mem] at hnot
    have htouch (h : f.acc = .rw ∨ f.acc = .w1c) : ¬f.untouched mask := by
      rintro (hmiss | hown | ⟨hrw, hw1c⟩)
      · exact hnot (.inl hmiss)
      · exact hnot (.inr hown)
      · exact h.elim hrw hw1c
    split
    · next hacc =>
      dsimp only
      split
      · exact .inl rfl
      · exact .inr (.inl ⟨htouch (.inl hacc), .inl ⟨_, rfl⟩⟩)
    · next hacc => exact .inr (.inl ⟨htouch (.inr hacc), .inr ⟨_, rfl⟩⟩)
    · dsimp only
      split
      · exact .inl rfl
      · exact .inr (.inr ⟨_, rfl⟩)
    · exact .inl rfl

theorem Device.fld_writeField_untouched (i : Nat) (val mask : Word) (d : Device) {f : Field} (h : f.untouched mask) :
    (d.writeField i val mask f).fld f i = d.fld f i := by
  obtain he | ⟨hnot, -⟩ | ⟨v, he⟩ := d.writeField_cases i val mask f
  · rw [he]
  · exact absurd h hnot
  · rw [he]; rfl

theorem Device.fld_writeField_apart (i : Nat) (val mask : Word) (d : Device) {f g : Field} (hr : f.reg = g.reg) (hg : g.lo + g.w ≤ 64)
    (h : f.apart g) : (d.writeField i val mask g).fld f i = d.fld f i := by
  obtain he | ⟨-, ⟨x, he⟩ | ⟨v, he⟩⟩ | ⟨v, he⟩ := d.writeField_cases i val mask g
  · rw [he]
  · rw [he, d.fld_setFld_field _ _ hr hg h.symm]
  · simp only [he, Device.fld, hr, Device.reg_setReg_same, Field.get_clear_apart _ _ hg h]
  · rw [he]; rfl

/-- A write to fields of a register leaves a field of it that is not among them, or that the write does not touch. -/
theorem Device.fld_foldl_writeField (i : Nat) (val mask : Word) {r : Reg} {f : Field} (hf : f ∈ r.fields) (l : List Field)
    (hl : ∀ g ∈ l, g ∈ r.fields ∧ (g = f → f.untouched mask)) (d : Device) :
    (l.foldl (Device.writeField i val mask) d).fld f i = d.fld f i := by
  induction l generalizing d with
  | nil => rfl
  | cons g l ih =>
    obtain ⟨hgr, hgf⟩ := hl g List.mem_cons_self
    rw [List.foldl_cons, ih fun x hx => hl x (List.mem_cons_of_mem _ hx)]
    obtain ⟨hfreg, -⟩ := r.fields_wellPlaced f hf
    obtain ⟨hgreg, -, hg64, -⟩ := r.fields_wellPlaced g hgr
    by_cases h : g = f
    · subst h; exact d.fld_writeField_untouched i val mask (hgf rfl)
    · exact d.fld_writeField_apart i val mask (hfreg.trans hgreg.symm) hg64 (Reg.fields_apart hf hgr (Ne.symm h))

/-- ENABLE of a host queue is a command of its own: a register write leaves the queue's held fields held (R354). -/
theorem Device.queueHeld_foldl_writeField (i : Nat) (val mask : Word) {r : Reg} {f : Field} (hf : f ∈ r.fields) {l : List Field}
    (hl : ∀ g ∈ l, g ∈ r.fields) (d : Device) : (l.foldl (Device.writeField i val mask) d).queueHeld f i = d.queueHeld f i := by
  unfold Device.queueHeld
  by_cases hm : [F.HQ_Q_CTRL.KIND, F.HQ_Q_CTRL.LOG2_SIZE, F.HQ_Q_CTRL.ENGINE].contains f = true
  · have hreg : r = .HQ_Q_CTRL := by
      obtain ⟨hfreg, -⟩ := r.fields_wellPlaced f hf
      rw [← hfreg]
      obtain rfl | rfl | rfl : f = F.HQ_Q_CTRL.KIND ∨ f = F.HQ_Q_CTRL.LOG2_SIZE ∨ f = F.HQ_Q_CTRL.ENGINE := by
        simpa using hm
      all_goals rfl
    subst hreg
    have hown : F.HQ_Q_CTRL.ENABLE.untouched mask := .inr (.inl (by decide))
    simp only [Device.on, Device.fld_foldl_writeField i val mask (f := F.HQ_Q_CTRL.ENABLE) (by decide) l fun g hg => ⟨hl g hg, fun _ => hown⟩]
  · rw [Bool.not_eq_true] at hm
    rw [hm]; rfl

/-- A write of a whole RW field with a stated range, which no other rule governs, leaves the nearest value of that range (R461). -/
theorem Device.fld_writeField_clamp (i : Nat) (val : Word) (d : Device) {r : Reg} {f : Field} {lo hi : Nat} (hf : f.wellPlaced r)
    (hacc : f.acc = .rw) (hrng : f.rng = some (lo, hi)) (hown : f ∉ ownCommand) (henum : enumTop.any (fun x => decide (x.1 = f)) = false)
    (hheld : d.queueHeld f i = false) :
    (d.writeField i val (BitVec.allOnes 64) f).fld f i = max lo (min hi (f.get val)) := by
  obtain ⟨-, hw, h64, hlim⟩ := hf
  obtain ⟨hle, hlt⟩ := hlim (lo, hi) (by simp [hrng])
  have hcode (v : Nat) : f.reservedCode v = false := by
    unfold Field.reservedCode
    rw [List.any_eq_false] at henum ⊢
    intro x hx
    simp [show x.1 ≠ f by simpa using henum x hx]
  have hmask : ¬(f.mask &&& BitVec.allOnes 64 = 0 ∨ ownCommand.contains f = true) := by
    rw [BitVec.and_allOnes, List.contains_iff_mem]
    exact not_or.mpr ⟨Field.mask_ne_zero hw h64, hown⟩
  unfold Device.writeField
  rw [if_neg hmask]
  simp only [hacc, hcode, hheld, Bool.or_self, Bool.false_eq_true, if_false, BitVec.not_allOnes, BitVec.and_zero, BitVec.zero_or,
    BitVec.and_allOnes]
  rw [Device.fld_setFld_same _ _ _ _ h64, Nat.mod_eq_of_lt] <;> simp only [Field.clamp, hrng]
  have hlim2 : max lo (min hi (f.get val)) ≤ hi := Nat.max_le.mpr ⟨hle, Nat.min_le_left _ _⟩
  exact Nat.lt_of_le_of_lt hlim2 hlt

/-! ### What a register write does beside its fields -/

/-- A write to a field of one register leaves every other register. -/
theorem Device.reg_setFld_other (d : Device) (f : Field) {r : Reg} (x i j : Nat) (h : r ≠ f.reg) (hi : i < 0x10000) (hj : j < 0x10000) :
    (d.setFld f x i).reg r j = d.reg r j := d.reg_setReg_other i j _ h hi hj

/-- The end of a security command writes SEC_CMD_STATUS and SEC_EVENTS alone. -/
theorem Device.reg_secEnd (d : Device) (n : Nat) {r : Reg} (i : Nat) (h1 : r ≠ .SEC_CMD_STATUS) (h2 : r ≠ .SEC_EVENTS) (hi : i < 0x10000) :
    (d.secEnd n).reg r i = d.reg r i := by
  unfold Device.secEnd Device.eventSig Device.event
  rw [Device.reg_signal, Device.reg_setFld_other _ F.SEC_EVENTS.CMD_DONE _ _ _ h2 (by decide) hi,
    Device.reg_setFld_other _ F.SEC_CMD_STATUS.RESULT _ _ _ h1 (by decide) hi,
    Device.reg_setFld_other _ F.SEC_CMD_STATUS.ACTIVE _ _ _ h1 (by decide) hi]

/-- What a register write does beside its fields: on a device that differs at most in whose host address it is, it ends a reserved
security command, clears the STOPPED of a command ring, or does nothing. -/
theorem Device.afterWrite_cases (d : Device) (port : Nat) (r : Reg) (i : Nat) (val mask : Word) :
    ∃ e : Device, (∃ w, e = { d with host.writer := w }) ∧
      (d.afterWrite port r i val mask = e ∨
        r = .SEC_CMD ∧ (∃ n, d.afterWrite port r i val mask = e.secBegin port n 0 true true id) ∨
        ∃ f ∈ [F.FUR_CQ_HEAD.STOPPED, F.PIM_DQ_HEAD.STOPPED], r ≠ f.reg ∧ d.afterWrite port r i val mask = e.setFld f 0) := by
  unfold Device.afterWrite
  dsimp only
  refine ⟨if r.isHostAddr then { d with host.writer := sput 0 d.host.writer (regKey r i) (port + 1) } else d, ?_, ?_⟩
  · split
    · exact ⟨_, rfl⟩
    · exact ⟨d.host.writer, rfl⟩
  · generalize (if r.isHostAddr then { d with host.writer := sput 0 d.host.writer (regKey r i) (port + 1) } else d : Device) = e
    split
    · next h => exact .inr (.inl ⟨h.1, _, rfl⟩)
    · split
      · split
        · exact .inr (.inr ⟨F.FUR_CQ_HEAD.STOPPED, by simp, by decide, rfl⟩)
        · exact .inr (.inr ⟨F.PIM_DQ_HEAD.STOPPED, by simp, by decide, rfl⟩)
        · exact .inl rfl
      · exact .inl rfl

/-- A security command of a reserved opcode leaves SEC_CMD. -/
theorem Device.reg_secBegin_reserved (d : Device) (port n : Nat) {i : Nat} (hi : i < 0x10000) :
    (d.secBegin port n 0 true true id).reg .SEC_CMD i = d.reg .SEC_CMD i := by
  have hop : (d.setFld F.SEC_CMD_STATUS.OPCODE n).reg .SEC_CMD i = d.reg .SEC_CMD i :=
    d.reg_setFld_other _ _ _ _ (by decide) (by decide) hi
  unfold Device.secBegin
  dsimp only
  rw [if_pos rfl]
  split <;> rw [Device.reg_secEnd _ _ _ (by decide) (by decide) hi, hop]

/-- What a register write does beside its fields leaves that register copy. -/
theorem Device.reg_afterWrite (d : Device) (port : Nat) (r : Reg) {i : Nat} (val mask : Word) (hi : i < 0x10000) :
    (d.afterWrite port r i val mask).reg r i = d.reg r i := by
  obtain ⟨e, ⟨w, rfl⟩, he | ⟨rfl, n, he⟩ | ⟨f, -, hf, he⟩⟩ := d.afterWrite_cases port r i val mask
  · rw [he]; rfl
  · rw [he, Device.reg_secBegin_reserved _ _ _ hi]; rfl
  · rw [he, Device.reg_setFld_other _ _ _ _ _ hf (by decide) hi]; rfl

/-- A write that a present register takes leaves a field of it as the write of its fields does. -/
theorem Device.fld_writeReg (d : Device) (port : Nat) {r : Reg} {f : Field} {i : Nat} (val mask : Word) (hf : f.reg = r) (hi : i < 0x10000)
    (hp : d.part.absent r i = false) :
    (d.writeReg port r i val mask).fld f i = (r.fields.foldl (Device.writeField i val mask) d).fld f i := by
  unfold Device.writeReg Device.fld
  rw [hp, if_neg Bool.false_ne_true, hf, Device.reg_afterWrite _ _ _ _ _ hi]

theorem Device.fld_writeReg_untouched (d : Device) (port : Nat) {r : Reg} {f : Field} {i : Nat} (val mask : Word) (hf : f ∈ r.fields)
    (hi : i < 0x10000) (h : f.untouched mask) : (d.writeReg port r i val mask).fld f i = d.fld f i := by
  by_cases hp : d.part.absent r i = true
  · rw [Device.writeReg, if_pos hp]
  · rw [d.fld_writeReg port val mask (r.fields_wellPlaced f hf).1 hi (by simpa using hp),
      Device.fld_foldl_writeField i val mask hf _ fun g hg => ⟨hg, fun _ => h⟩]

theorem Device.fld_writeReg_clamp (d : Device) (port : Nat) {r : Reg} {f : Field} {i lo hi : Nat} (val : Word) (hf : f ∈ r.fields)
    (hi' : i < 0x10000) (hp : d.part.absent r i = false) (hacc : f.acc = .rw) (hrng : f.rng = some (lo, hi)) (hown : f ∉ ownCommand)
    (henum : enumTop.any (fun x => decide (x.1 = f)) = false) (hheld : d.queueHeld f i = false) :
    (d.writeReg port r i val (BitVec.allOnes 64)).fld f i = max lo (min hi (f.get val)) := by
  have hw := r.fields_wellPlaced f hf
  rw [d.fld_writeReg port val _ hw.1 hi' hp]
  obtain ⟨before, after, hsplit⟩ := List.append_of_mem hf
  have hmem (g : Field) (hg : g ∈ before ∨ g ∈ after) : g ∈ r.fields := by
    rw [hsplit, List.mem_append, List.mem_cons]
    exact hg.imp_right .inr
  have hafter : ∀ g ∈ after, g ∈ r.fields ∧ (g = f → f.untouched (BitVec.allOnes 64)) := fun g hg => by
    refine ⟨hmem g (.inr hg), ?_⟩
    rintro rfl
    have hpair := r.fields_pairwise_apart
    rw [hsplit, List.pairwise_append, List.pairwise_cons] at hpair
    obtain ⟨-, ⟨hself, -⟩, -⟩ := hpair
    replace hself : g.apart g := hself g hg
    obtain ⟨-, hpos, -⟩ := hw
    unfold Field.apart at hself
    omega
  rw [hsplit, List.foldl_append, List.foldl_cons, Device.fld_foldl_writeField i val _ hf after hafter]
  refine Device.fld_writeField_clamp i val _ hw hacc hrng hown henum ?_
  rw [Device.queueHeld_foldl_writeField i val _ hf fun g hg => hmem g (.inl hg), hheld]

/-! ### The command -/

/-- A register write of the holder that covers bits of a register copy: HQ_CONTROL has its own commands, any other register takes it. -/
theorem exec_registerWrite_takes {s : State} {port bar off size v : Nat} {mask : Word} {r : Reg} {k : Nat} (h : s.takes port)
    (hm : accessMask off size = some mask) (hr : regAt bar (off / 8 * 8) = some (r, k)) :
    exec (.registerWrite ⟨port, 0⟩ bar off size v) s =
      .next (s.put (if bar ≠ 4 ∧ r = .HQ_CONTROL then s.dev else s.dev.writeReg port r k (accessValue off v) mask)) := by
  simp only [exec, execRegisterWrite]
  rw [State.act_put _ _ h.live]
  congr 2
  simp only [ne_eq, not_true_eq_false, if_false, registerWriteEff, hm, hr]
  by_cases hb : bar = 4
  · simp [hb]
  · by_cases hq : r = .HQ_CONTROL
    · simp [hb, hq]
    · simp only [hb, hq, if_false, and_false]
      exact Device.asHolder_takes h _ _

/-- Settles O53: the write reaches the register, the fields before and after leave this one, and its own write clamps. -/
theorem writesOutsideARangeClamp : Obligations.WritesOutsideARangeClamp := by
  intro s port bar off v r k lo hi f ht hoff hr hk hq hp hf hacc hrng hown henum hheld
  have hm : accessMask off 8 = some (BitVec.allOnes 64) := by simp [accessMask, hoff]
  have hat : off / 8 * 8 = off := by omega
  have hval : accessValue off v = BitVec.ofNat 64 v := by simp [accessValue, hoff]
  obtain ⟨-, -, -, hlim⟩ := r.fields_wellPlaced f hf
  obtain ⟨hle, -⟩ := hlim (lo, hi) (by simp [hrng])
  refine ⟨_, exec_registerWrite_takes ht hm (by rwa [hat]), ?_⟩
  rw [if_neg (fun h => hq h.2), State.put_fld, Device.fld_writeReg_clamp s.dev port _ hf hk hp hacc hrng hown henum hheld, hval]
  exact ⟨rfl, Nat.le_max_left _ _, Nat.max_le.mpr ⟨hle, Nat.min_le_left _ _⟩⟩

end Sys2Proof.Machine

namespace Sys2Proof.Machine
/-! ## Accesses by width and alignment (R9) -/

/-- An access that is neither of R9's two kinds covers no bit of a register. -/
theorem accessMask_eq_none {off size : Nat} (h8 : ¬(size = 8 ∧ off % 8 = 0)) (h4 : ¬(size = 4 ∧ off % 4 = 0)) : accessMask off size = none := by
  unfold accessMask
  rw [if_neg h8, if_neg (by omega), if_neg (by omega)]

/-- Only the low half's bits are covered by a 32-bit access to it: a field above is missed. -/
theorem Field.mask_and_lowHalf {f : Field} (h64 : f.lo + f.w ≤ 64) (h : 32 ≤ f.lo) : f.mask &&& 0x00000000FFFFFFFF = 0 := by
  refine BitVec.eq_of_getLsbD_eq fun k hk => ?_
  have hhigh : ∀ n < 64, 32 ≤ n → (0x00000000FFFFFFFF : Word).getLsbD n = false := by decide
  rw [BitVec.getLsbD_and, f.testBit_mask _ h64, show (0 : Word).getLsbD k = false from BitVec.getLsbD_zero]
  by_cases hlow : k < f.lo
  · simp [Nat.not_le.mpr hlow]
  · rw [hhigh k hk (by omega), Bool.and_false]

/-- Only the high half's bits are covered by a 32-bit access to it: a field below is missed. -/
theorem Field.mask_and_highHalf {f : Field} (h : f.lo + f.w ≤ 32) : f.mask &&& 0xFFFFFFFF00000000 = 0 := by
  refine BitVec.eq_of_getLsbD_eq fun k hk => ?_
  have hlow : ∀ n < 32, (0xFFFFFFFF00000000 : Word).getLsbD n = false := by decide
  rw [BitVec.getLsbD_and, f.testBit_mask _ (by omega), show (0 : Word).getLsbD k = false from BitVec.getLsbD_zero]
  by_cases hhigh : k < 32
  · rw [hlow k hhigh, Bool.and_false]
  · simp [show ¬k < f.lo + f.w by omega]

/-- A command that leaves the device as it is leaves a state between commands as it is. -/
theorem State.act_id {s : State} (hs : s.settled) {f : Device → Device} (hf : f s.dev = s.dev) : s.act f = .next s := by
  have hput : s.put s.dev = s := State.put_of hs rfl rfl
  unfold State.act
  rw [hf, ite_self, State.land_put, hput]

theorem Device.otherWrite_noAccess (d : Device) {fn : Fn} {bar off size : Nat} (v : Nat) (hm : accessMask off size = none)
    (hd : doorbellAt fn bar off = none) : d.otherWrite fn bar off size v = d := by
  unfold Device.otherWrite
  rw [hd, hm]
  split <;> simp_all

theorem registerWriteEff_noAccess (d : Device) {port bar off size : Nat} (v : Nat) (hm : accessMask off size = none)
    (hd : doorbellAt ⟨port, 0⟩ bar off = none) : registerWriteEff port bar off size v d = d := by
  simp [registerWriteEff, hm, hd]

theorem exec_registerWrite_noAccess {s : State} (hs : s.settled) {fn : Fn} {bar off size : Nat} (v : Nat) (hm : accessMask off size = none)
    (hd : doorbellAt fn bar off = none) : exec (.registerWrite fn bar off size v) s = .next s := by
  obtain ⟨port, vf⟩ := fn
  simp only [exec, execRegisterWrite]
  refine State.act_id hs ?_
  by_cases hvf : vf = 0
  · subst hvf
    rw [if_neg (by simp), registerWriteEff_noAccess _ _ hm hd]
  · rw [if_pos hvf, Device.otherWrite_noAccess _ _ hm hd, ite_self]

/-- A read of another width or alignment returns zeros, whichever function makes it. -/
theorem exec_rcFieldRead_noAccess {s : State} (at_ : Nat) (fn : Fn) {bar off size : Nat} (hm : accessMask off size = none)
    (hlive : s.dev.dead = false) : ∃ d : Device, (d = s.dev ∨ d = s.dev.at_ at_) ∧
      exec (.rcFieldRead at_ fn bar off size) s = .next (s.put (d.emit (.readReturn fn bar off (List.replicate size 0)))) := by
  obtain ⟨port, vf⟩ := fn
  simp only [Device.dead, Bool.or_eq_false_iff] at hlive
  obtain ⟨⟨⟨hoff, hheld⟩, htrip⟩, hfatal⟩ := hlive
  simp only [exec, execRcFieldRead, State.pin_put, hoff, hheld, htrip, hfatal, Bool.or_self, Bool.false_eq_true, if_false]
  by_cases hvf : vf = 0
  · subst hvf
    exact ⟨s.dev.at_ at_, .inr rfl, by simp [rcReadEff, hm]⟩
  · exact ⟨s.dev, .inl rfl, by simp [hvf, Device.vfBytes, hm]⟩

/-- A field that a holder's register write does not touch keeps its value in use. -/
theorem registerWrite_untouched {s : State} {port bar off size v : Nat} {mask : Word} {r : Reg} {k : Nat} {f : Field} (ht : s.takes port)
    (hm : accessMask off size = some mask) (hr : regAt bar (off / 8 * 8) = some (r, k)) (hk : k < 0x10000) (hf : f ∈ r.fields)
    (h : f.untouched mask) : ∃ t, exec (.registerWrite ⟨port, 0⟩ bar off size v) s = .next t ∧ t.dev.fld f k = s.dev.fld f k := by
  refine ⟨_, exec_registerWrite_takes ht hm hr, ?_⟩
  rw [State.put_fld]
  split
  · rfl
  · exact Device.fld_writeReg_untouched _ _ _ _ hf hk h

/-- Settles O54: an access of another kind covers no bit of a register, and a write leaves the fields that its bits miss and those whose
access code takes none. -/
theorem registerAccessWidths : Obligations.RegisterAccessWidths := by
  refine ⟨fun s fn at_ bar off size v hs h8 h4 hd => ?_, fun s port bar off v r k f ht hoff hr hk hf => ⟨?_, ?_, ?_⟩⟩
  · have hm := accessMask_eq_none h8 h4
    refine ⟨exec_registerWrite_noAccess hs v hm hd, fun hlive => ?_⟩
    obtain ⟨d, hfrom, hexec⟩ := exec_rcFieldRead_noAccess (bar := bar) at_ fn hm hlive
    refine ⟨_, hexec, ?_⟩
    obtain rfl | rfl := hfrom
    all_goals exact ⟨State.framed_put (Device.framed_congr (s.dev.framed_refl []) rfl rfl rfl rfl) rfl, rfl⟩
  · intro hlo
    obtain ⟨-, -, h64, -⟩ := r.fields_wellPlaced f hf
    have hm : accessMask off 4 = some 0x00000000FFFFFFFF := by simp [accessMask, hoff]
    exact registerWrite_untouched ht hm (by rwa [show off / 8 * 8 = off by omega]) hk hf (.inl (Field.mask_and_lowHalf h64 hlo))
  · intro hhi
    have hm : accessMask (off + 4) 4 = some 0xFFFFFFFF00000000 := by
      simp [accessMask, show (off + 4) % 8 = 4 by omega]
    exact registerWrite_untouched ht hm (by rwa [show (off + 4) / 8 * 8 = off by omega]) hk hf (.inl (Field.mask_and_highHalf hhi))
  · intro hacc
    have hm : accessMask off 8 = some (BitVec.allOnes 64) := by simp [accessMask, hoff]
    refine registerWrite_untouched ht hm (by rwa [show off / 8 * 8 = off by omega]) hk hf (.inr (.inr ?_))
    obtain h | h | h := hacc <;> simp [h]

end Sys2Proof.Machine

/-! ## Commands that make no write to memory (R10)

A command's writes stand in `Device.wr` until it ends. One lemma per operation says that the operation leaves them. -/

namespace Sys2Proof.Machine

@[simp] theorem Device.wr_at (d : Device) (t : Nat) : (d.at_ t).wr = d.wr := rfl
@[simp] theorem Device.wr_emit (d : Device) (o : Out) : (d.emit o).wr = d.wr := rfl
@[simp] theorem Device.wr_drew (d : Device) : d.drew.wr = d.wr := rfl
@[simp] theorem Device.wr_rolled (d : Device) : d.rolled.wr = d.wr := rfl
@[simp] theorem Device.wr_event (d : Device) (f : Field) : (d.event f).wr = d.wr := rfl
@[simp] theorem Device.wr_countSat (d : Device) (f : Field) (n i : Nat) : (d.countSat f n i).wr = d.wr := rfl
@[simp] theorem Device.wr_countDown (d : Device) (f : Field) (n i : Nat) : (d.countDown f n i).wr = d.wr := rfl
@[simp] theorem Device.wr_peak (d : Device) (f : Field) (v i : Nat) : (d.peak f v i).wr = d.wr := rfl
@[simp] theorem Device.wr_count (d : Device) (f : Field) (n i : Nat) : (d.count f n i).wr = d.wr := by
  unfold Device.count; split <;> rfl
@[simp] theorem Device.wr_hostWrite (d : Device) (fn : Fn) (a : Nat) (bs : List Byte) : (d.hostWrite fn a bs).wr = d.wr := by
  unfold Device.hostWrite; split <;> rfl
@[simp] theorem Device.wr_msix (d : Device) (fn : Fn) (v : Nat) : (d.msix fn v).wr = d.wr := by
  unfold Device.msix; split <;> rfl
@[simp] theorem Device.wr_signal (d : Device) (v : Nat) : (d.signal v).wr = d.wr := by
  unfold Device.signal; split <;> simp
@[simp] theorem Device.wr_eventSig (d : Device) (f vec : Field) : (d.eventSig f vec).wr = d.wr := by simp [Device.eventSig]
@[simp] theorem Device.wr_hostErr (d : Device) : d.hostErr.wr = d.wr := by simp [Device.hostErr]

/-- A fold of an operation that makes no write makes none. -/
theorem Device.wr_foldl {α : Type} {f : Device → α → Device} (h : ∀ d x, (f d x).wr = d.wr) (l : List α) (d : Device) :
    (l.foldl f d).wr = d.wr := List.foldl_keep Device.wr f h l d

/-- A PF's write, taken, dropped or counted, makes no write to memory when its effect makes none. -/
theorem Device.wr_asHolder {f : Device → Device} (h : ∀ d, (f d).wr = d.wr) (d : Device) (port : Nat) (o : Bool) :
    (d.asHolder port f o).wr = d.wr := by
  unfold Device.asHolder
  split
  · rfl
  · split
    · exact d.wr_count _ _ _
    · split
      · rfl
      · exact h d

theorem Device.wr_fromHolder {f : Device → Device} (h : ∀ d, (f d).wr = d.wr) (d : Device) (port : Nat) :
    (d.fromHolder port f).wr = d.wr := by
  unfold Device.fromHolder
  split
  · rfl
  · split
    · exact h d
    · rfl

/-! ### Queues and rings -/

theorem wr_hqTailEff (q tail : Nat) (d : Device) : (hqTailEff q tail d).wr = d.wr := by
  unfold hqTailEff
  split
  · rfl
  · exact d.wr_count _ _ _

theorem wr_hqConsumedEff (q count : Nat) (d : Device) : (hqConsumedEff q count d).wr = d.wr := by
  unfold hqConsumedEff
  split
  · rfl
  · exact d.wr_count _ _ _

theorem wr_pimDqTailEff (tail : Nat) (d : Device) : (pimDqTailEff tail d).wr = d.wr := by
  unfold pimDqTailEff
  split
  · rfl
  · dsimp only
    split
    · rfl
    · exact (Device.wr_foldl (fun d _ => d.wr_emit _) _ _).trans (d.wr_setFld _ _ _)

theorem wr_furCqTailEff (tail : Nat) (d : Device) : (furCqTailEff tail d).wr = d.wr := by
  unfold furCqTailEff
  dsimp only
  split
  · rfl
  · exact (Device.wr_foldl (fun d _ => d.wr_emit _) _ _).trans (d.wr_setFld _ _ _)

/-! ### Reservoir channels -/

@[simp] theorem Device.wr_setChan (d : Device) (k : Nat) (c : PimChan) : (d.setChan k c).wr = d.wr := rfl
@[simp] theorem Device.wr_setMode (d : Device) (k m : Nat) : (d.setMode k m).wr = d.wr := rfl
@[simp] theorem Device.wr_setDebts (d : Device) (k : Nat) (xs : List Nat) : (d.setDebts k xs).wr = d.wr := by
  unfold Device.setDebts; dsimp only; split <;> rfl
@[simp] theorem Device.wr_showRate (d : Device) (k rate : Nat) : (d.showRate k rate).wr = d.wr := by
  unfold Device.showRate; dsimp only; split <;> rfl
@[simp] theorem Device.wr_shorten (d : Device) (k old new : Nat) : (d.shorten k old new).wr = d.wr := by
  unfold Device.shorten
  dsimp only
  split
  · rfl
  · split
    · split <;> simp
    · split <;> simp

theorem wr_refreshEff (k bank issue : Nat) (d : Device) : (refreshEff k bank issue d).wr = d.wr := by
  unfold refreshEff
  dsimp only
  split
  · rfl
  · rw [Device.wr_setDebts]
    split
    · split <;> simp
    · split <;> simp

theorem wr_rfmRequest (k bank : Nat) (d : Device) :
    (if d.part.channel k then (d.count F.PIM_CH_REFRESH.RFM 1 k).emit (.dram k 2 bank 0) else d).wr = d.wr := by
  split <;> simp

theorem wr_mr4Eff (k rate : Nat) (d : Device) : (mr4Eff k rate d).wr = d.wr := by
  unfold mr4Eff
  dsimp only
  split
  · rfl
  · have hshow : ((if rate < 3 then d.shorten k (d.fld F.PIM_CH_STATUS.RATE k) rate else d).showRate k rate).wr = d.wr := by
      rw [Device.wr_showRate]; split <;> simp
    generalize (if rate < 3 then d.shorten k (d.fld F.PIM_CH_STATUS.RATE k) rate else d).showRate k rate = e at hshow ⊢
    split
    · split <;> simpa using hshow
    · split
      · split <;> simpa using hshow
      · exact hshow

theorem wr_windowOpenEff (at_ : Nat) (d : Device) : (windowOpenEff at_ d).wr = d.wr := by
  unfold windowOpenEff
  dsimp only
  split
  · rfl
  · split <;> simp

/-! ### CFG_ commands and the census -/

@[simp] theorem Device.wr_showSlot (d : Device) (slot result : Nat) : (d.showSlot slot result).wr = d.wr := by
  unfold Device.showSlot; dsimp only; split <;> rfl
@[simp] theorem Device.wr_cfgEnd (d : Device) (result : Nat) (ok failed : Field) : (d.cfgEnd result ok failed).wr = d.wr := by
  simp [Device.cfgEnd]
@[simp] theorem Device.wr_placeCensus (d : Device) (i : Nat) (bs : List Byte) : (d.placeCensus i bs).wr = d.wr := by
  simp [Device.placeCensus]
@[simp] theorem Device.wr_sendBare (d : Device) (dest tc : Nat) (data : List Byte) : (d.sendBare dest tc data).wr = d.wr := by
  unfold Device.sendBare Device.newMsgId Device.sendData
  dsimp only
  split <;> rfl

theorem Device.wr_cfgBegin {f : Device → Device} (h : ∀ d, (f d).wr = d.wr) (d : Device) (opcode : Nat) (failed : Field) :
    (d.cfgBegin opcode failed f).wr = d.wr := by
  unfold Device.cfgBegin
  dsimp only
  split
  · rfl
  · split
    · rw [Device.wr_eventSig, Device.wr_setFld]
      split <;> rfl
    · exact h _

theorem wr_profileSwitchEff (slot : Nat) (d : Device) : (profileSwitchEff slot d).wr = d.wr := by
  refine Device.wr_cfgBegin (fun d => ?_) d _ _
  dsimp only
  split <;> simp

theorem wr_slotWriteEff (port slot bytes : Nat) (d : Device) : (slotWriteEff port slot bytes d).wr = d.wr := by
  refine Device.wr_cfgBegin (fun d => ?_) d _ _
  dsimp only
  split
  · simp
  · split <;> simp

theorem wr_censusStartEff (scope first last : Nat) (d : Device) : (censusStartEff scope first last d).wr = d.wr := by
  unfold censusStartEff
  dsimp only
  split
  · rfl
  · rw [Device.wr_foldl fun d n => by rw [Device.wr_count, Device.wr_sendBare], Device.wr_placeCensus]
    rfl

theorem wr_censusQueryEff (payload : List Byte) (d : Device) : (censusQueryEff payload d).wr = d.wr := by
  unfold censusQueryEff
  dsimp only
  split
  · rfl
  · split
    · rw [Device.wr_foldl fun d n => d.wr_sendBare _ _ _, Device.wr_sendBare]
    · rw [Device.wr_sendBare]

theorem wr_censusReplyEff (payload : List Byte) (d : Device) : (censusReplyEff payload d).wr = d.wr := by
  unfold censusReplyEff
  split
  · rfl
  · dsimp only
    split
    · rfl
    · split
      · rfl
      · split <;> simp

theorem wr_censusEndEff (d : Device) : (censusEndEff d).wr = d.wr := by
  unfold censusEndEff
  split
  · simp
  · rfl

/-! ### Security commands -/

@[simp] theorem Device.wr_secEnd (d : Device) (n : Nat) : (d.secEnd n).wr = d.wr := by simp [Device.secEnd]
@[simp] theorem Device.wr_secRead (d : Device) (port n : Nat) : (d.secRead port n).wr = d.wr := by
  unfold Device.secRead; split <;> rfl
@[simp] theorem Device.wr_secWrite (d : Device) (port off : Nat) (bs : List Byte) : (d.secWrite port off bs).wr = d.wr := by
  simp [Device.secWrite]
@[simp] theorem Device.wr_installKey (d : Device) (slot : Nat) (key : List Byte) : (d.installKey slot key).wr = d.wr := rfl
@[simp] theorem Device.wr_drawKey (n : Nat) (d : Device) : (d.drawKey n).2.wr = d.wr := by
  induction n generalizing d with
  | zero => rfl
  | succ n ih =>
    unfold Device.drawKey
    split
    · rw [ih]; rfl
    · rfl

theorem Device.wr_secBegin {f : Device → Device} (h : ∀ d, (f d).wr = d.wr) (d : Device) (port opcode n : Nat) (rsvd hostOk : Bool) :
    (d.secBegin port opcode n rsvd hostOk f).wr = d.wr := by
  unfold Device.secBegin
  dsimp only
  split
  · simp
  · split
    · simp
    · split
      · simp
      · rw [h, Device.wr_secRead, Device.wr_setFld]

theorem wr_keyGenerateEff (slot : Nat) (d : Device) : (keyGenerateEff slot d).wr = d.wr := by
  unfold keyGenerateEff
  split
  · simp
  · split
    · simp
    · split <;> simp

theorem wr_keyExportEff (port slot : Nat) (manager : List Byte) (onCurve : Bool) (d : Device) :
    (keyExportEff port slot manager onCurve d).wr = d.wr := by
  unfold keyExportEff
  split
  · simp
  · split
    · simp
    · split
      · simp
      · split <;> simp

theorem wr_keyImportEff (slot : Nat) (record : List Byte) (d : Device) : (keyImportEff slot record d).wr = d.wr := by
  unfold keyImportEff
  split
  · simp
  · split
    · simp
    · split
      · simp
      · split
        · simp
        · dsimp only
          split
          · simp
          · split
            · simp
            · split <;> simp

theorem wr_keyRetireEff (slot : Nat) (d : Device) : (keyRetireEff slot d).wr = d.wr := by
  unfold keyRetireEff
  split
  · simp
  · split <;> simp

theorem wr_fwFloorEff (d : Device) : (fwFloorEff d).wr = d.wr := by
  unfold fwFloorEff; dsimp only; split <;> simp

/-! ### Power -/

@[simp] theorem Device.wr_pwrEvent (d : Device) (f : Field) : (d.pwrEvent f).wr = d.wr := by simp [Device.pwrEvent]
@[simp] theorem Device.wr_setStep (d : Device) (n : Nat) : (d.setStep n).wr = d.wr := rfl
@[simp] theorem Device.wr_emergencyStep (d : Device) (ev : Field) : (d.emergencyStep ev).wr = d.wr := by simp [Device.emergencyStep]
@[simp] theorem Device.wr_closeSamples (d : Device) : d.closeSamples.wr = d.wr := by
  unfold Device.closeSamples
  dsimp only
  split
  · rfl
  · split <;> rfl
@[simp] theorem Device.wr_plannedStep (d : Device) : d.plannedStep.wr = d.wr := by
  unfold Device.plannedStep
  dsimp only
  split
  · simp
  · split <;> simp
@[simp] theorem Device.wr_alertPin (d : Device) : d.alertPin.wr = d.wr := by
  unfold Device.alertPin
  dsimp only
  split
  · rfl
  · split
    · rfl
    · simp
@[simp] theorem Device.wr_putTemp (d : Device) (f : Field) (v : Option Int) : (d.putTemp f v).wr = d.wr := by
  unfold Device.putTemp; split <;> rfl
@[simp] theorem Device.wr_putRail (d : Device) (r : RailReading) : (d.putRail r).wr = d.wr := by
  unfold Device.putRail
  dsimp only
  split
  · rfl
  · split
    · rfl
    · split <;> rfl
@[simp] theorem Device.wr_sample1 (d : Device) (x : Sensors) : (d.sample1 x).wr = d.wr := by
  unfold Device.sample1
  dsimp only
  split <;> simp [Device.wr_foldl Device.wr_putRail]
@[simp] theorem Device.wr_sleepStacks (d : Device) (ss : List Nat) : (d.sleepStacks ss).wr = d.wr :=
  (Device.wr_foldl (fun d _ => d.wr_emit _) _ _).trans rfl

theorem wr_supplyFaultEff (rail : Nat) (d : Device) : (supplyFaultEff rail d).wr = d.wr := by
  unfold supplyFaultEff
  dsimp only
  rw [Device.wr_pwrEvent]
  split <;> rfl

theorem wr_sensorSampleEff (at_ : Nat) (x : Sensors) (d : Device) : (sensorSampleEff at_ x d).wr = d.wr := by
  unfold sensorSampleEff
  dsimp only
  split
  · rfl
  · split
    · rw [Device.wr_sleepStacks, Device.wr_at]
    · split <;> simp

theorem wr_overcurrentEff (rail : Nat) (d : Device) : (overcurrentEff rail d).wr = d.wr := by
  unfold overcurrentEff
  split
  · simp
  · split <;> simp

theorem wr_idleStepEff (at_ : Nat) (d : Device) : (idleStepEff at_ d).wr = d.wr := by
  unfold idleStepEff; dsimp only; split <;> simp

/-! ### Register accesses -/

@[simp] theorem Device.wr_writeField (i : Nat) (val mask : Word) (d : Device) (f : Field) : (d.writeField i val mask f).wr = d.wr := by
  obtain he | ⟨-, ⟨x, he⟩ | ⟨v, he⟩⟩ | ⟨v, he⟩ := d.writeField_cases i val mask f
  · rw [he]
  · rw [he, Device.wr_setFld]
  · rw [he, Device.wr_setReg]
  · rw [he]; rfl

@[simp] theorem Device.wr_afterWrite (d : Device) (port : Nat) (r : Reg) (i : Nat) (val mask : Word) :
    (d.afterWrite port r i val mask).wr = d.wr := by
  obtain ⟨e, ⟨w, rfl⟩, he | ⟨-, n, he⟩ | ⟨f, -, -, he⟩⟩ := d.afterWrite_cases port r i val mask
  · rw [he]
  · rw [he, Device.wr_secBegin (f := id) fun _ => rfl]
  · rw [he]; rfl

@[simp] theorem Device.wr_writeReg (d : Device) (port : Nat) (r : Reg) (i : Nat) (val mask : Word) :
    (d.writeReg port r i val mask).wr = d.wr := by
  unfold Device.writeReg
  split
  · rfl
  · rw [Device.wr_afterWrite, Device.wr_foldl (Device.wr_writeField i val mask)]

@[simp] theorem Device.wr_readClears (d : Device) (r : Reg) (i : Nat) (mask : Word) : (d.readClears r i mask).wr = d.wr :=
  Device.wr_foldl (fun d f => by dsimp only; split <;> rfl) _ _

@[simp] theorem Device.wr_writeMsix (d : Device) (n size value : Nat) : (d.writeMsix n size value).wr = d.wr := by
  refine Device.wr_foldl ?_ _ _
  exact fun _ _ => rfl

/-- Of the writes that reach no register, those of a CANCEL doorbell alone may write memory. -/
theorem Device.wr_otherWrite (d : Device) {fn : Fn} {bar off : Nat} (size value : Nat) (h : doorbellAt fn bar off ≠ some true) :
    (d.otherWrite fn bar off size value).wr = d.wr := by
  unfold Device.otherWrite
  split
  · next c hc =>
    cases c with
    | true => exact absurd hc h
    | false =>
      split
      · unfold Device.doorbell
        rw [if_neg Bool.false_ne_true]
        split
        · exact wr_hqTailEff _ _ _
        · exact wr_hqConsumedEff _ _ _
      · exact d.wr_count _ _ _
  · split <;> simp
  · rfl

theorem wr_registerWriteEff {port bar off : Nat} (size value : Nat) (d : Device) (h : doorbellAt ⟨port, 0⟩ bar off ≠ some true) :
    (registerWriteEff port bar off size value d).wr = d.wr := by
  have hother (d : Device) : (d.otherWrite ⟨port, 0⟩ bar off size value).wr = d.wr := d.wr_otherWrite size value h
  unfold registerWriteEff
  dsimp only
  split
  · split
    · exact d.wr_writeReg _ _ _ _ _
    · split
      · rfl
      · exact Device.wr_asHolder (fun d => d.wr_writeReg _ _ _ _ _) _ _ _
  · split
    · rfl
    · exact Device.wr_asHolder hother _ _ _
  · split
    · exact Device.wr_asHolder hother _ _ _
    · rfl

theorem wr_rcReadEff (port bar off size : Nat) (d : Device) : (rcReadEff port bar off size d).wr = d.wr := by
  unfold rcReadEff
  dsimp only
  split
  · split <;> simp
  · rfl
  · rfl

end Sys2Proof.Machine

/-! ## What the metergate's commands change (R411, R420) -/

namespace Sys2Proof.Machine

/-- The registers of the MTR_ block that the metergate's own commands write. -/
def mtrRegs : List Reg :=
  [.MTR_ID, .MTR_STATUS, .MTR_PERIOD, .MTR_PRODUCED, .MTR_CONSUMED, .MTR_CONFIG, .MTR_FW_STATUS, .MTR_EVENTS, .MTR_DIGEST]

/-- A device without its metergate, its registers, its count of free values and what it has sent. -/
def Device.offMeter (d : Device) : Device := { d with regs := [], freeCount := 0, out := [], mtr := {} }

/-- A device differs from another at most in the metergate, its registers, the free values drawn and what was sent. -/
structure Device.MeterOnly (d e : Device) : Prop where
  rest : e.offMeter = d.offMeter
  regs : ∀ r j, j < 0x10000 → r ∉ mtrRegs → e.reg r j = d.reg r j

theorem Device.MeterOnly.refl (d : Device) : d.MeterOnly d := ⟨rfl, fun _ _ _ _ => rfl⟩

theorem Device.MeterOnly.trans {d e g : Device} (h : d.MeterOnly e) (h' : e.MeterOnly g) : d.MeterOnly g :=
  ⟨h'.rest.trans h.rest, fun r j hj hr => (h'.regs r j hj hr).trans (h.regs r j hj hr)⟩

theorem Device.MeterOnly.ite {c : Prop} [Decidable c] {d e e' : Device} (h : d.MeterOnly e) (h' : d.MeterOnly e') :
    d.MeterOnly (if c then e else e') := by
  split
  · exact h
  · exact h'

/-- A write to a field of one of the metergate's registers. -/
theorem Device.MeterOnly.setFld {d e : Device} {f : Field} {x i : Nat} (h : d.MeterOnly e) (hf : f.reg ∈ mtrRegs := by decide)
    (hi : i < 0x10000 := by decide) : d.MeterOnly (e.setFld f x i) :=
  h.trans ⟨rfl, fun _ j hj hr => e.reg_setFld_other f x i j (fun he => hr (he ▸ hf)) hi hj⟩

/-- A change of the metergate's own state. -/
theorem Device.MeterOnly.mtr {d e : Device} {m : MtrState} (h : d.MeterOnly e) : d.MeterOnly { e with mtr := m } :=
  h.trans ⟨rfl, fun _ _ _ _ => rfl⟩

/-- Free values drawn. -/
theorem Device.MeterOnly.freeCount {d e : Device} {n : Nat} (h : d.MeterOnly e) : d.MeterOnly { e with freeCount := n } :=
  h.trans ⟨rfl, fun _ _ _ _ => rfl⟩

theorem Device.MeterOnly.emit {d e : Device} {o : Out} (h : d.MeterOnly e) : d.MeterOnly (e.emit o) :=
  h.trans ⟨rfl, fun _ _ _ _ => rfl⟩

theorem Device.MeterOnly.msix {d e : Device} {fn : Fn} {v : Nat} (h : d.MeterOnly e) : d.MeterOnly (e.msix fn v) := by
  unfold Device.msix
  split
  · exact .emit h
  · exact h

theorem Device.MeterOnly.mtrEvent {d e : Device} {f : Field} (h : d.MeterOnly e) (hf : f.reg ∈ mtrRegs := by decide) :
    d.MeterOnly (e.mtrEvent f) := by
  have hevent : d.MeterOnly (e.event f) := .setFld h hf
  unfold Device.mtrEvent Device.mtrSignal
  dsimp only
  exact .ite (.msix (.ite (.msix hevent) hevent)) (.ite (.msix hevent) hevent)

theorem Device.MeterOnly.closePeriod {d e : Device} {cause : Nat} {next : Option Nat} (h : d.MeterOnly e) :
    d.MeterOnly (e.closePeriod cause next) := by
  unfold Device.closePeriod
  split
  · exact .mtr h
  · split
    · exact .mtr h
    · dsimp only
      exact .ite (.mtrEvent (.setFld (.setFld (.mtr (.ite h (.freeCount h)))))) (.setFld (.setFld (.mtr (.ite h (.freeCount h)))))

theorem Device.MeterOnly.placeRecord {d e : Device} {bs : List Byte} (h : d.MeterOnly e) : d.MeterOnly (e.placeRecord bs) := by
  unfold Device.placeRecord
  exact .mtrEvent (.setFld (.mtr h))

theorem Device.MeterOnly.popPeriod {d e : Device} (h : d.MeterOnly e) : d.MeterOnly e.popPeriod := by
  unfold Device.popPeriod
  exact .setFld (.mtr h)

theorem Device.MeterOnly.signNext {d e : Device} (h : d.MeterOnly e) : d.MeterOnly e.signNext := by
  unfold Device.signNext
  split
  · exact h
  · dsimp only
    split
    · exact .popPeriod (.placeRecord h)
    · split
      · exact .mtr (.placeRecord (.mtr h))
      · split
        · exact .mtr (.placeRecord (.mtr h))
        · exact .popPeriod (.mtr (.placeRecord (.mtr h)))

theorem Device.MeterOnly.showMeter {d e : Device} (h : d.MeterOnly e) : d.MeterOnly e.showMeter := by
  unfold Device.showMeter
  dsimp only
  refine List.foldlRecOn (motive := d.MeterOnly) _ _ ?_ fun g hg k hk => ?_
  · exact .setFld (.setFld (.setFld (.setFld (.setFld h))))
  · have hk : k < 6 := List.mem_range.mp hk
    exact .setFld hg (by decide) (by omega)

theorem Device.MeterOnly.meterStart {d e : Device} (h : d.MeterOnly e) : d.MeterOnly e.meterStart := by
  unfold Device.meterStart
  dsimp only
  split
  · exact .placeRecord (.freeCount (.setFld (.showMeter (.mtr (.setFld (.setFld (.setFld (.setFld (.mtr h)))))))))
  · exact .mtrEvent (.setFld (.showMeter (.setFld (.setFld (.setFld (.setFld (.mtr h)))))))

theorem Device.MeterOnly.fwDone {d e : Device} {result state : Nat} (h : d.MeterOnly e) : d.MeterOnly (e.fwDone result state) := by
  unfold Device.fwDone
  exact .mtrEvent (.setFld (.setFld (.setFld h)))

theorem Device.MeterOnly.fwProceed {d e : Device} (h : d.MeterOnly e) : d.MeterOnly e.fwProceed := by
  unfold Device.fwProceed
  split
  · exact h
  · split
    · exact h
    · dsimp only
      split
      · exact .fwDone (.mtr h)
      · exact .fwDone (.meterStart (.mtr h))

end Sys2Proof.Machine

/-! ## The commands that keep memory, and the metergate's (R10, R411, R420) -/

namespace Sys2Proof.Machine

/-! ### From an effect to its command -/

/-- What an effect relates on a device, and what holds of an untouched one, its command relates: a dead device is untouched. -/
theorem State.act_related (P : Device → Device → Prop) (s : State) {f : Device → Device} (hrefl : ∀ d, P d d) (hf : ∀ d, P d (f d)) :
    ∃ d, s.act f = s.land d ∧ P s.dev d := by
  refine ⟨_, rfl, ?_⟩
  split
  · exact hrefl _
  · exact hf _

theorem State.act_meterOnly (s : State) {f : Device → Device} (hf : ∀ d : Device, d.MeterOnly (f d)) :
    ∃ d, s.act f = s.land d ∧ s.dev.MeterOnly d :=
  s.act_related Device.MeterOnly .refl hf

theorem State.act_wr (s : State) {f : Device → Device} (hf : ∀ d, (f d).wr = d.wr) : ∃ d, s.act f = s.land d ∧ d.wr = s.dev.wr :=
  s.act_related (fun d e => e.wr = d.wr) (fun _ => rfl) hf

/-- A command that the device takes from the holder alone. -/
theorem State.act_asHolder_wr (s : State) {f : Device → Device} (port : Nat) (o : Bool) (hf : ∀ d, (f d).wr = d.wr) :
    ∃ d, s.act (fun d => d.asHolder port f o) = s.land d ∧ d.wr = s.dev.wr := s.act_wr fun d => d.wr_asHolder hf port o

theorem secCommand_wr (s : State) {f : Device → Device} (port opcode n : Nat) (rsvd hostOk : Bool) (hf : ∀ d, (f d).wr = d.wr) :
    ∃ d, secCommand port opcode n rsvd hostOk f s = s.land d ∧ d.wr = s.dev.wr :=
  s.act_asHolder_wr port false fun d => d.wr_secBegin hf port opcode n rsvd hostOk

theorem bar4_meterOnly (s : State) {f : Device → Device} (port : Nat) (hf : ∀ d : Device, d.MeterOnly (f d)) :
    ∃ d, bar4 port f s = s.land d ∧ s.dev.MeterOnly d := by
  refine s.act_meterOnly fun d => ?_
  split
  · exact .refl d
  · exact hf d

/-- Between commands, a command that makes no write leaves every byte. -/
theorem State.byte_of_land {s t : State} {d : Device} (hs : s.settled) (hw : d.wr = s.dev.wr) (h : s.land d = .next t) (a : Nat) :
    t.dev.byte a = s.dev.byte a := by
  obtain rfl : s.put d = t := by injection h
  refine Device.byte_congr ?_ hs.2.symm a
  show Memory.land s.dev.mem d.wr = s.dev.mem
  rw [hw, hs.2]; rfl

/-! ### The metergate -/

theorem Device.MeterOnly.wr {d e : Device} (h : d.MeterOnly e) : e.wr = d.wr := (congrArg Device.wr h.rest :)

/-- The units that O60 names are among what stays. -/
theorem Device.MeterOnly.units {d e : Device} (h : d.MeterOnly e) : e.turn = d.turn ∧ e.gen = d.gen ∧ e.fur = d.fur ∧ e.ho = d.ho ∧
    e.slu = d.slu ∧ e.pim = d.pim ∧ e.scr = d.scr ∧ e.sec = d.sec ∧ e.pwr = d.pwr ∧ e.mem5 = d.mem5 ∧ e.cores = d.cores := by
  have kept {α : Type} (p : Device → α) : p e.offMeter = p d.offMeter := congrArg p h.rest
  exact ⟨kept Device.turn, kept Device.gen, kept Device.fur, kept Device.ho, kept Device.slu, kept Device.pim, kept Device.scr, kept Device.sec,
    kept Device.pwr, kept Device.mem5, kept Device.cores⟩

theorem meterOnly_meterStartEff (d : Device) : d.MeterOnly (meterStartEff d) := by
  unfold meterStartEff
  split
  · exact .meterStart (.refl d)
  · exact .refl d

theorem meterOnly_intervalCloseEff (d : Device) : d.MeterOnly (intervalCloseEff d) := by
  unfold intervalCloseEff
  split
  · exact .closePeriod (.refl d)
  · exact .refl d

theorem meterOnly_tallyNowEff (d : Device) : d.MeterOnly (tallyNowEff d) := by
  unfold tallyNowEff
  dsimp only
  split
  · exact .closePeriod (.refl d)
  · exact .mtr (.refl d)

theorem meterOnly_periodCloseEff (d : Device) : d.MeterOnly (periodCloseEff d) := by
  unfold periodCloseEff
  split
  · exact .closePeriod (.refl d)
  · exact .refl d

theorem meterOnly_recordSignEff (d : Device) : d.MeterOnly (recordSignEff d) := by
  unfold recordSignEff
  split
  · exact .refl d
  · split
    · exact .mtrEvent (.refl d)
    · exact .fwProceed (.signNext (.refl d))

theorem meterOnly_mtrConsumedEff (value : Nat) (d : Device) : d.MeterOnly (mtrConsumedEff value d) := by
  unfold mtrConsumedEff
  split
  · exact .refl d
  · exact .fwProceed (.setFld (.refl d))

theorem meterOnly_fwDrainTimeoutEff (d : Device) : d.MeterOnly (fwDrainTimeoutEff d) := by
  unfold fwDrainTimeoutEff
  split
  · exact .fwDone (.mtr (.refl d))
  · exact .refl d

/-- Every one of the metergate's own commands changes the metergate and its registers alone. -/
theorem exec_metering (c : Instr) (s : State) (h : metering c = true) : ∃ d, exec c s = s.land d ∧ s.dev.MeterOnly d := by
  cases c
  case metergateStart => exact s.act_meterOnly meterOnly_meterStartEff
  case intervalClose => exact s.act_meterOnly meterOnly_intervalCloseEff
  case tallyNow port => exact bar4_meterOnly s port meterOnly_tallyNowEff
  case mtrClose port => exact bar4_meterOnly s port fun d => .closePeriod (.refl d)
  case periodClose => exact s.act_meterOnly meterOnly_periodCloseEff
  case recordSign => exact s.act_meterOnly meterOnly_recordSignEff
  case mtrConsumedWrite port value => exact bar4_meterOnly s port (meterOnly_mtrConsumedEff value)
  case fwDrainTimeout => exact s.act_meterOnly meterOnly_fwDrainTimeoutEff
  all_goals exact (Bool.false_ne_true h).elim

/-! ### The others that make no write to memory -/

@[simp] theorem Device.wr_mtrEvent (d : Device) (f : Field) : (d.mtrEvent f).wr = d.wr := by
  unfold Device.mtrEvent Device.mtrSignal
  dsimp only
  split
  · split <;> simp
  · split <;> simp

theorem wr_meterQueryEff (payload : List Byte) (d : Device) : (meterQueryEff payload d).wr = d.wr := by
  unfold meterQueryEff
  dsimp only
  split
  · exact d.wr_mtrEvent _
  · exact d.wr_sendBare _ _ _

/-- A heartbeat that ends a rider reset lets a firmware change of the metergate go on. -/
theorem wr_heartbeatEff (d : Device) : (heartbeatEff d).wr = d.wr := by
  unfold heartbeatEff
  dsimp only
  split
  · rfl
  · split
    · rw [(Device.MeterOnly.fwProceed (.refl _)).wr]
      simp
    · simp

theorem wr_execRegisterWriteEff (fn : Fn) (bar off size value : Nat) (h : doorbellAt fn bar off ≠ some true) (d : Device) :
    (if fn.vf ≠ 0 then (if d.barClosed then d else d.otherWrite fn bar off size value)
      else registerWriteEff fn.port bar off size value d).wr = d.wr := by
  obtain ⟨port, vf⟩ := fn
  by_cases hvf : vf = 0
  · subst hvf
    exact wr_registerWriteEff size value d h
  · rw [if_pos hvf]
    split
    · rfl
    · exact d.wr_otherWrite size value h

/-- Every command of `keepsMemory` makes no write to memory. -/
theorem exec_keepsMemory (c : Instr) (s : State) (h : keepsMemory c = true) : ∃ d, exec c s = s.land d ∧ d.wr = s.dev.wr := by
  by_cases hm : metering c = true
  · obtain ⟨d, hexec, hd⟩ := exec_metering c s hm
    exact ⟨d, hexec, hd.wr⟩
  · cases c
    case leaseRenew port at_ =>
      refine s.act_wr fun d => (d.at_ at_).wr_fromHolder (fun d => ?_) port
      rfl
    case leaseWrite port at_ ms =>
      refine s.act_wr fun d => (d.at_ at_).wr_fromHolder (fun d => ?_) port
      rfl
    case hqTail port q tail => exact s.act_asHolder_wr port true (wr_hqTailEff _ _)
    case hqConsumed port q count => exact s.act_asHolder_wr port true (wr_hqConsumedEff _ _)
    case pimDqTailWrite port tail => exact s.act_asHolder_wr port false (wr_pimDqTailEff _)
    case furCqTailWrite port tail => exact s.act_asHolder_wr port false (wr_furCqTailEff _)
    case refreshDue k bank issue => exact s.act_wr (wr_refreshEff k bank issue)
    case rfmRequest k bank => exact (s.act_wr (wr_rfmRequest k bank) :)
    case mr4Read k rate => exact s.act_wr (wr_mr4Eff k rate)
    case windowOpen at_ => exact s.act_wr (wr_windowOpenEff at_)
    case profileSwitch port slot => exact s.act_asHolder_wr port true (wr_profileSwitchEff slot)
    case slotWrite port slot bytes => exact s.act_asHolder_wr port true (wr_slotWriteEff port slot bytes)
    case censusStart port scope first last => exact s.act_asHolder_wr port true (wr_censusStartEff scope first last)
    case censusQuery payload => exact s.act_wr (wr_censusQueryEff payload)
    case censusReply payload => exact s.act_wr (wr_censusReplyEff payload)
    case censusEnd => exact s.act_wr wr_censusEndEff
    case keyGenerate port slot rsvd => exact secCommand_wr s port 1 0 rsvd true (wr_keyGenerateEff _)
    case keyExport port slot manager onCurve rsvd hostOk => exact secCommand_wr s port 2 97 rsvd hostOk (wr_keyExportEff port _ manager onCurve)
    case keyImport port slot record rsvd hostOk => exact secCommand_wr s port 3 160 rsvd hostOk (wr_keyImportEff _ record)
    case keyRetire port slot rsvd => exact secCommand_wr s port 4 0 rsvd true (wr_keyRetireEff _)
    case attest port nonce rsvd hostOk => exact secCommand_wr s port 5 32 rsvd hostOk fun d => by simp
    case identityCmd port rsvd hostOk => exact secCommand_wr s port 6 0 rsvd hostOk fun d => by simp
    case fwFloor port rsvd => exact secCommand_wr s port 8 0 rsvd true wr_fwFloorEff
    case meterQuery payload => exact s.act_wr (wr_meterQueryEff payload)
    case riderHeartbeat => exact s.act_wr wr_heartbeatEff
    case dumpRelease port => exact s.act_asHolder_wr port false fun _ => rfl
    case sentClear port => exact s.act_asHolder_wr port false fun _ => rfl
    case supplyFault rail => exact s.act_wr (wr_supplyFaultEff rail)
    case sensorSample at_ x => exact ⟨_, rfl, wr_sensorSampleEff at_ x s.dev⟩
    case vcoreOvercurrent rail => exact s.act_wr (wr_overcurrentEff rail)
    case idleStepTick at_ => exact s.act_wr (wr_idleStepEff at_)
    case rcFieldRead at_ fn bar off size =>
      refine ⟨_, rfl, ?_⟩
      dsimp only
      split
      · rfl
      · split
        · rfl
        · split
          · rfl
          · exact wr_rcReadEff _ _ _ _ _
    case perst1Deassert => exact ⟨_, rfl, rfl⟩
    case registerWrite fn bar off size value =>
      have hd : doorbellAt fn bar off ≠ some true := by simpa [keepsMemory] using h
      exact s.act_wr (wr_execRegisterWriteEff fn bar off size value hd)
    all_goals exact absurd h hm

/-- Settles O60: no command of the first family makes a write to memory, and none of the second touches more than the metergate. -/
theorem commandsKeepWhatTheyDoNotName : Obligations.CommandsKeepWhatTheyDoNotName := by
  refine ⟨fun c s t hs hc hexec a => ?_, fun c s t hs hc hexec => ?_⟩
  · obtain ⟨d, hland, hw⟩ := exec_keepsMemory c s hc
    exact State.byte_of_land hs hw (hland.symm.trans hexec) a
  · obtain ⟨d, hland, hd⟩ := exec_metering c s hc
    have hnext := hland.symm.trans hexec
    have hbyte := State.byte_of_land hs hd.wr hnext
    obtain rfl : s.put d = t := by injection hnext
    exact ⟨⟨hbyte, hd.regs⟩, hd.units⟩

end Sys2Proof.Machine

/-! ## Handoff commands (R297)

A handoff command first acts on what stands over, which in a settled state is nothing, and then takes its entry, which leaves the
handoff tables, the furrows and every register but HQ_Q_STATUS. What Table 12.10 says of each command is one equation of its effect. -/

namespace Sys2Proof.Machine

/-! ### In a settled state nothing stands over -/

/-- A key that reads other than the default is listed, with what it reads. -/
theorem mem_of_sget_ne {α : Type} {dflt : α} {m : SMap α} {a : Nat} (h : sget dflt m a ≠ dflt) : (a, sget dflt m a) ∈ m := by
  induction m with
  | nil => exact absurd rfl h
  | cons y m ih =>
    obtain ⟨k, v⟩ := y
    by_cases hk : k = a
    · simp [sget, hk]
    · simp only [sget, hk, if_false] at h ⊢
      exact List.mem_cons_of_mem _ (ih h)

theorem Device.hoSettled.not_placing {d : Device} (h : d.hoSettled) {i : Nat} {r : HoRx} (hr : (d.hoLoc i).rx = some r) : r.placing = false := by
  obtain ⟨-, hplaced⟩ := h
  have hne : sget {} d.ho.locals i ≠ {} := fun he => by simp [Device.hoLoc, he] at hr
  have hloc := hplaced _ (mem_of_sget_ne hne)
  change (d.hoLoc i).rx.any (fun r => r.placing) = false at hloc
  simpa [hr] using hloc

theorem Device.hoSettled.rxPlaced {d : Device} (h : d.hoSettled) (i : Nat) : d.rxPlaced i = d := by
  unfold Device.rxPlaced
  split
  · rfl
  · next r hr => simp [h.not_placing hr]

theorem Device.hoFailures_nil {d : Device} (h : d.ho.failed = []) (n : Nat) : Device.hoFailures n d = d := by
  cases n with
  | zero => rfl
  | succ n => simp [Device.hoFailures, h]

/-- A fold whose every step leaves its start leaves it. -/
theorem foldl_of_fixed {α β : Type} {f : α → β → α} {a : α} (h : ∀ b, f a b = a) (l : List β) : l.foldl f a = a := by
  induction l with
  | nil => rfl
  | cons b l ih => rw [List.foldl_cons, h, ih]

theorem Device.hoSettled.settleHandoffs {d : Device} (h : d.hoSettled) : d.settleHandoffs = d := by
  have hplaced : (d.ho.locals.map (·.1)).foldl (fun (d : Device) i => d.rxPlaced i) d = d := foldl_of_fixed h.rxPlaced _
  obtain ⟨hfailed, -⟩ := h
  unfold Device.settleHandoffs
  rw [hplaced]
  exact Device.hoFailures_nil hfailed _

/-! ### Taking the entry -/

/-- Taking an entry moves HEAD alone: every other register's fields stand. -/
theorem Device.fld_hoTake (d : Device) {q : Nat} {f : Field} (i : Nat) (hf : f.reg ≠ .HQ_Q_STATUS) (hq : q < 256) (hi : i < 0x10000) :
    (d.hoTake q).fld f i = d.fld f i :=
  d.fld_setFld_reg _ q i hf (by omega) hi

theorem Device.node_hoTake (d : Device) {q : Nat} (hq : q < 256) : (d.hoTake q).node = d.node :=
  d.fld_hoTake 0 (by decide) hq (by decide)

theorem Device.turnNo_hoTake (d : Device) {q : Nat} (hq : q < 256) : (d.hoTake q).turnNo = d.turnNo :=
  d.fld_hoTake 0 (by decide) hq (by decide)

@[simp] theorem Device.hoEntry_hoTake (d : Device) (q k : Nat) : (d.hoTake q).hoEntry k = d.hoEntry k := rfl
@[simp] theorem Device.hoLoc_hoTake (d : Device) (q k : Nat) : (d.hoTake q).hoLoc k = d.hoLoc k := rfl
@[simp] theorem Device.furrow_hoTake (d : Device) (q k : Nat) : (d.hoTake q).furrow k = d.furrow k := rfl
@[simp] theorem Device.furById_hoTake (d : Device) (q id : Nat) : (d.hoTake q).furById id = d.furById id := rfl

/-! ### The command at the head of a queue -/

/-- A handoff command that finds its opcode at the head of its queue takes the entry and answers by it: a reserved opcode, a furrow
without a descriptor, or the command's own effect. -/
theorem Device.hoSettled.hoCommand {d : Device} (h : d.hoSettled) {q : Nat} (hfront : d.hqFront q 3 = true) {opcode : Nat → Bool}
    {cmd : List Byte} (hop : opcode (HandoffCmd.ofBytes cmd).opcode = true) (f : Nat → Nat → HoCmd → Device → Device) :
    d.hoCommand q opcode cmd f =
      if (HandoffCmd.ofBytes cmd).opcode = 0 ∨ (HandoffCmd.ofBytes cmd).opcode > 7 then (d.hoTake q).hoEnd (d.frontCmd q cmd) 3 0 0
      else
        match d.furById (HandoffCmd.ofBytes cmd).furrow with
        | none => (d.hoTake q).hoEnd (d.frontCmd q cmd) 5 0 0
        | some i => f (HandoffCmd.ofBytes cmd).node i (d.frontCmd q cmd) (d.hoTake q) := by
  unfold Device.hoCommand
  simp only [h.settleHandoffs, hfront, hop, Bool.not_true, Bool.or_self, Bool.false_eq_true, if_false, Device.furById_hoTake]
  rfl

/-- A command of a reserved OPCODE ends INVALID. -/
theorem State.act_hoCommand_reserved {s : State} (hs : s.awake) (h : s.dev.hoSettled) {q : Nat} (hq : q < 256)
    (hfront : s.dev.hqFront q 3 = true) {opcode : Nat → Bool} {cmd : List Byte} (hop : opcode (HandoffCmd.ofBytes cmd).opcode = true)
    (hres : (HandoffCmd.ofBytes cmd).opcode = 0 ∨ 7 < (HandoffCmd.ofBytes cmd).opcode) (f : Nat → Nat → HoCmd → Device → Device) :
    s.act (fun d => d.hoCommand (q % 256) opcode cmd f) = .next (s.put ((s.dev.hoTake q).hoEnd (s.dev.frontCmd q cmd) 3 0 0)) := by
  rw [State.act_put _ _ hs.2, Nat.mod_eq_of_lt hq, h.hoCommand hfront hop, if_pos hres]

/-- A command about a furrow that no descriptor has ends NO_FURROW. -/
theorem State.act_hoCommand_noFurrow {s : State} (hs : s.awake) (h : s.dev.hoSettled) {q : Nat} (hq : q < 256)
    (hfront : s.dev.hqFront q 3 = true) {n : Nat} {cmd : List Byte} (hn : (HandoffCmd.ofBytes cmd).opcode = n) (hdef : 0 < n ∧ n ≤ 7)
    (hk : s.dev.furById (HandoffCmd.ofBytes cmd).furrow = none) {opcode : Nat → Bool} (hop : opcode n = true)
    (f : Nat → Nat → HoCmd → Device → Device) :
    s.act (fun d => d.hoCommand (q % 256) opcode cmd f) = .next (s.put ((s.dev.hoTake q).hoEnd (s.dev.frontCmd q cmd) 5 0 0)) := by
  rw [State.act_put _ _ hs.2, Nat.mod_eq_of_lt hq, h.hoCommand hfront (by rwa [hn]), if_neg (by omega), hk]

/-- A command about a furrow of this device has its own effect on the device with the entry taken. -/
theorem State.hoFront.act {s : State} {q k : Nat} {cmd : List Byte} (h : s.hoFront q k cmd) {n : Nat}
    (hn : (HandoffCmd.ofBytes cmd).opcode = n) (hdef : 0 < n ∧ n ≤ 7) {opcode : Nat → Bool} (hop : opcode n = true)
    (f : Nat → Nat → HoCmd → Device → Device) :
    s.act (fun d => d.hoCommand (q % 256) opcode cmd f) =
      .next (s.put (f (HandoffCmd.ofBytes cmd).node k (s.dev.frontCmd q cmd) (s.dev.hoTake q))) := by
  obtain ⟨hs, hset, hq, hfront, hk⟩ := h
  rw [State.act_put _ _ hs.2, Nat.mod_eq_of_lt hq, hset.hoCommand hfront (by rwa [hn]), if_neg (by omega), hk]

/-! ### The effects (Table 12.10) -/

section
variable {d : Device} {k : Nat}

theorem homeOpenEff_new {node : Nat} (c : HoCmd) (hhome : d.isHome k = true) (hnone : (d.hoEntry k).homeState = 0)
    (hf : (d.furrow k).state = 2 ∨ (d.furrow k).state = 1 ∧ node = d.node) :
    homeOpenEff node k c d =
      (d.setHoEntry k { d.hoEntry k with homeState := 1, owner := node, gen := 1, since := d.turnNo, furrow := (d.furrow k).id }).hoEnd
        c 1 0 1 := by
  simp only [homeOpenEff, hhome, Bool.not_true, Bool.false_eq_true, if_false]
  rw [if_neg (not_or.mpr ⟨not_not_intro hnone, not_not_intro hf⟩)]

theorem homeCloseEff_owned (c : HoCmd) (hhome : d.isHome k = true) (hstate : (d.hoEntry k).homeState = 1)
    (howner : (d.hoEntry k).owner = d.node) :
    homeCloseEff k c d = (d.setHoEntry k { d.hoEntry k with homeState := 0, since := d.turnNo }).hoEnd c 1 0 (d.hoEntry k).gen := by
  simp only [homeCloseEff, hhome, Bool.not_true, Bool.false_eq_true, if_false]
  rw [if_pos ⟨hstate, howner⟩]

/-- An offer that R290 admits starts, or waits for the furrow's own push. -/
theorem offerCmdEff_admitted (kind rcpt : Nat) (c : HoCmd) (hshadow : d.isShadow = false) (hmay : d.mayOffer k = true) :
    offerCmdEff kind rcpt k c d = d.offerOrWait k kind rcpt (some c) false := by
  simp [offerCmdEff, hshadow, hmay]

/-- A device that has no part in a handoff of the furrow yet may claim it. -/
theorem not_claimBusy (hshadow : d.isShadow = false) (hlocal : (d.hoEntry k).localState = 0) (hrx : (d.hoLoc k).rx = none)
    (hclaim : (d.hoLoc k).claim = none) :
    ¬(d.isShadow = true ∨ (d.hoEntry k).localState ≠ 0 ∨ (d.hoLoc k).rx.isSome = true ∨ (d.hoLoc k).claim.isSome = true) := by
  simp [hshadow, hlocal, hrx, hclaim]

theorem claimEff_hosted (c : HoCmd) (hshadow : d.isShadow = false) (hlocal : (d.hoEntry k).localState = 0) (hrx : (d.hoLoc k).rx = none)
    (hclaim : (d.hoLoc k).claim = none) (hhome : d.isHome k = false) (hf : (d.furrow k).state = 2) :
    claimEff k c d =
      (d.setHoLoc k { d.hoLoc k with claim := some c }).hoCtl k (d.furrow k).home 0x39 (d.hoEntry k).gen 0 0 0 0 0 [] 0 c.op := by
  simp only [claimEff, hhome, Bool.false_eq_true, if_false]
  rw [if_neg (not_claimBusy hshadow hlocal hrx hclaim), if_neg (not_not_intro hf)]

/-- A home that owns the request offers it to itself (R21). -/
theorem claimEff_home (c : HoCmd) (hshadow : d.isShadow = false) (hlocal : (d.hoEntry k).localState = 0) (hrx : (d.hoLoc k).rx = none)
    (hclaim : (d.hoLoc k).claim = none) (hhome : d.isHome k = true) (hstate : (d.hoEntry k).homeState = 1)
    (howner : (d.hoEntry k).owner = d.node) (hmay : d.mayOffer k = true) :
    claimEff k c d = (d.setHoLoc k { d.hoLoc k with claim := some c }).offerOrWait k 3 d.node none false := by
  simp only [claimEff, hhome, hmay, if_true, Bool.true_eq_false, if_false, Device.modHoLoc]
  rw [if_neg (not_claimBusy hshadow hlocal hrx hclaim), if_neg (not_or.mpr ⟨not_not_intro hstate, not_not_intro howner⟩)]

theorem queryEff_home (c : HoCmd) (hhome : d.isHome k = true) :
    queryEff k c d = d.hoEnd c 1 0 (d.hoEntry k).gen (d.hoEntry k).owner := by
  simp [queryEff, hhome]

theorem queryEff_away (c : HoCmd) (hhome : d.isHome k = false) :
    queryEff k c d = ((d.setHoLoc k { d.hoLoc k with queries := (d.hoLoc k).queries ++ [c] }).count F.FUR_HO_STATS.QUERIES).hoCtl k
      (d.furrow k).home 0x37 (d.hoEntry k).gen 0 0 0 0 0 [] 0 c.op := by
  simp only [queryEff, hhome, Bool.false_eq_true, if_false]
  rfl

theorem recordEff_written (c : HoCmd) (hhome : d.isHome k = true) :
    recordEff true k c d = (d.hostWrite ⟨c.port, 0⟩ c.addr (hoBytes (d.hoEntry k))).hoEnd c 1 0 (d.hoEntry k).gen := by
  simp [recordEff, hhome]

theorem recordEff_hostError (c : HoCmd) (hhome : d.isHome k = true) :
    recordEff false k c d = d.hostErr.hoEnd c 6 0x10 (d.hoEntry k).gen := by
  simp [recordEff, hhome]

end

/-! ### The commands -/

section
variable {s : State} {q k : Nat} {cmd : List Byte}

theorem State.hoFront.exec_homeOpen (h : s.hoFront q k cmd) (hop : (HandoffCmd.ofBytes cmd).opcode = 1)
    (hhome : (s.dev.hoTake q).isHome k = true) (hnone : (s.dev.hoEntry k).homeState = 0)
    (hf : (s.dev.furrow k).state = 2 ∨ (s.dev.furrow k).state = 1 ∧ (HandoffCmd.ofBytes cmd).node = s.dev.node) :
    exec (.homeOpen q cmd) s = .next (s.put (((s.dev.hoTake q).setHoEntry k { s.dev.hoEntry k with
      homeState := 1, owner := (HandoffCmd.ofBytes cmd).node, gen := 1, since := s.dev.turnNo, furrow := (s.dev.furrow k).id }).hoEnd
        (s.dev.frontCmd q cmd) 1 0 1)) := by
  have ⟨_, _, hq, _, _⟩ := h
  simp only [exec, execHomeOpen]
  rw [h.act hop (by decide) rfl, homeOpenEff_new _ hhome hnone (by rwa [Device.node_hoTake _ hq]), Device.turnNo_hoTake _ hq,
    Device.hoEntry_hoTake, Device.furrow_hoTake]

theorem State.hoFront.exec_homeClose (h : s.hoFront q k cmd) (hop : (HandoffCmd.ofBytes cmd).opcode = 2)
    (hhome : (s.dev.hoTake q).isHome k = true) (hstate : (s.dev.hoEntry k).homeState = 1) (howner : (s.dev.hoEntry k).owner = s.dev.node) :
    exec (.homeClose q cmd) s = .next (s.put (((s.dev.hoTake q).setHoEntry k
      { s.dev.hoEntry k with homeState := 0, since := s.dev.turnNo }).hoEnd (s.dev.frontCmd q cmd) 1 0 (s.dev.hoEntry k).gen)) := by
  have ⟨_, _, hq, _, _⟩ := h
  simp only [exec, execHomeClose]
  rw [h.act hop (by decide) rfl, homeCloseEff_owned _ hhome hstate (by rwa [Device.node_hoTake _ hq]), Device.turnNo_hoTake _ hq,
    Device.hoEntry_hoTake]

theorem State.hoFront.exec_hoMove (h : s.hoFront q k cmd) (hop : (HandoffCmd.ofBytes cmd).opcode = 3)
    (hself : (HandoffCmd.ofBytes cmd).node ≠ s.dev.node) (hnode : (HandoffCmd.ofBytes cmd).node ≠ 0xFFFF)
    (hshadow : (s.dev.hoTake q).isShadow = false) (hmay : (s.dev.hoTake q).mayOffer k = true) :
    exec (.hoMove q cmd) s =
      .next (s.put ((s.dev.hoTake q).offerOrWait k 4 (HandoffCmd.ofBytes cmd).node (some (s.dev.frontCmd q cmd)) false)) := by
  have ⟨_, _, hq, _, _⟩ := h
  simp only [exec, execHoMove]
  rw [h.act hop (by decide) rfl, Device.node_hoTake _ hq, if_neg (not_or.mpr ⟨hself, hnode⟩), offerCmdEff_admitted _ _ _ hshadow hmay]

theorem State.hoFront.exec_hoPark (h : s.hoFront q k cmd) (hop : (HandoffCmd.ofBytes cmd).opcode = 4)
    (hshadow : (s.dev.hoTake q).isShadow = false) (hmay : (s.dev.hoTake q).mayOffer k = true) :
    exec (.hoPark q cmd) s =
      .next (s.put ((s.dev.hoTake q).offerOrWait k 2 (s.dev.furrow k).home (some (s.dev.frontCmd q cmd)) false)) := by
  simp only [exec, execHoPark]
  rw [h.act hop (by decide) rfl, offerCmdEff_admitted _ _ _ hshadow hmay, Device.furrow_hoTake]

theorem State.hoFront.exec_hoClaim (h : s.hoFront q k cmd) (hop : (HandoffCmd.ofBytes cmd).opcode = 5) :
    exec (.hoClaim q cmd) s = .next (s.put (claimEff k (s.dev.frontCmd q cmd) (s.dev.hoTake q))) := by
  simp only [exec, execHoClaim]
  rw [h.act hop (by decide) rfl]

theorem State.hoFront.exec_hoQuery (h : s.hoFront q k cmd) (hop : (HandoffCmd.ofBytes cmd).opcode = 6) :
    exec (.hoQuery q cmd) s = .next (s.put (queryEff k (s.dev.frontCmd q cmd) (s.dev.hoTake q))) := by
  simp only [exec, execHoQuery]
  rw [h.act hop (by decide) rfl]

theorem State.hoFront.exec_recordQuery (h : s.hoFront q k cmd) (hop : (HandoffCmd.ofBytes cmd).opcode = 7) (ok : Bool) :
    exec (.recordQuery q cmd ok) s = .next (s.put (recordEff ok k (s.dev.frontCmd q cmd) (s.dev.hoTake q))) := by
  simp only [exec, execRecordQuery]
  rw [h.act hop (by decide) rfl]

end

/-- Settles O42: each command takes its entry and has the effect that its row of Table 12.10 gives; without a furrow, or of a reserved
OPCODE, it ends by `hoCommand` itself. -/
theorem handoffCommandsComplete : Obligations.HandoffCommandsComplete := by
  refine ⟨fun s q k cmd h => ⟨?homeOpen, ?homeClose, ?move, ?park, ?claim, ?query, ?recordEntry⟩,
    fun s q cmd hs hset hq hfront => ⟨?noFurrow, ?reserved⟩⟩
  case homeOpen => exact fun hop hhome hnone hf => h.exec_homeOpen hop hhome hnone hf
  case homeClose => exact fun hop hhome hstate howner => h.exec_homeClose hop hhome hstate howner
  case move => exact fun hop hself hnode hshadow hmay => h.exec_hoMove hop hself hnode hshadow hmay
  case park => exact fun hop hshadow hmay => h.exec_hoPark hop hshadow hmay
  case claim =>
    intro hop hshadow hlocal hrx hclaim
    have ⟨_, _, hq, _, _⟩ := h
    have hnode := s.dev.node_hoTake hq
    refine ⟨fun hhome hf => ?_, fun hhome hstate howner hmay => ?_⟩
    · rw [h.exec_hoClaim hop, claimEff_hosted _ hshadow hlocal hrx hclaim hhome hf, Device.hoLoc_hoTake, Device.furrow_hoTake,
        Device.hoEntry_hoTake]
    · rw [h.exec_hoClaim hop, claimEff_home _ hshadow hlocal hrx hclaim hhome hstate (howner.trans hnode.symm) hmay, hnode,
        Device.hoLoc_hoTake]
  case query =>
    refine fun hop => ⟨fun hhome => ?_, fun hhome => ?_⟩
    · rw [h.exec_hoQuery hop, queryEff_home _ hhome, Device.hoEntry_hoTake]
    · rw [h.exec_hoQuery hop, queryEff_away _ hhome, Device.hoLoc_hoTake, Device.furrow_hoTake, Device.hoEntry_hoTake]
  case recordEntry =>
    refine fun hop hhome => ⟨?_, ?_⟩
    · rw [h.exec_recordQuery hop, recordEff_written _ hhome, Device.hoEntry_hoTake]
      rfl
    · rw [h.exec_recordQuery hop, recordEff_hostError _ hhome, Device.hoEntry_hoTake]
  case noFurrow => exact fun hop hk => State.act_hoCommand_noFurrow hs hset hq hfront hop (by decide) hk rfl _
  case reserved =>
    refine fun hres => State.act_hoCommand_reserved hs hset hq hfront ?_ hres _
    obtain h0 | h7 := hres
    · simp [h0]
    · simp [h7]

end Sys2Proof.Machine

/-! ## The turn (spec/02)

A turn start is due once `Device.begin` has run, whatever the end of the turn before it did; what the device sends meanwhile, and the
records that a halt writes, leave the turn unit's own state, the registers and the time as they were. -/

namespace Sys2Proof.Machine

/-! ### What sending, and the records of slots, leave to the turn unit -/

/-- What the turn unit goes by: its own state, the registers of the part, and the time. -/
def Device.turnSide (d : Device) : TurnState × SMap Word × Part × Nat := (d.turn, d.regs, d.part, d.now)

theorem Device.turn_of_turnSide {d e : Device} (h : e.turnSide = d.turnSide) : e.turn = d.turn := (Prod.ext_iff.mp h).1

theorem Device.now_of_turnSide {d e : Device} (h : e.turnSide = d.turnSide) : e.now = d.now := congrArg (fun x => x.2.2.2) h

theorem Device.fld_of_turnSide {d e : Device} (h : e.turnSide = d.turnSide) (f : Field) (i : Nat) : e.fld f i = d.fld f i := by
  have hregs : e.regs = d.regs := congrArg (fun x => x.2.1) h
  have hpart : e.part = d.part := congrArg (fun x => x.2.2.1) h
  exact Device.fld_congr (Device.reg_congr hregs hpart) f i

theorem Device.turnSide_foldl {α : Type} {f : Device → α → Device} (h : ∀ d x, (f d x).turnSide = d.turnSide) (l : List α) (d : Device) :
    (l.foldl f d).turnSide = d.turnSide := List.foldl_keep Device.turnSide f h l d

theorem Device.turnSide_sendTurn (d : Device) (port : Nat) (bs : List Byte) : (d.sendTurn port bs).turnSide = d.turnSide := by
  unfold Device.sendTurn Device.newMsgId
  dsimp only
  split <;> rfl

theorem Device.turnSide_sendDown (d : Device) (f : Field) (bs : List Byte) : (d.sendDown f bs).turnSide = d.turnSide :=
  Device.turnSide_foldl (fun d k => d.turnSide_sendTurn k bs) _ d

@[simp] theorem Device.turn_sendTurn (d : Device) (port : Nat) (bs : List Byte) : (d.sendTurn port bs).turn = d.turn :=
  Device.turn_of_turnSide (d.turnSide_sendTurn port bs)
@[simp] theorem Device.turn_sendDown (d : Device) (f : Field) (bs : List Byte) : (d.sendDown f bs).turn = d.turn :=
  Device.turn_of_turnSide (d.turnSide_sendDown f bs)
@[simp] theorem Device.now_sendDown (d : Device) (f : Field) (bs : List Byte) : (d.sendDown f bs).now = d.now :=
  Device.now_of_turnSide (d.turnSide_sendDown f bs)
@[simp] theorem Device.fld_sendDown (d : Device) (f g : Field) (bs : List Byte) (i : Nat) : (d.sendDown f bs).fld g i = d.fld g i :=
  Device.fld_of_turnSide (d.turnSide_sendDown f bs) g i
@[simp] theorem Device.running_sendDown (d : Device) (f : Field) (bs : List Byte) : (d.sendDown f bs).running = d.running := by
  simp [Device.running]
@[simp] theorem Device.awaits_sendDown (d : Device) (f : Field) (bs : List Byte) (m : SealMsg) :
    (d.sendDown f bs).awaits m = d.awaits m := by
  simp [Device.awaits, Device.turnNo]

theorem Device.turnSide_hostWrite (d : Device) (fn : Fn) (a : Nat) (bs : List Byte) : (d.hostWrite fn a bs).turnSide = d.turnSide := by
  unfold Device.hostWrite; split <;> rfl

theorem Device.turnSide_msix (d : Device) (fn : Fn) (v : Nat) : (d.msix fn v).turnSide = d.turnSide := by
  unfold Device.msix; split <;> rfl

theorem Device.turnSide_putNote (d : Device) (n : StatusNote) : (d.putNote n).turnSide = d.turnSide := by
  unfold Device.putNote Device.flumePut
  dsimp only
  split
  · rfl
  · exact d.turnSide_hostWrite _ _ _

theorem Device.turnSide_mirror (d : Device) (a : Nat) (bs : List Byte) : (d.mirror a bs).turnSide = d.turnSide := by
  unfold Device.mirror Device.store
  split
  · split <;> rfl
  · rfl

/-- A slot whose SCREEN_TABLE stays counts no user anew, so no register changes. -/
theorem Device.turnSide_setSlot (d : Device) {i : Nat} {x : Slot} (h : x.img.screenTable = (d.slot i).img.screenTable) :
    (d.setSlot i x).turnSide = d.turnSide := by
  unfold Device.setSlot Device.countUsers
  rw [if_pos h.symm]
  exact Device.turnSide_mirror _ _ _

theorem Device.turnSide_cancelled (d : Device) (i : Nat) : (d.cancelled i).turnSide = d.turnSide :=
  (Device.turnSide_putNote _ _).trans (d.turnSide_setSlot rfl)

theorem Device.turnSide_finishCancels (d : Device) : d.finishCancels.turnSide = d.turnSide := Device.turnSide_foldl Device.turnSide_cancelled _ d

theorem Device.turnSide_flushRecords (d : Device) : d.flushRecords.turnSide = d.turnSide := by
  unfold Device.flushRecords Device.testFlumes
  dsimp only
  rw [Device.turnSide_foldl (f := fun d h => d.setFlume h { d.flume h with since := 0, status := false }) fun _ _ => rfl,
    Device.turnSide_foldl fun d _ => d.turnSide_msix _ _]
  refine Device.turnSide_foldl (fun d h => ?_) _ d
  exact d.turnSide_hostWrite _ _ _

theorem Device.turnSide_flushFlumes (d : Device) : d.flushFlumes.turnSide = d.turnSide := by
  unfold Device.flushFlumes
  dsimp only
  rw [Device.turnSide_foldl (f := fun d h => d.setFlume h {}) fun _ _ => rfl, Device.turnSide_flushRecords,
    Device.turnSide_foldl Device.turnSide_putNote]
  rfl

/-! ### Counts and events -/

theorem Device.turn_count (d : Device) (f : Field) (n i : Nat) : (d.count f n i).turn = d.turn := by
  unfold Device.count; split <;> rfl

/-- A count and an event leave the fields of every other register. -/
theorem Device.fld_count_event (d : Device) {f ev g : Field} (hf : g.reg ≠ f.reg) (hev : g.reg ≠ ev.reg) :
    ((d.count f).event ev).fld g = d.fld g := by
  rw [Device.event, Device.fld_setFld_reg _ _ _ _ hev (by decide) (by decide), Device.count]
  split <;> exact d.fld_setFld_reg _ _ _ hf (by decide) (by decide)

theorem Device.turn_count_event (d : Device) (f ev : Field) : ((d.count f).event ev).turn = d.turn := by
  rw [Device.event, Device.turn_setFld, Device.turn_count]

/-! ### Halting (R53) -/

/-- A halt empties the banks, and defers the entries not examined. -/
theorem Device.turn_halt (d : Device) : d.halt.turn =
    { d.turn with bankA := {}, bankB := {}, deferred := d.turn.deferred + d.turn.unexamined.length, unexamined := [] } :=
  Device.turn_of_turnSide ((Device.turnSide_flushFlumes _).trans (Device.turnSide_finishCancels _))

/-- Of the registers, a halt writes STATE. -/
theorem Device.fld_halt (d : Device) (f : Field) (i : Nat) : d.halt.fld f i = (d.setFld F.TURN_STATUS.STATE 2).fld f i :=
  Device.fld_of_turnSide ((Device.turnSide_flushFlumes _).trans (Device.turnSide_finishCancels _)) f i

/-- Writes to one field of TURN_STATUS leave another. -/
theorem Device.fld_setFld_turnStatus (d : Device) {f g : Field} (x : Nat) (hf : f ∈ Reg.TURN_STATUS.fields)
    (hg : g ∈ Reg.TURN_STATUS.fields) (h : f ≠ g) : (d.setFld f x).fld g = d.fld g := by
  obtain ⟨hfreg, -, hf64, -⟩ := Reg.fields_wellPlaced _ f hf
  obtain ⟨hgreg, -⟩ := Reg.fields_wellPlaced _ g hg
  exact d.fld_setFld_field x 0 (hgreg.trans hfreg.symm) hf64 (Reg.fields_apart hf hg h)

/-- STATE shows HALTED after a halt, and the verdict stands with its reason and the turns it lost. -/
theorem Device.verdict_halt (d : Device) :
    d.halt.fld F.TURN_STATUS.STATE = 2 ∧ d.halt.fld F.TURN_STATUS.LAST_VERDICT = d.fld F.TURN_STATUS.LAST_VERDICT ∧
      d.halt.fld F.TURN_STATUS.LAST_REASON = d.fld F.TURN_STATUS.LAST_REASON ∧ d.halt.turn.verdict = d.turn.verdict ∧
      d.halt.turn.lost = d.turn.lost := by
  simp only [Device.fld_halt, Device.turn_halt, and_true]
  exact ⟨Device.fld_setFld_same _ _ _ _ (by decide), Device.fld_setFld_turnStatus _ _ (by decide) (by decide) (by decide),
    Device.fld_setFld_turnStatus _ _ (by decide) (by decide) (by decide)⟩

/-- The device with a verdict of its turn counted, reported and shown with its reason. -/
def Device.verdictShown (d : Device) (counter ev : Field) (reason v : Nat) : Device :=
  (((d.count counter).event ev).setFld F.TURN_STATUS.LAST_REASON reason).setFld F.TURN_STATUS.LAST_VERDICT v

/-- The turn is settled by an ABORT. -/
def Device.settleAborted (d : Device) : Device := { d with turn.verdict := 2 }

/-- The turn is settled by the device itself, and lost to it. -/
def Device.settleLost (d : Device) : Device := { d with turn.verdict := 3, turn.lost := d.turnNo :: d.turn.lost }

theorem Device.abortTurn_eq (d : Device) (m : SealMsg) :
    d.abortTurn m = if (d.verdictShown F.TURN_ABORT_COUNT.RECEIVED F.TURN_EVENTS.ABORTED m.reason 2).settleAborted.running
      then (d.verdictShown F.TURN_ABORT_COUNT.RECEIVED F.TURN_EVENTS.ABORTED m.reason 2).settleAborted.halt
      else (d.verdictShown F.TURN_ABORT_COUNT.RECEIVED F.TURN_EVENTS.ABORTED m.reason 2).settleAborted := rfl

theorem Device.abortLocally_eq (d : Device) :
    d.abortLocally = (d.verdictShown F.TURN_ABORT_COUNT.LOCAL F.TURN_EVENTS.LOCAL_ABORT 7 3).settleLost.halt := rfl

@[simp] theorem Device.fld_settleAborted (d : Device) (f : Field) (i : Nat) : d.settleAborted.fld f i = d.fld f i := rfl
@[simp] theorem Device.fld_settleLost (d : Device) (f : Field) (i : Nat) : d.settleLost.fld f i = d.fld f i := rfl
@[simp] theorem Device.running_settleAborted (d : Device) : d.settleAborted.running = d.running := rfl

section
variable (d : Device) {counter ev : Field} (reason v : Nat)

@[simp] theorem Device.fld_verdictShown_verdict :
    (d.verdictShown counter ev reason v).fld F.TURN_STATUS.LAST_VERDICT = v % 2 ^ F.TURN_STATUS.LAST_VERDICT.w := by
  rw [Device.verdictShown, Device.fld_setFld_same _ _ _ _ (by decide)]

@[simp] theorem Device.fld_verdictShown_reason :
    (d.verdictShown counter ev reason v).fld F.TURN_STATUS.LAST_REASON = reason % 2 ^ F.TURN_STATUS.LAST_REASON.w := by
  rw [Device.verdictShown, Device.fld_setFld_turnStatus _ _ (by decide) (by decide) (by decide), Device.fld_setFld_same _ _ _ _ (by decide)]

theorem Device.turn_verdictShown : (d.verdictShown counter ev reason v).turn = d.turn := by
  rw [Device.verdictShown, Device.turn_setFld, Device.turn_setFld, Device.turn_count_event]

theorem Device.running_verdictShown (hcounter : counter.reg ≠ .TURN_STATUS) (hev : ev.reg ≠ .TURN_STATUS) :
    (d.verdictShown counter ev reason v).running = d.running := by
  rw [Device.running, Device.verdictShown, Device.fld_setFld_turnStatus _ _ (by decide) (by decide) (by decide),
    Device.fld_setFld_turnStatus _ _ (by decide) (by decide) (by decide), d.fld_count_event hcounter.symm hev.symm, Device.running]

theorem Device.turnNo_verdictShown (hcounter : counter.reg ≠ .TURN_NUMBER) (hev : ev.reg ≠ .TURN_NUMBER) :
    (d.verdictShown counter ev reason v).turnNo = d.turnNo := by
  rw [Device.turnNo, Device.verdictShown, Device.fld_setFld_reg _ _ _ _ (by decide) (by decide) (by decide),
    Device.fld_setFld_reg _ _ _ _ (by decide) (by decide) (by decide), d.fld_count_event hcounter.symm hev.symm, Device.turnNo]

end

/-- An ABORT leaves a RUNNING device HALTED, with the verdict and the reason it carries. -/
theorem Device.abortTurn_running {d : Device} (m : SealMsg) (h : d.running = true) :
    (d.abortTurn m).turn.verdict = 2 ∧ (d.abortTurn m).fld F.TURN_STATUS.LAST_VERDICT = 2 ∧
      (d.abortTurn m).fld F.TURN_STATUS.LAST_REASON = m.reason % 2 ^ F.TURN_STATUS.LAST_REASON.w ∧
      (d.abortTurn m).fld F.TURN_STATUS.STATE = 2 := by
  have hrun := d.running_verdictShown (counter := F.TURN_ABORT_COUNT.RECEIVED) (ev := F.TURN_EVENTS.ABORTED) m.reason 2 (by decide) (by decide)
  rw [Device.abortTurn_eq, Device.running_settleAborted, hrun, if_pos h]
  obtain ⟨hhalted, hverdict, hreason, hsettled, -⟩ :=
    (d.verdictShown F.TURN_ABORT_COUNT.RECEIVED F.TURN_EVENTS.ABORTED m.reason 2).settleAborted.verdict_halt
  rw [hhalted, hverdict, hreason, hsettled, Device.fld_settleAborted, Device.fld_settleAborted, Device.fld_verdictShown_verdict,
    Device.fld_verdictShown_reason]
  exact ⟨rfl, rfl, rfl, rfl⟩

/-- A local abort leaves the device HALTED, its turn lost (R49). -/
theorem Device.abortLocally_halted (d : Device) :
    d.abortLocally.fld F.TURN_STATUS.STATE = 2 ∧ d.abortLocally.fld F.TURN_STATUS.LAST_VERDICT = 3 ∧
      d.abortLocally.fld F.TURN_STATUS.LAST_REASON = 7 ∧ d.abortLocally.turn.verdict = 3 ∧
      d.abortLocally.turn.lost = d.turnNo :: d.turn.lost := by
  have hno := d.turnNo_verdictShown (counter := F.TURN_ABORT_COUNT.LOCAL) (ev := F.TURN_EVENTS.LOCAL_ABORT) 7 3 (by decide) (by decide)
  have hturn := d.turn_verdictShown (counter := F.TURN_ABORT_COUNT.LOCAL) (ev := F.TURN_EVENTS.LOCAL_ABORT) 7 3
  obtain ⟨hhalted, hverdict, hreason, hsettled, hlost⟩ :=
    (d.verdictShown F.TURN_ABORT_COUNT.LOCAL F.TURN_EVENTS.LOCAL_ABORT 7 3).settleLost.verdict_halt
  rw [Device.abortLocally_eq, hhalted, hverdict, hreason, hsettled, hlost, Device.fld_settleLost, Device.fld_settleLost,
    Device.fld_verdictShown_verdict, Device.fld_verdictShown_reason, ← hno, ← hturn]
  exact ⟨rfl, rfl, rfl, rfl, rfl⟩

/-! ### A turn start becomes due (R22 to R26) -/

/-- A turn start has just become due, of which something holds. -/
def Device.Begins (d : Device) (P : DueStart → Prop) : Prop := ∃ e x, d = Device.begin e x ∧ P x

theorem Device.begins_begin {P : DueStart → Prop} {x : DueStart} (h : P x) (d : Device) : (d.begin x).Begins P := ⟨d, x, rfl, h⟩

theorem Device.Begins.turn {d : Device} {P : DueStart → Prop} (h : d.Begins P) :
    ∃ x, d.turn.due = some x ∧ P x ∧ d.turn.started = true := by
  obtain ⟨e, x, rfl, hx⟩ := h
  exact ⟨x, rfl, hx, rfl⟩

theorem Device.Begins.ite {c : Prop} [Decidable c] {d e : Device} {P : DueStart → Prop} (h : d.Begins P) (h' : e.Begins P) :
    (if c then d else e).Begins P := by
  split
  · exact h
  · exact h'

/-- A command whose effect begins a turn start leaves it due. -/
theorem State.due_of_begins {s : State} (hs : s.awake) {f : Device → Device} {P : DueStart → Prop} (h : (f s.dev).Begins P) :
    ∃ t x, s.act f = .next t ∧ t.dev.turn.due = some x ∧ P x ∧ t.dev.turn.started = true := by
  obtain ⟨x, hx⟩ := h.turn
  exact ⟨_, x, State.act_put _ _ hs.2, hx⟩

/-- A marker begins its turn at its moment, whatever becomes of the seal and the admission. -/
theorem Device.takeMarker_begins (d : Device) (m : MarkerMsg) (at_ : Nat) :
    (d.takeMarker m at_).Begins fun x => x.turn = m.turn ∧ x.at_ = at_ := by
  unfold Device.takeMarker
  exact .ite (Device.begins_begin ⟨rfl, rfl⟩ _) (.ite (Device.begins_begin ⟨rfl, rfl⟩ _) (Device.begins_begin ⟨rfl, rfl⟩ _))

theorem Device.originate_begins (d : Device) (at_ : Nat) : (d.originate at_).Begins fun x => x.at_ = at_ ∧
    (d.running = true → d.begun = false → d.turn.live = false → x.turn = d.fld F.TURN_START.START ∧ x.admits = true) := by
  unfold Device.originate
  refine Device.begins_begin ⟨rfl, fun hrun hbegun hlive => ?_⟩ _
  have hend : d.endTurn = d := by rw [Device.endTurn, hlive]; rfl
  simp [hend, hrun, hbegun]

theorem Device.missedTurn_begins (d : Device) (at_ : Nat) :
    (d.missedTurn at_).Begins fun x => x.turn = d.knownTurn + 1 ∧ x.at_ = at_ ∧ x.admits = false := by
  unfold Device.missedTurn
  exact Device.begins_begin ⟨rfl, rfl, rfl⟩ _

/-! ### The commands that make one due -/

@[simp] theorem Device.turn_at (d : Device) (t : Nat) : (d.at_ t).turn = d.turn := rfl
@[simp] theorem Device.now_at (d : Device) (t : Nat) : (d.at_ t).now = max d.now t := rfl
@[simp] theorem Device.fld_at (d : Device) (t : Nat) (f : Field) (i : Nat) : (d.at_ t).fld f i = d.fld f i := rfl
@[simp] theorem Device.on_at (d : Device) (t : Nat) (f : Field) (i : Nat) : (d.at_ t).on f i = d.on f i := rfl
@[simp] theorem Device.running_at (d : Device) (t : Nat) : (d.at_ t).running = d.running := rfl
@[simp] theorem Device.inJob_at (d : Device) (t : Nat) : (d.at_ t).inJob = d.inJob := rfl

theorem Device.inJob_of_running {d : Device} (h : d.running = true) : d.inJob = true := by
  unfold Device.running at h
  rw [Device.inJob, h, Bool.true_or]

theorem Device.overdue_of_inTime {d : Device} (h : d.tolOver = false) : d.overdue = d := by
  rw [Device.overdue, h]; rfl

theorem Device.tolOver_of_notStarted {d : Device} (h : d.turn.started = false) : d.tolOver = false := by
  simp [Device.tolOver, h]

/-- The first marker of a device that follows the job's turns from a source other than PIN begins its turn at once. -/
theorem markerEff_first {d : Device} (at_ : Nat) {port : Nat} {m : MarkerMsg} (hrun : d.running = true)
    (hjob : m.jobId = d.fld F.TURN_JOB.JOB_ID) (hroot : d.on F.TURN_JOB.TURN_ROOT = false) (hport : port = d.fld F.TURN_TREE.MARKER_PARENT)
    (hsrc : d.fld F.TURN_JOB.SOURCE ≠ 1) (hstarted : d.turn.started = false) (hdue : d.turn.due = none) (hedge : d.turn.startEdge = none) :
    (markerEff at_ port m d).Begins fun x => x.turn = m.turn ∧ x.at_ = max d.now at_ := by
  generalize hsent : (d.at_ at_).sendDown F.TURN_MARKER_CHILDREN.PORTS (markerBytes m) = e
  have hturn : e.turn = d.turn := by rw [← hsent, Device.turn_sendDown]; rfl
  have hnow : e.now = max d.now at_ := by rw [← hsent, Device.now_sendDown]; rfl
  have hfld : e.fld F.TURN_JOB.SOURCE = d.fld F.TURN_JOB.SOURCE := by rw [← hsent, Device.fld_sendDown]; rfl
  have hover : e.overdue = e := Device.overdue_of_inTime (Device.tolOver_of_notStarted (by rw [hturn, hstarted]))
  have hbegun : e.begun = false := by simp [Device.begun, hturn, hstarted, hdue]
  have hskew : e.skew = e := by simp [Device.skew, hturn, hstarted]
  have heff : markerEff at_ port m d = e.takeMarker m e.now := by
    simp [markerEff, Device.inJob_of_running hrun, hjob, hroot, hport, hsent, hover, hturn, hedge, hfld, hsrc, hbegun, hskew]
  rw [heff, hnow]
  exact e.takeMarker_begins m _

/-- The root's timer tick at the end of the period, or on a device that has started no turn, originates the turn of that moment. -/
theorem rootTickEff_originates {d : Device} {at_ : Nat} (hrun : d.running = true) (hroot : d.on F.TURN_JOB.TURN_ROOT = true)
    (hsrc : d.fld F.TURN_JOB.SOURCE = 2) (hend : d.turn.started = true → d.turn.expected ≤ max d.now at_) :
    rootTickEff at_ d = (d.at_ at_).originate (max d.now at_) := by
  simp only [rootTickEff, Device.inJob_at, Device.inJob_of_running hrun, Device.on_at, hroot, Device.fld_at, hsrc, Device.turn_at,
    Device.now_at, Bool.not_true, bne_self_eq_false, Bool.or_self, Bool.false_or]
  refine if_neg fun h => ?_
  obtain ⟨hstarted, hearly⟩ := Bool.and_eq_true_iff.mp h
  exact Nat.not_lt.mpr (hend hstarted) (of_decide_eq_true hearly)

/-- What an edge of TURN_IN in its window does (R25, R26). -/
theorem turnInEdgeEff_taken {d : Device} {at_ : Nat} (hrun : d.running = true) (hsrc : d.fld F.TURN_JOB.SOURCE = 1)
    (htol : (d.at_ at_).tolOver = false) (htaken : (d.at_ at_).edgeTaken = true) (hedge : d.turn.startEdge = none) :
    (d.on F.TURN_JOB.TURN_ROOT = true → turnInEdgeEff at_ d = (d.at_ at_).originate (max d.now at_)) ∧
    (d.on F.TURN_JOB.TURN_ROOT = false →
      (d.turn.pinMarker = none → turnInEdgeEff at_ d = { d.at_ at_ with turn.startEdge := some (max d.now at_) }) ∧
      ∀ m, d.turn.pinMarker = some m → turnInEdgeEff at_ d = (d.at_ at_).takeMarker m (max d.now at_)) := by
  simp only [turnInEdgeEff, Device.inJob_at, Device.inJob_of_running hrun, Device.fld_at, hsrc, Device.overdue_of_inTime htol, htaken,
    Device.turn_at, hedge, Device.on_at, Device.running_at, hrun, Device.now_at, Bool.not_true, bne_self_eq_false, Option.isSome_none,
    Bool.or_self, Bool.false_eq_true, if_false]
  refine ⟨fun hroot => if_pos hroot, fun hroot => ⟨fun hmarker => ?_, fun m hmarker => ?_⟩⟩ <;> simp [hroot, hmarker]

/-- A turn whose marker is overdue has begun at the expected time, the root's own marker sent or not. -/
theorem Device.overdue_begins {d : Device} (htol : d.tolOver = true)
    (htimer : (d.on F.TURN_JOB.TURN_ROOT && d.fld F.TURN_JOB.SOURCE == 2) = false) :
    ∃ x, d.overdue.turn.due = some x ∧ x.turn = d.knownTurn + 1 ∧ x.at_ = d.turn.expected ∧ x.admits = false := by
  obtain ⟨x, hdue, hx, -⟩ := (d.missedTurn_begins d.turn.expected).turn
  refine ⟨x, ?_, hx⟩
  rw [Device.overdue, htol, htimer, Device.startExpected]
  simp only [Bool.not_false, Bool.and_self, if_true]
  split
  · exact hdue
  · rw [Device.turn_sendDown, hdue]

theorem Device.lagOver_begins {d : Device} {e : Nat} (hedge : d.turn.startEdge = some e) (hlag : e + d.fld F.TURN_TOL.PIN_LAG ≤ d.now)
    (hstarted : d.turn.started = true) (hrun : d.running = true) : d.lagOver = d.missedTurn e := by
  simp only [Device.lagOver, hedge, hstarted, hrun, Nat.not_lt.mpr hlag, if_false, Bool.and_self, if_true]

/-- Settles O4: each of the commands begins a turn start, and beginning one is what makes it due. -/
theorem turnStartsBecomeDue : Obligations.TurnStartsBecomeDue := by
  intro s at_ hs hrun
  refine ⟨?marker, ?timer, ?edge, ?tolerance, ?lag⟩
  case marker =>
    intro port m hjob hroot hport hsrc hstarted hdue hedge
    obtain ⟨t, x, ht, hx, ⟨hturn, hat⟩, hstart⟩ :=
      State.due_of_begins hs (markerEff_first at_ hrun hjob hroot hport hsrc hstarted hdue hedge)
    exact ⟨t, x, ht, hx, hturn, hat, hstart⟩
  case timer =>
    intro hroot hsrc hend
    have hbegins := (s.dev.at_ at_).originate_begins (max s.dev.now at_)
    rw [← rootTickEff_originates hrun hroot hsrc hend] at hbegins
    obtain ⟨t, x, ht, hx, ⟨hat, hfirst⟩, -⟩ := State.due_of_begins hs hbegins
    exact ⟨t, x, ht, hx, hat, hfirst hrun⟩
  case edge =>
    intro hsrc htol htaken hedge
    obtain ⟨hroot, hchild⟩ := turnInEdgeEff_taken hrun hsrc htol htaken hedge
    refine ⟨fun hon => ?_, fun hoff hmarker => ?_, fun m hoff hmarker => ?_⟩
    · have hbegins := (s.dev.at_ at_).originate_begins (max s.dev.now at_)
      rw [← hroot hon] at hbegins
      obtain ⟨t, x, ht, hx, ⟨hat, -⟩, -⟩ := State.due_of_begins hs hbegins
      exact ⟨t, x, ht, hx, hat⟩
    · obtain ⟨hwaits, -⟩ := hchild hoff
      refine ⟨_, State.act_put _ _ hs.2, ?_⟩
      rw [hwaits hmarker]
      exact ⟨rfl, State.framed_put (Device.framed_congr (s.dev.framed_refl []) rfl rfl rfl rfl) rfl⟩
    · obtain ⟨-, hcompletes⟩ := hchild hoff
      have hbegins := (s.dev.at_ at_).takeMarker_begins m (max s.dev.now at_)
      rw [← hcompletes m hmarker] at hbegins
      obtain ⟨t, x, ht, hx, ⟨hturn, hat⟩, -⟩ := State.due_of_begins hs hbegins
      exact ⟨t, x, ht, hx, hturn, hat⟩
  case tolerance =>
    intro htol htimer
    obtain ⟨x, hdue, hx⟩ := Device.overdue_begins htol htimer
    exact ⟨_, x, State.act_put _ _ hs.2, hdue, hx⟩
  case lag =>
    intro e hedge hlag hstarted
    have hbegins := (s.dev.at_ at_).missedTurn_begins e
    rw [← Device.lagOver_begins (d := s.dev.at_ at_) hedge hlag hstarted hrun] at hbegins
    obtain ⟨t, x, ht, hx, hfacts, -⟩ := State.due_of_begins hs (f := fun d => (d.at_ at_).lagOver) hbegins
    exact ⟨t, x, ht, hx, hfacts⟩

end Sys2Proof.Machine

/-! ## Seals and verdicts (R47 to R53) -/

namespace Sys2Proof.Machine

/-- The seal root decides COMMIT when nothing failed, no child is missing and the count is JOB_SIZE; its verdict goes down. -/
theorem Device.turn_decide (d : Device) : ∃ m, d.decide_.turn = { d.turn with
    sealSent := true, decided := some (!d.mergedSeal.fail && !(d.unheard != []) && d.mergedSeal.count == d.fld F.TURN_JOB.JOB_SIZE, m) } :=
  ⟨_, Device.turn_sendDown _ _ _⟩

/-- What SEAL_SEND leaves of the turn: the seal is sent or decided when it may be and every part is in, and nothing else changes. -/
theorem Device.turn_sendSeal (d : Device) :
    d.sendSeal.turn = if !d.maySeal || !d.sealReady then d.turn
      else if d.on F.TURN_JOB.SEAL_ROOT then d.decide_.turn else { d.turn with sealSent := true } := by
  unfold Device.sendSeal
  split
  · rfl
  · split
    · rfl
    · dsimp only
      split
      · rw [Device.turn_sendTurn]
      · rfl

theorem Device.unheard_of_sealReady {d : Device} (h : d.sealReady = true) : d.unheard = [] := by
  simp only [Device.sealReady, Bool.and_eq_true, beq_iff_eq] at h
  obtain ⟨-, hunheard⟩ := h
  exact hunheard

theorem Device.sendSeal_ready {d : Device} (hmay : d.maySeal = true) (hready : d.sealReady = true) :
    d.sendSeal.turn.sealSent = true ∧ (d.on F.TURN_JOB.SEAL_ROOT = true → ∃ m, d.sendSeal.turn.decided =
      some (!d.mergedSeal.fail && d.mergedSeal.count == d.fld F.TURN_JOB.JOB_SIZE, m)) := by
  obtain ⟨m, hdecide⟩ := d.turn_decide
  have hunheard := Device.unheard_of_sealReady hready
  rw [Device.turn_sendSeal, hmay, hready]
  by_cases hroot : d.on F.TURN_JOB.SEAL_ROOT = true
  · simp [hroot, hdecide, hunheard]
  · simp [hroot]

/-- Sending the seal leaves what was heard of the children. -/
theorem Device.heard_sendSeal (d : Device) : d.sendSeal.turn.heard = d.turn.heard := by
  obtain ⟨m, hdecide⟩ := d.turn_decide
  rw [Device.turn_sendSeal]
  split
  · rfl
  · split
    · rw [hdecide]
    · rfl

/-- The first SEAL of a child for the current turn is kept. -/
theorem heard_sealEff {d : Device} {port : Nat} {m : SealMsg} (hjob : m.jobId = d.fld F.TURN_JOB.JOB_ID) (hlive : d.turn.live = true)
    (hturn : m.turn = d.turnNo) (hchild : d.unheard.contains port = true) :
    (sealEff port m d).turn.heard = d.turn.heard ++ [(port, m)] := by
  unfold sealEff
  simp only [hjob, hlive, hturn, hchild, ne_eq, not_true_eq_false, Bool.true_eq_false, or_self, if_false]
  split
  · rw [Device.heard_sendSeal]
  · rfl

/-- At the cutoff the seal root decides, whatever it holds. -/
theorem sealCutoffEff_decides {d : Device} (hmay : d.maySeal = true) (hroot : d.on F.TURN_JOB.SEAL_ROOT = true) :
    (sealCutoffEff d).turn.decided.isSome = true ∧ (sealCutoffEff d).turn.sealSent = true := by
  obtain ⟨e, he⟩ : ∃ e : Device, sealCutoffEff d = e.decide_ := ⟨_, if_neg (by simp [hmay, hroot])⟩
  obtain ⟨m, hdecide⟩ := e.turn_decide
  rw [he, hdecide]
  exact ⟨rfl, rfl⟩

/-- A device with its handoff logic in another state. -/
def Device.withHo (d : Device) (x : HoState) : Device := { d with ho := x }

@[simp] theorem Device.fld_withHo (d : Device) (x : HoState) (f : Field) (i : Nat) : (d.withHo x).fld f i = d.fld f i := rfl

/-- The commit instant ends by showing its verdict and the number of its tags; parking comes after. -/
theorem Device.commitTurn_ends (d : Device) (m : SealMsg) (consumed : List (Nat × Nat)) : ∃ (e : Device) (x : HoState),
    d.commitTurn m consumed = ((e.setFld F.TURN_STATUS.LAST_VERDICT 1).setFld F.TURN_STATUS.EXCL_COUNT m.excl.length).withHo x := by
  unfold Device.commitTurn
  extract_lets
  exact ⟨_, _, rfl⟩

theorem Device.turnStatus_commitTurn (d : Device) (m : SealMsg) (consumed : List (Nat × Nat)) :
    (d.commitTurn m consumed).fld F.TURN_STATUS.LAST_VERDICT = 1 ∧
      (d.commitTurn m consumed).fld F.TURN_STATUS.EXCL_COUNT = m.excl.length % 2 ^ F.TURN_STATUS.EXCL_COUNT.w := by
  obtain ⟨e, x, he⟩ := d.commitTurn_ends m consumed
  rw [he, Device.fld_withHo, Device.fld_withHo, Device.fld_setFld_turnStatus _ _ (by decide) (by decide) (by decide),
    Device.fld_setFld_same _ _ _ _ (by decide), Device.fld_setFld_same _ _ _ _ (by decide)]
  exact ⟨rfl, rfl⟩

/-- A verdict that the device awaits is of a RUNNING device. -/
theorem Device.awaits_running {d : Device} {m : SealMsg} (h : d.awaits m = true) : d.running = true := by
  simp only [Device.awaits, Bool.and_eq_true] at h
  obtain ⟨⟨⟨hrun, -⟩, -⟩, -⟩ := h
  exact hrun

theorem Device.state_of_running {d : Device} (h : d.running = true) : d.fld F.TURN_STATUS.STATE ≠ 0 := by
  rw [Device.running, beq_iff_eq] at h
  omega

/-- A COMMIT that the device awaits, with no decision of its own, goes to the children and commits the turn. -/
theorem commitEff_awaited {d : Device} {m : SealMsg} (consumed : List (Nat × Nat)) (hjob : m.jobId = d.fld F.TURN_JOB.JOB_ID)
    (hawaits : d.awaits m = true) (hlost : d.turn.lost.contains m.turn = false) (hdecided : d.turn.decided = none) :
    commitEff m consumed d = (d.sendDown F.TURN_SEAL_CHILDREN.PORTS (sealBytes 3 m)).commitTurn m consumed := by
  have hstate := Device.state_of_running (Device.awaits_running hawaits)
  simp only [commitEff, hstate, hjob, hdecided, Device.turn_sendDown, hlost, Device.awaits_sendDown, hawaits, ne_eq, not_true_eq_false, or_self,
    Bool.false_and, Bool.false_eq_true, if_false, if_true]

/-- An ABORT that the device awaits, with no decision of its own, goes to the children and aborts the turn. -/
theorem abortEff_awaited {d : Device} {m : SealMsg} (hjob : m.jobId = d.fld F.TURN_JOB.JOB_ID) (hawaits : d.awaits m = true)
    (hdecided : d.turn.decided = none) : abortEff m d = (d.sendDown F.TURN_SEAL_CHILDREN.PORTS (sealBytes 4 m)).abortTurn m := by
  have hstate := Device.state_of_running (Device.awaits_running hawaits)
  simp only [abortEff, hstate, hjob, hdecided, Device.awaits_sendDown, hawaits, ne_eq, not_true_eq_false, or_self, Bool.true_or, if_false,
    if_true]

/-- Settles O7: the seal's commands by what they leave of the turn, the verdicts by what settling the turn shows. -/
theorem sealAndVerdicts : Obligations.SealAndVerdicts := by
  refine fun s hs => ⟨?send, ?gather, ?cutoff, fun at_ m consumed hjob hawaits hlost hdecided => ⟨?commit, ?abort⟩⟩
  case send => exact fun hmay hready => State.act_ex hs.2 (Device.sendSeal_ready hmay hready)
  case gather => exact fun port m hjob hlive hturn hchild => State.act_ex hs.2 (heard_sealEff hjob hlive hturn hchild)
  case cutoff => exact fun hmay hroot => State.act_ex hs.2 (sealCutoffEff_decides hmay hroot)
  case commit =>
    refine ⟨_, State.act_put s (fun d => commitEff m consumed (d.at_ at_)) hs.2, ?_⟩
    rw [commitEff_awaited (d := s.dev.at_ at_) consumed hjob hawaits hlost hdecided]
    simp only [State.put_fld]
    exact Device.turnStatus_commitTurn _ m consumed
  case abort =>
    refine ⟨_, State.act_put s (fun d => abortEff m (d.at_ at_)) hs.2, ?_⟩
    rw [abortEff_awaited (d := s.dev.at_ at_) hjob hawaits hdecided]
    simp only [State.put_fld, State.put_turn]
    exact Device.abortTurn_running m ((Device.running_sendDown _ _ _).trans (Device.awaits_running hawaits))

end Sys2Proof.Machine

/-! ## The phases of a turn (R32, R44, R49) -/

namespace Sys2Proof.Machine

theorem Device.phase_deadline (d : Device) : d.deadline.fld F.TURN_STATUS.PHASE = 3 := by
  unfold Device.deadline
  rw [Device.fld_setFld_same _ _ _ _ (by decide)]
  rfl

theorem Device.turn_admissionEnds (d : Device) (late : Bool) : (d.admissionEnds late).turn = if d.turn.unexamined.isEmpty then d.turn
    else { d.turn with deferred := d.turn.deferred + d.turn.unexamined.length, unexamined := [] } := by
  unfold Device.admissionEnds
  split <;> rfl

theorem Device.phase_admissionEnds (d : Device) (late : Bool) : (d.admissionEnds late).fld F.TURN_STATUS.PHASE = 2 := by
  unfold Device.admissionEnds
  rw [Device.fld_setFld_same _ _ _ _ (by decide)]
  rfl

/-- Admission that runs out of time defers the entries not examined. -/
theorem Device.turn_admissionEnds_left {d : Device} (h : d.turn.unexamined ≠ []) (late : Bool) :
    (d.admissionEnds late).turn = { d.turn with deferred := d.turn.deferred + d.turn.unexamined.length, unexamined := [] } :=
  (d.turn_admissionEnds late).trans (if_neg (mt List.isEmpty_iff.mp h))

/-- DEADLINE of a live turn at or after D opens the seal window, admission having ended or not. -/
theorem deadlineEff_reached {d : Device} {at_ : Nat} (hlive : d.turn.live = true) (hD : (d.at_ at_).deadlineAt ≤ max d.now at_) :
    (deadlineEff at_ d).fld F.TURN_STATUS.PHASE = 3 := by
  unfold deadlineEff
  simp only [Device.turn_at, hlive, Device.now_at, Nat.not_lt.mpr hD, Bool.not_true, decide_false, Bool.or_self, Bool.false_eq_true, if_false]
  exact Device.phase_deadline _

/-- When P − C has come in a RUNNING turn without verdict, decision or admitted entry, the device aborts it by itself in the commit phase. -/
theorem localAbortEff_aborts {d : Device} (hlive : d.turn.live = true) (hrun : d.running = true) (hverdict : d.turn.verdict = 0)
    (hdecided : d.turn.decided = none) (hadmitted : d.turn.admitted = []) :
    localAbortEff d = (d.setFld F.TURN_STATUS.PHASE 4).abortLocally := by
  have hstill : (d.setFld F.TURN_STATUS.PHASE 4).running = true := by
    rw [Device.running, Device.fld_setFld_turnStatus _ _ (by decide) (by decide) (by decide)]
    exact hrun
  simp [localAbortEff, hlive, hadmitted, hstill, hverdict, hdecided]

/-- Settles O6: the end of admission, the deadline and the local abort, each by the device it ends in. -/
theorem admissionAndDeadlinePhases : Obligations.AdmissionAndDeadlinePhases := by
  refine fun s hs hlive => ⟨fun hleft => ?_, fun at_ hD => ?_, fun hrun hverdict hdecided hadmitted at_ => ?_⟩
  · have heff : admitTimeEff s.dev = s.dev.admissionEnds true := if_neg (by simp [hlive, hleft])
    refine ⟨_, State.act_put _ _ hs.2, ?_⟩
    rw [heff, State.put_fld, State.put_turn, Device.phase_admissionEnds, Device.turn_admissionEnds_left hleft]
    exact ⟨rfl, rfl, rfl⟩
  · exact ⟨_, State.act_put _ _ hs.2, deadlineEff_reached hlive hD⟩
  · have hno : ((s.dev.at_ at_).setFld F.TURN_STATUS.PHASE 4).turnNo = s.dev.turnNo :=
      Device.fld_setFld_reg _ _ _ _ (by decide) (by decide) (by decide)
    have hhalted := ((s.dev.at_ at_).setFld F.TURN_STATUS.PHASE 4).abortLocally_halted
    rw [hno] at hhalted
    refine ⟨_, State.act_put s (fun d => localAbortEff (d.at_ at_)) hs.2, ?_⟩
    rw [localAbortEff_aborts (d := s.dev.at_ at_) hlive hrun hverdict hdecided hadmitted]
    simp only [State.put_fld, State.put_turn]
    exact hhalted

end Sys2Proof.Machine

/-! ## Entering and leaving RUNNING (R53) -/

namespace Sys2Proof.Machine

/-- A command that asks the device to leave marks it so, and changes nothing in IDLE. -/
theorem exec_leave {s : State} (hs : s.settled) {c : Instr} (hc : exec c s = .next (s.put s.dev.leave)) :
    (s.dev.fld F.TURN_STATUS.STATE ≠ 0 → exec c s = .next { s with dev := { s.dev with turn.leaving := true } }) ∧
      (s.dev.fld F.TURN_STATUS.STATE = 0 → exec c s = .next s) := by
  refine ⟨fun h => ?_, fun h => ?_⟩
  · rw [hc, Device.leave, if_neg h]
    exact congrArg _ (State.put_of hs rfl rfl)
  · rw [hc, Device.leave, if_pos h]
    exact congrArg _ (State.put_of hs rfl rfl)

/-- A device with its turn unit in another state. -/
def Device.withTurn (d : Device) (x : TurnState) : Device := { d with turn := x }

@[simp] theorem Device.fld_withTurn (d : Device) (x : TurnState) (f : Field) (i : Nat) : (d.withTurn x).fld f i = d.fld f i := rfl
@[simp] theorem Device.turn_withTurn (d : Device) (x : TurnState) : (d.withTurn x).turn = x := rfl

/-- ENABLE 1 under its conditions enters RUNNING with no turn started; of the registers it writes STATE and ENABLE. -/
theorem enableEff_enters {d : Device} (hstate : d.fld F.TURN_STATUS.STATE = 0) (happlied : d.turn.applied = true)
    (himage : d.cfg.image.isNone = false) (hmeter : d.mtrState ≠ 3) :
    enableEff true d = ((d.setFld F.TURN_STATUS.STATE 1).setFld F.TURN_CTRL.ENABLE 1).withTurn
      { d.turn with started := false, leaving := false, carry := false, sealSent := true, verdict := 0 } :=
  if_neg (c := d.fld F.TURN_STATUS.STATE ≠ 0 ∨ d.turn.applied = false ∨ d.cfg.image.isNone = true ∨ d.mtrState = 3)
    (by simp [hstate, happlied, himage, hmeter])

/-- Settles O1: ENABLE 1 enters RUNNING or changes nothing, and LEAVE and ENABLE 0 are one effect. -/
theorem enableAndLeave : Obligations.EnableAndLeave := by
  intro s port ht
  obtain ⟨hdisableMarks, hdisableIdle⟩ := exec_leave ht.1 (c := .turnEnable port false) (State.takes_put ht _ _)
  obtain ⟨hleaveMarks, hleaveIdle⟩ := exec_leave ht.1 (c := .turnLeave port) (State.takes_put ht _ _)
  refine ⟨fun hstate happlied himage hmeter => ?_, fun hblocked => ?_, fun h => ⟨hdisableMarks h, hleaveMarks h⟩,
    fun h => ⟨hdisableIdle h, hleaveIdle h⟩⟩
  · refine ⟨_, State.takes_put ht _ _, ?_⟩
    have hframedState := Device.framed_setFld (s.dev.framed_refl [.TURN_STATUS, .TURN_CTRL]) F.TURN_STATUS.STATE 1 0 (by decide) (by decide)
    have hframed := Device.framed_setFld hframedState F.TURN_CTRL.ENABLE 1 0 (by decide) (by decide)
    rw [enableEff_enters hstate happlied himage hmeter, State.put_fld, State.put_fld, State.put_turn, Device.fld_withTurn,
      Device.fld_withTurn, Device.fld_setFld_reg _ _ _ _ (by decide) (by decide) (by decide), Device.fld_setFld_same _ _ _ _ (by decide),
      Device.fld_setFld_same _ _ _ _ (by decide)]
    exact ⟨rfl, rfl, rfl, State.framed_put (Device.framed_congr hframed rfl rfl rfl rfl) rfl⟩
  · have heff : enableEff true s.dev = s.dev := if_pos hblocked
    exact (State.takes_put ht _ _).trans (by rw [heff, State.put_of ht.1 rfl rfl])

end Sys2Proof.Machine

/-! ## The rota's submission and fetch (R33, R43) -/

namespace Sys2Proof.Machine

theorem rotaFetchDoneEff_failed {d : Device} {count turn : Nat} {fn : Fn} (hfetch : d.turn.fetch = some (count, turn, fn)) (es : List Byte) :
    rotaFetchDoneEff es false d = (({ d with turn.fetch := none } : Device).setFld F.ROTA_STATUS.FETCH 3).hostErr := by
  simp only [rotaFetchDoneEff, hfetch, Bool.not_false, if_true]

/-- A fetch that succeeds ends in error for a turn already started, and otherwise fills the bank that takes fetches. -/
theorem rotaFetchDoneEff_read {d : Device} {count turn : Nat} {fn : Fn} (hfetch : d.turn.fetch = some (count, turn, fn)) (es : List Byte) :
    rotaFetchDoneEff es true d =
      if d.turn.started && d.inJob && d.turn.due.isNone && decide (turn ≤ d.turnNo)
        then ({ d with turn.fetch := none } : Device).setFld F.ROTA_STATUS.FETCH 3
        else (({ d with turn.fetch := none } : Device).setOtherRota
          { turn := turn, complete := true, entries := rotaEntries es count }).setFld F.ROTA_STATUS.FETCH 2 := by
  simp only [rotaFetchDoneEff, hfetch, Bool.not_true, Bool.false_eq_true, if_false]

theorem Device.fld_setOtherRota (d : Device) (b : RotaBank) (f : Field) (i : Nat) : (d.setOtherRota b).fld f i = d.fld f i := by
  unfold Device.setOtherRota; split <;> rfl

/-- Settles O3: the submission by its COUNT, and the end of the fetch by whether it failed, came late or came in time. -/
theorem rotaSubmitAndFetch : Obligations.RotaSubmitAndFetch := by
  refine ⟨fun s port count ht => ⟨?badCount, ?submitted⟩, fun s es count turn fn hs hfetch => ⟨?failed, ?late, ?taken⟩⟩
  case badCount =>
    intro hbad
    refine (State.takes_put ht (rotaSubmitEff port count) _).trans ?_
    rw [rotaSubmitEff, if_pos hbad]
  case submitted =>
    intro hpos hmax
    refine (State.takes_put ht (rotaSubmitEff port count) _).trans ?_
    rw [rotaSubmitEff, if_neg (by omega)]
    simp only [Device.fld_setOtherRota, Device.fld_of_turn]
  case failed =>
    refine (State.act_put s (rotaFetchDoneEff es false) hs.2).trans ?_
    rw [rotaFetchDoneEff_failed hfetch]
  case late =>
    intro hstarted hjob hdue hturn
    refine (State.act_put s (rotaFetchDoneEff es true) hs.2).trans ?_
    rw [rotaFetchDoneEff_read hfetch, if_pos (by simp [hstarted, hjob, hdue, hturn])]
  case taken =>
    intro hearly
    refine (State.act_put s (rotaFetchDoneEff es true) hs.2).trans ?_
    have hnotLate : ¬(s.dev.turn.started && s.dev.inJob && s.dev.turn.due.isNone && decide (turn ≤ s.dev.turnNo)) = true := by
      obtain h | h | h := hearly
      · simp [h]
      · simp [h]
      · simp [Nat.not_le.mpr h]
    rw [rotaFetchDoneEff_read hfetch, if_neg hnotLate]

end Sys2Proof.Machine

/-! ## Steps keep memory canonical (R80, R356)

Every command ends by landing its device's writes, and landing keeps the canonical form whatever the command did. That form is the
model's own choice (log entries 11 and 152). -/

namespace Sys2Proof.Machine

/-- Every command, in a settled state, ends in a settled state with the queue as it stands. -/
theorem exec_settled (c : Instr) {s : State} (hs : s.settled) : ∃ t, exec c s = .next t ∧ t.settled ∧ t.pending = s.pending := by
  obtain ⟨d, hland⟩ := exec_land c s
  exact ⟨s.put d, hland, ⟨Memory.wf_land d.wr _ hs.1, rfl⟩, rfl⟩

/-- A step of a settled state ends in a settled state, its queue without its front. -/
theorem step_settled {s : State} (hs : s.settled) : ∃ t, step s = .next t ∧ t.settled ∧ t.pending = s.pending.tail := by
  obtain ⟨hfront, hidle⟩ := stepTakesTheFrontCommand
  cases hq : s.pending with
  | nil => exact ⟨s, hidle s hq, hs, hq⟩
  | cons c rest =>
    have hstep : step s = exec c { s with pending := rest } := by
      rw [← hfront c rest s, ← hq]
    rw [hstep]
    exact exec_settled c hs

/-- The state that a step ends in; one that stopped would leave the state as it is. -/
def State.stepped (s : State) : State :=
  match step s with
  | .next t => t
  | _ => s

theorem State.stepped_eq {s t : State} (h : step s = .next t) : s.stepped = t := by
  rw [State.stepped, h]

theorem step_eq_stepped {s : State} (hs : s.settled) :
    step s = .next s.stepped ∧ s.stepped.settled ∧ s.stepped.pending = s.pending.tail := by
  obtain ⟨t, hstep, hset, hq⟩ := step_settled hs
  rw [State.stepped_eq hstep]
  exact ⟨hstep, hset, hq⟩

/-- The state after n steps. -/
def State.after (s : State) : Nat → State
  | 0 => s
  | n + 1 => (s.after n).stepped

/-- After n steps of a settled state the state is settled, and n commands have left the queue. -/
theorem State.after_settled {s : State} (hs : s.settled) (n : Nat) : (s.after n).settled ∧ (s.after n).pending = s.pending.drop n := by
  induction n with
  | zero => exact ⟨hs, rfl⟩
  | succ n ih =>
    obtain ⟨hset, hq⟩ := ih
    obtain ⟨-, hset', hq'⟩ := step_eq_stepped hset
    exact ⟨hset', by rw [State.after, hq', hq, List.tail_drop]⟩

/-- Settles O59: a step's outcome is what its command's writes leave when they land, and the run is the steps iterated. -/
theorem stepsKeepMemoryCanonical : Obligations.StepsKeepMemoryCanonical := by
  refine ⟨fun s hs => step_settled hs, fun s hs => ?_⟩
  have hrun := State.after_settled hs
  obtain ⟨hset, hq⟩ := hrun s.pending.length
  refine ⟨_, ⟨s.after, rfl, rfl, fun k _ => ⟨?_, (hrun k).1⟩⟩, hset, by rw [hq, List.drop_length]⟩
  obtain ⟨hstep, -⟩ := step_eq_stepped (hrun k).1
  exact hstep

end Sys2Proof.Machine

/-! ## The reset ladder (R427 to R429) -/

namespace Sys2Proof.Machine

/-! ### What a PF's requests do -/

theorem plotResetEff_running {p : Nat} (hp : p < 64) {d : Device} (h : d.running = true) :
    plotResetEff p d = d.setFld F.PLOT_EVENTS.RESET_REFUSED 1 p := by
  rw [plotResetEff, if_neg (Nat.not_le.mpr hp), if_pos h]

theorem plotResetEff_begins {p : Nat} (hp : p < 64) {d : Device} (h : d.running = false) :
    plotResetEff p d = d.takeStep { step := 2, kind := 6, index := p, cause := 1 } := by
  rw [plotResetEff, if_neg (Nat.not_le.mpr hp), if_neg (Bool.not_eq_true _ ▸ h)]

section
variable {kind domain index : Nat} {d : Device}

/-- The step that RESET_REQUEST asks for: DOMAIN counts only with KIND 7 (log entry 16). -/
def requestedStep (kind domain index : Nat) : Ladder :=
  { step := kindStep kind, kind := kind, domain := if kind = 7 then domain else 0, index := index, cause := 1 }

theorem resetRequestEff_absent (h : d.part.resettable kind (if kind = 7 then domain else 0) index = false) :
    resetRequestEff kind domain index d = d.setFld F.ERR_RESET_STATUS.LAST_REQUEST 2 := by
  simp only [resetRequestEff, h, Bool.not_false, if_true]

theorem resetRequestEff_running (h : d.part.resettable kind (if kind = 7 then domain else 0) index = true) (hstep : kindStep kind = 2)
    (hrun : d.running = true) : resetRequestEff kind domain index d = d.setFld F.ERR_RESET_STATUS.LAST_REQUEST 2 := by
  simp only [resetRequestEff, h, hstep, hrun, Bool.not_true, Bool.false_eq_true, if_false, and_self, if_true]

/-- A request for a unit of the part that the job does not bar is COVERED by a running step or taken. -/
theorem resetRequestEff_allowed (h : d.part.resettable kind (if kind = 7 then domain else 0) index = true)
    (hfree : ¬(kindStep kind = 2 ∧ d.running = true)) :
    (d.coveredPart (requestedStep kind domain index) = true →
      resetRequestEff kind domain index d = d.setFld F.ERR_RESET_STATUS.LAST_REQUEST 3) ∧
    (d.coveredPart (requestedStep kind domain index) = false →
      resetRequestEff kind domain index d = (d.setFld F.ERR_RESET_STATUS.LAST_REQUEST 1).takeStep (requestedStep kind domain index)) := by
  simp only [resetRequestEff, h, Bool.not_true, Bool.false_eq_true, if_false, if_neg hfree]
  exact ⟨fun hcovered => if_pos hcovered, fun hopen => if_neg (Bool.eq_false_iff.mp hopen)⟩

end

/-! ### What the end and the timeout of a running step do -/

section
variable {k dom x : Nat} {l : Ladder} {d : Device}

theorem resetStepDoneEff_running (h : d.runningStep k dom x = some l) (flashOk : Bool) :
    resetStepDoneEff k dom x flashOk d = d.stepDone l flashOk := by
  rw [resetStepDoneEff, h]

/-- The device once a step has missed its limit: recorded, ended, its unit FAILED. -/
def Device.stepMissed (d : Device) (l : Ladder) : Device := ((d.record (l.record 0x13 3)).endStep l).unitFailed l

theorem resetStepTimeoutEff_running (h : d.runningStep k dom x = some l) (answers : Bool) :
    resetStepTimeoutEff k dom x answers d =
      if 4 ≤ l.step then (d.stepMissed l).goFatal l answers else (d.stepMissed l).takeStep l.next := by
  simp only [resetStepTimeoutEff, h]
  rfl

end

/-- Step 5 ends by showing STEP and FATAL. -/
theorem Device.goFatal_ends (d : Device) (l : Ladder) (answers : Bool) :
    ∃ e : Device, d.goFatal l answers = (e.setFld F.ERR_RESET_STATUS.STEP 5).setFld F.ERR_RESET_STATUS.FATAL 1 := ⟨_, rfl⟩

/-- At step 5 the device carries nothing further out, shows FATAL and runs no step. -/
theorem Device.goFatal_fatal (d : Device) (l : Ladder) (answers : Bool) :
    (d.goFatal l answers).pwr.fatal = true ∧ (d.goFatal l answers).dead = true ∧ (d.goFatal l answers).fld F.ERR_RESET_STATUS.STEP = 5 ∧
      (d.goFatal l answers).fld F.ERR_RESET_STATUS.FATAL = 1 ∧ (d.goFatal l answers).err.running = [] := by
  have hpwr : (d.goFatal l answers).pwr.fatal = true := rfl
  refine ⟨hpwr, by rw [Device.dead, hpwr, Bool.or_true], ?_, ?_, rfl⟩ <;> obtain ⟨e, he⟩ := d.goFatal_ends l answers <;> rw [he]
  · have hother := (e.setFld F.ERR_RESET_STATUS.STEP 5).fld_setFld_field (f := F.ERR_RESET_STATUS.FATAL) (g := F.ERR_RESET_STATUS.STEP) 1 0
      rfl (by decide) (by decide)
    exact hother.trans (Device.fld_setFld_same _ _ _ _ (by decide))
  · exact Device.fld_setFld_same _ _ _ _ (by decide)

/-- Settles O50: a PF's requests by their equations, the end and the timeout of a running step by theirs, and a covered step by
`takeStep` itself. -/
theorem resetLadder : Obligations.ResetLadder := by
  refine ⟨fun s port ht => ⟨?plotRefused, ?plot, ?engine, ?link, ?request⟩, fun s hs => ⟨?plotDone, ?stepDone, ?timeout⟩, ?covered⟩
  case plotRefused =>
    exact fun p hp hrun => (State.takes_put ht _ _).trans (by rw [plotResetEff_running hp hrun])
  case plot =>
    exact fun p hp hrun => (State.takes_put ht _ _).trans (by rw [plotResetEff_begins hp hrun])
  case engine =>
    exact fun e he => (State.takes_put ht _ _).trans (by rw [engineResetEff, if_pos he])
  case link =>
    exact fun l hl => (State.takes_put ht _ _).trans (by rw [linkResetEff, if_pos hl])
  case request =>
    intro kind domain index
    have hexec := State.takes_put ht (resetRequestEff kind domain index) false
    refine ⟨fun habsent => ?_, fun hthere hstep hrun => ?_, fun hthere hfree => ?_⟩
    · exact hexec.trans (by rw [resetRequestEff_absent habsent])
    · exact hexec.trans (by rw [resetRequestEff_running hthere hstep hrun])
    · obtain ⟨hcovers, htakes⟩ := resetRequestEff_allowed hthere hfree
      exact ⟨fun hcovered => hexec.trans (by rw [hcovers hcovered]), fun hopen => hexec.trans (by rw [htakes hopen]; rfl)⟩
  case plotDone =>
    exact fun p l hl => (State.act_put _ _ hs.2).trans (by rw [plotResetDoneEff, hl])
  case stepDone =>
    exact fun k dom x l fl hl => (State.act_put _ _ hs.2).trans (by rw [resetStepDoneEff_running hl])
  case timeout =>
    intro k dom x l a hl
    have hexec := State.act_put s (resetStepTimeoutEff k dom x a) hs.2
    rw [resetStepTimeoutEff_running hl] at hexec
    refine ⟨fun hlow => ?_, fun htop => ?_⟩
    · rw [if_neg (Nat.not_le.mpr hlow)] at hexec
      exact hexec
    · rw [if_pos htop] at hexec
      exact ⟨_, hexec, (s.dev.stepMissed l).goFatal_fatal l a⟩
  case covered =>
    exact fun d l h => if_pos h

end Sys2Proof.Machine

/-! ## The instructions of a core (spec/03)

An instruction on a core that runs an entry and does not wait has its own effect on the device (`State.runs.act`); a register that fails
its parity check makes any of them uncorrectable (`State.regFault_act`). -/

namespace Sys2Proof.Machine

/-! ### A core's state, read after it is written -/

@[simp] theorem Device.core_setCore_same (d : Device) (p c : Nat) (k : Core) : (d.setCore p c k).core p c = k := sget_sput_same _ _ _

theorem Device.core_setCore_other (d : Device) {p c p' c' : Nat} (k : Core) (h : coreKey p' c' ≠ coreKey p c) :
    (d.setCore p c k).core p' c' = d.core p' c' := sget_sput_other _ _ h

@[simp] theorem State.put_core (s : State) (d : Device) (p c : Nat) : (s.put d).dev.core p c = d.core p c := rfl

theorem Device.core_congr {d e : Device} (h : e.cores = d.cores) (p c : Nat) : e.core p c = d.core p c := by
  rw [Device.core, Device.core, h]

theorem Device.core_retire_same (d : Device) (i : CoreInsn) (n : Nat) (k : Core) :
    (d.retire i n k).core i.plot i.core = { k with pc := k.pc + 8, gap := max k.gap n } := d.core_setCore_same _ _ _

theorem Device.core_retire_other (d : Device) (i : CoreInsn) (n : Nat) (k : Core) {p c : Nat} (h : coreKey p c ≠ coreKey i.plot i.core) :
    (d.retire i n k).core p c = d.core p c := d.core_setCore_other _ h

/-- A core's key names its plot and its index. -/
theorem coreKey_div_mod (n : Nat) : coreKey (n / 64) (n % 64) = n := by
  unfold coreKey
  omega

/-! ### Carrying out an instruction -/

theorem State.coreOf_eq (s : State) (i : CoreInsn) : s.dev.core i.plot i.core = s.coreOf i := rfl

section
variable {s : State} {i : CoreInsn} {a : Admitted}

/-- An instruction on a core that runs an entry has its effect on the entry, the core and the device. -/
theorem State.runs.act (h : s.runs i a) (f : Admitted → Core → Device → Device) :
    s.act (fun d => d.insn i f) = .next (s.put (f a (s.coreOf i) s.dev)) := by
  obtain ⟨hs, hrun, hparity⟩ := h
  rw [State.act_put _ _ hs.2, Device.insn, hrun]
  dsimp only
  rw [if_neg (Nat.not_le.mpr hparity), State.coreOf_eq]

theorem State.runs.act_eq (h : s.runs i a) {f : Admitted → Core → Device → Device} {d : Device} (hf : f a (s.coreOf i) s.dev = d) :
    s.act (fun d => d.insn i f) = .next (s.put d) := (h.act f).trans (by rw [hf])

/-- A register that fails its parity check is not replayed: whatever the instruction, the error is uncorrectable at once (R421). -/
theorem State.regFault_act (hs : s.awake) (hrun : (s.dev.running? i fun _ => false) = some a) (hparity : 5 ≤ i.parity)
    (f : Admitted → Core → Device → Device) :
    s.act (fun d => d.insn i f) = .next (s.put (s.dev.coreUncorrectable i 1 0 0 [(4, 0)] false)) := by
  rw [State.act_put _ _ hs.2, Device.insn, hrun]
  dsimp only
  rw [if_pos hparity]

/-- A core that does not wait runs its entry, whatever wait an instruction takes up again. -/
theorem Device.running?_resumes {d : Device} (h : (d.running? i fun _ => false) = some a) (ok : CoreWait → Bool) :
    d.running? i ok = some a := by
  unfold Device.running? at h ⊢
  dsimp only at h ⊢
  split at h
  · next hwait =>
    rw [Bool.or_false] at hwait
    rw [hwait, Bool.true_or, if_pos rfl]
    exact h
  · cases h

end

/-! ### Parity of what an instruction reads (R113, R421) -/

section
variable {i : CoreInsn}

theorem Device.parity_passes (h : i.parity ≤ 3) (d : Device) (addr : Nat) (f : Device → Device) : d.parity i addr f = f (d.replayed i) := by
  unfold Device.parity Device.replayed
  rw [if_pos h]
  split <;> rfl

theorem Device.parity_fails (h : 3 < i.parity) (d : Device) (addr : Nat) (f : Device → Device) :
    d.parity i addr f = d.coreUncorrectable i 1 3 addr [(4, 0)] := by
  rw [Device.parity, if_neg (by omega), if_neg (Nat.not_le.mpr h)]

theorem Device.meshParity_passes (h : i.parity ≤ 3) (d : Device) (f : Device → Device) : d.meshParity i f = f (d.replayed i) := by
  unfold Device.meshParity Device.replayed
  rw [if_pos h]
  split <;> rfl

theorem Device.replayed_clean (h : i.parity = 0) (d : Device) : d.replayed i = d := if_pos h

end

end Sys2Proof.Machine

/-! ## The vector unit and the scalar sequencer (R57, R59, R60, R70) -/

namespace Sys2Proof.Machine

/-- A reduction puts one value into every lane: the result holds a NaN when that value is one. -/
theorem vopNan_reduction {op : VecOp} (h : op = .sum ∨ op = .maxAll ∨ op = .minAll) (bf : Bool) (x : Nat) :
    vopNan op bf (List.replicate 32 x) = nan32 x := by
  have hany : (List.replicate 32 x).any nan32 = nan32 x := by
    rw [List.any_replicate, if_neg (by decide)]
  obtain rfl | rfl | rfl := h <;> exact hany

section
variable {s : State} {i : CoreInsn} {a : Admitted}

theorem State.runs.exec_vop_lanes (h : s.runs i a) {op : VecOp} (bf : Bool) (hred : ¬(op = .sum ∨ op = .maxAll ∨ op = .minAll)) :
    let out := (List.range 32).map fun n => laneOp op bf (((s.coreOf i).vreg i.a).getD n 0) (((s.coreOf i).vreg i.b).getD n 0)
      (((s.coreOf i).vreg i.c).getD n 0)
    exec (.vop i op bf) s = .next (s.put ((s.dev.fpStatus i.plot 0 (vopNan op bf out)).retire i (min i.cycles 4)
      ((s.coreOf i).setLanes (32 * i.a) out))) := by
  refine h.act_eq ?_
  dsimp only
  rw [if_neg hred, if_neg (mt .inl hred)]

theorem State.runs.exec_vop_reduction (h : s.runs i a) {op : VecOp} (bf : Bool) (hred : op = .sum ∨ op = .maxAll ∨ op = .minAll) :
    let x := reduceReg op s.dev.freeCount
      (if bf then ((s.coreOf i).vreg i.b).flatMap (fun y => [widen y, widen (y / 65536)]) else (s.coreOf i).vreg i.b)
    exec (.vop i op bf) s = .next (s.put (((if op = .sum then s.dev.drew else s.dev).fpStatus i.plot 0 (nan32 x)).retire i (min i.cycles 4)
      ((s.coreOf i).setLanes (32 * i.a) (List.replicate 32 x)))) := by
  refine h.act_eq ?_
  dsimp only
  rw [if_pos hred, vopNan_reduction hred]

theorem State.runs.exec_cvt (h : s.runs i a) {src dst : Nat} {f g : Fmt} (hf : fmtOf src = some f) (hg : fmtOf dst = some g) {ls : List Nat}
    {sat : Nat} {nan : Bool} (hpack : packValues g i.nonsat (((s.coreOf i).elems i.b f.bits 32).map fun e =>
      f.scaledValue e (((s.coreOf i).elems i.b 8 (4 * f.bits + 1)).getD (4 * f.bits) 0)) = (ls, sat, nan)) :
    exec (.cvt i src dst) s =
      .next (s.put ((s.dev.fpStatus i.plot sat nan).retire i (min i.cycles 8) ((s.coreOf i).setLanes (32 * i.a) ls))) := by
  refine h.act_eq ?_
  dsimp only
  rw [hf, hg]
  dsimp only
  rw [hpack]

theorem State.runs.exec_cvt_refused (h : s.runs i a) {src dst : Nat} (hfmt : fmtOf src = none ∨ fmtOf dst = none) :
    exec (.cvt i src dst) s = .next (s.put (s.dev.refuse i 0x12)) := by
  refine h.act_eq ?_
  dsimp only
  split
  · next hf hg => simp [hf, hg] at hfmt
  · rfl

theorem State.runs.exec_accr (h : s.runs i a) (part : AccPart) {fmt : Nat} {f : Fmt} (hf : fmtOf fmt = some f) {ls : List Nat} {sat : Nat}
    {nan : Bool} (hpack : packValues f i.nonsat ((s.coreOf i).accValues part i.a (min i.c 64)) = (ls, sat, nan)) :
    exec (.accr i part fmt) s =
      .next (s.put ((s.dev.fpStatus i.plot sat nan).retire i (min i.cycles 32) ((s.coreOf i).setLanes (32 * i.b) ls))) := by
  refine h.act_eq ?_
  dsimp only
  rw [hf]
  dsimp only
  rw [hpack]

theorem State.runs.exec_accr_refused (h : s.runs i a) (part : AccPart) {fmt : Nat} (hf : fmtOf fmt = none) :
    exec (.accr i part fmt) s = .next (s.put (s.dev.refuse i 3)) := by
  refine h.act_eq ?_
  dsimp only
  rw [hf]

end

/-- Settles O8: each instruction's own effect on a core that runs, and one parity rule for all of them. -/
theorem vectorInstructionsRetire : Obligations.VectorInstructionsRetire := by
  refine ⟨fun s i a h => ⟨?lanes, ?reduction, ?function, ?convert, ?convertRefused, ?accumulators, ?accumulatorsRefused⟩,
    fun s i a hs hrun hparity => ?regFault⟩
  case lanes => exact fun op bf hsum hmax hmin => h.exec_vop_lanes bf (by simp [hsum, hmax, hmin])
  case reduction => exact fun op bf hred => h.exec_vop_reduction bf hred
  case function => exact fun f => h.act _
  case convert => exact fun src dst f g hf hg ls sat nan hpack => h.exec_cvt hf hg hpack
  case convertRefused => exact fun src dst hfmt => h.exec_cvt_refused hfmt
  case accumulators => exact fun part fmt f hf ls sat nan hpack => h.exec_accr part hf hpack
  case accumulatorsRefused => exact fun part fmt hf => h.exec_accr_refused part hf
  case regFault =>
    have hfault := State.regFault_act hs hrun hparity
    simp only [List.forall_mem_cons]
    exact ⟨hfault _, hfault _, hfault _, hfault _, hfault _, hfault _, hfault _, hfault _, hfault _, hfault _, hfault _, hfault _,
      hfault _, hfault _, hfault _, hfault _, hfault _, List.forall_mem_nil _⟩

/-- The device with a core's program counter moved. -/
def Device.jump (d : Device) (i : CoreInsn) (t : Nat) : Device := d.setCore i.plot i.core { d.core i.plot i.core with pc := t }

section
variable {s : State} {i : CoreInsn} {a : Admitted}

theorem State.runs.exec_scalar_value (h : s.runs i a) {op : ScalarOp} (hop : ∀ t, op ≠ .branch t ∧ op ≠ .branchIf t ∧ op ≠ .loop t) :
    exec (.scalar i op) s =
      .next (s.put (s.dev.retire i 1 ((s.coreOf i).setS i.a (scalarValue op ((s.coreOf i).sreg i.b) ((s.coreOf i).sreg i.c))))) := by
  refine h.act_eq ?_
  dsimp only
  split
  · next t => exact absurd rfl (hop t).1
  · next t => exact absurd rfl (hop t).2.1
  · next t => exact absurd rfl (hop t).2.2
  · rfl

theorem State.runs.exec_branchIf (h : s.runs i a) (t : Nat) :
    exec (.scalar i (.branchIf t)) s =
      .next (s.put (if (s.coreOf i).sreg i.a = 0 then s.dev.retire i 1 (s.coreOf i) else (s.dev.retire i 1 (s.coreOf i)).jump i t)) :=
  h.act _

/-- A loop counts its register down at 64 bits, and branches while the count is not 0. -/
theorem State.runs.exec_loop (h : s.runs i a) (t : Nat) {v : Nat} (hv : ((s.coreOf i).sreg i.a + 2 ^ 64 - 1) % 2 ^ 64 = v) :
    exec (.scalar i (.loop t)) s =
      .next (s.put (if v = 0 then s.dev.retire i 1 ((s.coreOf i).setS i.a v) else (s.dev.retire i 1 ((s.coreOf i).setS i.a v)).jump i t)) := by
  subst hv
  exact h.act _

end

/-- Settles O9: a value into s[A], or the program counter moved, by the operation and by what s[A] holds. -/
theorem scalarInstructionsRetire : Obligations.ScalarInstructionsRetire := by
  refine fun s i a h => ⟨fun op hop => h.exec_scalar_value hop, fun t => ⟨h.act _, fun hne => ?taken, fun hzero => ?notTaken,
    fun hlast => ?loopEnds, fun hmore hlt => ?loopGoesOn, fun hwraps => ?loopWraps⟩⟩
  case taken => exact (h.exec_branchIf t).trans (by rw [if_neg hne]; rfl)
  case notTaken => exact (h.exec_branchIf t).trans (by rw [if_pos hzero])
  case loopEnds => exact (h.exec_loop t (v := 0) (by omega)).trans (by rw [if_pos rfl])
  case loopGoesOn => exact (h.exec_loop t (v := (s.coreOf i).sreg i.a - 1) (by omega)).trans (by rw [if_neg (by omega)]; rfl)
  case loopWraps => exact (h.exec_loop t (v := 2 ^ 64 - 1) (by omega)).trans (by rw [if_neg (by decide)]; rfl)

end Sys2Proof.Machine

/-! ## Loads, stores and the stationary vectors (R67, R70, R102, R103, R113) -/

namespace Sys2Proof.Machine

section
variable {s : State} {i : CoreInsn} {a : Admitted}

theorem State.runs.exec_ld_refused (h : s.runs i a) {file : RegFile} (hbad : ldstBad file i.a ((s.coreOf i).sreg i.b) i.c = true) :
    exec (.coreLd i file) s = .next (s.put (s.dev.refuse i 0x20)) :=
  h.act_eq (if_pos hbad)

theorem State.runs.exec_st_refused (h : s.runs i a) {file : RegFile} (hbad : ldstBad file i.a ((s.coreOf i).sreg i.b) i.c = true) :
    exec (.coreSt i file) s = .next (s.put (s.dev.refuse i 0x21)) :=
  h.act_eq (if_pos hbad)

/-- A load of a good range is what its parity check lets through. -/
theorem State.runs.exec_ld (h : s.runs i a) {file : RegFile} (hgood : ldstBad file i.a ((s.coreOf i).sreg i.b) i.c = false) :
    exec (.coreLd i file) s = .next (s.put (s.dev.parity i ((s.coreOf i).sreg i.b) fun d =>
      d.retire i (ceilDiv i.c 128) ((s.coreOf i).loadRegs file i.a (d.bytes ((s.coreOf i).sreg i.b) i.c)))) :=
  h.act_eq (if_neg (Bool.eq_false_iff.mp hgood))

/-- A store to a good range is what its parity check lets through. -/
theorem State.runs.exec_st (h : s.runs i a) {file : RegFile} (hgood : ldstBad file i.a ((s.coreOf i).sreg i.b) i.c = false) :
    exec (.coreSt i file) s = .next (s.put (s.dev.parity i ((s.coreOf i).sreg i.b) fun d =>
      ((d.store ((s.coreOf i).sreg i.b) ((s.coreOf i).regBytes file i.a i.c)).notePosts d ((s.coreOf i).sreg i.b) i.c).retire i
        (ceilDiv i.c 64) (s.coreOf i))) :=
  h.act_eq (if_neg (Bool.eq_false_iff.mp hgood))

theorem State.runs.exec_lds (h : s.runs i a) {f : Fmt} {bs : List Byte} (hf : fmtOf ((s.coreOf i).tref i.a).fmt = some f)
    (hgood : (s.coreOf i).trefBad i.a (i.b * ((s.coreOf i).tref i.a).row) = false) (hpos : 0 < i.b) (hlanes : i.b ≤ 16)
    (hlen : ((s.coreOf i).tref i.a).row * f.bits ≤ 32768) (hfp32 : ((s.coreOf i).tref i.a).fmt ≠ 0xA)
    (hint32 : ((s.coreOf i).tref i.a).fmt ≠ 0xC) (hparity : i.parity ≤ 3)
    (hbytes : (s.dev.replayed i).trefBytes ((s.coreOf i).tref i.a) f.bits (i.b * ((s.coreOf i).tref i.a).row) = .ok bs) :
    exec (.lds i) s = .next (s.put ((s.dev.replayed i).retire i (ceilDiv (i.b * ((s.coreOf i).tref i.a).row * f.bits) 1024)
      ((s.dev.replayed i).stationary (s.coreOf i) ((s.coreOf i).tref i.a) f i.b bs))) := by
  refine h.act_eq ?_
  dsimp only
  rw [hf]
  dsimp only
  rw [if_neg (by simp [hgood, hfp32, hint32]; omega), Device.parity_passes hparity, hbytes]

end

/-- Settles O10: the range decides whether LD and ST are refused, and the parity check what comes of a good one. -/
theorem loadsAndStoresRetire : Obligations.LoadsAndStoresRetire := by
  refine fun s i a h => ⟨fun file hbad => ⟨h.exec_ld_refused hbad, h.exec_st_refused hbad⟩, fun file hgood hparity => ⟨?_, ?_⟩,
    fun file hgood hparity => ⟨?_, ?_⟩, fun f bs hf hgood hpos hlanes hlen hfp32 hint32 hparity hbytes =>
      h.exec_lds hf hgood hpos hlanes hlen hfp32 hint32 hparity hbytes⟩
  · exact (h.exec_ld hgood).trans (by rw [Device.parity_passes hparity])
  · exact (h.exec_st hgood).trans (by rw [Device.parity_passes hparity])
  · exact (h.exec_ld hgood).trans (by rw [Device.parity_fails hparity])
  · exact (h.exec_st hgood).trans (by rw [Device.parity_fails hparity])

end Sys2Proof.Machine

/-! ## The matrix unit (R62, R65, R75) -/

namespace Sys2Proof.Machine

section
variable {s : State} {i : CoreInsn} {a : Admitted}

theorem State.runs.exec_mma (h : s.runs i a) {f g : Fmt} {e : Nat} {kind : PairKind} {bs : List Byte}
    (hf : fmtOf ((s.coreOf i).tref i.a).fmt = some f) (hg : fmtOf (s.coreOf i).statFmt = some g)
    (hpair : pairOf ((s.coreOf i).tref i.a).fmt (s.coreOf i).statFmt = some (e, kind))
    (hgood : (s.coreOf i).trefBad i.a (i.b * ((s.coreOf i).tref i.a).row) = false)
    (hlen : i.b * ceilDiv ((s.coreOf i).tref i.a).row e ≤ 1536) (hslots : i.c + i.b ≤ 64) (hparity : i.parity ≤ 3)
    (hbytes : (s.dev.replayed i).trefBytes ((s.coreOf i).tref i.a) f.bits (i.b * ((s.coreOf i).tref i.a).row) = .ok bs) :
    let st := (s.dev.replayed i).mmaStream (s.coreOf i) ((s.coreOf i).tref i.a) f g e kind i.b i.c bs
    exec (.mma i) s = .next (s.put (((s.dev.replayed i).mmaCounts i.plot i.b i.c kind st).retire i
      (i.b * ceilDiv ((s.coreOf i).tref i.a).row e) { st.1 with accInt := kind == .int })) := by
  refine h.act_eq ?_
  dsimp only
  rw [hf, hg, hpair]
  dsimp only
  rw [if_neg (by simp [hgood]; omega), Device.parity_passes hparity, hbytes]

theorem State.runs.exec_mma_refused (h : s.runs i a) (hpair : pairOf ((s.coreOf i).tref i.a).fmt (s.coreOf i).statFmt = none) :
    exec (.mma i) s = .next (s.put (s.dev.refuse i 2)) := by
  refine h.act_eq ?_
  dsimp only
  rw [hpair]
  split
  · next hsome => cases hsome
  · rfl

theorem State.runs.exec_attn_refused (h : s.runs i a) (op : AttnOp) (hlist : s.dev.fur.attend.find? (fun y => y.entry == a.index) = none) :
    exec (.attn i op) s = .next (s.put (s.dev.refuse i 4)) := by
  refine h.act_eq ?_
  dsimp only
  rw [hlist]

end

/-- Settles O11: a pair of formats decides whether MMA is refused, the page list whether ATTN is; otherwise the parity check passes and
the bytes are what the streams read. -/
theorem matrixAndAttentionRetire : Obligations.MatrixAndAttentionRetire := by
  refine fun s i a h => ⟨fun f g e kind bs hf hg hpair hgood hlen hslots hparity hbytes =>
      h.exec_mma hf hg hpair hgood hlen hslots hparity hbytes, h.exec_mma_refused, h.exec_attn_refused, ?attends⟩
  case attends =>
    rintro op x _ f g e kind bs hlist rfl hf hg hpair hpositions hparity hlen hplot hcore hpage
    refine h.act_eq ?_
    dsimp only
    rw [hlist]
    dsimp only
    rw [hf, hg, hpair]
    dsimp only
    rw [if_neg (by simp [hplot, hcore]; omega), Device.parity_passes hparity, hpage]

end Sys2Proof.Machine

/-! ## The start and the end of an entry (R71, R77) -/

namespace Sys2Proof.Machine

/-! ### What leaves the cores alone -/

@[simp] theorem Device.cores_count (d : Device) (f : Field) (n i : Nat) : (d.count f n i).cores = d.cores := by
  unfold Device.count; split <;> rfl

theorem Device.cores_countUsers (d : Device) (old new : Nat) : (d.countUsers old new).cores = d.cores := by
  unfold Device.countUsers
  dsimp only
  split
  · rfl
  · split <;> split <;> simp [Device.countDown]

theorem Device.cores_mirror (d : Device) (a : Nat) (bs : List Byte) : (d.mirror a bs).cores = d.cores := by
  unfold Device.mirror Device.store
  split
  · split <;> rfl
  · rfl

theorem Device.cores_modTs (d : Device) (i : Nat) (f : SlotTurn → SlotTurn) : (d.modTs i f).cores = d.cores := by
  unfold Device.modTs Device.setSlot
  exact (Device.cores_mirror _ _ _).trans (d.cores_countUsers _ _)

theorem Device.cores_ite_modTs (c : Prop) [Decidable c] (d : Device) (i : Nat) (f : SlotTurn → SlotTurn) :
    (if c then d.modTs i f else d).cores = d.cores := by
  rw [apply_ite Device.cores, Device.cores_modTs, ite_self]

/-! ### The two commands -/

/-- ENTRY_START on a free core leaves it at the start of its next entry. -/
theorem core_entryStartEff {d : Device} {plot core : Nat} {a : Admitted} (hplot : plot < 64) (hcore : core < 64)
    (hfree : (d.core plot core).entry = none) (hreset : (sget {} d.plots plot).resetting = false)
    (hnext : d.nextEntry plot (d.core plot core).nextEntry = some a) :
    (entryStartEff plot core d).core plot core = { d.core plot core with
      entry := some a.index, nextEntry := a.index, wait := .none, run := (d.core plot core).run + 1, xputs := 0, appends := 0,
      inbox := (d.core plot core).inbox.filter fun x => decide (a.index ≤ x.1),
      pc := ((sget {} d.plots plot).entries.getD a.e.program (0, 0)).1, s := layFrom 0 (d.startScalars plot core a) } := by
  unfold entryStartEff
  dsimp only
  rw [if_neg (by simp [hfree, hreset]; omega), hnext]
  dsimp only
  rw [Device.core_congr (Device.cores_ite_modTs _ _ _ _)]
  exact d.core_setCore_same _ _ _

section
variable {d : Device} {plot core : Nat} {a : Admitted}

/-- END of an entry whose appends have all been placed frees the core, which may open a barrier and end the plot's share. -/
theorem endEff_placed (hrun : (d.running? { plot := plot, core := core } fun _ => false) = some a) (hplaced : (d.core plot core).appends = 0) :
    endEff plot core d = (((d.retire { plot := plot, core := core } 1 { d.core plot core with wait := .none }).setCore plot core
      { d.core plot core with
        wait := .none, pc := (d.core plot core).pc + 8, entry := none, nextEntry := a.index + 1,
        gap := max (d.core plot core).gap 1 }).openBarrier a).plotEnded a.index plot := by
  have hretired := d.core_retire_same { plot := plot, core := core } 1 { d.core plot core with wait := .none }
  dsimp only at hretired
  unfold endEff
  dsimp only
  rw [Device.running?_resumes hrun]
  dsimp only
  rw [if_neg (by omega), hretired]

theorem endEff_outstanding (hrun : (d.running? { plot := plot, core := core } fun _ => false) = some a)
    (hout : 0 < (d.core plot core).appends) : endEff plot core d = d.setCore plot core { d.core plot core with wait := .placement } := by
  unfold endEff
  dsimp only
  rw [Device.running?_resumes hrun]
  exact if_pos hout

end

/-- Settles O13: the core that ENTRY_START leaves, and END by whether an append is outstanding. -/
theorem entriesStartAndEnd : Obligations.EntriesStartAndEnd := by
  refine ⟨fun s plot core a hs hplot hcore hfree hreset hnext => ?start, fun s plot core a h => ⟨fun hplaced => ?ended, fun hout => ?waits⟩⟩
  case start =>
    refine ⟨_, State.act_put _ _ hs.2, ?_⟩
    rw [State.put_core, core_entryStartEff hplot hcore hfree hreset hnext]
    exact ⟨rfl, rfl, rfl, rfl⟩
  case ended =>
    obtain ⟨hs, hrun, -⟩ := h
    exact (State.act_put _ _ hs.2).trans (by rw [endEff_placed hrun hplaced])
  case waits =>
    obtain ⟨hs, hrun, -⟩ := h
    exact (State.act_put _ _ hs.2).trans (by rw [endEff_outstanding hrun hout])

end Sys2Proof.Machine

/-! ## Appends, mesh transfers and barriers (R70, R75 to R78) -/

namespace Sys2Proof.Machine

/-! ### What leaves the furrow unit alone -/

@[simp] theorem Device.fur_count (d : Device) (f : Field) (n i : Nat) : (d.count f n i).fur = d.fur := by
  unfold Device.count; split <;> rfl

@[simp] theorem Device.fur_store (d : Device) (a : Nat) (bs : List Byte) : (d.store a bs).fur = d.fur := by
  unfold Device.store; split <;> rfl

@[simp] theorem Device.fur_claimUnits (d : Device) (u n : Nat) : (d.claimUnits u n).fur = d.fur := by
  induction n generalizing d u with
  | zero => rfl
  | succ n ih =>
    unfold Device.claimUnits
    dsimp only
    rw [ih]
    split
    · rfl
    · exact d.fur_store _ _

@[simp] theorem Device.fur_writeMem (d : Device) (a : Nat) (bs : List Byte) : (d.writeMem a bs).fur = d.fur := by
  unfold Device.writeMem
  split
  · rfl
  · split <;> simp

theorem Device.fur_noteWait (d : Device) (a n : Nat) : (d.noteWait a n).fur = d.fur :=
  List.foldl_keep Device.fur _ (fun d _ => d.fur_count _ _ _) _ d

theorem Device.fur_postWrite (d : Device) (a : Nat) (bs : List Byte) (owner : Nat) (use : AccUse) :
    (d.postWrite a bs owner use).fur = d.fur := by
  unfold Device.postWrite
  split
  · exact d.fur_writeMem _ _
  · exact Device.fur_noteWait _ _ _

theorem Device.fur_fpStatus (d : Device) (plot sat : Nat) (nan : Bool) : (d.fpStatus plot sat nan).fur = d.fur := by
  unfold Device.fpStatus
  dsimp only
  split <;> split <;> simp

theorem Device.fur_replayed (d : Device) (i : CoreInsn) : (d.replayed i).fur = d.fur := by
  unfold Device.replayed
  split
  · rfl
  · exact d.fur_count _ _ _

theorem Device.fur_placeAppend (d : Device) (plot core g off : Nat) (bs : List Byte) : (d.placeAppend plot core g off bs).fur = d.fur := by
  unfold Device.placeAppend
  dsimp only
  rw [apply_ite Device.fur, Device.fur_writeMem, ite_self, Device.fur_postWrite, apply_ite Device.fur]
  exact ite_self _

/-- Placing a position pins its page and no other. -/
theorem Device.pins_placePosition (d : Device) (plot core g p dim : Nat) (fm : Fmt) (x : List Conv × List Conv) :
    (d.placePosition plot core g p dim fm x).fur.pins = g :: d.fur.pins := by
  unfold Device.placePosition
  simp only [Device.fur_fpStatus, Device.fur_placeAppend]

/-! ### APPEND -/

section
variable {s : State} {i : CoreInsn} {a : Admitted} {fi : Nat}

theorem State.runs.exec_append_offset (h : s.runs i a) (hfur : s.dev.entryFurrow a = some fi) (hpast : i.c ≥ a.tokens + a.e.prefill) :
    exec (.append i) s = .next (s.put (s.dev.appendRefused i 1 none)) := by
  refine h.act_eq ?_
  rw [hfur]
  exact if_pos hpast

theorem State.runs.exec_append_length (h : s.runs i a) (hfur : s.dev.entryFurrow a = some fi) (hin : i.c < a.tokens + a.e.prefill)
    (hpast : (s.dev.furrow fi).length + i.c ≥ 256 * pps (s.dev.furrow fi)) :
    exec (.append i) s = .next (s.put (s.dev.appendRefused i 2 none)) := by
  refine h.act_eq ?_
  rw [hfur]
  dsimp only
  rw [if_neg (Nat.not_le.mpr hin), if_pos hpast]

/-- An APPEND that no rule refuses places its position in the page's frame. -/
theorem State.runs.exec_append (h : s.runs i a) {g : Nat} {f : Furrow} {fm : Fmt} (hfur : s.dev.entryFurrow a = some fi)
    (hin : i.c < a.tokens + a.e.prefill) (hf : s.dev.furrow fi = f) (hlen : f.length + i.c < 256 * pps f)
    (hstream : streamOf f (s.dev.headEntry i.plot i.a) < streams f)
    (hg : g = seqPage f (streamOf f (s.dev.headEntry i.plot i.a)) ((f.length + i.c) / 256))
    (htier : (s.dev.pte g).tier = 1 ∨ (s.dev.pte g).tier = 2) (howner : s.dev.appendOwner g f.owner = none) (hfm : fmtOf f.fmt = some fm)
    (hparity : i.parity ≤ 3) :
    let d := (s.dev.replayed i).placePosition i.plot i.core g ((f.length + i.c) % 256) (headDim f) fm
      ((s.coreOf i).appendValues fm i.nonsat (headDim f) i.b)
    exec (.append i) s = .next (s.put (d.retire i (min i.cycles 8) { s.coreOf i with appends := (d.core i.plot i.core).appends })) := by
  subst hf hg
  refine h.act_eq ?_
  rw [hfur]
  dsimp only
  rw [if_neg (Nat.not_le.mpr hin), if_neg (Nat.not_le.mpr hlen), if_neg (by omega), howner]
  dsimp only
  rw [hfm]
  exact Device.parity_passes hparity _ _ _

/-! ### SEND, RECV and BAR -/

/-- SEND retires and delivers its lanes to the core it names. -/
theorem State.runs.exec_coreSend (h : s.runs i a) (hparity : i.parity ≤ 3) :
    let d := (s.dev.replayed i).retire i (min i.cycles 64) (s.coreOf i)
    exec (.coreSend i) s = .next (s.put (d.setCore (i.c / 64) (i.c % 64) ((d.core (i.c / 64) (i.c % 64)).deliver a.index
      (coreKey i.plot i.core) ((List.range (32 * i.b)).map fun n => (s.coreOf i).lane (32 * i.a + n))))) :=
  h.act_eq (Device.meshParity_passes hparity _ _)

/-- A core that has not ended an entry takes in what is sent to it for that entry. -/
theorem Core.inbox_deliver {k : Core} {n : Nat} (h : k.nextEntry ≤ n) (src : Nat) (data : List Nat) :
    (k.deliver n src data).inbox = k.inbox ++ [(n, src, data)] := by
  rw [Core.deliver, if_neg (Nat.not_lt.mpr h)]

theorem State.runs.exec_coreRecv_waits (h : s.runs i a)
    (hnone : (s.coreOf i).inbox.find? (fun x => x.1 == a.index && x.2.1 == i.c) = none) :
    exec (.coreRecv i) s = .next (s.put (s.dev.setCore i.plot i.core { s.coreOf i with wait := .recv i.c })) := by
  refine h.act_eq ?_
  rw [hnone]

theorem State.runs.exec_coreRecv (h : s.runs i a) {x : Nat × Nat × List Nat}
    (hsome : (s.coreOf i).inbox.find? (fun x => x.1 == a.index && x.2.1 == i.c) = some x) (hparity : i.parity ≤ 3) :
    exec (.coreRecv i) s = .next (s.put ((s.dev.replayed i).retire i 1
      ({ s.coreOf i with inbox := (s.coreOf i).inbox.erase x, wait := .none }.setLanes (32 * i.a) x.2.2))) := by
  refine h.act_eq ?_
  rw [hsome]
  exact Device.meshParity_passes hparity _ _

end

/-- A core that runs the entry and is not at the barrier keeps it closed. -/
theorem Device.openBarrier_closed {d : Device} {a : Admitted}
    (h : ∃ x ∈ entryCores a, (d.core x.1 x.2).wait ≠ .barrier ∧ (d.core x.1 x.2).entry = some a.index) : d.openBarrier a = d := by
  obtain ⟨x, hx, hwait, hentry⟩ := h
  refine if_neg fun hall => ?_
  have hthere := List.all_eq_true.mp hall x hx
  simp [hwait, hentry] at hthere

/-- Settles O14: APPEND by the first rule that refuses it, SEND and RECV by what a core's inbox holds, BAR by who is missing. -/
theorem appendsAndMeshTransfers : Obligations.AppendsAndMeshTransfers := by
  refine fun s i a h => ⟨?offset, ?length, ?placed, ?send, ?arrives, ?recvWaits, ?recv, ?bar, ?barWaits⟩
  case offset => exact fun fi hfur hpast => h.exec_append_offset hfur hpast
  case length => exact fun fi hfur hin hpast => h.exec_append_length hfur hin hpast
  case placed =>
    intro fi g f fm hfur hin hf hlen hstream hg htier howner hfm hparity
    refine ⟨h.exec_append hfur hin hf hlen hstream hg htier howner hfm hparity, ?_⟩
    rw [Device.pins_placePosition, Device.fur_replayed]
  case send => exact fun hparity => h.exec_coreSend hparity
  case arrives =>
    intro hparity hother hnot
    have hkey : coreKey (i.c / 64) (i.c % 64) ≠ coreKey i.plot i.core := by rwa [coreKey_div_mod]
    refine ⟨_, h.exec_coreSend (by omega), ?_⟩
    rw [Device.replayed_clean hparity, Device.core_retire_other _ _ _ _ hkey]
    rw [State.put_core, Device.core_setCore_same, Core.inbox_deliver hnot]
  case recvWaits => exact fun hnone => h.exec_coreRecv_waits hnone
  case recv => exact fun x hsome hparity => h.exec_coreRecv hsome hparity
  case bar => exact h.act _
  case barWaits => exact fun hmissing => h.act_eq (Device.openBarrier_closed hmissing)

end Sys2Proof.Machine

/-! ## Pages coded, fetched and moved (R99, R113, R167, R179, R183, R184) -/

namespace Sys2Proof.Machine

/-- A command whose effect is known ends in the device that the effect leaves. -/
theorem State.awake.act_eq {s : State} (hs : s.awake) {f : Device → Device} {d : Device} (hf : f s.dev = d) : s.act f = .next (s.put d) :=
  (State.act_put s f hs.2).trans (by rw [hf])

theorem Device.furrow_congr {d e : Device} (h : e.fur = d.fur) (i : Nat) : e.furrow i = d.furrow i := by
  rw [Device.furrow, Device.furrow, h]

theorem Device.pte_congr {d e : Device} (h : e.fur = d.fur) (g : Nat) : e.pte g = d.pte g := by
  rw [Device.pte, Device.pte, h]

/-! ### The encoder's read of a closed page -/

/-- The device once the encoder's read of a page has passed its parity: a replay that cured it is counted. -/
def Device.codingRead (d : Device) (parity : Nat) : Device := if parity = 0 then d else d.count F.ERR_COUNTS.REPLAYED

@[simp] theorem Device.fur_codingRead (d : Device) (parity : Nat) : (d.codingRead parity).fur = d.fur := by
  unfold Device.codingRead
  split
  · rfl
  · exact d.fur_count _ _ _

/-- The record of an encoder's read that has failed its last replay (R113). -/
def Device.codingError (d : Device) (g : Nat) (f : Furrow) : ErrRec :=
  let e := d.pte g
  { cause := 1, severity := 2, status := if e.tier = 2 then 0x0C else 0x0D, replays := 3, persistent := true,
    unitKind := if e.tier = 2 then 3 else 9, unit := if e.tier = 2 then e.frame / 32768 else 0, owner := f.owner, furrow := f.id,
    address := if e.tier = 1 then e.frame * frameBytes else frameAddr e.frame }

section
variable {d : Device} {g : Nat} {x : Coding} (hx : d.fur.coding.find? (fun x => x.page == g && x.ready.isNone) = some x)
  (hstill : (d.pte g).moving = false)
include hx hstill

/-- The read of a reservoir page whose channel's accesses wait goes to wait with them (R130). -/
theorem codedFrameEff_waits (parity : Nat) (htier : (d.pte g).tier = 2)
    (hwaits : d.readable 2 (d.pte g).frame (rawBytes (d.furrow x.desc)) = false) :
    codedFrameEff g parity d =
      d.postRead (frameAddr (d.pte g).frame) (rawBytes (d.furrow x.desc)) (d.furrow x.desc).owner (.coding g) := by
  rw [codedFrameEff, hx]
  dsimp only
  rw [hstill, htier, hwaits]
  rfl

variable (hread : d.readable (d.pte g).tier (d.pte g).frame (rawBytes (d.furrow x.desc)) = true)
  (howner : (d.pte g).tier = 2 → d.furrowBarred (d.furrow x.desc) (d.pte g).frame false = none)
include hread howner

/-- A read that passes its parity, at once or after replays, brings the page's bytes to the encoder. -/
theorem codedFrameEff_passes {parity : Nat} (hparity : parity ≤ 3) :
    codedFrameEff g parity d =
      (d.codingRead parity).placeCoded x ((d.codingRead parity).pageBytes g (rawBytes (d.furrow x.desc))) := by
  have hallowed := ite_eq_right_iff.mpr howner
  have hreplayed : (if 1 ≤ parity ∧ parity ≤ 3 then d.count F.ERR_COUNTS.REPLAYED else d) = d.codingRead parity := by
    obtain rfl | hpos := Nat.eq_zero_or_pos parity
    · rfl
    · rw [if_pos ⟨hpos, hparity⟩, Device.codingRead, if_neg (Nat.ne_of_gt hpos)]
  rw [codedFrameEff, hx]
  dsimp only
  rw [hstill, hread, hallowed, hreplayed]
  exact if_neg (Nat.not_lt.mpr hparity)

/-- A read that fails its last replay is an uncorrectable error, and its page is coded no more. -/
theorem codedFrameEff_fails {parity : Nat} (hparity : 3 < parity) :
    codedFrameEff g parity d =
      let z := d.uncorrectable (d.codingError g (d.furrow x.desc))
      { z with fur.coding := z.fur.coding.erase x } := by
  have hallowed := ite_eq_right_iff.mpr howner
  rw [codedFrameEff, hx]
  dsimp only
  rw [hstill, hread, hallowed, if_neg (c := 1 ≤ parity ∧ parity ≤ 3) (by omega)]
  exact if_pos hparity

end

/-! ### The frame of a coded object (R99) -/

/-- A frame for the coded object of a page with an entry: of its tier's pool, near the page. -/
def Device.codedFrame (d : Device) (e : Pte) (owner : Nat) : Option (Nat × Device) :=
  d.allocFrame (if e.tier == 1 then poolHw else poolRes) (if e.tier == 1 then hwPlot e.frame else e.frame / 32768 / 160) owner

/-- The device once a coded object has been written to a frame that it has been given, and is noted for the next boundary. -/
def Device.codedInto (d : Device) (x : Coding) (e : Pte) (a : Nat) (o : List Byte) : Device :=
  let y := { x with ready := some (if e.tier == 1 then a / frameBytes else frameOf a, o.length / 64) }
  ({ d with fur.coding := d.fur.coding.map fun (z : Coding) => if z = x then y else z } : Device).postWrite a o

section
variable {d : Device} {x : Coding} {bs : List Byte} {f : Furrow} (hf : d.furrow x.desc = f)
include hf

theorem Device.placeCoded_raw (hcode : encodeObject (if f.fmt < 8 then 0 else 1) bs = none) :
    d.placeCoded x bs = { d with fur.coding := d.fur.coding.erase x } := by
  rw [Device.placeCoded, hf]
  dsimp only
  rw [hcode]

variable {e : Pte} {o : List Byte} (he : d.pte x.page = e) (hcode : encodeObject (if f.fmt < 8 then 0 else 1) bs = some o)
include he hcode

theorem Device.placeCoded_placed {p : Nat × Device} (hframe : d.codedFrame e f.owner = some p) :
    d.placeCoded x bs = p.2.codedInto x e p.1 o := by
  rw [Device.codedFrame] at hframe
  rw [Device.placeCoded, hf, he]
  dsimp only
  rw [hcode]
  dsimp only
  rw [hframe]
  rfl

theorem Device.placeCoded_noFrame (hframe : d.codedFrame e f.owner = none) : d.placeCoded x bs = d := by
  rw [Device.codedFrame] at hframe
  rw [Device.placeCoded, hf, he]
  dsimp only
  rw [hcode]
  dsimp only
  rw [hframe]

end

/-! ### The end of a fetch or of the furrow unit's own read (R179, R188) -/

theorem fetchDoneEff_fetch {d : Device} {g : Nat} {x : Fetch} (ok : Bool) (tries : List (List Byte))
    (hx : d.fur.fetches.find? (fun f => f.page == g && f.ctx.isNone && (f.src != 0 || f.ended.isSome)) = some x) :
    fetchDoneEff g ok tries d = d.fetchDone x ok := by
  rw [fetchDoneEff, hx]

theorem fetchDoneEff_load {d : Device} {g : Nat} {x : PageLoad} (ok : Bool) (tries : List (List Byte))
    (hnone : d.fur.fetches.find? (fun f => f.page == g && f.ctx.isNone && (f.src != 0 || f.ended.isSome)) = none)
    (hx : d.fur.loads.find? (fun x => x.page == g) = some x) : fetchDoneEff g ok tries d = d.loadDone x ok tries := by
  rw [fetchDoneEff, hnone]
  dsimp only
  rw [hx]

section
variable {d : Device} {x : Fetch} (hctx : x.ctx = none)
include hctx

theorem Device.fetchDone_ends (ok : Bool) (hended : x.ended = some 0) : d.fetchDone x ok = d.fetchEnds x := by
  rw [Device.fetchDone, hctx, hended]
  rfl

theorem Device.fetchDone_failed (ok : Bool) {st : Nat} (hended : x.ended = some st) (hst : st ≠ 0) :
    d.fetchDone x ok = d.fetchFailed x st := by
  rw [Device.fetchDone, hctx, hended]
  cases st with
  | zero => exact absurd rfl hst
  | succ n => rfl

variable (hended : x.ended = none) (hsrc : x.src ≠ 0)
include hended hsrc

/-- A direct fetch copies the page's used bytes when its owner may read the frame and nothing waits. -/
theorem Device.fetchDone_copies (hread : x.read = false)
    (howner : d.furrowBarred (d.furrow x.desc) (frameOf x.src) false = none) (hgo : d.waits x.src (d.fetchLen x) = false) :
    d.fetchDone x true = (d.store x.addr (d.readMem x.src (d.fetchLen x))).fetchEnds x := by
  rw [Device.fetchDone, hctx, hended]
  dsimp only
  rw [if_neg hsrc, hread, howner, hgo]
  rfl

theorem Device.fetchDone_copied (hread : x.read = true) : d.fetchDone x true = d.fetchEnds x := by
  rw [Device.fetchDone, hctx, hended]
  dsimp only
  rw [if_neg hsrc, hread]
  rfl

end

section
variable {d : Device} {x : PageLoad}

theorem Device.loadDone_flash (ok : Bool) (tries : List (List Byte)) {st : Nat} (htier : x.tier = 4) (hended : x.ended = some st) :
    d.loadDone x ok tries = d.readTaken x st x.data := by
  rw [Device.loadDone, htier, hended]
  rfl

variable (htier : x.tier = 2)
include htier

/-- A read of the reservoir that has its bytes takes them when its owner may read the frame and it passes its parity. -/
theorem Device.loadDone_reads (tries : List (List Byte)) (hdata : x.data ≠ [])
    (howner : d.furrowBarred (d.furrow x.desc) x.frame false = none) : d.loadDone x true tries = d.readTaken x 0 x.data := by
  rw [Device.loadDone, if_neg (by omega), if_neg (fun h => hdata h.2.1), if_pos htier, howner]
  dsimp only
  rw [if_pos rfl, if_neg hdata]

/-- A read of a frame that its owner may not read has no bytes, once it does not wait (R118). -/
theorem Device.loadDone_barred (ok : Bool) (tries : List (List Byte)) {b : Device}
    (hgo : x.data ≠ [] ∨ d.waits (frameAddr x.frame) (64 * x.span) = false)
    (howner : d.furrowBarred (d.furrow x.desc) x.frame false = some b) : d.loadDone x ok tries = b.readTaken x 1 [] := by
  have hnow : ¬(x.tier = 2 ∧ x.data = [] ∧ d.waits (frameAddr x.frame) (64 * x.span) = true) := by
    rintro ⟨-, hdata, hwaits⟩
    simp [hdata, hwaits] at hgo
  rw [Device.loadDone, if_neg (by omega), if_neg hnow, if_pos htier, howner]

end

/-! ### The spillway (R183) -/

/-- A pool is being evicted, or has fallen below LOW. -/
def Device.evicts (d : Device) (pool : Nat) : Prop :=
  d.fur.evicting.contains pool = true ∨ d.fld F.FUR_POOL_STATUS.FREE pool < d.fld F.FUR_POOL_CFG.LOW pool

/-- The device with a pool marked as being evicted. -/
def Device.evicting (d : Device) (pool : Nat) : Device :=
  if d.fur.evicting.contains pool then d else { d with fur.evicting := pool :: d.fur.evicting }

theorem Device.not_evicts_iff {d : Device} {pool : Nat} :
    (!(d.fur.evicting.contains pool || decide (d.fld F.FUR_POOL_STATUS.FREE pool < d.fld F.FUR_POOL_CFG.LOW pool))) = true ↔
      ¬d.evicts pool := by
  rw [Device.evicts, Bool.not_eq_true', ← Bool.not_eq_true, Bool.or_eq_true, decide_eq_true_iff]

section
variable {d : Device} {pool : Nat} (hpool : pool < 2)
include hpool

theorem spillwayEff_idle (pick : Nat) (hnot : ¬d.evicts pool) : spillwayEff pool pick d = d := by
  rw [spillwayEff, if_neg (by omega)]
  exact if_pos (Device.not_evicts_iff.mpr hnot)

variable (hevicts : d.evicts pool)
include hevicts

theorem spillwayEff_stops (pick : Nat) (hhigh : d.fld F.FUR_POOL_CFG.HIGH pool ≤ d.fld F.FUR_POOL_STATUS.FREE pool) :
    spillwayEff pool pick d = { d with fur.evicting := d.fur.evicting.filter (· != pool) } := by
  rw [spillwayEff, if_neg (by omega)]
  dsimp only
  rw [if_neg fun h => Device.not_evicts_iff.mp h hevicts, if_pos (by omega), if_pos hhigh]

variable {pick : Nat} (hroom : d.fld F.FUR_POOL_STATUS.FREE pool + d.leaving pool < d.fld F.FUR_POOL_CFG.HIGH pool)
include hroom

/-- A step of eviction drops a spare copy, or with none to drop begins a page's move. -/
theorem spillwayEff_evicts : spillwayEff pool pick d =
    match if pool = 0 then (d.evicting pool).byAge (d.evicting pool).spareCopies pick else [] with
    | g :: _ => (d.evicting pool).dropCopy g
    | [] => (d.evicting pool).spill pool ((d.evicting pool).byAge ((d.evicting pool).movablePages (pool + 1)) pick) := by
  rw [spillwayEff, if_neg (by omega)]
  dsimp only
  rw [if_neg fun h => Device.not_evicts_iff.mp h hevicts, if_neg (by omega)]
  rfl

theorem spillwayEff_drops (hzero : pool = 0) {g : Nat} {gs : List Nat}
    (hage : (d.evicting pool).byAge (d.evicting pool).spareCopies pick = g :: gs) :
    spillwayEff pool pick d = (d.evicting pool).dropCopy g := by
  rw [spillwayEff_evicts hpool hevicts hroom, if_pos hzero, hage]

theorem spillwayEff_spills (hnone : pool = 1 ∨ (d.evicting pool).byAge (d.evicting pool).spareCopies pick = []) :
    spillwayEff pool pick d =
      (d.evicting pool).spill pool ((d.evicting pool).byAge ((d.evicting pool).movablePages (pool + 1)) pick) := by
  have hcopies : (if pool = 0 then (d.evicting pool).byAge (d.evicting pool).spareCopies pick else []) = [] := by
    obtain rfl | hage := hnone
    · rfl
    · rw [hage, ite_self]
  rw [spillwayEff_evicts hpool hevicts hroom, hcopies]

end

/-! ### The end of a move (R183, R184) -/

section
variable {d : Device} {g : Nat} {m : Move} (hm : d.fur.moves.find? (fun m => m.page == g && !m.done) = some m) (hctx : m.ctx = none)
include hm hctx

theorem moveDoneEff_done (refused : Bool) (hended : m.ended = some 0) :
    moveDoneEff g refused d = { d with fur.moves := d.fur.moves.map fun (x : Move) => if x = m then { m with done := true } else x } := by
  rw [moveDoneEff, hm]
  dsimp only
  rw [hctx, hended]
  rfl

/-- A move whose descriptor has failed goes to flash where its home refused it, and otherwise ends. -/
theorem moveDoneEff_failed (refused : Bool) {n : Nat} (hended : m.ended = some (n + 1)) :
    moveDoneEff g refused d = if m.tier = 3 ∧ refused = true then d.moveRefused m else d.moveFailed m := by
  rw [moveDoneEff, hm]
  dsimp only
  rw [hctx, hended]
  rfl

end

/-- Settles O38: the encoder's read by whether it waits, passes and gains, a fetch or a read by how it has ended, a step of the spillway by
what the pool has free, and a move by how its descriptor has ended. -/
theorem pagesCodedFetchedAndMoved : Obligations.PagesCodedFetchedAndMoved := by
  refine fun s hs => ⟨fun g x parity hx hstill => ?coding, fun g x ok tries hx hctx => ?fetch, fun g x ok tries hnone hx => ?load,
    fun pool pick hpool => ?spillway, fun g m refused hm hctx => ?move⟩
  case coding =>
    refine ⟨fun htier hwaits => hs.act_eq (codedFrameEff_waits hx hstill parity htier hwaits), fun hread howner =>
      ⟨fun hparity => ?_, fun hparity => hs.act_eq (codedFrameEff_fails hx hstill hread howner hparity)⟩⟩
    have hfound := List.find?_some hx
    have hpage : x.page = g := beq_iff_eq.mp (Bool.and_eq_true_iff.mp hfound).1
    have hread := codedFrameEff_passes hx hstill hread howner hparity
    have hfur := s.dev.fur_codingRead parity
    have hfurrow := Device.furrow_congr hfur x.desc
    have hpte : (s.dev.codingRead parity).pte x.page = s.dev.pte g := by rw [Device.pte_congr hfur, hpage]
    exact ⟨fun hcode => hs.act_eq (hread.trans (Device.placeCoded_raw hfurrow hcode)),
      fun bs p hcode hframe => hs.act_eq (hread.trans (Device.placeCoded_placed hfurrow hpte hcode hframe)),
      fun bs hcode hframe => hs.act_eq (hread.trans (Device.placeCoded_noFrame hfurrow hpte hcode hframe))⟩
  case fetch =>
    have hfetch := fetchDoneEff_fetch ok tries hx
    refine ⟨fun hended => hs.act_eq (hfetch.trans (Device.fetchDone_ends hctx ok hended)),
      fun st hended hst => hs.act_eq (hfetch.trans (Device.fetchDone_failed hctx ok hended hst)), ?_, ?_⟩
    · rintro hended hsrc hread howner hgo rfl
      exact hs.act_eq (hfetch.trans (Device.fetchDone_copies hctx hended hsrc hread howner hgo))
    · rintro hended hsrc hread rfl
      exact hs.act_eq (hfetch.trans (Device.fetchDone_copied hctx hended hsrc hread))
  case load =>
    have hload := fetchDoneEff_load ok tries hnone hx
    refine ⟨fun st htier hended => hs.act_eq (hload.trans (Device.loadDone_flash ok tries htier hended)), ?_,
      fun b htier hgo howner => hs.act_eq (hload.trans (Device.loadDone_barred htier ok tries hgo howner))⟩
    rintro htier hdata howner rfl
    exact hs.act_eq (hload.trans (Device.loadDone_reads htier tries hdata howner))
  case spillway =>
    refine ⟨fun hnot => State.act_id hs.1 (spillwayEff_idle hpool pick hnot),
      fun hevicts hhigh => hs.act_eq (spillwayEff_stops hpool hevicts pick hhigh), fun hevicts hroom => ⟨?drops, ?spills⟩⟩
    case drops => exact fun ⟨hzero, _⟩ g gs hage => hs.act_eq (spillwayEff_drops hpool hevicts hroom hzero hage)
    case spills => exact fun hnone => hs.act_eq (spillwayEff_spills hpool hevicts hroom hnone)
  case move =>
    refine ⟨fun hended => hs.act_eq (moveDoneEff_done hm hctx refused hended), fun n hended => ⟨?refused, ?fails⟩⟩
    case refused => exact fun htier hrefused => hs.act_eq ((moveDoneEff_failed hm hctx refused hended).trans (if_pos ⟨htier, hrefused⟩))
    case fails =>
      intro hother
      have hnot : ¬(m.tier = 3 ∧ refused = true) := fun ⟨htier, hrefused⟩ =>
        hother.elim (fun h => h htier) fun h => Bool.false_ne_true (h.symm.trans hrefused)
      exact hs.act_eq ((moveDoneEff_failed hm hctx refused hended).trans (if_neg hnot))

end Sys2Proof.Machine

/-! ## Memory-mode accesses and refreshes (R102, R107, R110, R113, R118, R130, R151) -/

namespace Sys2Proof.Machine

/-! ### What a count leaves alone -/

@[simp] theorem Device.pim_count (d : Device) (f : Field) (n i : Nat) : (d.count f n i).pim = d.pim := by
  unfold Device.count; split <;> rfl

@[simp] theorem Device.mem5_count (d : Device) (f : Field) (n i : Nat) : (d.count f n i).mem5 = d.mem5 := by
  unfold Device.count; split <;> rfl

theorem Device.fld_count_reg (d : Device) {f g : Field} (n : Nat) {i j : Nat} (h : g.reg ≠ f.reg) (hi : i < 0x10000) (hj : j < 0x10000) :
    (d.count f n i).fld g j = d.fld g j := by
  unfold Device.count
  split <;> exact d.fld_setFld_reg _ _ _ h hi hj

theorem Device.chan_count (d : Device) (f : Field) (n i k : Nat) : (d.count f n i).chan k = d.chan k := by
  rw [Device.chan, Device.pim_count, Device.chan]

/-- A count in another register than PIM_CH_STATUS leaves whether a channel's accesses wait. -/
theorem Device.chWaits_count (d : Device) {f : Field} (n : Nat) {i k : Nat} (h : .PIM_CH_STATUS ≠ f.reg) (hi : i < 0x10000)
    (hk : k < 0x10000) : (d.count f n i).chWaits k = d.chWaits k := by
  simp only [Device.chWaits, Device.inWindow, Device.chMode, Device.mem5_count,
    d.fld_count_reg (g := F.PIM_CH_STATUS.MODE) n h hi hk]

/-- The replays that cure a parity check are counted once, and a check that passes at once is not (R113). -/
theorem Device.replay_counted (d : Device) {parity : Nat} (h : parity ≤ 3) :
    (if 1 ≤ parity ∧ parity ≤ 3 then d.count F.ERR_COUNTS.REPLAYED else d) =
      if parity = 0 then d else d.count F.ERR_COUNTS.REPLAYED := by
  by_cases h0 : parity = 0
  · rw [if_pos h0, if_neg (by omega)]
  · rw [if_neg h0, if_pos ⟨Nat.pos_of_ne_zero h0, h⟩]

/-! ### The check of an access and the channel that it allows (R101, R102, R109, R118) -/

@[simp] theorem Device.inMemRegion_at (d : Device) (t a n : Nat) : (d.at_ t).inMemRegion a n = d.inMemRegion a n := rfl
@[simp] theorem Device.ownerEntry_at (d : Device) (t : Nat) : (d.at_ t).ownerEntry = d.ownerEntry := rfl

/-- The check of an access does not depend on the time. -/
@[simp] theorem Device.check_at (d : Device) (t a n owner : Nat) (write pfq : Bool) :
    (d.at_ t).check a n owner write pfq = d.check a n owner write pfq := by
  rw [Device.check, Device.inMemRegion_at, Device.ownerEntry_at, Device.check]

theorem Device.place_memRegion {d : Device} {a k : Nat} (h : d.place a = .memRegion k) :
    k = (a - resvBase) / channelBytes ∧ k < 320 := by
  unfold Device.place at h
  dsimp only at h
  split at h
  · split at h <;> cases h
  · split at h
    · cases h
    · split at h
      · cases h
      · split at h
        · next hchannel =>
          split at h
          · cases h
            exact ⟨rfl, hchannel.1⟩
          · cases h
        · cases h

theorem frameOf_mem_framesOf {a : Nat} (h : resvBase ≤ a) (n : Nat) : frameOf a ∈ framesOf a n := by
  refine List.mem_map.mpr ⟨0, List.mem_range.mpr ?_, Nat.add_zero _⟩
  have hle : (a - resvBase) / frameBytes ≤ (a + max n 1 - 1 - resvBase) / frameBytes := Nat.div_le_div_right (by omega)
  omega

/-- A range that begins in memory regions begins in one of the 320 channels. -/
theorem Device.inMemRegion_channel {d : Device} {a n : Nat} (h : d.inMemRegion a n = true) : (a - resvBase) / channelBytes < 320 := by
  rw [Device.inMemRegion, Bool.and_eq_true, decide_eq_true_eq] at h
  obtain ⟨hresv, hall⟩ := h
  have hfirst := List.all_eq_true.mp hall _ (frameOf_mem_framesOf hresv n)
  split at hfirst
  · next k hplace =>
    obtain ⟨hk, hlt⟩ := Device.place_memRegion hplace
    unfold frameAddr frameOf frameBytes channelBytes at hk
    unfold channelBytes
    omega
  · cases hfirst

theorem Device.channel_of_check_ok {d : Device} {a n owner : Nat} {write pfq : Bool} (h : resvBase ≤ a)
    (hcheck : d.check a n owner write pfq = .ok) : (a - resvBase) / channelBytes < 320 := by
  have habove : 0xC1000000 < a := Nat.lt_of_lt_of_le (by decide) h
  have hhw : inHeadwater a n = false := by
    rw [inHeadwater, decide_eq_false (by omega), Bool.false_and]
  rw [Device.check, hhw, if_neg Bool.false_ne_true, if_neg (by omega)] at hcheck
  split at hcheck
  · next hregion => exact Device.inMemRegion_channel hregion
  · cases hcheck

/-! ### MEMORY_ACCESS -/

/-- The record of an access that R102 or R118 does not allow. -/
def accessBarred (cause owner addr : Nat) (detail : List (Nat × Nat)) : ErrRec :=
  { cause := cause, severity := 1, status := 1, unitKind := 3, unit := (addr - resvBase) / channelBytes, owner := owner, address := addr,
    detail := detail }

/-- The record of an access whose parity check has failed its last replay (R113). -/
def accessFailed (owner addr : Nat) (write : Bool) : ErrRec :=
  { cause := 1, severity := 2, status := 0x0C, replays := 3, persistent := !write, unitKind := 3,
    unit := (addr - resvBase) / channelBytes, owner := owner, address := addr, detail := [(4, 0)] }

section
variable {d : Device} {addr len owner : Nat} {write pfq : Bool} (haddr : resvBase ≤ addr)
include haddr

theorem memoryAccessEff_reserved (at_ : Nat) (data : List Byte) (parity : Nat) (hcheck : d.check addr len owner write pfq = .reserved) :
    memoryAccessEff at_ addr len owner write pfq data parity d = (d.at_ at_).record (accessBarred 6 owner addr []) := by
  rw [memoryAccessEff, if_neg (Nat.not_lt.mpr haddr), Device.check_at, hcheck]
  rfl

theorem memoryAccessEff_owner (at_ : Nat) (data : List Byte) (parity : Nat) {o : Nat} (hcheck : d.check addr len owner write pfq = .owner o) :
    memoryAccessEff at_ addr len owner write pfq data parity d = (d.at_ at_).record (accessBarred 3 owner addr [(2, o)]) := by
  rw [memoryAccessEff, if_neg (Nat.not_lt.mpr haddr), Device.check_at, hcheck]
  rfl

variable (hcheck : d.check addr len owner write pfq = .ok)
include hcheck

theorem memoryAccessEff_fails (at_ : Nat) (data : List Byte) {parity : Nat} (hparity : 3 < parity) :
    memoryAccessEff at_ addr len owner write pfq data parity d = (d.at_ at_).uncorrectable (accessFailed owner addr write) := by
  rw [memoryAccessEff, if_neg (Nat.not_lt.mpr haddr), Device.check_at, hcheck]
  dsimp only
  rw [if_pos hparity, if_neg (c := 1 ≤ parity ∧ parity ≤ 3) (by omega)]
  rfl

/-- An allowed access whose parity holds waits with its channel's others, or is served (R107, R130). -/
theorem memoryAccessEff_passes {at_ k : Nat} {data : List Byte} {parity : Nat} {x : MemAcc} (hparity : parity ≤ 3)
    (hk : k = (addr - resvBase) / channelBytes)
    (hx : x = { at_ := (d.at_ at_).now, addr := addr, len := len, owner := owner, write := write, pfq := pfq, data := data }) :
    memoryAccessEff at_ addr len owner write pfq data parity d =
      let c := if parity = 0 then d.at_ at_ else (d.at_ at_).count F.ERR_COUNTS.REPLAYED
      if d.chWaits k then (c.setChan k { d.chan k with waiting := (d.chan k).waiting ++ [x] }).noteWait addr 1 else c.access k x := by
  subst hk hx
  have hlt := Device.channel_of_check_ok haddr hcheck
  rw [memoryAccessEff, if_neg (Nat.not_lt.mpr haddr), Device.check_at, hcheck]
  dsimp only
  rw [if_neg (Nat.not_lt.mpr hparity), Device.replay_counted _ hparity]
  split
  · rfl
  · rw [Device.chWaits_count _ _ (by decide) (by decide) (by omega), Device.chan_count]
    rfl

end

theorem Device.foldl_emit {α : Type} (g : α → Out) (l : List α) (d : Device) :
    l.foldl (fun d a => d.emit (g a)) d = { d with out := d.out ++ l.map g } := by
  induction l generalizing d with
  | nil => rw [List.foldl_nil, List.map_nil, List.append_nil]
  | cons a l ih => rw [List.foldl_cons, ih, List.map_cons, Device.emit, List.append_assoc, List.singleton_append]

/-- A read that is served sends its bursts' requests to the dies and changes nothing else of the device. -/
theorem Device.access_read (d : Device) (k : Nat) {x : MemAcc} (h : x.write = false) : ∃ out, d.access k x = { d with out := out } := by
  unfold Device.access
  dsimp only
  rw [h, if_neg Bool.false_ne_true, Device.foldl_emit]
  exact ⟨_, rfl⟩

/-! ### REFRESH_DUE -/

section
variable {d : Device} {k bank : Nat} (hchannel : d.part.channel k = true) (hbank : bank < 16) (hmode : d.chMode k ≠ 2)
  (hself : d.mem5.selfRefresh.contains (k / 40) = false)
include hchannel hbank hmode hself

/-- The refreshes that a memory-mode channel issues are those that the controller chooses, at least one where more than four are owed and
at most what is owed (R151). -/
theorem refreshEff_memory {issue n : Nat} (hn : n = min (if (d.chan k).debt bank + 1 > 4 then max issue 1 else issue) ((d.chan k).debt bank + 1)) :
    refreshEff k bank issue d =
      (if n = 0 then d.count F.PIM_CH_REFRESH.POSTPONED 1 k else (d.count F.PIM_CH_REFRESH.REFPB n k).emit (.dram k 1 bank n)).setDebts k
        ((List.range 16).map fun b => if b = bank then (d.chan k).debt bank + 1 - n else (d.chan k).debt b) := by
  have hserves : (!d.part.channel k || decide (bank ≥ 16) || d.chMode k == 2 || d.mem5.selfRefresh.contains (k / 40)) = false := by
    rw [hchannel, hself, beq_false_of_ne hmode, decide_eq_false (Nat.not_le.mpr hbank)]
    rfl
  unfold refreshEff
  dsimp only
  rw [hserves, if_neg Bool.false_ne_true, ← hn]
  by_cases h0 : n = 0
  · simp only [if_pos h0]
  · simp only [if_neg h0]

theorem refreshEff_postpones (hdebt : (d.chan k).debt bank < 4) :
    refreshEff k bank 0 d = (d.count F.PIM_CH_REFRESH.POSTPONED 1 k).setDebts k
      ((List.range 16).map fun b => if b = bank then (d.chan k).debt bank + 1 else (d.chan k).debt b) := by
  rw [refreshEff_memory hchannel hbank hmode hself (n := 0) (by rw [if_neg (by omega), Nat.zero_min])]
  rfl

theorem refreshEff_issues {issue : Nat} (hissue : 0 < issue) :
    let n := min issue ((d.chan k).debt bank + 1)
    refreshEff k bank issue d = ((d.count F.PIM_CH_REFRESH.REFPB n k).emit (.dram k 1 bank n)).setDebts k
      ((List.range 16).map fun b => if b = bank then (d.chan k).debt bank + 1 - n else (d.chan k).debt b) := by
  have hone : (if (d.chan k).debt bank + 1 > 4 then max issue 1 else issue) = issue := by
    rw [Nat.max_eq_left hissue, ite_self]
  dsimp only
  rw [refreshEff_memory hchannel hbank hmode hself (issue := issue) rfl, hone, if_neg (by omega)]

end

/-- Settles O34: an access by what its check says, its parity and whether its channel waits; a refresh by how many are issued. -/
theorem reservoirAccessesAndRefresh : Obligations.ReservoirAccessesAndRefresh := by
  refine fun s hs => ⟨fun at_ addr len owner write pfq data parity haddr => ⟨?reserved, ?owner, fun hcheck => ⟨?fails, fun hparity => ?passes⟩⟩,
    fun k bank hchannel hbank hmode hself => ⟨?postpones, ?issues⟩, ?rfm⟩
  case reserved => exact fun hcheck => hs.act_eq (memoryAccessEff_reserved haddr at_ data parity hcheck)
  case owner => exact fun o hcheck => hs.act_eq (memoryAccessEff_owner haddr at_ data parity hcheck)
  case fails => exact fun hparity => hs.act_eq (memoryAccessEff_fails haddr hcheck at_ data hparity)
  case passes =>
    have heff := memoryAccessEff_passes (at_ := at_) (data := data) haddr hcheck hparity rfl rfl
    refine ⟨fun hwaits => hs.act_eq (heff.trans (if_pos hwaits)), fun hserves => ?_⟩
    have hexec := hs.act_eq (heff.trans (if_neg (ne_true_of_eq_false hserves)))
    refine ⟨hexec, ?_⟩
    rintro rfl rfl t ht
    obtain rfl : _ = t := Host.Outcome.next.inj (hexec.symm.trans ht)
    obtain ⟨out, hread⟩ := (s.dev.at_ at_).access_read ((addr - resvBase) / channelBytes)
      (x := { at_ := (s.dev.at_ at_).now, addr := addr, len := len, owner := owner, write := false, pfq := pfq, data := data }) rfl
    rw [if_pos rfl, hread]
    exact State.framed_put (Device.framed_congr (s.dev.framed_refl []) rfl rfl rfl rfl) rfl
  case postpones => exact fun hdebt => hs.act_eq (refreshEff_postpones hchannel hbank hmode hself hdebt)
  case issues => exact fun issue hissue => hs.act_eq (refreshEff_issues hchannel hbank hmode hself hissue)
  case rfm => exact fun k bank hchannel => hs.act_eq (if_pos hchannel)

end Sys2Proof.Machine

/-! ## The local operations of a sluice descriptor (R113, R114, R130, R249, R251, R276) -/

namespace Sys2Proof.Machine

/-! ### Starting a descriptor (R130, R251) -/

section
variable {d : Device} {e c op : Nat} {x : SluCtx}

/-- A descriptor that may start ends at once when STOP_ON_ERROR stops it, is left unstarted and counted while its accesses wait, and is
carried out otherwise. -/
theorem Device.startCtx_starts (hctx : d.ctx e c = some x) (hop : x.desc.opcode = op) (hnew : x.started = false) (hopen : x.done = false)
    (hmay : d.mayStart x = true) (f : SluCtx → Device → Device) :
    d.startCtx e c op f =
      if d.stoppedBy x then d.endCtx e c 0x12 0
      else if d.descWaits x.desc then (descRanges x.desc).foldl (fun d r => d.noteWait r.1 r.2) d
      else f x (d.ctxBegun e c) := by
  rw [Device.startCtx, hctx]
  dsimp only
  rw [hop, hnew, hopen, hmay, bne_self_eq_false]
  rfl

theorem descRanges_signal {y : Desc} (hop : y.opcode = 8) : descRanges y = if y.locHost then [] else [(y.loc, 8)] := by
  rw [descRanges, hop]
  rfl

/-- A SIGNAL that waits for a window to close waits for its eight bytes in device memory. -/
theorem descRanges_signal_waits {y : Desc} (hop : y.opcode = 8) (hwaits : d.descWaits y = true) : descRanges y = [(y.loc, 8)] := by
  rw [Device.descWaits, descRanges_signal hop] at hwaits
  rw [descRanges_signal hop]
  split at hwaits
  · cases hwaits
  · next hhost => exact if_neg hhost

end

section
variable {s : State} {e c op : Nat} {x : SluCtx}

theorem State.awake.start_eq (hs : s.awake) {f : SluCtx → Device → Device} {d : Device} (hf : s.dev.startCtx e c op f = d) :
    s.act (fun d => d.startCtx e c op f) = .next (s.put d) := hs.act_eq hf

theorem State.begins.startCtx (h : s.begins e c op x) (f : SluCtx → Device → Device) :
    s.dev.startCtx e c op f = f x (s.dev.ctxBegun e c) := by
  obtain ⟨-, hctx, hop, hnew, hopen, hmay, hstop, hwaits⟩ := h
  rw [Device.startCtx_starts hctx hop hnew hopen hmay, hstop, hwaits]
  rfl

/-- A descriptor that begins has its opcode's effect on the device that shows it started. -/
theorem State.begins.act_eq (h : s.begins e c op x) {f : SluCtx → Device → Device} {d : Device} (hf : f x (s.dev.ctxBegun e c) = d) :
    s.act (fun d => d.startCtx e c op f) = .next (s.put d) := by
  have hs : s.awake := h.1
  exact hs.start_eq ((h.startCtx f).trans hf)

end

/-- A parity check that passes at once leaves the access as it is. -/
theorem Device.sluCheck_clean (d : Device) (x : SluCtx) (host : Bool) (a : Nat) (f : Device → Device) : d.sluCheck x 0 host a f = f d :=
  if_pos rfl

section
variable {d : Device} {x : SluCtx}

/-! ### COPY -/

/-- The device once the bytes of a COPY, or their coded object, have been placed, and the descriptor has ended. -/
def Device.copyEnds (x : SluCtx) (seen bs : List Byte) (d : Device) : Device :=
  match (if x.desc.coding = 2 ∧ x.desc.locHost = false then encodePasses x.desc.tables seen bs else none) with
  | some o => (d.putLocal x false x.desc.loc o).endCtx x.eng x.id 0 (o.length + 2 ^ 63)
  | none => (d.copyPut x bs).endCtx x.eng x.id 0 x.desc.length

section
variable (hsrc : d.localFault x x.desc.remHost x.desc.remote x.desc.length false = none)
  (hdst : d.localFault x x.desc.locHost x.desc.loc x.desc.length true = none) {hd : List Byte} {again : List (List Byte)}
include hsrc hdst

theorem copyEff_crcFailed (seen : List Byte) (parity : Nat) (hnone : (d.copySource x hd again).2 = none) :
    copyEff hd seen again parity x d =
      ((d.copySource x hd again).1.crcFailed x.desc.owner x.desc.remote none).endCtx x.eng x.id 0x0C 0 := by
  rw [copyEff]
  dsimp only
  rw [hsrc, hdst]
  dsimp only
  rw [hnone]

variable {bs : List Byte} (hsome : (d.copySource x hd again).2 = some bs)
include hsome

/-- The parity checks of a COPY that has its bytes: that of the source's read, then that of the destination's write. -/
theorem copyEff_checks (seen : List Byte) (parity : Nat) :
    copyEff hd seen again parity x d =
      (d.copySource x hd again).1.sluCheck x (if parity < 5 then parity else 0) x.desc.remHost x.desc.remote fun d =>
        d.sluCheck x (if parity < 5 then 0 else parity) x.desc.locHost x.desc.loc (Device.copyEnds x seen bs) := by
  rw [copyEff]
  dsimp only
  rw [hsrc, hdst]
  dsimp only
  rw [hsome]
  rfl

theorem copyEff_source (seen : List Byte) {parity : Nat} (hparity : parity < 5) :
    copyEff hd seen again parity x d =
      (d.copySource x hd again).1.sluCheck x parity x.desc.remHost x.desc.remote (Device.copyEnds x seen bs) := by
  simp only [copyEff_checks hsrc hdst hsome, if_pos hparity, Device.sluCheck_clean]

theorem copyEff_destination (seen : List Byte) {parity : Nat} (hparity : 5 ≤ parity) :
    copyEff hd seen again parity x d =
      (d.copySource x hd again).1.sluCheck x parity x.desc.locHost x.desc.loc (Device.copyEnds x seen bs) := by
  simp only [copyEff_checks hsrc hdst hsome, if_neg (Nat.not_lt.mpr hparity), Device.sluCheck_clean]

end

/-! ### SIGNAL and WAIT_VALUE -/

theorem signalEff_places (parity : Nat) (hloc : d.localFault x x.desc.locHost x.desc.loc 8 true = none) :
    signalEff parity x d = d.sluCheck x parity x.desc.locHost x.desc.loc fun d =>
      (d.putLocal x x.desc.locHost x.desc.loc (leBytes 8 x.desc.operand)).endCtx x.eng x.id 0 0 := by
  rw [signalEff, hloc]

/-- The device once a WAIT_VALUE has compared the value it reads with OPERAND. -/
def Device.waitCompares (x : SluCtx) (hd : List Byte) (d : Device) : Device :=
  let r := d.takeSource x x.desc.locHost x.desc.loc 8 hd
  if leValue r.2 = x.desc.operand then r.1.endCtx x.eng x.id 0 (leValue r.2)
  else r.1.modCtx x.eng x.id fun z => { z with result := leValue r.2 }

theorem waitTest_compares (hd : List Byte) (parity : Nat) (hloc : d.localFault x x.desc.locHost x.desc.loc 8 false = none) :
    waitTest hd parity x d = d.sluCheck x parity x.desc.locHost x.desc.loc (Device.waitCompares x hd) := by
  rw [waitTest, hloc]
  rfl

/-- A WAIT_VALUE that has not started is started. -/
theorem waitValueEff_starts {e c : Nat} (hctx : d.ctx e c = some x) (hnew : x.started = false) (hd : List Byte) (parity : Nat) :
    waitValueEff e c hd parity d = d.startCtx e c 9 (waitTest hd parity) := by
  rw [waitValueEff, hctx]
  dsimp only
  rw [if_neg (by simp [hnew])]

theorem waitValueTimeoutEff_ends {e c : Nat} (hctx : d.ctx e c = some x) (hop : x.desc.opcode = 9) (hstarted : x.started = true)
    (hopen : x.done = false) : waitValueTimeoutEff e c d = d.endCtx e c 2 x.result := by
  rw [waitValueTimeoutEff, hctx]
  exact if_pos ⟨hop, hstarted, hopen⟩

/-! ### ALLOC and FREE -/

/-- Where an ALLOC looks for its frame first: the plot, the die or the channel of the engine's die (log entry 26). -/
def allocNear (x : SluCtx) : Nat :=
  match x.desc.subop with
  | 0 => x.eng / 16 * 32
  | 2 => x.eng / 16 * 160
  | _ => x.eng / 16

theorem allocNear_eq (x : SluCtx) :
    allocNear x = if x.desc.subop = 0 then x.eng / 16 * 32 else if x.desc.subop = 2 then x.eng / 16 * 160 else x.eng / 16 := by
  unfold allocNear
  split
  · next hplot => rw [if_pos hplot]
  · next hchannel => rw [hchannel]; rfl
  · next hplot hchannel => rw [if_neg hplot, if_neg hchannel]

/-- The device once an ALLOC has ended with the frame that the pool gives, or with NO_FRAME. -/
def Device.allocEnds (d : Device) (x : SluCtx) (frame : Option (Nat × Device)) : Device :=
  frame.elim (d.endCtx x.eng x.id 0x0F 0) fun p => p.2.endCtx x.eng x.id 0 p.1

theorem allocEff_eq (x : SluCtx) (d : Device) :
    allocEff x d = d.allocEnds x (d.allocFrame x.desc.subop (allocNear x) x.desc.owner x.desc.shared) := by
  rw [allocEff]
  split
  · next hframe => exact (congrArg (d.allocEnds x) hframe).symm
  · next hnone => exact (congrArg (d.allocEnds x) hnone).symm

theorem freeEff_headwater (hhw : inHeadwater x.desc.loc 1 = true) : freeEff x d = (d.freeHw x.desc.loc).endCtx x.eng x.id 0 0 := by
  have hbelow : x.desc.loc < resvBase := by
    rw [inHeadwater, Bool.and_eq_true, decide_eq_true_eq] at hhw
    exact Nat.lt_trans hhw.1 (by decide)
  rw [freeEff]
  dsimp only
  rw [if_pos hbelow, if_pos hhw]

/-- The device once a reservoir frame has been freed: a frame of a score region waits for its clear. -/
def Device.freePlaced (d : Device) (a : Nat) : Device :=
  match d.place a with
  | .scoreRegion _ => d.freeScore (frameOf a)
  | _ => d.freeRes a

/-- A reservoir frame's entry decides whether FREE frees it or ends with the record of R118. -/
theorem freeEff_reservoir (hresv : resvBase ≤ x.desc.loc) (hplace : d.place x.desc.loc ≠ .reserved) :
    freeEff x d =
      if entryValid (d.ownerEntry (frameOf x.desc.loc)) && entrySlot (d.ownerEntry (frameOf x.desc.loc)) == x.desc.owner then
        (d.freePlaced x.desc.loc).endCtx x.eng x.id 0 0
      else
        (d.record { cause := 3, severity := 1, status := 1, unitKind := 2, unit := x.eng, owner := x.desc.owner, address := x.desc.loc,
                    detail := [(2, d.ownerEntry (frameOf x.desc.loc))] }).endCtx x.eng x.id 1 0 := by
  unfold freeEff Device.freePlaced
  dsimp only
  rw [if_neg (Nat.not_lt.mpr hresv)]
  cases hp : d.place x.desc.loc with
  | reserved => exact absurd hp hplace
  | headwater => rfl
  | retention => rfl
  | memRegion k => rfl
  | scoreRegion k => rfl

end

/-- Settles O27: a descriptor that begins by its opcode and what that opcode's effect depends on; one that has started or may not begin by
what holds it. -/
theorem sluiceLocalOperations : Obligations.SluiceLocalOperations := by
  refine ⟨fun s e c op x h => ⟨?copy, ?signal, ?wait, ?alloc, ?noFrame, ?freeHw, ?freeRes, ?nop⟩,
    fun s e c x hs hctx hopen => ⟨?timeout, ?stopped, ?waits⟩⟩
  case copy =>
    rintro hd seen again parity rfl hsrc hdst
    exact ⟨fun hnone => h.act_eq (copyEff_crcFailed hsrc hdst seen parity hnone), fun bs hsome =>
      ⟨fun hparity => h.act_eq (copyEff_source hsrc hdst hsome seen hparity),
        fun hparity => h.act_eq (copyEff_destination hsrc hdst hsome seen hparity)⟩⟩
  case signal =>
    rintro parity rfl hloc
    exact h.act_eq (signalEff_places parity hloc)
  case wait =>
    rintro hd parity rfl hloc
    obtain ⟨hs, hctx, -, hnew, -⟩ := id h
    exact hs.act_eq (((waitValueEff_starts hctx hnew hd parity).trans (h.startCtx _)).trans (waitTest_compares hd parity hloc))
  case alloc =>
    rintro p rfl hframe
    rw [← allocNear_eq] at hframe
    exact h.act_eq ((allocEff_eq x _).trans (congrArg (Device.allocEnds _ x) hframe))
  case noFrame =>
    rintro rfl hnone
    rw [← allocNear_eq] at hnone
    exact h.act_eq ((allocEff_eq x _).trans (congrArg (Device.allocEnds _ x) hnone))
  case freeHw =>
    rintro rfl hhw
    exact h.act_eq (freeEff_headwater hhw)
  case freeRes =>
    rintro rfl hresv hplace
    refine ⟨fun hvalid hslot => h.act_eq ((freeEff_reservoir hresv hplace).trans (if_pos ?own)),
      fun hother => h.act_eq ((freeEff_reservoir hresv hplace).trans (if_neg ?foreign))⟩
    case own => rw [hvalid, hslot, beq_self_eq_true, Bool.and_true]
    case foreign =>
      rw [Bool.and_eq_true, beq_iff_eq]
      rintro ⟨hvalid, hslot⟩
      exact hother.elim (fun hinvalid => Bool.false_ne_true (hinvalid.symm.trans hvalid)) fun hne => hne hslot
  case nop =>
    rintro rfl
    exact h.act_eq rfl
  case timeout => exact fun hstarted hop => hs.act_eq (waitValueTimeoutEff_ends hctx hop hstarted hopen)
  case stopped =>
    exact fun hnew hop hmay hstop => hs.start_eq ((Device.startCtx_starts hctx hop hnew hopen hmay _).trans (if_pos hstop))
  case waits =>
    intro parity hnew hop hmay hstop hwaits
    refine hs.start_eq ((Device.startCtx_starts hctx hop hnew hopen hmay _).trans ?_)
    rw [hstop, hwaits, descRanges_signal_waits hop hwaits]
    rfl

end Sys2Proof.Machine

/-! ## The modes of a reservoir channel (R128 to R136, R138, R151, R152) -/

namespace Sys2Proof.Machine

/-! ### What a channel's controller and its status read after a write -/

@[simp] theorem Device.chan_setChan_same (d : Device) (k : Nat) (c : PimChan) : (d.setChan k c).chan k = c := sget_sput_same _ _ _

theorem Device.chan_setChan_other (d : Device) {k j : Nat} (c : PimChan) (h : j ≠ k) : (d.setChan k c).chan j = d.chan j :=
  sget_sput_other _ _ h

@[simp] theorem Device.fld_setChan (d : Device) (k : Nat) (c : PimChan) (f : Field) (i : Nat) : (d.setChan k c).fld f i = d.fld f i := rfl
@[simp] theorem Device.chMode_setChan (d : Device) (k : Nat) (c : PimChan) (j : Nat) : (d.setChan k c).chMode j = d.chMode j := rfl
@[simp] theorem Device.chan_setFld (d : Device) (f : Field) (x i k : Nat) : (d.setFld f x i).chan k = d.chan k := rfl
@[simp] theorem Device.chan_setMode (d : Device) (k m j : Nat) : (d.setMode k m).chan j = d.chan j := rfl

theorem Device.chMode_setMode (d : Device) (k : Nat) {m : Nat} (h : m < 8) : (d.setMode k m).chMode k = m :=
  (d.fld_setFld_same F.PIM_CH_STATUS.MODE m k (by decide)).trans (Nat.mod_eq_of_lt h)

/-- A write to a field leaves the fields of its register that share no bit with it, in every copy. -/
theorem Device.fld_setFld_apart (d : Device) {f g : Field} (x i j : Nat) (hr : g.reg = f.reg) (hf : f.lo + f.w ≤ 64) (h : f.apart g) :
    (d.setFld f x i).fld g j = d.fld g j := by
  by_cases hj : j = i
  · subst hj
    exact d.fld_setFld_field x j hr hf h
  · exact d.fld_setFld_copy x hr hj

theorem Device.fld_rate_setMode (d : Device) (k m : Nat) : (d.setMode k m).fld F.PIM_CH_STATUS.RATE k = d.fld F.PIM_CH_STATUS.RATE k :=
  d.fld_setFld_apart m k k rfl (by decide) (.inl (by decide))

/-! ### The parts of what ends a command or frees a score frame -/

/-- A channel's controller once a command of queue q has left it with an outcome: the command counts towards the queue's next fence (R148),
and a RANK of a ranking is kept until its fence. -/
def PimChan.ended (c : PimChan) (q : Nat) (x : PimCmd) (outcome : Nat) : PimChan :=
  let c := if q = 0 then { c with entryQ := c.entryQ.erase x, hold0 := c.hold0.erase x, cmds0 := c.cmds0 + 1, worst0 := max c.worst0 outcome }
    else { c with maintQ := c.maintQ.erase x, hold1 := c.hold1.erase x, cmds1 := c.cmds1 + 1, worst1 := max c.worst1 outcome }
  match x.rank with
  | some id => if x.opcode = 1 then { c with pend := c.pend ++ [(id, x.best, x.scored)] } else c
  | none => c

/-- The device once the ranking that a command belongs to, or the area that a RANK names, has its outcome. -/
def Device.pimTold (d : Device) (x : PimCmd) (outcome : Nat) : Device :=
  match x.rank with
  | some id =>
    if outcome = 0 then d
    else { d with fur.rankings := d.fur.rankings.map fun (r : Ranking) => if r.id = id then { r with partialOut := true } else r }
  | none => if x.opcode = 1 ∧ x.rsvd = false ∧ x.c % 64 = 0 then d.pimWrite x x.c (resultBytes x outcome) else d

/-- The device once the write of a score form that a command carries out is noted. -/
def Device.pimNoted (d : Device) (x : PimCmd) (outcome : Nat) : Device :=
  match x.build with
  | some g =>
    if x.opcode ≠ 2 then d
    else if outcome = 0 then { d with fur.builds := d.fur.builds.map fun (b : Build) => if b.page = g then { b with written := true } else b }
    else d.buildFailed g
  | none => d

theorem Device.endPim_eq (d : Device) (k q : Nat) (x : PimCmd) (outcome : Nat) :
    d.endPim k q x outcome = (((d.setChan k ((d.chan k).ended q x outcome)).pimOutcome outcome).pimTold x outcome).pimNoted x outcome := rfl

/-- The device with a command put into its queue, its age the count. -/
def Device.pimPut (d : Device) (q : Nat) (x : PimCmd) : Device :=
  let y := { x with seq := d.pim.seq }
  let d := { d with pim.seq := d.pim.seq + 1 }
  let c := d.chan x.channel
  if q = 0 then d.setChan x.channel { c with entryQ := c.entryQ ++ [y] } else d.setChan x.channel { c with maintQ := c.maintQ ++ [y] }

/-- A command put into its queue stays there, or ends at once (R132, R142, R156). -/
theorem Device.enqueuePim_cases (d : Device) (q : Nat) (x : PimCmd) :
    d.enqueuePim q x = d.pimPut q x ∨
      ∃ outcome, d.enqueuePim q x = (d.pimPut q x).endPim x.channel q { x with seq := d.pim.seq } outcome := by
  have henqueue : d.enqueuePim q x =
      let e := d.pimPut q x
      let ended := e.endPim x.channel q { x with seq := d.pim.seq }
      if e.part.isL || !e.part.channel x.channel || e.chMode x.channel == 5 || e.chMode x.channel == 7 then ended 3
      else if q = 0 ∧ e.grantSpent x.entry = true ∧ ((d.chan x.channel).win.any fun w => w.entry == x.entry && !w.self) = false then ended 2
      else e := rfl
  rw [henqueue]
  generalize d.pimPut q x = e
  dsimp only
  split
  · exact .inr ⟨3, rfl⟩
  · split
    · exact .inr ⟨2, rfl⟩
    · exact .inl rfl

theorem Device.fld_pimPut (d : Device) (q : Nat) (x : PimCmd) (g : Field) (j : Nat) : (d.pimPut q x).fld g j = d.fld g j := by
  unfold Device.pimPut
  dsimp only
  split <;> rfl

/-- The device with the wait of a channel's frames for their clear dated, where a freed frame is the first that waits (R136). -/
def Device.scoreDated (d : Device) (k : Nat) (first : Bool) : Device :=
  if first then { d.setChan k { d.chan k with clearSince := d.pim.seq } with pim.seq := d.pim.seq + 1 } else d

/-- The device with a score frame that awaits its clear (R120). -/
def Device.scoreAwaits (d : Device) (f : Nat) : Device :=
  { d with mem5.owners := sput 0 d.mem5.owners f 0, pim.awaiting := d.pim.awaiting ++ [(f / 32768, f % 32768)] }

/-- A score frame is freed: not at all without an owner, later while 128 of its channel wait (R134), else to await its clear (R120). -/
theorem Device.freeScore_cases (d : Device) (f : Nat) :
    d.freeScore f = d ∨ d.freeScore f = { d with pim.toFree := d.pim.toFree ++ [f] } ∨
      ∃ first w, d.freeScore f = ((d.scoreDated (f / 32768) first).scoreAwaits f).setFld F.PIM_CH_STATUS.CLEARS w (f / 32768) := by
  unfold Device.freeScore
  dsimp only
  split
  · exact .inl rfl
  · split
    · exact .inr (.inl rfl)
    · exact .inr (.inr ⟨_, _, rfl⟩)

theorem Device.fld_scoreDated (d : Device) (k : Nat) (first : Bool) (g : Field) (j : Nat) : (d.scoreDated k first).fld g j = d.fld g j := by
  cases first <;> rfl

/-! ### What the end of a command leaves of the status of every channel

Of PIM_CH_STATUS only CLEARS can change. -/

section
variable {g : Field} (hg : g.reg = .PIM_CH_STATUS) {j : Nat} (hj : j < 0x10000)
include hg hj

theorem Device.fld_status_event (d : Device) {f : Field} (h : f.reg ≠ .PIM_CH_STATUS) : (d.event f).fld g j = d.fld g j :=
  d.fld_setFld_reg 1 0 j (fun he => h (he.symm.trans hg)) (by decide) hj

theorem Device.fld_status_count (d : Device) {f : Field} (n : Nat) {i : Nat} (h : f.reg ≠ .PIM_CH_STATUS) (hi : i < 0x10000) :
    (d.count f n i).fld g j = d.fld g j := d.fld_count_reg n (fun he => h (he.symm.trans hg)) hi hj

omit hg hj in
theorem Device.fld_pimWrite (d : Device) (x : PimCmd) (a : Nat) (bs : List Byte) : (d.pimWrite x a bs).fld g j = d.fld g j := by
  refine Device.fld_congr (fun r i => ?_) g j
  unfold Device.pimWrite
  split
  · exact d.reg_hostWrite _ _ _ _ _
  · split
    · exact d.reg_store _ _ _ _
    · rfl

omit hg hj in
theorem Device.fld_pimTold (d : Device) (x : PimCmd) (outcome : Nat) : (d.pimTold x outcome).fld g j = d.fld g j := by
  unfold Device.pimTold
  split
  · split <;> rfl
  · split
    · exact d.fld_pimWrite _ _ _
    · rfl

theorem Device.fld_status_pimOutcome (d : Device) (outcome : Nat) : (d.pimOutcome outcome).fld g j = d.fld g j := by
  unfold Device.pimOutcome
  split
  · exact Device.fld_status_event hg hj _ (by decide)
  · exact Device.fld_status_event hg hj _ (by decide)
  · exact Device.fld_status_event hg hj _ (by decide)
  · exact Device.fld_status_event hg hj _ (by decide)
  · rfl

variable (hclears : F.PIM_CH_STATUS.CLEARS.apart g)
include hclears

omit hj in
theorem Device.fld_status_freeScore (d : Device) (f : Nat) : (d.freeScore f).fld g j = d.fld g j := by
  obtain h | h | ⟨first, w, h⟩ := d.freeScore_cases f
  · rw [h]
  · rw [h]
    rfl
  · rw [h, Device.fld_setFld_apart _ _ _ _ hg (by decide) hclears]
    exact d.fld_scoreDated _ _ _ _

omit hj in
theorem Device.fld_status_buildFailed (d : Device) (page : Nat) : (d.buildFailed page).fld g j = d.fld g j := by
  unfold Device.buildFailed
  dsimp only
  split
  · rfl
  · split
    · rfl
    · rw [Device.fld_status_freeScore hg hclears]
      split <;> rfl

theorem Device.fld_status_endPim (d : Device) (k q : Nat) (x : PimCmd) (outcome : Nat) : (d.endPim k q x outcome).fld g j = d.fld g j := by
  have htold : (((d.setChan k ((d.chan k).ended q x outcome)).pimOutcome outcome).pimTold x outcome).fld g j = d.fld g j :=
    (Device.fld_pimTold _ _ _).trans (Device.fld_status_pimOutcome hg hj _ _)
  rw [Device.endPim_eq, Device.pimNoted]
  split
  · split
    · exact htold
    · split
      · exact htold
      · exact (Device.fld_status_buildFailed hg hclears _ _).trans htold
  · exact htold

theorem Device.fld_status_enqueuePim (d : Device) (q : Nat) (x : PimCmd) : (d.enqueuePim q x).fld g j = d.fld g j := by
  obtain h | ⟨outcome, h⟩ := d.enqueuePim_cases q x
  · rw [h, Device.fld_pimPut]
  · rw [h, Device.fld_status_endPim hg hj hclears, Device.fld_pimPut]

theorem Device.fld_status_refillQ (k q : Nat) (xs : List PimCmd) (d : Device) : (d.refillQ k q xs).fld g j = d.fld g j := by
  induction xs generalizing d with
  | nil => rfl
  | cons x xs ih =>
    unfold Device.refillQ
    dsimp only
    split
    · rfl
    · rw [ih, Device.fld_status_enqueuePim hg hj hclears, Device.fld_setChan]

theorem Device.fld_status_refill (d : Device) (k : Nat) : (d.refill k).fld g j = d.fld g j := by
  unfold Device.refill
  dsimp only
  rw [Device.fld_status_refillQ hg hj hclears, Device.fld_status_refillQ hg hj hclears]

theorem Device.fld_status_pimSweep (d : Device) : d.pimSweep.fld g j = d.fld g j := by
  unfold Device.pimSweep
  refine List.foldl_keep (fun d : Device => d.fld g j) _ (fun d k => ?_) _ d
  dsimp only
  rw [Device.fld_status_refill hg hj hclears]
  exact List.foldl_keep (fun d : Device => d.fld g j) _ (fun d x => Device.fld_status_endPim hg hj hclears _ _ _ _ _) _ d

end

/-! ### WINDOW_OPEN -/

@[simp] theorem Device.mem_count (d : Device) (f : Field) (n i : Nat) : (d.count f n i).mem = d.mem := by
  unfold Device.count; split <;> rfl

/-- The device with a window on its way in on a channel (R128). -/
def Device.entersWindow (d : Device) (k : Nat) (w : PimWin) : Device := (d.setChan k { d.chan k with win := some w }).setMode k 1

/-- The device with a window of an entry counted on a channel (R132). -/
def Device.windowCounted (d : Device) (entry k : Nat) : Device :=
  ({ d with pim.opened := sput 0 d.pim.opened entry (sget 0 d.pim.opened entry + 1), pim.nWindows := d.pim.nWindows + 1 } : Device).count
    F.PIM_CH_WINDOWS.WINDOWS 1 k

/-- The device once a window of an entry has opened on a channel (R131, R132). -/
def Device.windowOpened (d : Device) (entry k : Nat) (w : PimWin) : Device :=
  let e := (d.entersWindow k w).windowCounted entry k
  { e with pim.peak := max e.pim.peak e.tracks }

theorem windowOpenEff_opens {at_ : Nat} {d : Device} {b : Bid} (hL : d.part.isL = false) (hrun : (d.at_ at_).running = true)
    (hexam : d.turn.unexamined = [])
    (hlimit : 500 < min ((d.at_ at_).fld F.PIM_CTRL.WINDOW_LIMIT) ((d.at_ at_).deadlineAt - 2000 - (d.at_ at_).now))
    (htracks : (d.at_ at_).tracks < (d.at_ at_).fld F.ROTA_LIMITS.PIM_ALLOT) (hbid : (d.at_ at_).bestBid = some b) :
    windowOpenEff at_ d = (d.at_ at_).windowOpened b.2.1 b.2.2.1
      { entry := b.2.1, self := b.2.2.2, opened := max d.now at_,
        limit := min ((d.at_ at_).fld F.PIM_CTRL.WINDOW_LIMIT) ((d.at_ at_).deadlineAt - 2000 - (d.at_ at_).now),
        clears := min 128 (d.pim.awaiting.filter fun f => f.1 == b.2.2.1).length } := by
  have hallowed : ((d.at_ at_).part.isL || !(d.at_ at_).running || (d.at_ at_).turn.unexamined != [] ||
      decide (min ((d.at_ at_).fld F.PIM_CTRL.WINDOW_LIMIT) ((d.at_ at_).deadlineAt - 2000 - (d.at_ at_).now) ≤ 500) ||
      decide ((d.at_ at_).tracks ≥ (d.at_ at_).fld F.ROTA_LIMITS.PIM_ALLOT)) = false := by
    rw [hrun, decide_eq_false (Nat.not_le.mpr hlimit), decide_eq_false (Nat.not_le.mpr htracks), show (d.at_ at_).part.isL = false from hL,
      show (d.at_ at_).turn.unexamined = [] from hexam]
    rfl
  rw [windowOpenEff]
  dsimp only
  rw [hallowed, if_neg Bool.false_ne_true, hbid]
  rfl

theorem Device.framed_count {d e : Device} {rs : List Reg} (h : d.framed e rs) (f : Field) (n i : Nat) (hf : f.reg ∈ rs) (hi : i < 0x10000) :
    d.framed (e.count f n i) rs := by
  unfold Device.count
  split
  · exact Device.framed_setFld h _ _ _ hf hi
  · exact Device.framed_congr (Device.framed_setFld h _ _ _ hf hi) rfl rfl rfl rfl

section
variable (d : Device) (entry : Nat) {k : Nat} (w : PimWin)

theorem Device.win_windowOpened : ((d.windowOpened entry k w).chan k).win = some w := by
  have hchan : ((d.entersWindow k w).windowCounted entry k).chan k = (d.entersWindow k w).chan k := Device.chan_count _ _ _ _ _
  rw [show (d.windowOpened entry k w).chan k = ((d.entersWindow k w).windowCounted entry k).chan k from rfl, hchan,
    Device.entersWindow, Device.chan_setMode, Device.chan_setChan_same]

theorem Device.mem_windowOpened : (d.windowOpened entry k w).mem = d.mem :=
  Device.mem_count _ _ _ _

variable (hk : k < 320)
include hk

theorem Device.chMode_windowOpened : (d.windowOpened entry k w).chMode k = 1 := by
  have hcount : ((d.entersWindow k w).windowCounted entry k).chMode k = (d.entersWindow k w).chMode k :=
    Device.fld_count_reg _ 1 (by decide) (by omega) (by omega)
  rw [show (d.windowOpened entry k w).chMode k = ((d.entersWindow k w).windowCounted entry k).chMode k from rfl, hcount,
    Device.entersWindow, Device.chMode_setMode _ _ (by decide)]

theorem Device.framed_windowOpened : d.framed (d.windowOpened entry k w) [.PIM_CH_STATUS, .PIM_CH_WINDOWS] := by
  have henters : d.framed (d.entersWindow k w) [.PIM_CH_STATUS, .PIM_CH_WINDOWS] :=
    Device.framed_setFld (Device.framed_congr (d.framed_refl _) rfl rfl rfl rfl) _ _ _ (by decide) (by omega)
  have hcounted : d.framed ((d.entersWindow k w).windowCounted entry k) [.PIM_CH_STATUS, .PIM_CH_WINDOWS] := by
    unfold Device.windowCounted
    refine Device.framed_count ?_ F.PIM_CH_WINDOWS.WINDOWS 1 k (by decide) (by omega)
    exact Device.framed_congr henters rfl rfl rfl rfl
  exact Device.framed_congr hcounted rfl rfl rfl rfl

end

/-! ### ENTERING_DONE -/

/-- Of PIM_CH_STATUS a rate shows in RATE and SEG_LIMIT alone. -/
theorem Device.fld_showRate_apart (d : Device) (k rate : Nat) {g : Field} (hg : g.reg = .PIM_CH_STATUS) (j : Nat)
    (hrate : F.PIM_CH_STATUS.RATE.apart g) (hseg : F.PIM_CH_STATUS.SEG_LIMIT.apart g) : (d.showRate k rate).fld g j = d.fld g j := by
  have hset : (d.setFld F.PIM_CH_STATUS.RATE rate k).fld g j = d.fld g j := d.fld_setFld_apart rate k j hg (by decide) hrate
  unfold Device.showRate
  split
  · exact (Device.fld_setFld_apart _ (f := F.PIM_CH_STATUS.SEG_LIMIT) _ k j hg (by decide) hseg).trans hset
  · exact hset

theorem Device.chMode_showRate (d : Device) (k rate : Nat) : (d.showRate k rate).chMode k = d.chMode k :=
  d.fld_showRate_apart k rate (g := F.PIM_CH_STATUS.MODE) rfl k (.inr (by decide)) (.inr (by decide))

theorem Device.fld_rate_showRate (d : Device) (k : Nat) {rate : Nat} (h : rate < 8) : (d.showRate k rate).fld F.PIM_CH_STATUS.RATE k = rate := by
  have hset : (d.setFld F.PIM_CH_STATUS.RATE rate k).fld F.PIM_CH_STATUS.RATE k = rate :=
    (d.fld_setFld_same F.PIM_CH_STATUS.RATE rate k (by decide)).trans (Nat.mod_eq_of_lt h)
  unfold Device.showRate
  split
  · exact (Device.fld_setFld_apart _ (f := F.PIM_CH_STATUS.SEG_LIMIT) (g := F.PIM_CH_STATUS.RATE) _ k k rfl (by decide) (.inr (by decide))).trans hset
  · exact hset

theorem Device.chan_showRate (d : Device) (k rate j : Nat) : (d.showRate k rate).chan j = d.chan j := by
  unfold Device.showRate
  dsimp only
  split <;> rfl

/-- Dating the wait of freed frames leaves every channel's window. -/
theorem Device.win_scoreDated (d : Device) (k : Nat) (first : Bool) (j : Nat) : ((d.scoreDated k first).chan j).win = (d.chan j).win := by
  cases first with
  | false => rfl
  | true =>
    show ((d.setChan k { d.chan k with clearSince := d.pim.seq }).chan j).win = _
    by_cases hj : j = k
    · subst hj
      rw [Device.chan_setChan_same]
    · rw [Device.chan_setChan_other _ _ hj]

theorem Device.win_freeScore (d : Device) (f j : Nat) : ((d.freeScore f).chan j).win = (d.chan j).win := by
  obtain h | h | ⟨first, w, h⟩ := d.freeScore_cases f
  · rw [h]
  · rw [h]
    rfl
  · rw [h]
    exact d.win_scoreDated _ first j

theorem Device.win_freeKept (d : Device) (k j : Nat) : ((d.freeKept k).chan j).win = (d.chan j).win :=
  List.foldl_keep (fun d : Device => (d.chan j).win) _ (fun d f => d.win_freeScore f j) _ _

theorem Device.chan_clearAwaiting (d : Device) (k n j : Nat) : (d.clearAwaiting k n).chan j = d.chan j := by
  unfold Device.clearAwaiting
  dsimp only
  rw [Device.chan_setFld]
  refine List.foldl_keep (fun d : Device => d.chan j) _ (fun d f => ?_) _ _
  split
  · rfl
  · rw [Device.chan_count]
    rfl

section
variable {g : Field} (hg : g.reg = .PIM_CH_STATUS) {j : Nat} (hj : j < 0x10000) (hclears : F.PIM_CH_STATUS.CLEARS.apart g)
include hg hclears

theorem Device.fld_status_freeKept (d : Device) (k : Nat) : (d.freeKept k).fld g j = d.fld g j :=
  List.foldl_keep (fun d : Device => d.fld g j) _ (fun d f => Device.fld_status_freeScore hg hclears d f) _ _

include hj in
theorem Device.fld_status_clearAwaiting (d : Device) (k n : Nat) : (d.clearAwaiting k n).fld g j = d.fld g j := by
  unfold Device.clearAwaiting
  dsimp only
  rw [Device.fld_setFld_apart _ _ _ _ hg (by decide) hclears]
  refine List.foldl_keep (fun d : Device => d.fld g j) _ (fun d f => ?_) _ _
  split
  · rfl
  · rw [Device.fld_status_count hg hj _ _ (by decide) (by decide)]
    rfl

end

section
variable {d : Device} {k rate : Nat} {w : PimWin} (hrate : rate ≤ 3) (hmode : d.chMode k = 1) (hwin : (d.chan k).win = some w)
include hrate hmode hwin

/-- A channel that enters processor mode reads MR4, makes its clears, and frees what R134 kept. -/
theorem enteringEff_enters :
    enteringEff k rate d =
      ((((d.showRate k rate).setMode k 2).setWin k { w with t := 500 + 250 * w.clears, heat := rate == 3 }).clearAwaiting k w.clears).freeKept k := by
  rw [enteringEff, if_neg (by omega), hwin]
  rfl

variable (hk : k < 320)
include hk

theorem chMode_enteringEff : (enteringEff k rate d).chMode k = 2 := by
  rw [enteringEff_enters hrate hmode hwin, Device.chMode,
    Device.fld_status_freeKept (g := F.PIM_CH_STATUS.MODE) rfl (.inr (by decide)),
    Device.fld_status_clearAwaiting (g := F.PIM_CH_STATUS.MODE) rfl (by omega) (.inr (by decide))]
  rw [Device.setWin, Device.fld_setChan]
  exact Device.chMode_setMode _ k (by decide)

theorem rate_enteringEff : (enteringEff k rate d).fld F.PIM_CH_STATUS.RATE k = rate := by
  rw [enteringEff_enters hrate hmode hwin, Device.fld_status_freeKept (g := F.PIM_CH_STATUS.RATE) rfl (.inr (by decide)),
    Device.fld_status_clearAwaiting (g := F.PIM_CH_STATUS.RATE) rfl (by omega) (.inr (by decide)), Device.setWin, Device.fld_setChan, Device.fld_rate_setMode,
    Device.fld_rate_showRate _ _ (by omega)]

omit hk in
theorem win_enteringEff : ((enteringEff k rate d).chan k).win = some { w with t := 500 + 250 * w.clears, heat := rate == 3 } := by
  rw [enteringEff_enters hrate hmode hwin, Device.win_freeKept, Device.chan_clearAwaiting, Device.setWin, Device.chan_setChan_same]

end

/-! ### WINDOW_END -/

/-- The device once what a window's heat stops has ended HOT (R152). -/
def Device.heatEnds (d : Device) (k : Nat) : Device :=
  let part := ((d.chan k).entryQ.filter fun x => x.started).map fun x => (0, x)
  let part := part ++ ((d.chan k).maintQ.filter fun x => x.started).map fun x => (1, x)
  (part.foldl (fun (d : Device) x => d.endPim k x.1 x.2 6) d).event F.PIM_EVENTS.HOT

/-- The device once a channel is on its way out of a window (R133, R152). -/
def Device.leavesWindow (d : Device) (k : Nat) (w : PimWin) : Device :=
  let d := d.setMode k 3
  let d := if w.heat then d.heatEnds k else d
  let d := (d.setChan k { d.chan k with win := some { w with entry := 0xFFFF, self := true } }).pimSweep
  d.setChan k { d.chan k with win := some w }

/-- A window ends for heat, with nothing left to run, or before a step that does not fit (R133, R152). -/
theorem windowEndEff_leaves {d : Device} {k : Nat} {w : PimWin} (hmode : d.chMode k = 2) (hwin : (d.chan k).win = some w)
    (hends : w.heat = true ∨ d.nextPim k = none ∨ ∃ q x, d.nextPim k = some (q, x) ∧ d.stepEnds k w x = true) :
    windowEndEff k d = d.leavesWindow k w := by
  unfold windowEndEff
  rw [hwin]
  refine if_neg ?_
  rintro (hne | ⟨hcool, hgoes⟩)
  · exact hne hmode
  · obtain hheat | hnone | ⟨q, x, hnext, hstep⟩ := hends
    · exact Bool.false_ne_true (hcool.symm.trans hheat)
    · rw [hnone] at hgoes
      exact Bool.false_ne_true hgoes.symm
    · rw [hnext] at hgoes
      exact Bool.false_ne_true (hgoes.symm.trans hstep)

theorem Device.chMode_endPim (d : Device) (k q : Nat) (x : PimCmd) (outcome : Nat) {j : Nat} (hj : j < 0x10000) :
    (d.endPim k q x outcome).chMode j = d.chMode j :=
  Device.fld_status_endPim (g := F.PIM_CH_STATUS.MODE) rfl hj (.inr (by decide)) d k q x outcome

theorem Device.chMode_heatEnds (d : Device) {k : Nat} (hk : k < 320) : (d.heatEnds k).chMode k = d.chMode k := by
  have hends : ∀ xs : List (Nat × PimCmd), (xs.foldl (fun (d : Device) x => d.endPim k x.1 x.2 6) d).chMode k = d.chMode k := fun xs =>
    List.foldl_keep (fun d : Device => d.chMode k) (fun (d : Device) (x : Nat × PimCmd) => d.endPim k x.1 x.2 6)
      (fun d x => d.chMode_endPim k x.1 x.2 6 (by omega)) xs d
  have hevent : ∀ e : Device, (e.event F.PIM_EVENTS.HOT).chMode k = e.chMode k := fun e =>
    Device.fld_status_event (g := F.PIM_CH_STATUS.MODE) rfl (by omega) e (by decide)
  exact (hevent _).trans (hends _)

theorem Device.chMode_leavesWindow (d : Device) {k : Nat} (w : PimWin) (hk : k < 320) : (d.leavesWindow k w).chMode k = 3 := by
  have hsweep : ∀ e : Device, e.pimSweep.chMode k = e.chMode k :=
    Device.fld_status_pimSweep (g := F.PIM_CH_STATUS.MODE) rfl (by omega) (.inr (by decide))
  have hmode : (d.setMode k 3).chMode k = 3 := Device.chMode_setMode _ k (by decide)
  unfold Device.leavesWindow
  dsimp only
  rw [Device.chMode_setChan, hsweep, Device.chMode_setChan]
  split
  · rw [Device.chMode_heatEnds _ hk, hmode]
  · exact hmode

/-! ### EXIT_DONE -/

@[simp] theorem Device.slu_count (d : Device) (f : Field) (n i : Nat) : (d.count f n i).slu = d.slu := by
  unfold Device.count; split <;> rfl

@[simp] theorem Device.fab_count (d : Device) (f : Field) (n i : Nat) : (d.count f n i).fab = d.fab := by
  unfold Device.count; split <;> rfl

/-- The device once a channel whose window has ended serves memory again, HOT after heat: its bank units are clear (R122, R152). -/
def Device.exits (d : Device) (k : Nat) (w : PimWin) : Device :=
  ((d.setChan k { d.chan k with win := none, cool := 0 }).clearUnits k).setMode k (if w.heat then 4 else 0)

theorem exitDoneEff_exits {d : Device} {k : Nat} {w : PimWin} (at_ : Nat) (hmode : d.chMode k = 3) (hwin : (d.chan k).win = some w) :
    exitDoneEff k at_ d =
      (((d.at_ at_).count F.PIM_CH_WINDOWS.PROC_US ((max d.now at_ - w.opened) / 1000) k).exits k w).issueWaiting k := by
  rw [exitDoneEff, if_neg (not_not_intro hmode)]
  dsimp only
  rw [show ((d.at_ at_).chan k).win = some w from hwin]
  rfl

theorem Device.chMode_exits (d : Device) (k : Nat) (w : PimWin) : (d.exits k w).chMode k = if w.heat then 4 else 0 :=
  Device.chMode_setMode _ k (by split <;> decide)

theorem Device.chan_exits (d : Device) (k : Nat) (w : PimWin) :
    (d.exits k w).chan k = { d.chan k with win := none, cool := 0, query := [], maxima := [] } := by
  show ((d.setChan k { d.chan k with win := none, cool := 0 }).setChan k _).chan k = _
  rw [Device.chan_setChan_same, Device.chan_setChan_same]

theorem Device.freeLeft_none {d : Device} (k : Nat) (h : d.mem5.leaving = []) : d.freeLeft k = d := by
  rw [Device.freeLeft, h]
  rfl

theorem Device.refill_none {d : Device} {k : Nat} (h0 : (d.chan k).hold0 = []) (h1 : (d.chan k).hold1 = []) : d.refill k = d := by
  rw [Device.refill, h0, Device.refillQ, h1, Device.refillQ]

theorem Device.resumeHeld_none {d : Device} (hheld : d.slu.held = []) (hctxs : d.fab.ctxs = []) :
    d.resumeHeld = { d with slu.held := [] } := by
  rw [Device.resumeHeld, hheld, List.foldl_nil, hctxs]
  rfl

/-- With nothing that waits for a channel, its serving memory again changes nothing. -/
theorem Device.issueWaiting_idle {d : Device} {k : Nat} (hleaving : d.mem5.leaving = []) (hheld : d.slu.held = []) (hctxs : d.fab.ctxs = [])
    (hwaiting : (d.chan k).waiting = []) (h0 : (d.chan k).hold0 = []) (h1 : (d.chan k).hold1 = []) :
    d.issueWaiting k = { d.setChan k { d.chan k with waiting := [] } with slu.held := [] } := by
  have hissue : d.issueWaiting k = (((d.setChan k { d.chan k with waiting := [] }).freeLeft k).refill k).resumeHeld := by
    rw [Device.issueWaiting, hwaiting]
    rfl
  have hleft : (d.setChan k { d.chan k with waiting := [] }).freeLeft k = d.setChan k { d.chan k with waiting := [] } :=
    Device.freeLeft_none k hleaving
  have hrefill : (d.setChan k { d.chan k with waiting := [] }).refill k = d.setChan k { d.chan k with waiting := [] } :=
    Device.refill_none (by rw [Device.chan_setChan_same, h0]) (by rw [Device.chan_setChan_same, h1])
  rw [hissue, hleft, hrefill]
  exact Device.resumeHeld_none hheld hctxs

theorem Device.exits_idle {d : Device} {k : Nat} (w : PimWin) (hleaving : d.mem5.leaving = []) (hheld : d.slu.held = [])
    (hctxs : d.fab.ctxs = []) (hwaiting : (d.chan k).waiting = []) (h0 : (d.chan k).hold0 = []) (h1 : (d.chan k).hold1 = []) :
    ((d.exits k w).issueWaiting k).chMode k = (if w.heat then 4 else 0) ∧ (((d.exits k w).issueWaiting k).chan k).win = none := by
  have hchan := d.chan_exits k w
  have hidle := Device.issueWaiting_idle (d := d.exits k w) (k := k) hleaving hheld hctxs (by rw [hchan]; exact hwaiting) (by rw [hchan]; exact h0)
    (by rw [hchan]; exact h1)
  have hwin : ((((d.exits k w).setChan k { (d.exits k w).chan k with waiting := [] }).chan k)).win = none := by
    rw [Device.chan_setChan_same, hchan]
  rw [hidle]
  exact ⟨d.chMode_exits k w, hwin⟩

theorem exitDoneEff_idle {d : Device} {k : Nat} {w : PimWin} (at_ : Nat) (hmode : d.chMode k = 3) (hwin : (d.chan k).win = some w)
    (hleaving : d.mem5.leaving = []) (hheld : d.slu.held = []) (hctxs : d.fab.ctxs = []) (hwaiting : (d.chan k).waiting = [])
    (h0 : (d.chan k).hold0 = []) (h1 : (d.chan k).hold1 = []) :
    (exitDoneEff k at_ d).chMode k = (if w.heat then 4 else 0) ∧ ((exitDoneEff k at_ d).chan k).win = none := by
  have hchan : ∀ n, ((d.at_ at_).count F.PIM_CH_WINDOWS.PROC_US n k).chan k = d.chan k := fun n => Device.chan_count _ _ _ _ _
  rw [exitDoneEff_exits at_ hmode hwin]
  exact Device.exits_idle w (by rw [Device.mem5_count]; exact hleaving) (by rw [Device.slu_count]; exact hheld)
    (by rw [Device.fab_count]; exact hctxs) (by rw [hchan, hwaiting]) (by rw [hchan, h0]) (by rw [hchan, h1])

/-! ### CLEARING_DONE -/

theorem chMode_clearingDoneEff {d : Device} {k : Nat} (hmode : d.chMode k = 6) :
    (clearingDoneEff k d).chMode k = if d.fld F.PIM_CH_STATUS.SCORE_SIZE k = 0 then 5 else 0 := by
  rw [clearingDoneEff, if_neg (not_not_intro hmode)]
  dsimp only
  split
  · exact Device.chMode_setMode _ k (by decide)
  · exact Device.chMode_setMode _ k (by decide)

/-! ### MR4_READ -/

/-- What a bank owes leaves the channel's mode. -/
theorem Device.chMode_setDebts (d : Device) {k : Nat} (xs : List Nat) (hk : k < 320) : (d.setDebts k xs).chMode k = d.chMode k := by
  have hset : ∀ (e : Device) n, (e.setFld F.PIM_CH_STATUS.DEBT n k).chMode k = e.chMode k := fun e n =>
    e.fld_setFld_apart (f := F.PIM_CH_STATUS.DEBT) (g := F.PIM_CH_STATUS.MODE) n k k rfl (by decide) (.inr (by decide))
  have hevent : ∀ e : Device, (e.event F.PIM_EVENTS.DEBT_MAX).chMode k = e.chMode k := fun e =>
    Device.fld_status_event (g := F.PIM_CH_STATUS.MODE) rfl (by omega) e (by decide)
  unfold Device.setDebts
  dsimp only
  split
  · rw [hevent, hset, Device.chMode_setChan]
  · rw [hset, Device.chMode_setChan]

theorem Device.cool_setDebts (d : Device) (k : Nat) (xs : List Nat) : ((d.setDebts k xs).chan k).cool = (d.chan k).cool := by
  have hchan : (d.setDebts k xs).chan k = { d.chan k with debts := if xs.all (· == 0) then [] else xs } := by
    unfold Device.setDebts
    dsimp only
    split <;> exact Device.chan_setChan_same _ _ _
  rw [hchan]

/-- A shorter tREFI changes the channel's window, and counts and owes refreshes (R151). -/
theorem Device.shorten_cases (d : Device) (k old new : Nat) :
    d.shorten k old new = d ∨
      ∃ win n xs, d.shorten k old new = ((d.setChan k { d.chan k with win := win }).count F.PIM_CH_REFRESH.POSTPONED n k).setDebts k xs := by
  unfold Device.shorten
  extract_lets c
  split
  · exact .inl rfl
  · extract_lets due
    split
    · exact .inl rfl
    · exact .inr ⟨_, _, _, rfl⟩

theorem Device.chMode_shorten (d : Device) {k : Nat} (old new : Nat) (hk : k < 320) : (d.shorten k old new).chMode k = d.chMode k := by
  have hcount : ∀ (e : Device) n, (e.count F.PIM_CH_REFRESH.POSTPONED n k).chMode k = e.chMode k := fun e n =>
    e.fld_count_reg (g := F.PIM_CH_STATUS.MODE) n (by decide) (by omega) (by omega)
  obtain h | ⟨win, n, xs, h⟩ := d.shorten_cases k old new
  · rw [h]
  · rw [h, Device.chMode_setDebts _ _ hk, hcount, Device.chMode_setChan]

theorem Device.cool_shorten (d : Device) (k old new : Nat) : ((d.shorten k old new).chan k).cool = (d.chan k).cool := by
  obtain h | ⟨win, n, xs, h⟩ := d.shorten_cases k old new
  · rw [h]
  · rw [h, Device.cool_setDebts, Device.chan_count, Device.chan_setChan_same]

section
variable {d : Device} {k : Nat} (hchannel : d.part.channel k = true)
include hchannel

/-- A reading beyond 4x takes a channel in MEMORY to HOT (R152). -/
theorem mr4Eff_heats (hmode : d.chMode k = 0) :
    mr4Eff k 3 d = ((d.showRate k 3).setChan k { (d.showRate k 3).chan k with cool := 0 }).setMode k 4 := by
  unfold mr4Eff
  rw [hchannel, hmode]
  rfl

theorem mr4Eff_heats_reads (hmode : d.chMode k = 0) : (mr4Eff k 3 d).chMode k = 4 ∧ (mr4Eff k 3 d).fld F.PIM_CH_STATUS.RATE k = 3 := by
  rw [mr4Eff_heats hchannel hmode]
  exact ⟨Device.chMode_setMode _ k (by decide), by rw [Device.fld_rate_setMode, Device.fld_setChan, Device.fld_rate_showRate _ _ (by decide)]⟩

/-- Of two readings at or below 4x in a row the second takes a HOT channel back to MEMORY (R152). -/
theorem mr4Eff_cools {rate : Nat} (hrate : rate < 3) (hmode : d.chMode k = 4) :
    mr4Eff k rate d =
      let e := (d.shorten k (d.fld F.PIM_CH_STATUS.RATE k) rate).showRate k rate
      if 1 ≤ (e.chan k).cool then (e.setChan k { e.chan k with cool := 0 }).setMode k 0 else e.setChan k { e.chan k with cool := (e.chan k).cool + 1 } := by
  have hserves : (!d.part.channel k || d.chMode k == 3 || decide (rate > 3)) = false := by
    rw [hchannel, hmode, decide_eq_false (by omega)]
    rfl
  unfold mr4Eff
  dsimp only
  rw [hserves, if_neg Bool.false_ne_true, if_pos hrate, if_neg (by omega), if_pos hmode]

variable (hk : k < 320)
include hk

theorem mr4Eff_cools_reads {rate : Nat} (hrate : rate < 3) (hmode : d.chMode k = 4) :
    (mr4Eff k rate d).chMode k = (if 1 ≤ (d.chan k).cool then 0 else 4) ∧ (mr4Eff k rate d).fld F.PIM_CH_STATUS.RATE k = rate := by
  have hread : ((d.shorten k (d.fld F.PIM_CH_STATUS.RATE k) rate).showRate k rate).fld F.PIM_CH_STATUS.RATE k = rate :=
    Device.fld_rate_showRate _ _ (by omega)
  rw [mr4Eff_cools hchannel hrate hmode]
  dsimp only
  rw [Device.chan_showRate, Device.cool_shorten]
  split
  · exact ⟨Device.chMode_setMode _ k (by decide), by rw [Device.fld_rate_setMode, Device.fld_setChan, hread]⟩
  · exact ⟨by rw [Device.chMode_setChan, Device.chMode_showRate, Device.chMode_shorten _ _ _ hk, hmode], hread⟩

end

/-! ### The commands -/

@[simp] theorem State.put_chMode (s : State) (d : Device) (k : Nat) : (s.put d).dev.chMode k = d.chMode k := rfl
@[simp] theorem State.put_chan (s : State) (d : Device) (k : Nat) : (s.put d).dev.chan k = d.chan k := rfl

/-- Settles O35: each command by the device that it leaves, read at the channel's MODE, RATE and window. -/
theorem channelModes : Obligations.ChannelModes := by
  refine ⟨fun s at_ b hs hL hrun hexam hlimit htracks hbid hk => ?opens, fun s k hs hk =>
    ⟨fun rate w hrate hmode hwin => ?enters, fun w hmode hwin hends => ?ends, fun w at_ hmode hwin => ⟨?exits, ?idle⟩, fun hmode => ?cleared,
      fun hchannel => ⟨fun hmode => ?heats, fun rate hrate hmode => ?cools⟩⟩⟩
  case opens =>
    refine ⟨_, hs.act_eq (windowOpenEff_opens hL hrun hexam hlimit htracks hbid), ?_, ?_,
      State.framed_put (Device.framed_windowOpened (s.dev.at_ at_) _ _ hk) (Device.mem_windowOpened _ _ _)⟩
    · rw [State.put_chMode, Device.chMode_windowOpened _ _ _ hk]
    · rw [State.put_chan, Device.win_windowOpened]
  case enters =>
    exact ⟨_, hs.act_eq rfl, chMode_enteringEff hrate hmode hwin hk, rate_enteringEff hrate hmode hwin hk, win_enteringEff hrate hmode hwin⟩
  case ends =>
    refine ⟨_, hs.act_eq (windowEndEff_leaves hmode hwin hends), ?_⟩
    rw [State.put_chMode, Device.chMode_leavesWindow _ _ hk]
  case exits => exact hs.act_eq ((exitDoneEff_exits at_ hmode hwin).trans (by rw [Device.exits, Device.chan_count]; rfl))
  case idle =>
    exact fun hleaving hheld hctxs hwaiting h0 h1 =>
      ⟨_, hs.act_eq rfl, exitDoneEff_idle at_ hmode hwin hleaving hheld hctxs hwaiting h0 h1⟩
  case cleared => exact ⟨_, hs.act_eq rfl, chMode_clearingDoneEff hmode⟩
  case heats => exact ⟨_, hs.act_eq rfl, mr4Eff_heats_reads hchannel hmode⟩
  case cools => exact ⟨_, hs.act_eq rfl, mr4Eff_cools_reads hchannel hk hrate hmode⟩

end Sys2Proof.Machine

/-! ## Reservoir commands in an open window, and the driver ring (R133, R139, R140, R145, R148, R154) -/

namespace Sys2Proof.Machine

/-! ### A channel's controller written twice -/

theorem filter_sins {α : Type} [DecidableEq α] {dflt : α} (m : SMap α) (a : Nat) (x : α) (h : ∀ y ∈ m, y.1 ≠ a) :
    (sins dflt a x m).filter (fun y => y.1 != a) = m := by
  have hkeep : ∀ m : SMap α, (∀ y ∈ m, y.1 ≠ a) → m.filter (fun y => y.1 != a) = m := fun m hm =>
    List.filter_eq_self.mpr fun y hy => bne_iff_ne.mpr (hm y hy)
  have hscons : ∀ m : SMap α, (∀ y ∈ m, y.1 ≠ a) → (scons dflt a x m).filter (fun y => y.1 != a) = m := fun m hm => by
    unfold scons
    split
    · exact hkeep m hm
    · rw [List.filter_cons_of_neg (by simp), hkeep m hm]
  induction m with
  | nil => exact hscons [] h
  | cons y m ih =>
    unfold sins
    split
    · exact hscons _ h
    · rw [List.filter_cons_of_pos (by simpa using h y (.head _)), ih fun z hz => h z (.tail _ hz)]

/-- Of two writes at one key the second stands. -/
theorem sput_sput {α : Type} [DecidableEq α] {dflt : α} (m : SMap α) (a : Nat) (x y : α) :
    sput dflt (sput dflt m a x) a y = sput dflt m a y := by
  unfold sput
  rw [filter_sins _ _ _ fun z hz => bne_iff_ne.mp (List.mem_filter.mp hz).2]

theorem Device.setChan_setChan (d : Device) (k : Nat) (c c' : PimChan) : (d.setChan k c).setChan k c' = d.setChan k c' := by
  unfold Device.setChan
  dsimp only
  rw [sput_sput]

theorem Device.setWin_setWin (d : Device) (k : Nat) (w w' : PimWin) : (d.setWin k w).setWin k w' = d.setWin k w' := by
  unfold Device.setWin
  rw [Device.setChan_setChan, Device.chan_setChan_same]

/-! ### A command begins -/

/-- What a command reads as it begins leaves as requests, and changes nothing else of the device (R141). -/
theorem Device.pimBegun_eq (d : Device) (x : PimCmd) : ∃ out, d.pimBegun x = { d with out := out } := by
  unfold Device.pimBegun Device.pimReads
  split
  · exact ⟨_, rfl⟩
  · split
    · exact ⟨_, rfl⟩
    · dsimp only
      split <;> exact ⟨_, rfl⟩

theorem Device.chan_pimBegun (d : Device) (x : PimCmd) (k : Nat) : (d.pimBegun x).chan k = d.chan k := by
  obtain ⟨out, h⟩ := d.pimBegun_eq x
  rw [h]
  rfl

section
variable {s : State} {k q op : Nat} {w : PimWin} {x : PimCmd} {list : List Byte} (h : s.inWindow k q op w x list)
include h

/-- A channel carries out the command that its window runs next. -/
theorem State.inWindow.runPim (host : List Byte) (f : PimWin → PimCmd → List Byte → Device → Device)
    (hlist : (if op ≠ 1 then [] else (s.dev.pimBegun x).listOf x host) = list) :
    s.dev.runPim k q op host f =
      (f w x (if op = 1 then (s.dev.pimBegun x).queryOf x host ++ list else host) (s.dev.pimBegun x)).refill k := by
  obtain ⟨-, hmode, hwin, hheat, hnext, hop, hallowed, howner⟩ := h
  have hruns : ¬(q ≠ q ∨ (x.opcode ≠ op ∧ pimOpcode x.opcode = true) ∨ w.heat = true) := by
    rintro (hne | ⟨hne, -⟩ | hhot)
    · exact hne rfl
    · exact hne hop
    · exact Bool.false_ne_true (hheat.symm.trans hhot)
  unfold Device.runPim
  rw [if_neg (not_not_intro hmode), hwin, hnext]
  dsimp only
  rw [if_neg hruns, hlist, hallowed, if_neg Bool.false_ne_true, howner]

theorem State.inWindow.act_runPim {f : PimWin → PimCmd → List Byte → Device → Device} {host : List Byte} {e : Device}
    (hlist : (if op ≠ 1 then [] else (s.dev.pimBegun x).listOf x host) = list)
    (hf : f w x (if op = 1 then (s.dev.pimBegun x).queryOf x host ++ list else host) (s.dev.pimBegun x) = e) :
    s.act (fun d => d.runPim k q op host f) = .next (s.put (e.refill k)) :=
  h.1.act_eq ((h.runPim host f hlist).trans (congrArg (Device.refill · k) hf))

end

/-! ### Steps of a fixed time -/

section
variable {d : Device} {k n : Nat} {w : PimWin} (hfit : w.t + n ≤ w.limit)
include hfit

theorem Device.fitStep_fits (f : Device → Device) : d.fitStep k n w f = f (d.setWin k { w with t := w.t + n }) := if_neg (Nat.not_lt.mpr hfit)

variable (q bank : Nat) (x : PimCmd) (f : Device → Device) {parity : Nat}

/-- A check that a replay cures: each replay takes the step's time again, and the cure is counted (R113, R154). -/
theorem Device.replayStep_cured (hparity : parity ≤ 3) :
    d.replayStep k q parity bank n w x f =
      let again := d.setWin k { w with t := w.t + n * (1 + min parity 3) }
      f (if parity = 0 then again else again.count F.ERR_COUNTS.REPLAYED) := by
  rw [Device.replayStep, Device.fitStep_fits hfit]
  dsimp only
  rw [if_neg (Nat.not_lt.mpr hparity), Device.setWin_setWin]

/-- A check that its last replay fails ends the command UNCORRECTABLE (R154). -/
theorem Device.replayStep_lost (hparity : 3 < parity) :
    d.replayStep k q parity bank n w x f =
      ((d.setWin k { w with t := w.t + n * (1 + min parity 3) }).badFrame k x x.frame bank).endPim k q x 5 := by
  rw [Device.replayStep, Device.fitStep_fits hfit]
  dsimp only
  rw [if_pos hparity, Device.setWin_setWin]

end

/-! ### SWRITE and SREAD -/

/-- The device once the checks of an SWRITE or SREAD have passed, at once or at a replay. -/
def Device.pimCured (d : Device) (k parity : Nat) (w : PimWin) (x : PimCmd) : Device :=
  let again := (d.pimBegun x).setWin k { w with t := w.t + swTime x.dsz * (1 + min parity 3) }
  if parity = 0 then again else again.count F.ERR_COUNTS.REPLAYED

/-- What an SWRITE reads of headwater its checks leave. -/
theorem Device.bytes_pimCured (d : Device) (k parity : Nat) (w : PimWin) (x : PimCmd) (a n : Nat) :
    (d.pimCured k parity w x).bytes a n = d.bytes a n := by
  obtain ⟨out, hbegun⟩ := d.pimBegun_eq x
  have hmem : (d.pimCured k parity w x).mem = d.mem := by
    unfold Device.pimCured
    rw [hbegun]
    dsimp only
    split
    · rfl
    · rw [Device.mem_count]
      rfl
  have hwr : (d.pimCured k parity w x).wr = d.wr := by
    unfold Device.pimCured
    rw [hbegun]
    dsimp only
    split
    · rfl
    · rw [Device.wr_count]
      rfl
  unfold Device.bytes
  exact congrArg (List.map · _) (funext fun i => Device.byte_congr hmem hwr _)

section
variable {s : State} {k q : Nat} {w : PimWin} {x : PimCmd} {parity : Nat} (bank : Nat)

theorem State.inWindow.exec_swrite (h : s.inWindow k q 2 w x []) (hfit : w.t + swTime x.dsz ≤ w.limit) (host : List Byte) (hparity : parity ≤ 3) :
    exec (.swrite k q host parity bank) s = .next (s.put ((((s.dev.pimCured k parity w x).putForm k x
      (if x.list ≠ [] then x.list else if x.aspace then host else s.dev.bytes x.a (256 * x.dim))).endPim k q x 0).refill k)) := by
  refine h.act_runPim rfl ?_
  rw [swriteEff, Device.replayStep_cured hfit q bank x _ hparity]
  dsimp only
  rw [← Device.bytes_pimCured s.dev k parity w x]
  rfl

theorem State.inWindow.exec_swrite_lost (h : s.inWindow k q 2 w x []) (hfit : w.t + swTime x.dsz ≤ w.limit) (host : List Byte) (hparity : 3 < parity) :
    exec (.swrite k q host parity bank) s = .next (s.put
      (((((s.dev.pimBegun x).setWin k { w with t := w.t + swTime x.dsz * (1 + min parity 3) }).badFrame k x x.frame bank).endPim k q x 5).refill k)) := by
  refine h.act_runPim rfl ?_
  rw [swriteEff, Device.replayStep_lost hfit q bank x _ hparity]

/-- The page that an SREAD reads, position by position (R137). -/
def Device.formOf (d : Device) (k : Nat) (x : PimCmd) : List Byte :=
  (List.range 256).flatMap fun p => d.readMem (frameAddr (k * 32768 + x.frame) + scoreByte x.dim x.slot p 0) x.dim

theorem State.inWindow.exec_sread (h : s.inWindow k q 3 w x []) (hfit : w.t + swTime x.dsz ≤ w.limit) (hparity : parity ≤ 3) :
    exec (.sread k q parity bank) s = .next (s.put ((((s.dev.pimCured k parity w x).store x.a
      ((s.dev.pimCured k parity w x).formOf k x)).endPim k q x 0).refill k)) := by
  refine h.act_runPim rfl ?_
  rw [sreadEff, Device.replayStep_cured hfit q bank x _ hparity]
  rfl

theorem State.inWindow.exec_sread_lost (h : s.inWindow k q 3 w x []) (hfit : w.t + swTime x.dsz ≤ w.limit) (hparity : 3 < parity) :
    exec (.sread k q parity bank) s = .next (s.put
      (((((s.dev.pimBegun x).setWin k { w with t := w.t + swTime x.dsz * (1 + min parity 3) }).badFrame k x x.frame bank).endPim k q x 5).refill k)) := by
  refine h.act_runPim rfl ?_
  rw [sreadEff, Device.replayStep_lost hfit q bank x _ hparity]

end

/-! ### SCLEAR -/

section
variable {s : State} {k q : Nat} {w : PimWin} {x : PimCmd}

theorem State.inWindow.exec_sclear (h : s.inWindow k q 4 w x []) (hfit : w.t + 250 * x.count ≤ w.limit) :
    exec (.sclear k q) s = .next (s.put (((((s.dev.pimBegun x).zeroFrames k x x.count).setWin k
      { w with t := w.t + 250 * x.count }).endPim k q x 0).refill k)) := by
  have hwhole : min x.count ((w.limit - w.t) / 250) = x.count := by omega
  refine h.act_runPim rfl ?_
  rw [sclearEff]
  dsimp only
  rw [hwhole, if_pos rfl]

end

/-- The writes of a command that clears frames. -/
theorem Device.zeroFrames_writes (d : Device) (k : Nat) (x : PimCmd) (n : Nat) :
    (d.zeroFrames k x n).mem = d.mem ∧
      (d.zeroFrames k x n).wr = d.wr ++ (List.range n).map fun i => .zero (frameAddr (k * 32768 + x.frame + i)) frameBytes := by
  unfold Device.zeroFrames
  induction n with
  | zero => exact ⟨rfl, (List.append_nil _).symm⟩
  | succ n ih =>
    obtain ⟨hmem, hwr⟩ := ih
    rw [List.range_succ, List.foldl_append, List.foldl_cons, List.foldl_nil, List.map_append, ← List.append_assoc, ← hwr]
    exact ⟨hmem, rfl⟩

/-- An address that one of a command's writes clears, and none of them gives another byte, reads 0. -/
theorem writtenByte_zeros {a : Nat} : ∀ (ws : List MemWrite) (acc : Option Byte), (∀ w ∈ ws, w.at a = none ∨ w.at a = some 0) →
    (acc = some 0 ∨ ∃ w ∈ ws, w.at a = some 0) → (acc = none ∨ acc = some 0) → writtenByte a ws acc = some 0
  | [], acc, _, hex, _ => hex.elim id fun ⟨_, hw, _⟩ => absurd hw (List.not_mem_nil)
  | w :: ws, acc, hall, hex, hacc => by
    rw [writtenByte]
    obtain hnone | hzero := hall w (.head _)
    · rw [hnone]
      refine writtenByte_zeros ws acc (fun v hv => hall v (.tail _ hv)) ?_ hacc
      obtain h | ⟨v, hv, hz⟩ := hex
      · exact .inl h
      · obtain rfl | hv := List.mem_cons.mp hv
        · rw [hnone] at hz
          cases hz
        · exact .inr ⟨v, hv, hz⟩
    · rw [hzero]
      exact writtenByte_zeros ws (some 0) (fun v hv => hall v (.tail _ hv)) (.inl rfl) (.inr rfl)

/-- The frames that a command clears read 0 (R133). -/
theorem Device.byte_zeroFrames {d : Device} (hwr : d.wr = []) (k : Nat) (x : PimCmd) {count n i : Nat} (hn : n < count) (hi : i < frameBytes) :
    (d.zeroFrames k x count).byte (frameAddr (k * 32768 + x.frame + n) + i) = 0 := by
  obtain ⟨-, hwrites⟩ := d.zeroFrames_writes k x count
  rw [hwr, List.nil_append] at hwrites
  have hzero : writtenByte (frameAddr (k * 32768 + x.frame + n) + i) (d.zeroFrames k x count).wr none = some 0 := by
    rw [hwrites]
    refine writtenByte_zeros _ none (fun w hw => ?_) (.inr ⟨_, List.mem_map.mpr ⟨n, List.mem_range.mpr hn, rfl⟩, ?_⟩) (.inl rfl)
    · obtain ⟨j, -, rfl⟩ := List.mem_map.mp hw
      by_cases hin : frameAddr (k * 32768 + x.frame + j) ≤ frameAddr (k * 32768 + x.frame + n) + i ∧
          frameAddr (k * 32768 + x.frame + n) + i < frameAddr (k * 32768 + x.frame + j) + frameBytes
      · exact .inr (if_pos hin)
      · exact .inl (if_neg hin)
    · exact if_pos ⟨Nat.le_add_right _ _, by omega⟩
  rw [Device.byte, hzero]

/-! ### PIM_FENCE -/

/-- The device once a fence's record is written and what it fences is given out (R147, R148, R169, R173). -/
def Device.fenceTold (d : Device) (k q : Nat) (x : PimCmd) (cmds worst : Nat) : Device :=
  let told := if x.rank.isNone && x.build.isNone then d.pimWrite x x.a (pack [(6, x.b), (2, 0), (4, cmds), (1, worst), (3, 0)]) else d
  (told.endPim k q x 0).fenced k x

/-- The device once the counts of a fence's queue have started anew (R148). -/
def Device.fenceCleared (d : Device) (k q : Nat) : Device :=
  d.setChan k (if q = 0 then { d.chan k with cmds0 := 0, worst0 := 0 } else { d.chan k with cmds1 := 0, worst1 := 0 })

/-- The device once a fence of the driver ring has signalled its vector. -/
def Device.fenceSignals (d : Device) (x : PimCmd) : Device :=
  if x.pfq && x.irq then (d.event F.PIM_EVENTS.DQ_FENCE).msix (d.ringFn .PIM_DQ_BASE) (d.fld F.PIM_DQ_CTRL.VECTOR) else d

theorem State.inWindow.exec_pimFence {s : State} {k q : Nat} {w : PimWin} {x : PimCmd} (h : s.inWindow k q 15 w x []) (hfit : w.t + 50 ≤ w.limit) :
    exec (.pimFence k q) s = .next (s.put ((((((s.dev.pimBegun x).setWin k { w with t := w.t + 50 }).fenceTold k q x
      ((if q = 0 then (s.dev.chan k).cmds0 else (s.dev.chan k).cmds1) + 1)
      (if q = 0 then (s.dev.chan k).worst0 else (s.dev.chan k).worst1)).fenceCleared k q).fenceSignals x).refill k)) := by
  refine h.act_runPim rfl ?_
  rw [fenceEff, Device.fitStep_fits hfit, Device.setWin, Device.chan_pimBegun, Device.chan_setChan_same]
  rfl

/-! ### RANK -/

section
variable {d : Device} {k q scans parity badAt : Nat} {w : PimWin} {x : PimCmd} {data qb list : List Byte} {r : RankRun}
  (hqb : data.take (64 + x.qn * x.dim) = qb) (hlist : data.drop (64 + x.qn * x.dim) = list)
  (hr : d.rankRun k x qb list (badPage parity badAt) w scans = r)
include hqb hlist hr

/-- The device when the scans of a RANK have been counted, and its command is kept as they have left it with the time of its result. -/
def Device.rankDone (d : Device) (k : Nat) (w : PimWin) (x : PimCmd) (qb : List Byte) (parity : Nat) (r : RankRun) : Device :=
  let v := r.w.replayed (r.replays parity)
  (d.rankCounted k w r (r.replays parity)).rankKept k x qb r { v with t := v.t + v.lead + 200 }

theorem rankEff_ends (badBank : Nat) (hpasses : r.failed = none) (hlast : x.count ≤ r.scored) :
    rankEff k q scans parity badAt badBank w x data d = (d.rankDone k w x qb parity r).endPim k q (r.cmd x) 0 := by
  unfold rankEff
  dsimp only
  rw [hqb, hlist, hr]
  rw [hpasses, Option.isSome_none, if_neg Bool.false_ne_true, if_pos hlast]
  rfl

theorem rankEff_goesOn (badBank : Nat) (hpasses : r.failed = none) (hmore : r.scored < x.count) (hfits : r.full = false) :
    rankEff k q scans parity badAt badBank w x data d =
      (d.rankCounted k w r (r.replays parity)).rankKept k x qb r (r.w.replayed (r.replays parity)) := by
  unfold rankEff
  dsimp only
  rw [hqb, hlist, hr]
  rw [hpasses, Option.isSome_none, if_neg Bool.false_ne_true, if_neg (Nat.not_le.mpr hmore), hfits]
  rfl

theorem rankEff_frameFails (badBank : Nat) (hfails : r.failed.isSome = true) (hparity : parity ≤ 4) :
    rankEff k q scans parity badAt badBank w x data d =
      ((d.rankDone k w x qb parity r).badFrame k x (pageEntry list badAt).2.2.2 badBank).endPim k q (r.cmd x) 5 := by
  unfold rankEff
  dsimp only
  rw [hqb, hlist, hr]
  rw [if_pos hfails, if_neg (Nat.not_lt.mpr hparity)]
  rfl

theorem rankEff_queryFails (badBank : Nat) (hfails : r.failed.isSome = true) (hparity : 4 < parity) :
    rankEff k q scans parity badAt badBank w x data d = ((d.rankDone k w x qb parity r).badQuery k x).endPim k q (r.cmd x) 5 := by
  unfold rankEff
  dsimp only
  rw [hqb, hlist, hr]
  rw [if_pos hfails, if_pos hparity]
  rfl

end

/-! ### What the scans of a RANK keep -/

/-- What holds of a RANK's scans from a point on: no more than TOPN best pages, none of more than COUNT pages scored, and a clock and a
count of pages that have not gone back (R133, R145). -/
structure RankRun.Within (x : PimCmd) (first t : Nat) (r : RankRun) : Prop where
  best : r.best.length ≤ x.topn
  scored : first ≤ r.scored
  count : r.scored ≤ max x.count first
  clock : t ≤ r.w.t

theorem scanStep_clock (limit dsz qn row : Nat) (w : PimWin) : w.t ≤ (scanStep limit dsz qn row w).1.t := by
  unfold scanStep
  dsimp only
  split
  · exact Nat.le_add_right _ _
  · generalize w.owed + (if !w.refreshed || decide (w.seg + scanTime dsz qn > limit) then 1 else 0) = n
    by_cases hn : n = 0
    · rw [if_pos hn]
      exact Nat.le_add_right _ _
    · rw [if_neg hn]
      dsimp only
      omega

theorem PimChan.rankStart_within (c : PimChan) {x : PimCmd} (w : PimWin) (h : x.best.length ≤ x.topn) :
    (c.rankStart x w).Within x x.scored w.t := by
  unfold PimChan.rankStart
  dsimp only
  split
  · exact ⟨h, Nat.le_refl _, Nat.le_max_right _ _, Nat.le_refl _⟩
  · exact ⟨h, Nat.le_refl _, Nat.le_max_right _ _, Nat.le_add_right _ _⟩

theorem Device.rankScan_within {d : Device} {k : Nat} {x : PimCmd} {qb list : List Byte} {bad : Option Nat} {first t : Nat} {r : RankRun}
    (h : r.Within x first t) : (d.rankScan k x qb list bad r).Within x first t := by
  obtain ⟨hbest, hscored, hcount, hclock⟩ := h
  unfold Device.rankScan
  split
  · exact ⟨hbest, hscored, hcount, hclock⟩
  · next hgoes =>
    have hmore : r.scored < x.count := by
      simp only [Bool.or_eq_true, decide_eq_true_eq, not_or, Nat.not_le] at hgoes
      exact hgoes.2
    obtain ⟨tag, scale, slot, frame⟩ := pageEntry list r.scored
    dsimp only
    have hstep := Nat.le_trans hclock (scanStep_clock (d.fld F.PIM_CH_STATUS.SEG_LIMIT k) x.dsz x.qn (2 * frame + slot / 2) r.w)
    generalize scanStep (d.fld F.PIM_CH_STATUS.SEG_LIMIT k) x.dsz x.qn (2 * frame + slot / 2) r.w = step at hstep ⊢
    split
    · exact ⟨hbest, hscored, hcount, hclock⟩
    · split
      · exact ⟨hbest, hscored, hcount, hstep⟩
      · split
        · exact ⟨hbest, hscored, hcount, hstep⟩
        · refine ⟨?_, Nat.le_succ_of_le hscored, Nat.le_trans hmore (Nat.le_max_left _ _), hstep⟩
          dsimp only
          split
          · exact hbest
          · exact List.length_take_le _ _

theorem Device.rankRun_within (d : Device) (k : Nat) {x : PimCmd} (qb list : List Byte) (bad : Option Nat) (w : PimWin) (scans : Nat)
    (h : x.best.length ≤ x.topn) : (d.rankRun k x qb list bad w scans).Within x x.scored w.t := by
  have hfold : ∀ (xs : List Nat) (r : RankRun), r.Within x x.scored w.t →
      (xs.foldl (fun r _ => d.rankScan k x qb list bad r) r).Within x x.scored w.t := fun xs => by
    induction xs with
    | nil => exact fun r hr => hr
    | cons _ xs ih => exact fun r hr => ih _ (Device.rankScan_within hr)
  exact hfold _ _ (PimChan.rankStart_within _ w h)

/-! ### The driver ring (R140) -/

/-- The device once the descriptors of the driver ring up to a new TAIL have been requested. -/
def Device.dqReads (d : Device) (old n size : Nat) : Device :=
  (List.range n).foldl (fun (d : Device) i =>
    d.emit (.hostRead (d.ringFn .PIM_DQ_BASE) (d.fld F.PIM_DQ_BASE.ADDR * 4096 + 32 * ((old + i) % size)) 32)) d

section
variable {d : Device} (hL : d.part.isL = false)
include hL

theorem pimDqTailEff_tail (tail : Nat) :
    pimDqTailEff tail d =
      let e := d.setFld F.PIM_DQ_TAIL.TAIL tail
      let size := 2 ^ d.fld F.PIM_DQ_CTRL.LOG2_SIZE
      let old := d.fld F.PIM_DQ_TAIL.TAIL
      if !d.on F.PIM_DQ_CTRL.ENABLE || d.on F.PIM_DQ_HEAD.STOPPED then e else e.dqReads old ((tail + size - old) % size) size := by
  have hon : ∀ {f : Field}, f.reg ≠ .PIM_DQ_TAIL → (d.setFld F.PIM_DQ_TAIL.TAIL tail).on f = d.on f := fun hf => by
    rw [Device.on, Device.fld_setFld_reg _ _ _ _ hf (by decide) (by decide), Device.on]
  unfold pimDqTailEff
  rw [hL, if_neg Bool.false_ne_true]
  dsimp only
  rw [hon (by decide), hon (by decide)]
  rfl

theorem pimDqFetchEff_fetches (bytes : List Byte) (hon : d.on F.PIM_DQ_CTRL.ENABLE = true) (hstopped : d.on F.PIM_DQ_HEAD.STOPPED = false)
    (hhead : d.fld F.PIM_DQ_HEAD.HEAD ≠ d.fld F.PIM_DQ_TAIL.TAIL) :
    pimDqFetchEff bytes d =
      if (d.chan (PimDesc.ofBytes bytes).channel).isFull 1 then d
      else (d.setFld F.PIM_DQ_HEAD.HEAD ((d.fld F.PIM_DQ_HEAD.HEAD + 1) % 2 ^ d.fld F.PIM_DQ_CTRL.LOG2_SIZE)).queuePim 1
        (pimOfDesc (PimDesc.ofBytes bytes)) := by
  have hreads : (d.part.isL || !d.on F.PIM_DQ_CTRL.ENABLE || d.on F.PIM_DQ_HEAD.STOPPED ||
      d.fld F.PIM_DQ_HEAD.HEAD == d.fld F.PIM_DQ_TAIL.TAIL) = false := by
    rw [hL, hon, hstopped, beq_false_of_ne hhead]
    rfl
  unfold pimDqFetchEff
  dsimp only
  rw [hreads, if_neg Bool.false_ne_true]

end

/-! ### What an SREAD reads once a replay has been counted

A unit of a score frame that was written without a key reads as free bytes of the running count of draws (R120), and counting a replay
draws a free value where the count is full (log entry 12). -/

@[simp] theorem Device.part_count (d : Device) (f : Field) (n i : Nat) : (d.count f n i).part = d.part := by
  unfold Device.count; split <;> rfl

@[simp] theorem Device.sec_count (d : Device) (f : Field) (n i : Nat) : (d.count f n i).sec = d.sec := by
  unfold Device.count; split <;> rfl

theorem Device.freeCount_count (d : Device) {f : Field} {n i : Nat} (h : d.fld f i + n < 2 ^ f.w) : (d.count f n i).freeCount = d.freeCount := by
  rw [Device.count, if_pos h]
  rfl

theorem Device.freeCount_count_full (d : Device) {f : Field} {n i : Nat} (h : ¬d.fld f i + n < 2 ^ f.w) :
    (d.count f n i).freeCount = d.freeCount + 1 := by
  rw [Device.count, if_neg h]
  rfl

/-- A count in another register than PIM_CH_STATUS leaves where every address lies. -/
theorem Device.place_count (d : Device) {f : Field} (n : Nat) {i : Nat} (h : .PIM_CH_STATUS ≠ f.reg) (hi : i < 0x10000) (a : Nat) :
    (d.count f n i).place a = d.place a := by
  unfold Device.place
  dsimp only
  rw [Device.part_count]
  by_cases hk : (a - resvBase) / channelBytes < 320
  · rw [Device.scoreStart, d.fld_count_reg (g := F.PIM_CH_STATUS.SCORE_SIZE) n h hi (by omega), Device.scoreStart]
  · simp only [hk, false_and, if_false]

theorem Device.unitTag_count (d : Device) {f : Field} (n : Nat) {i : Nat} (h : .PIM_CH_STATUS ≠ f.reg) (hi : i < 0x10000) (a : Nat) :
    (d.count f n i).unitTag a = d.unitTag a := by
  unfold Device.unitTag Device.keyTag Device.ownerEntry
  rw [d.place_count n h hi, Device.mem5_count, Device.sec_count]

/-- A count in another register than PIM_CH_STATUS leaves what memory reads, but for the free bytes. -/
theorem Device.readMem_count (d : Device) {f : Field} (n : Nat) {i : Nat} (h : .PIM_CH_STATUS ≠ f.reg) (hi : i < 0x10000)
    (hfree : ∀ a, Config.freeByte (d.count f n i).freeCount a = Config.freeByte d.freeCount a) (a len : Nat) :
    (d.count f n i).readMem a len = d.readMem a len := by
  have hbyte : ∀ a, (d.count f n i).byte a = d.byte a := Device.byte_congr (d.mem_count f n i) (d.wr_count f n i)
  have hforeign : ∀ u tag, (d.count f n i).foreignUnit u tag = d.foreignUnit u tag := fun u tag => by
    unfold Device.foreignUnit Device.bytes
    simp only [Device.mem5_count, hbyte, hfree]
  have hread : ∀ a, (d.count f n i).readByte a = d.readByte a := fun a => by
    unfold Device.readByte
    simp only [Device.mem5_count, hbyte, hforeign, d.unitTag_count n h hi]
  exact congrArg (List.map · _) (funext fun j => hread (a + j))

/-- The device while an SWRITE or SREAD runs, its replays' time taken, reads memory as before it. -/
theorem Device.readMem_begun (d : Device) (k : Nat) (w : PimWin) (x : PimCmd) (a len : Nat) :
    ((d.pimBegun x).setWin k w).readMem a len = d.readMem a len := by
  obtain ⟨out, hbegun⟩ := d.pimBegun_eq x
  rw [hbegun]
  rfl

/-- An SREAD whose check a replay has cured reads what stood there before, unless the count of the replay drew a free value that its free
bytes differ by. -/
theorem Device.formOf_pimCured (d : Device) (k parity : Nat) (w : PimWin) (x : PimCmd)
    (hfree : ∀ a, Config.freeByte (d.pimCured k parity w x).freeCount a = Config.freeByte d.freeCount a) :
    (d.pimCured k parity w x).formOf k x = d.formOf k x := by
  have hbegun : ((d.pimBegun x).setWin k { w with t := w.t + swTime x.dsz * (1 + min parity 3) }).freeCount = d.freeCount := by
    obtain ⟨out, h⟩ := d.pimBegun_eq x
    rw [h]
    rfl
  unfold Device.formOf
  unfold Device.pimCured at hfree ⊢
  dsimp only at hfree ⊢
  split
  · simp only [Device.readMem_begun]
  · next hreplayed =>
    rw [if_neg hreplayed, ← hbegun] at hfree
    simp only [Device.readMem_count _ 1 (f := F.ERR_COUNTS.REPLAYED) (i := 0) (by decide) (by decide) hfree, Device.readMem_begun]

/-- A check that passes at once, and one whose cure the count of replays has room for, draw no free value. -/
theorem Device.freeCount_pimCured (d : Device) (k : Nat) {parity : Nat} (w : PimWin) (x : PimCmd)
    (hroom : parity = 0 ∨ d.fld F.ERR_COUNTS.REPLAYED + 1 < 2 ^ 32) : (d.pimCured k parity w x).freeCount = d.freeCount := by
  obtain ⟨out, hbegun⟩ := d.pimBegun_eq x
  unfold Device.pimCured
  rw [hbegun]
  dsimp only
  split
  · rfl
  · next hreplayed => exact Device.freeCount_count _ (hroom.resolve_left hreplayed)

theorem Device.freeCount_pimCured_cases (d : Device) (k parity : Nat) (w : PimWin) (x : PimCmd) :
    (d.pimCured k parity w x).freeCount = d.freeCount ∨ (d.pimCured k parity w x).freeCount = d.freeCount + 1 := by
  by_cases hroom : parity = 0 ∨ d.fld F.ERR_COUNTS.REPLAYED + 1 < 2 ^ 32
  · exact .inl (d.freeCount_pimCured k w x hroom)
  · obtain ⟨hreplayed, hfull⟩ := not_or.mp hroom
    obtain ⟨out, hbegun⟩ := d.pimBegun_eq x
    unfold Device.pimCured
    rw [hbegun]
    dsimp only
    rw [if_neg hreplayed]
    exact .inr (Device.freeCount_count_full _ hfull)

section
variable {s : State} {k q : Nat} {w : PimWin} {x : PimCmd} {parity : Nat} (bank : Nat)

/-- The page that an SREAD reads is the one that stood there before it. -/
theorem State.inWindow.exec_sread_before (h : s.inWindow k q 3 w x []) (hfit : w.t + swTime x.dsz ≤ w.limit) (hparity : parity ≤ 3)
    (hfree : ∀ a, Config.freeByte (s.dev.pimCured k parity w x).freeCount a = Config.freeByte s.dev.freeCount a) :
    exec (.sread k q parity bank) s =
      .next (s.put ((((s.dev.pimCured k parity w x).store x.a (s.dev.formOf k x)).endPim k q x 0).refill k)) := by
  rw [h.exec_sread bank hfit hparity, Device.formOf_pimCured _ _ _ _ _ hfree]

/-- The SREAD clause of O36, in every state but one with a full count of replays whose SREAD a replay cures. -/
theorem State.inWindow.exec_sread_room (h : s.inWindow k q 3 w x []) (hfit : w.t + swTime x.dsz ≤ w.limit) (hparity : parity ≤ 3)
    (hroom : parity = 0 ∨ s.dev.fld F.ERR_COUNTS.REPLAYED + 1 < 2 ^ 32) :
    exec (.sread k q parity bank) s =
      .next (s.put ((((s.dev.pimCured k parity w x).store x.a (s.dev.formOf k x)).endPim k q x 0).refill k)) :=
  h.exec_sread_before bank hfit hparity fun a => by rw [s.dev.freeCount_pimCured k w x hroom]

end

/-- A unit that was written without a key reads as free bytes (R120). -/
theorem Device.readByte_open {d : Device} {a t : Nat} (ha : resvBase ≤ a) (hkey : sget 0 d.mem5.unitKey ((a - resvBase) / 64) = t) (ht : 0 < t)
    (hnone : t < 3) (htag : d.unitTag a = 0) : d.readByte a = Config.freeByte d.freeCount a := by
  have hbase : resvBase + (a - resvBase) / 64 * 64 + (a - resvBase) % 64 = a := by omega
  have hforeign : d.foreignUnit ((a - resvBase) / 64) 0 =
      (List.range 64).map fun i => Config.freeByte d.freeCount (resvBase + (a - resvBase) / 64 * 64 + i) := by
    unfold Device.foreignUnit
    dsimp only
    rw [hkey, if_neg (by omega), if_neg (by omega)]
  rw [Device.readByte, if_neg (Nat.not_lt.mpr ha), hkey, htag, if_neg (by omega), hforeign, List.getD_eq_getElem?_getD, List.getElem?_map,
    List.getElem?_range (Nat.mod_lt _ (by decide)), Option.map_some, Option.getD_some, hbase]

/-! ### What O36 rests on

Every clause of O36 but one holds by the lemmas above in every state. The SREAD clause holds in every state in which the count of the replay
draws no free value (`State.inWindow.exec_sread_room`); in the others it compares the free bytes of two draws. `Config.freeByte` is a constant
without a body, so O36 is open: the first theorem derives it from free bytes that draws leave as they are, so that it cannot be refuted, and
the second derives from it that two free bytes of a frame are the same, so that it cannot be proved. -/

/-- O36 from free bytes that no draw changes. -/
theorem reservoirCommandsRun_of_freeByte (hfree : ∀ n a, Config.freeByte (n + 1) a = Config.freeByte n a) : Obligations.ReservoirCommandsRun := by
  refine ⟨fun s k q w x host list op parity bank h => ⟨?sread, ?swrite, ?sclear, ?fence⟩,
    fun s k q scans w x host parity badAt badBank h => ⟨?ends, ?goesOn, ?frameFails, ?queryFails⟩,
    fun s port tail ht hL => ⟨?tail, ?reads⟩, fun s bytes hs hL hon hstopped hhead => ⟨?fetches, ?full⟩,
    fun d k x qb list bad w scans hbest => ?bounds⟩
  case sread =>
    rintro rfl rfl hfit
    refine ⟨fun hparity => h.exec_sread_before bank hfit hparity fun a => ?_, h.exec_sread_lost bank hfit⟩
    obtain hsame | hdrew := s.dev.freeCount_pimCured_cases k parity w x
    · rw [hsame]
    · rw [hdrew, hfree]
  case swrite =>
    rintro rfl rfl hfit
    exact ⟨h.exec_swrite bank hfit host, h.exec_swrite_lost bank hfit host⟩
  case sclear =>
    rintro rfl rfl hfit
    obtain ⟨out, hbegun⟩ := s.dev.pimBegun_eq x
    refine ⟨h.exec_sclear hfit, fun n i hn hi => ?_⟩
    have hmem : ((s.dev.pimBegun x).zeroFrames k x x.count).mem = s.dev.mem := by
      rw [(Device.zeroFrames_writes _ _ _ _).1, hbegun]
    rw [State.put_byte _ _ hmem]
    exact Device.byte_zeroFrames (by rw [hbegun]; exact h.1.1.2) k x hn hi
  case fence =>
    rintro rfl rfl hfit
    exact h.exec_pimFence hfit
  case ends => exact fun hpasses hlast => h.act_runPim rfl (rankEff_ends rfl rfl rfl badBank hpasses hlast)
  case goesOn => exact fun hpasses hmore hfits => h.act_runPim rfl (rankEff_goesOn rfl rfl rfl badBank hpasses hmore hfits)
  case frameFails => exact fun hfails hparity => h.act_runPim rfl (rankEff_frameFails rfl rfl rfl badBank hfails hparity)
  case queryFails => exact fun hfails hparity => h.act_runPim rfl (rankEff_queryFails rfl rfl rfl badBank hfails hparity)
  case tail =>
    intro hoff
    refine (State.takes_put ht _ _).trans ?_
    rw [pimDqTailEff_tail hL]
    dsimp only
    rw [if_pos (by rcases hoff with h | h <;> simp [h])]
  case reads =>
    intro hon hstopped
    refine (State.takes_put ht _ _).trans ?_
    rw [pimDqTailEff_tail hL]
    dsimp only
    rw [if_neg (by simp [hon, hstopped])]
    rfl
  case fetches =>
    exact fun hroom => hs.act_eq ((pimDqFetchEff_fetches hL bytes hon hstopped hhead).trans (if_neg (ne_true_of_eq_false hroom)))
  case full => exact fun hfull => State.act_id hs.1 ((pimDqFetchEff_fetches hL bytes hon hstopped hhead).trans (if_pos hfull))
  case bounds =>
    obtain ⟨hkept, hscored, hcount, hclock⟩ := d.rankRun_within k qb list bad w scans hbest
    exact ⟨hkept, hscored, hcount, hclock⟩

/-- A command that serves neither a ranking nor a score form and is no RANK leaves its queue as it ends OK, and changes nothing else. -/
theorem Device.endPim_plain (d : Device) (k q : Nat) {x : PimCmd} (hrank : x.rank = none) (hbuild : x.build = none) (hop : x.opcode ≠ 1) :
    d.endPim k q x 0 = d.setChan k ((d.chan k).ended q x 0) := by
  have htold : ∀ e : Device, e.pimTold x 0 = e := fun e => by
    rw [Device.pimTold, hrank]
    exact if_neg fun h => hop h.1
  have hnoted : ∀ e : Device, e.pimNoted x 0 = e := fun e => by
    rw [Device.pimNoted, hbuild]
  rw [Device.endPim_eq, htold, hnoted]
  rfl

theorem Device.byte_written {d : Device} {a : Nat} {b : Byte} (h : writtenByte a d.wr none = some b) : d.byte a = b := by
  rw [Device.byte, h]

theorem Device.mem_store (d : Device) (a : Nat) (bs : List Byte) : (d.store a bs).mem = d.mem := by
  unfold Device.store
  split <;> rfl

theorem Device.chan_store (d : Device) (a : Nat) (bs : List Byte) (k : Nat) : (d.store a bs).chan k = d.chan k := by
  unfold Device.store
  split <;> rfl

namespace UnkeyedRead

/-- An SREAD of the last frame of channel 0 into the first bytes of headwater. -/
def cmd : PimCmd := { opcode := 3, channel := 0, frame := 32767 }
/-- The window in which it runs. -/
def win : PimWin := { entry := 0, opened := 0, limit := 40000 }
/-- The address of its first byte. -/
def addr : Nat := frameAddr 32767
/-- A device that runs it next; the first unit of the frame was written without a key, and the count of replays is full. -/
def device : Device :=
  let d : Device := { pim.chans := [(0, { win := some win, maintQ := [cmd] })],
                      mem5.owners := [(32767, mkOwner 0 false)], mem5.unitKey := [((addr - resvBase) / 64, 1)] }
  ((d.setFld F.PIM_CH_STATUS.MODE 2).setFld F.PIM_CH_STATUS.SCORE_SIZE 1).setFld F.ERR_COUNTS.REPLAYED (2 ^ 32 - 1)
/-- The state that holds it alone. -/
def state : State := { dev := device }

theorem state_inWindow : state.inWindow 0 1 3 win cmd [] := by decide

theorem readByte_device : device.readByte addr = Config.freeByte 0 addr :=
  Device.readByte_open (t := 1) (by decide) (by decide) (by decide) (by decide) (by decide)

/-- The device while a replay of the SREAD runs. -/
def again : Device := (device.pimBegun cmd).setWin 0 { win with t := win.t + swTime cmd.dsz * (1 + min 1 3) }

theorem pimCured_device : device.pimCured 0 1 win cmd = again.count F.ERR_COUNTS.REPLAYED := rfl

theorem readByte_cured : (device.pimCured 0 1 win cmd).readByte addr = Config.freeByte 1 addr := by
  have hdrawn : (again.count F.ERR_COUNTS.REPLAYED).freeCount = 1 := again.freeCount_count_full (by decide)
  have htag : (again.count F.ERR_COUNTS.REPLAYED).unitTag addr = 0 := (again.unitTag_count 1 (by decide) (by decide) addr).trans (by decide)
  rw [pimCured_device, Device.readByte_open (t := 1) (by decide) (by rw [Device.mem5_count]; decide) (by decide) (by decide) htag, hdrawn]

theorem formOf_head (d : Device) : ∃ bs, d.formOf 0 cmd = d.readByte addr :: bs := ⟨_, rfl⟩

/-- The state once the SREAD has ended with a page. -/
def ended (page : List Byte) : State :=
  state.put ((((device.pimCured 0 1 win cmd).store cmd.a page).endPim 0 1 cmd 0).refill 0)

/-- The page stands in headwater from its first byte on. -/
theorem byte_ended (d : Device) : (ended (d.formOf 0 cmd)).dev.byte 0 = d.readByte addr := by
  obtain ⟨bs, hform⟩ := formOf_head d
  have hchan : ((again.count F.ERR_COUNTS.REPLAYED).store cmd.a (d.readByte addr :: bs)).chan 0 = again.chan 0 :=
    (Device.chan_store _ _ _ _).trans (again.chan_count _ _ _ _)
  have hleaves : (again.chan 0).ended 1 cmd 0 = { again.chan 0 with maintQ := [], cmds1 := 1 } := by decide
  have h0 : (again.chan 0).hold0 = [] := by decide
  have h1 : (again.chan 0).hold1 = [] := by decide
  have hmem : (((again.count F.ERR_COUNTS.REPLAYED).store cmd.a (d.readByte addr :: bs)).setChan 0
      { again.chan 0 with maintQ := [], cmds1 := 1 }).mem = [] :=
    (Device.mem_store _ _ _).trans (again.mem_count _ _ _)
  have hwr : (again.count F.ERR_COUNTS.REPLAYED).wr = [] := again.wr_count _ _ _
  rw [ended, hform, pimCured_device, Device.endPim_plain _ _ _ rfl rfl (by decide), hchan, hleaves,
    Device.refill_none (by rw [Device.chan_setChan_same, h0]) (by rw [Device.chan_setChan_same, h1]), State.put_byte _ _ hmem]
  have hwritten : writtenByte 0 ((again.count F.ERR_COUNTS.REPLAYED).wr ++ [.put cmd.a (d.readByte addr :: bs)]) none = some (d.readByte addr) := by
    rw [hwr]
    rfl
  exact Device.byte_written hwritten

end UnkeyedRead

/-- From O36, of which the SREAD clause has the page read as it stood before its replay was counted, two free bytes that are the same: the
device's count of replays is full, so counting one draws a free value. -/
theorem freeByte_of_reservoirCommandsRun (h : Obligations.ReservoirCommandsRun) :
    Config.freeByte 1 UnkeyedRead.addr = Config.freeByte 0 UnkeyedRead.addr := by
  open UnkeyedRead in
  have hstated : exec (.sread 0 1 1 0) state = .next (ended (device.formOf 0 cmd)) :=
    ((h.1 state 0 1 win cmd [] [] 3 1 0 state_inWindow).1 rfl rfl (by decide)).1 (by decide)
  have hread : exec (.sread 0 1 1 0) state = .next (ended ((device.pimCured 0 1 win cmd).formOf 0 cmd)) :=
    State.inWindow.exec_sread 0 state_inWindow (by decide) (by decide)
  have hsame : ended ((device.pimCured 0 1 win cmd).formOf 0 cmd) = ended (device.formOf 0 cmd) :=
    Host.Outcome.next.inj (hread.symm.trans hstated)
  rw [← readByte_cured, ← readByte_device, ← byte_ended, ← byte_ended, hsame]

end Sys2Proof.Machine

/-! ## The furrow command ring (R161, R162) -/

namespace Sys2Proof.Machine

/-! ### A command of the ring at a boundary -/

/-- A ring command of its own opcode acts on what the boundary's own effects leave (R356). -/
theorem Device.furStep_ready {d : Device} {bytes : List Byte} {op : Nat} (hready : d.furReady = true) (hop : furOpcode bytes = op)
    (f : Device → Device) : d.furStep op bytes f = f d.boundary := by
  rw [Device.furStep, hready, hop, beq_self_eq_true, Bool.and_self, if_pos rfl]

section
variable {s : State} {bytes : List Byte} (hs : s.awake) (hready : s.dev.furReady = true) {d : Device}
include hs hready

theorem State.awake.exec_furCreate (hop : furOpcode bytes = 1) (hd : furCreateEff (Furrow.ofBytes bytes) s.dev.boundary = d) :
    exec (.furCreate bytes) s = .next (s.put d) := hs.act_eq ((Device.furStep_ready hready hop _).trans hd)

theorem State.awake.exec_furDestroy (hop : furOpcode bytes = 2) (hd : furDestroyEff (furIndex bytes) s.dev.boundary = d) :
    exec (.furDestroy bytes) s = .next (s.put d) := hs.act_eq ((Device.furStep_ready hready hop _).trans hd)

theorem State.awake.exec_furSet (hop : furOpcode bytes = 3) (hd : furSetEff (furIndex bytes) (Furrow.ofBytes bytes) s.dev.boundary = d) :
    exec (.furSet bytes) s = .next (s.put d) := hs.act_eq ((Device.furStep_ready hready hop _).trans hd)

/-- READ, and a command of a reserved OPCODE, of which FUR_READ disposes. -/
theorem State.awake.exec_furRead (hop : furOpcode bytes = 0 ∨ 3 < furOpcode bytes)
    (hd : furReadEff (furOpcode bytes) (furIndex bytes) s.dev.boundary = d) :
    exec (.furRead bytes) s = .next (s.put d) := by
  have hother : ¬(1 ≤ furOpcode bytes ∧ furOpcode bytes ≤ 3) := by omega
  have harm : exec (.furRead bytes) s = execFurRead bytes s := rfl
  rw [harm, execFurRead, State.act_put _ _ hs.2, if_neg hother, Device.furStep_ready hready rfl, hd]

end

/-! ### CREATE -/

section
variable {img : Furrow} {d : Device}

theorem furCreateEff_invalid (hinvalid : d.furInvalid img = true) : furCreateEff img d = d.furComplete 1 5 0 := if_pos hinvalid

variable (hvalid : d.furInvalid img = false)
include hvalid

theorem furCreateEff_duplicate (hid : (d.furById img.id).isSome = true) : furCreateEff img d = d.furComplete 1 7 0 :=
  (if_neg (ne_true_of_eq_false hvalid)).trans (if_pos hid)

variable (hid : d.furById img.id = none)
include hid

theorem furCreateEff_full (hfree : firstFrom (fun k => (d.furrow k).state == 0) 0 262144 = none) :
    furCreateEff img d = d.furComplete 1 2 0 := by
  rw [furCreateEff, hvalid, hid, hfree]
  rfl

variable {n : Nat} (hfree : firstFrom (fun k => (d.furrow k).state == 0) 0 262144 = some n)
include hfree

theorem furCreateEff_noGranules (hrun : d.freeRun (granules img) = none) : furCreateEff img d = d.furComplete 1 3 0 := by
  rw [furCreateEff, hvalid, hid, hfree]
  dsimp only
  rw [hrun]
  rfl

theorem furCreateEff_created {g : Nat} (hrun : d.freeRun (granules img) = some g) :
    furCreateEff img d =
      ((d.setFurrow n { img with base := g * 4096, length := 0, pushed := 0, openScore := 0, lastUse := 0 }).setHoEntry n {}).furComplete
        1 1 n := by
  rw [furCreateEff, hvalid, hid, hfree]
  dsimp only
  rw [hrun]
  rfl

end

/-! ### DESTROY, SET and READ -/

/-- A furrow with the fields that SET changes taken from an image (R162). -/
def furSetTo (f img : Furrow) : Furrow :=
  { f with mode := img.mode, sink := img.sink, recent := img.recent, top := img.top, spillHome := img.spillHome, openHw := img.openHw,
           scBase := img.scBase, scCount := img.scCount }

section
variable {d : Device} {k : Nat} (hunused : (d.furrow k).state = 0)
include hunused

theorem furDestroyEff_free : furDestroyEff k d = d.furComplete 2 8 k := if_pos hunused

theorem furSetEff_free (img : Furrow) : furSetEff k img d = d.furComplete 3 8 k := if_pos hunused

theorem furReadEff_free : furReadEff 4 k d = d.furComplete 4 8 k := (if_neg (not_not_intro rfl)).trans (if_pos hunused)

end

section
variable {d : Device} {k : Nat} (hused : (d.furrow k).state ≠ 0)
include hused

theorem furDestroyEff_busy (hnamed : d.slotNames (d.furrow k).id = true) : furDestroyEff k d = d.furComplete 2 6 k :=
  (if_neg hused).trans (if_pos hnamed)

theorem furDestroyEff_waits (hunnamed : d.slotNames (d.furrow k).id = false) :
    furDestroyEff k d = { d.setFurrow k { d.furrow k with state := 3 } with fur.destroying := some k } :=
  (if_neg hused).trans (if_neg (ne_true_of_eq_false hunnamed))

theorem furSetEff_used (img : Furrow) :
    furSetEff k img d =
      if d.furInvalid (furSetTo (d.furrow k) img) || img.home != (d.furrow k).home ||
          (d.hasScores k && (img.scBase != (d.furrow k).scBase || img.scCount != (d.furrow k).scCount))
      then d.furComplete 3 5 k else (d.setFurrow k (furSetTo (d.furrow k) img)).furComplete 3 1 k :=
  if_neg hused

theorem furSetEff_sets {img : Furrow} (hvalid : d.furInvalid (furSetTo (d.furrow k) img) = false) (hhome : img.home = (d.furrow k).home)
    (hscores : d.hasScores k = false ∨ img.scBase = (d.furrow k).scBase ∧ img.scCount = (d.furrow k).scCount) :
    furSetEff k img d = (d.setFurrow k (furSetTo (d.furrow k) img)).furComplete 3 1 k := by
  rw [furSetEff_used hused, hvalid, hhome]
  obtain hnone | ⟨hbase, hcount⟩ := hscores
  · simp [hnone]
  · simp [hbase, hcount]

theorem furSetEff_refused {img : Furrow} (hbad : d.furInvalid (furSetTo (d.furrow k) img) = true ∨ img.home ≠ (d.furrow k).home) :
    furSetEff k img d = d.furComplete 3 5 k := by
  rw [furSetEff_used hused]
  obtain hinvalid | hhome := hbad
  · simp [hinvalid]
  · simp [hhome]

theorem furReadEff_used : furReadEff 4 k d = d.furComplete 4 1 k (furrowBytes (d.furrow k)) :=
  (if_neg (not_not_intro rfl)).trans (if_neg hused)

end

theorem furReadEff_reserved {op : Nat} (hop : op ≠ 4) (k : Nat) (d : Device) : furReadEff op k d = d.furComplete (op % 256) 5 0 := if_pos hop

/-! ### DESTROY_COMPLETE -/

theorem destroyCompleteEff_frees {d : Device} {k : Nat} (hdestroying : d.fur.destroying = some k) (hboundary : d.atBoundary = true)
    (hquiet : d.furrowQuiet k = true) (hrx : (d.hoLoc k).rx = none) :
    destroyCompleteEff d =
      let z := ({ d.boundary with fur.destroying := none } : Device).freeFurrow k
      (if z.furReady then z.furComplete 2 1 k else z).setHoLoc k {} := by
  rw [destroyCompleteEff, hdestroying]
  dsimp only
  rw [hboundary, hquiet, hrx]
  rfl

/-! ### The ring's TAIL -/

theorem Device.on_setFld_reg (d : Device) {f g : Field} (x : Nat) (h : g.reg ≠ f.reg) : (d.setFld f x).on g = d.on g := by
  rw [Device.on, Device.fld_setFld_reg _ _ _ _ h (by decide) (by decide), Device.on]

theorem furCqTailEff_tail (tail : Nat) (d : Device) :
    furCqTailEff tail d =
      let size := 2 ^ d.fld F.FUR_CQ_CTRL.LOG2_SIZE
      let old := d.fld F.FUR_CQ_TAIL.TAIL
      let e := d.setFld F.FUR_CQ_TAIL.TAIL tail
      if !d.on F.FUR_CQ_CTRL.ENABLE || d.on F.FUR_CQ_HEAD.STOPPED then e
      else (List.range ((tail + size - old) % size)).foldl (fun (d : Device) i =>
        d.emit (.hostRead (d.ringFn .FUR_CQ_BASE) (d.fld F.FUR_CQ_BASE.ADDR * 4096 + 64 * ((old + i) % size)) 64)) e := by
  unfold furCqTailEff
  dsimp only
  rw [Device.on_setFld_reg _ _ (by decide), Device.on_setFld_reg _ _ (by decide)]

/-! ### The commands -/

/-- Settles O39, command by command at a boundary, then the end of a DESTROY and the ring's TAIL. -/
theorem furrowRingCommands : Obligations.FurrowRingCommands := by
  refine ⟨fun s bytes hs hready => ⟨fun hop => ⟨?invalid, ?duplicate, fun hvalid hid => ⟨?full, ?noGranules, ?created⟩⟩,
    fun hunused => ⟨?destroyFree, ?setFree, ?readFree⟩,
    fun hused => ⟨?destroyBusy, ?destroyWaits, fun hop => ⟨?sets, ?setRefused⟩, ?reads⟩, ?reserved⟩,
    fun s k hs hdestroying hboundary hquiet hrx => hs.act_eq (destroyCompleteEff_frees hdestroying hboundary hquiet hrx),
    fun s port tail ht => ⟨?tail, ?fetches⟩⟩
  case invalid => exact fun hinvalid => hs.exec_furCreate hready hop (furCreateEff_invalid hinvalid)
  case duplicate => exact fun hvalid hid => hs.exec_furCreate hready hop (furCreateEff_duplicate hvalid hid)
  case full => exact fun hfree => hs.exec_furCreate hready hop (furCreateEff_full hvalid hid hfree)
  case noGranules => exact fun n hfree hrun => hs.exec_furCreate hready hop (furCreateEff_noGranules hvalid hid hfree hrun)
  case created => exact fun n g hfree hrun => hs.exec_furCreate hready hop (furCreateEff_created hvalid hid hfree hrun)
  case destroyFree => exact fun hop => hs.exec_furDestroy hready hop (furDestroyEff_free hunused)
  case setFree => exact fun hop => hs.exec_furSet hready hop (furSetEff_free hunused _)
  case readFree => exact fun hop => hs.exec_furRead hready (by omega) (by rw [hop]; exact furReadEff_free hunused)
  case destroyBusy => exact fun hop hnamed => hs.exec_furDestroy hready hop (furDestroyEff_busy hused hnamed)
  case destroyWaits => exact fun hop hunnamed => hs.exec_furDestroy hready hop (furDestroyEff_waits hused hunnamed)
  case sets => exact fun hvalid hhome hscores => hs.exec_furSet hready hop (furSetEff_sets hused hvalid hhome hscores)
  case setRefused => exact fun hbad => hs.exec_furSet hready hop (furSetEff_refused hused hbad)
  case reads => exact fun hop => hs.exec_furRead hready (by omega) (by rw [hop]; exact furReadEff_used hused)
  case reserved => exact fun hop => hs.exec_furRead hready (by omega) (furReadEff_reserved (by omega) _ _)
  case tail =>
    intro hoff
    refine (State.takes_put ht _ _).trans ?_
    rw [furCqTailEff_tail]
    dsimp only
    rw [if_pos (by rcases hoff with h | h <;> simp [h])]
  case fetches =>
    intro hon hstopped
    refine (State.takes_put ht _ _).trans ?_
    rw [furCqTailEff_tail]
    dsimp only
    rw [if_neg (by simp [hon, hstopped])]

end Sys2Proof.Machine

/-! ## Queries, rankings and cutoffs (R172, R173, R176, R177, R178, R186) -/

namespace Sys2Proof.Machine

/-! ### What is posted in a selection area (R172, R176) -/

/-- The query that stands in a selection area, for the furrow that its entry attends. -/
def Device.postedQuery (d : Device) (slot : Nat) (draft : Bool) (x : Attend) : List Byte :=
  let area := d.selArea slot draft
  d.bytes (area + 0x40) (min 1088 (64 + d.load (area + 3) 1 * scoreDim (d.furrow x.desc).dsz))

/-- The ranking request that goes to the home of a REMOTE furrow with a posted query (Table 7.12). -/
def Device.rankAsked (d : Device) (slot : Nat) (draft : Bool) (x : Attend) : List Byte :=
  let f := d.furrow x.desc
  pack [(8, d.turnNo), (4, f.id), (2, d.node), (1, 0x21), (1, f.top), (4, x.candFirst), (4, x.candEnd),
    (1, d.load (d.selArea slot draft + 3) 1), (1, f.dsz), (6, 0), (16, 0), (16, 0)] ++ d.postedQuery slot draft x

section
variable {d : Device} {slot : Nat} {draft : Bool} {x : Attend} (hx : d.attendOf slot draft = some x) (hopen : x.final = false)
  (hin : x.heldOut = false) (hruns : d.attendRuns x = true)
include hx hopen hin hruns

section
variable (hfirst : x.queried = false) (hpost : d.load (d.selArea slot draft + 1) 1 = 1)
include hfirst hpost

theorem queryPostEff_reservoir (hmode : x.mode = 2) :
    queryPostEff slot draft d =
      let b := d.setAttend { x with queried := true }
      (b.newRank.2).queueRanks
        { id := b.newRank.1, slot := slot, draft := draft, turn := d.turnNo, desc := x.desc, top := (d.furrow x.desc).top }
        x.entry x.candFirst x.candEnd (d.load (d.selArea slot draft + 3) 1) (d.postedQuery slot draft x) := by
  rw [queryPostEff, hx]
  dsimp only
  rw [hopen, hin, hfirst, hruns, hpost, hmode]
  rfl

theorem queryPostEff_remote (hmode : x.mode = 3) :
    queryPostEff slot draft d =
      (d.setAttend { x with queried := true }).internalSend (x.plot / 32) (.furrow x.desc .none) (d.furrow x.desc).home
        (d.furrow x.desc).owner 4 (d.rankAsked slot draft x) := by
  rw [queryPostEff, hx]
  dsimp only
  rw [hopen, hin, hfirst, hruns, hpost, hmode]
  rfl

end

theorem selectionPostEff_index (hmode : x.mode = 1) (hpost : d.load (d.selArea slot draft + 1) 1 = 2) :
    selectionPostEff slot draft d = d.takeRanking x (d.selection slot draft) false := by
  rw [selectionPostEff, hx]
  dsimp only
  rw [hopen, hin, hruns, hmode, hpost]
  rfl

end

theorem reservoirMergeEff_fenced {d : Device} {id : Nat} {r : Ranking}
    (hr : d.fur.rankings.find? (fun r => r.id == id && r.waiting == []) = some r) : reservoirMergeEff id d = d.endRanking r false := by
  rw [reservoirMergeEff, hr]

/-! ### RANK_REQUEST (R177) -/

/-- The furrow that a ranking request names, where this device is its home and its record gives it to the requester. -/
def Device.rankedFor (d : Device) (m : Msg) : Option (Nat × Furrow) :=
  d.fur.desc.find? fun x => x.2.state == 2 && x.2.id == m.num 8 4 && d.isHome x.1 && d.recordOwner x.1 == some (m.num 12 2)

/-- A candidate of a ranking request lies past the furrow's pages or has no score form. -/
def Device.unscoredFor (d : Device) (m : Msg) (f : Furrow) : Bool :=
  decide (m.num 20 4 > pps f) || (List.range (m.num 20 4 - m.num 16 4)).any fun k => !(d.pte (seqPage f f.rankStream (m.num 16 4 + k))).scored

/-- The RANK_SERVICE grant under which a requester's RANKs run. -/
def Device.rankGrant (d : Device) (m : Msg) : Option Admitted := d.granted.find? fun a => a.e.kind == 4 && a.e.arg % 65536 == m.num 12 2

/-- The reply without entries to a ranking request. -/
def Device.rankRefused (d : Device) (m : Msg) (owner outcome : Nat) : Device :=
  d.rankReply (m.num 12 2) (m.num 0 8) (m.num 8 4) owner outcome 0 []

theorem Device.unscoredFor_iff {d : Device} {m : Msg} {f : Furrow} :
    d.unscoredFor m f = true ↔ m.num 20 4 > pps f ∨
      ((List.range (m.num 20 4 - m.num 16 4)).any fun k => !(d.pte (seqPage f f.rankStream (m.num 16 4 + k))).scored) = true := by
  rw [Device.unscoredFor, Bool.or_eq_true, decide_eq_true_iff]

/-- The device once the RANKs of a ranking request are queued for a furrow under a grant. -/
def Device.rankQueued (d : Device) (m : Msg) (i : Nat) (a : Admitted) : Device :=
  (d.newRank.2).queueRanks
    { id := d.newRank.1, requester := some (m.num 12 2), msgId := m.msgId, turn := m.num 0 8, desc := i, top := m.num 15 1 }
    a.index (m.num 16 4) (m.num 20 4) (m.num 24 1) (m.data.drop 64)

/-- What becomes of a ranking request of this turn: the furrow, its score forms and the grant are looked at in this order. -/
def Device.rankServed (d : Device) (m : Msg) : Device :=
  match d.rankedFor m with
  | none => d.rankRefused m m.hdr.owner 3
  | some (i, f) =>
    if m.num 20 4 > pps f ∨
        ((List.range (m.num 20 4 - m.num 16 4)).any fun k => !(d.pte (seqPage f f.rankStream (m.num 16 4 + k))).scored) = true
    then d.rankRefused m f.owner 4
    else
      match d.rankGrant m with
      | none => d.rankRefused m f.owner 2
      | some a => d.rankQueued m i a

section
variable {d : Device} {m : Msg} (htype : m.num 14 1 = 0x21)
include htype

theorem rankRequestEff_otherTurn (hturn : m.num 0 8 ≠ d.turnNo) : rankRequestEff m d = (d.took m).rankRefused m m.hdr.owner 5 :=
  (if_neg (not_not_intro htype)).trans (if_pos hturn)

variable (hturn : m.num 0 8 = d.turnNo)
include hturn

theorem rankRequestEff_inTurn : rankRequestEff m d = (d.took m).rankServed m :=
  (if_neg (not_not_intro htype)).trans (if_neg (not_not_intro hturn))

end

section
variable {d : Device} {m : Msg}

theorem Device.rankServed_notOwned (hnone : d.rankedFor m = none) : d.rankServed m = d.rankRefused m m.hdr.owner 3 := by
  rw [Device.rankServed, hnone]

variable {i : Nat} {f : Furrow} (hfurrow : d.rankedFor m = some (i, f))
include hfurrow

theorem Device.rankServed_unscored (hbad : d.unscoredFor m f = true) : d.rankServed m = d.rankRefused m f.owner 4 := by
  rw [Device.rankServed, hfurrow]
  exact if_pos (Device.unscoredFor_iff.mp hbad)

variable (hscored : d.unscoredFor m f = false)
include hscored

theorem Device.rankServed_ungranted (hnone : d.rankGrant m = none) : d.rankServed m = d.rankRefused m f.owner 2 := by
  rw [Device.rankServed, hfurrow, hnone]
  exact if_neg fun hbad => ne_true_of_eq_false hscored (Device.unscoredFor_iff.mpr hbad)

theorem Device.rankServed_granted {a : Admitted} (hgrant : d.rankGrant m = some a) : d.rankServed m = d.rankQueued m i a := by
  rw [Device.rankServed, hfurrow, hgrant]
  exact if_neg fun hbad => ne_true_of_eq_false hscored (Device.unscoredFor_iff.mpr hbad)

end

/-! ### RANK_REPLY (R178) -/

/-- The entry that waits for a ranking reply. -/
def Device.rankAwaited (d : Device) (m : Msg) : Option Attend :=
  d.fur.attend.find? fun x => x.mode == 3 && x.queried && (d.furrow x.desc).id == m.num 8 4

/-- What becomes of a ranking reply of this turn. -/
def Device.rankAnswered (d : Device) (m : Msg) : Device :=
  match d.rankAwaited m with
  | none => d.event F.FUR_EVENTS.RANK_LATE
  | some x =>
    if x.final || x.heldOut || !d.attendRuns x then d.event F.FUR_EVENTS.RANK_LATE
    else if m.num 15 1 ≤ 1 then d.takeRanking x (replyEntries m.data) (m.num 15 1 == 1)
    else d.fallBackPrevious x

section
variable {d : Device} {m : Msg} (htype : m.num 14 1 = 0x22)
include htype

theorem rankReplyEff_otherTurn (hturn : m.num 0 8 ≠ d.turnNo) : rankReplyEff m d = (d.took m).event F.FUR_EVENTS.RANK_LATE :=
  (if_neg (not_not_intro htype)).trans (if_pos hturn)

variable (hturn : m.num 0 8 = d.turnNo)
include hturn

theorem rankReplyEff_inTurn : rankReplyEff m d = (d.took m).rankAnswered m :=
  (if_neg (not_not_intro htype)).trans (if_neg (not_not_intro hturn))

end

section
variable {d : Device} {m : Msg}

theorem Device.rankAnswered_unawaited (hnone : d.rankAwaited m = none) : d.rankAnswered m = d.event F.FUR_EVENTS.RANK_LATE := by
  rw [Device.rankAnswered, hnone]

variable {x : Attend} (hx : d.rankAwaited m = some x)
include hx

theorem Device.rankAnswered_closed (hclosed : x.final = true ∨ x.heldOut = true ∨ d.attendRuns x = false) :
    d.rankAnswered m = d.event F.FUR_EVENTS.RANK_LATE := by
  rw [Device.rankAnswered, hx]
  exact if_pos (by simpa [or_assoc] using hclosed)

variable (hopen : x.final = false) (hin : x.heldOut = false) (hruns : d.attendRuns x = true)
include hopen hin hruns

theorem Device.rankAnswered_open :
    d.rankAnswered m =
      if m.num 15 1 ≤ 1 then d.takeRanking x (replyEntries m.data) (m.num 15 1 == 1) else d.fallBackPrevious x := by
  rw [Device.rankAnswered, hx]
  exact if_neg (by simp [hopen, hin, hruns])

theorem Device.rankAnswered_taken (hok : m.num 15 1 ≤ 1) :
    d.rankAnswered m = d.takeRanking x (replyEntries m.data) (m.num 15 1 == 1) :=
  (Device.rankAnswered_open hx hopen hin hruns).trans (if_pos hok)

theorem Device.rankAnswered_fallsBack (hfailed : 1 < m.num 15 1) : d.rankAnswered m = d.fallBackPrevious x :=
  (Device.rankAnswered_open hx hopen hin hruns).trans (if_neg (Nat.not_le.mpr hfailed))

end

/-! ### Cutoffs (R186) -/

section
variable {d : Device} {t : Nat} (hrunning : (d.at_ t).running = true) (hstarted : d.turn.started = true)
include hrunning hstarted

/-- In a started turn, a cutoff whose moment has come is due. -/
theorem Device.cutoff_due {f : Field} (hdue : d.turn.start + 1000 * d.fld f ≤ max d.now t) :
    (!(d.at_ t).running || !(d.at_ t).turn.started || decide ((d.at_ t).now < (d.at_ t).turn.start + 1000 * (d.at_ t).fld f)) = false := by
  have hnow : ¬ (d.at_ t).now < (d.at_ t).turn.start + 1000 * (d.at_ t).fld f := Nat.not_lt.mpr hdue
  have hturn : (d.at_ t).turn.started = true := hstarted
  rw [hrunning, hturn, decide_eq_false hnow]
  rfl

theorem rankCutEff_due (hdue : d.turn.start + 1000 * d.fld F.FUR_TIMING.RANK_CUT ≤ max d.now t) :
    rankCutEff t d =
      let c := d.fur.rankings.foldl (fun (d : Device) r => d.cutRanking r) (d.at_ t)
      c.fur.attend.foldl (fun (d : Device) x => if d.attendRuns x then d.cutSelection x else d) c :=
  if_neg (ne_true_of_eq_false (Device.cutoff_due hrunning hstarted hdue))

end

/-- The device once a list has been cut: the pages of it that are absent count as missing. -/
def Device.listCut (d : Device) (x : Attend) : Device :=
  { d.setAttend { x with cut := true } with
    fur.missing := ((d.absentPages x).map fun p => x.desc * 65536 + p).foldl
      (fun (acc : List Nat) k => if acc.contains k then acc else k :: acc) d.fur.missing }

/-- The device once a fetch cutoff has passed over an entry: the absent pages turn missing in the list of one that runs. -/
def Device.fetchesCut (d : Device) (x : Attend) : Device :=
  let y := { x with cut := true }
  let c := d.listCut x
  if c.attendRuns y then c.loseListed y ((d.absentPages x).filter fun p =>
    (List.range (streams (c.furrow x.desc))).any fun t => !y.lost.contains (seqPage (c.furrow x.desc) t p)) else c

/-- The fetch cutoff at an entry's area: a list that is cut already or held out is left as it is. -/
def Device.fetchCutAt (d : Device) (x : Attend) : Device :=
  match d.attendOf x.slot x.draft with
  | none => d
  | some x => if x.cut || x.heldOut then d else d.fetchesCut x

theorem fetchCutEff_due {d : Device} {t : Nat} (hrunning : (d.at_ t).running = true) (hstarted : d.turn.started = true)
    (hdue : d.turn.start + 1000 * d.fld F.FUR_TIMING.FETCH_CUT ≤ max d.now t) :
    fetchCutEff t d = (d.at_ t).fur.attend.foldl (fun (d : Device) x => d.fetchCutAt x) (d.at_ t) :=
  if_neg (ne_true_of_eq_false (Device.cutoff_due hrunning hstarted hdue))

/-- Where one entry alone attends, the fetch cutoff cuts its list. -/
theorem Device.foldl_fetchCutAt_single {d : Device} {x : Attend} (hx : d.fur.attend = [x]) (hcut : x.cut = false) (hin : x.heldOut = false) :
    d.fur.attend.foldl (fun (d : Device) x => d.fetchCutAt x) d = d.fetchesCut x := by
  have hfound : d.attendOf x.slot x.draft = some x := by
    rw [Device.attendOf, hx]
    exact List.find?_cons_of_pos (by simp)
  rw [hx, List.foldl_cons, List.foldl_nil, Device.fetchCutAt, hfound]
  dsimp only
  rw [hcut, hin]
  rfl

/-! ### The commands -/

/-- Settles O37: the posts of a running entry, the end of a ranking, a request and a reply by what each meets first, and the two cutoffs. -/
theorem rankingsAndCutoffs : Obligations.RankingsAndCutoffs := by
  refine fun s hs => ⟨fun slot draft x hx hopen hin hruns => ⟨?reservoir, ?remote, ?index⟩,
    fun id r hr => hs.act_eq (reservoirMergeEff_fenced hr),
    fun m => ⟨?requestLate, fun htype hturn => ⟨?notOwned, fun i f hfurrow => ⟨?unscored, ?ungranted, ?granted⟩⟩,
      ?replyLate, fun htype hturn => ⟨?unawaited, fun x hx => ⟨?closed, fun hopen hin hruns => ⟨?taken, ?fallsBack⟩⟩⟩⟩,
    fun t hrunning hstarted => ⟨?rankCut, ?fetchCut⟩⟩
  case reservoir => exact fun hfirst hmode hpost => hs.act_eq (queryPostEff_reservoir hx hopen hin hruns hfirst hpost hmode)
  case remote => exact fun hfirst hmode hpost => hs.act_eq (queryPostEff_remote hx hopen hin hruns hfirst hpost hmode)
  case index => exact fun hmode hpost => hs.act_eq (selectionPostEff_index hx hopen hin hruns hmode hpost)
  case requestLate => exact fun htype hturn => hs.act_eq (rankRequestEff_otherTurn htype hturn)
  case notOwned => exact fun hnone => hs.act_eq ((rankRequestEff_inTurn htype hturn).trans (Device.rankServed_notOwned hnone))
  case unscored => exact fun hbad => hs.act_eq ((rankRequestEff_inTurn htype hturn).trans (Device.rankServed_unscored hfurrow hbad))
  case ungranted =>
    exact fun hscored hnone => hs.act_eq ((rankRequestEff_inTurn htype hturn).trans (Device.rankServed_ungranted hfurrow hscored hnone))
  case granted =>
    exact fun a hscored hgrant => hs.act_eq ((rankRequestEff_inTurn htype hturn).trans (Device.rankServed_granted hfurrow hscored hgrant))
  case replyLate => exact fun htype hturn => hs.act_eq (rankReplyEff_otherTurn htype hturn)
  case unawaited => exact fun hnone => hs.act_eq ((rankReplyEff_inTurn htype hturn).trans (Device.rankAnswered_unawaited hnone))
  case closed => exact fun hclosed => hs.act_eq ((rankReplyEff_inTurn htype hturn).trans (Device.rankAnswered_closed hx hclosed))
  case taken =>
    exact fun hok => hs.act_eq ((rankReplyEff_inTurn htype hturn).trans (Device.rankAnswered_taken hx hopen hin hruns hok))
  case fallsBack =>
    exact fun hfailed => hs.act_eq ((rankReplyEff_inTurn htype hturn).trans (Device.rankAnswered_fallsBack hx hopen hin hruns hfailed))
  case rankCut => exact fun hdue => hs.act_eq (rankCutEff_due hrunning hstarted hdue)
  case fetchCut =>
    exact fun x hdue hx hcut hin =>
      hs.act_eq ((fetchCutEff_due hrunning hstarted hdue).trans (Device.foldl_fetchCutAt_single (d := s.dev.at_ t) hx hcut hin))

end Sys2Proof.Machine

/-! ## Requests to the samplers, and the copy of a prefill's tokens (R200, R201, R205 to R207, R228) -/

namespace Sys2Proof.Machine

/-! ### What leaves the furrows and the slots alone -/

/-- The furrow unit and the slots. -/
def Device.sequences (d : Device) : FurState × GenState := (d.fur, d.gen)

theorem Device.furById_of_sequences {d e : Device} (h : e.sequences = d.sequences) (id : Nat) : e.furById id = d.furById id := by
  unfold Device.furById
  rw [show e.fur = d.fur from congrArg Prod.fst h]

theorem Device.slot_of_sequences {d e : Device} (h : e.sequences = d.sequences) (i : Nat) : e.slot i = d.slot i := by
  unfold Device.slot
  rw [show e.gen = d.gen from congrArg Prod.snd h]

@[simp] theorem Device.sequences_setFld (d : Device) (f : Field) (v i : Nat) : (d.setFld f v i).sequences = d.sequences := rfl

@[simp] theorem Device.sequences_event (d : Device) (f : Field) : (d.event f).sequences = d.sequences := rfl

@[simp] theorem Device.sequences_count (d : Device) (f : Field) (n i : Nat) : (d.count f n i).sequences = d.sequences := by
  unfold Device.count; split <;> rfl

@[simp] theorem Device.sequences_store (d : Device) (a : Nat) (bs : List Byte) : (d.store a bs).sequences = d.sequences := by
  unfold Device.store; split <;> rfl

@[simp] theorem Device.sequences_storeVal (d : Device) (a n v : Nat) : (d.storeVal a n v).sequences = d.sequences := d.sequences_store _ _

@[simp] theorem Device.sequences_mirror (d : Device) (a : Nat) (bs : List Byte) : (d.mirror a bs).sequences = d.sequences := by
  unfold Device.mirror; split
  · exact d.sequences_store _ _
  · rfl

@[simp] theorem Device.sequences_hostWrite (d : Device) (fn : Fn) (a : Nat) (bs : List Byte) : (d.hostWrite fn a bs).sequences = d.sequences := by
  unfold Device.hostWrite; split <;> rfl

@[simp] theorem Device.sequences_signal (d : Device) (v : Nat) : (d.signal v).sequences = d.sequences := by
  unfold Device.signal Device.msix
  split
  · split <;> rfl
  · rfl

@[simp] theorem Device.sequences_errRing (d : Device) (bs : List Byte) : (d.errRing bs).sequences = d.sequences := by
  unfold Device.errRing
  dsimp only
  split
  · rfl
  · split
    · rfl
    · split
      · rfl
      · simp

@[simp] theorem Device.sequences_record (d : Device) (r : ErrRec) (sealFailed : Bool) : (d.record r sealFailed).sequences = d.sequences := by
  unfold Device.record
  split
  · rfl
  · have hstored : ∀ e : Device, ({ e.bumpErr r with err.seq := e.err.seq + 1 } : Device).sequences = e.sequences := fun _ => rfl
    simp only [Device.sequences_errRing, Device.sequences_event]
    exact (hstored _).trans (by simp)

@[simp] theorem Device.sequences_failUncorrectable (d : Device) : d.failUncorrectable.sequences = d.sequences := by
  unfold Device.failUncorrectable
  split
  · rfl
  · split <;> rfl

/-- An uncorrectable error whose record names no slot leaves every slot. -/
theorem Device.sequences_uncorrectable (d : Device) {r : ErrRec} (h : ¬r.slot < 4096) : (d.uncorrectable r).sequences = d.sequences := by
  unfold Device.uncorrectable
  simp [h]

@[simp] theorem Device.sequences_scrBad (d : Device) (h block : Nat) : (d.scrBad h block).sequences = d.sequences :=
  Device.sequences_uncorrectable _ (show ¬0xFFFF < 4096 by decide)

@[simp] theorem Device.sequences_scrListTouch (d : Device) (w : ScreenW) (ts : List Nat) : (d.scrListTouch w ts).sequences = d.sequences := by
  unfold Device.scrListTouch; split <;> rfl

@[simp] theorem Device.sequences_writeMaskRec (d : Device) (slot k pos : Nat) (w : ScreenW) :
    (d.writeMaskRec slot k pos w).sequences = d.sequences := by
  unfold Device.writeMaskRec
  split
  · rfl
  · dsimp only
    rw [Device.sequences_store]
    split
    · rfl
    · exact d.sequences_scrListTouch _ _

/-! ### A slot after its own writes -/

@[simp] theorem Device.slot_setSlot_same (d : Device) (i : Nat) (x : Slot) : (d.setSlot i x).slot i = x :=
  (Device.slot_of_sequences (Device.sequences_mirror _ _ _) i).trans (sget_sput_same _ _ _)

/-- POST returns to idle, and nothing else of the slot changes. -/
@[simp] theorem Device.slot_postIdle_same (d : Device) (i : Nat) : (d.postIdle i).slot i = { d.slot i with post := [] } := by
  have hstored : (d.storeVal (d.slotAddr i + 224) 1 0).slot i = d.slot i := Device.slot_of_sequences (d.sequences_storeVal _ _ _) i
  exact (sget_sput_same _ _ _).trans (by rw [hstored])

/-- A served request leaves SEQ in DONE_SEQ and no request (R201). -/
@[simp] theorem Device.slot_served_same (d : Device) (i : Nat) :
    (d.served i).slot i = { d.slot i with ts := { (d.slot i).ts with doneSeq := d.postFld i 225 1 }, post := [] } := by
  simp [Device.served, Device.modTs]

/-! ### The reads of a request (R228) -/

/-- What a step of the screen engine does counts on the devices alone on which its reads leave it, and none of them differs in a furrow
or a slot. -/
theorem Device.screenRead_congr {d : Device} {f g : Device → Device} (h : ∀ e : Device, e.sequences = d.sequences → f e = g e)
    (parity bad : Nat) : d.screenRead parity bad f = d.screenRead parity bad g := by
  have hread : f { d with scr.read := [] } = g { d with scr.read := [] } := h _ rfl
  unfold Device.screenRead
  rw [h d rfl, h _ (d.sequences_count _ _ _), h _ (d.sequences_scrBad _ _), hread]

/-- Reads that pass at once leave what the step does. -/
theorem Device.screenRead_passed (d : Device) (bad : Nat) (f : Device → Device) :
    (if 0 = 0 then d else d.count F.ERR_COUNTS.REPLAYED).screenRead 0 bad f = f d := rfl

/-- The device on which a request's candidate lists have failed their last replay: the record, and no request. -/
def Device.listsLost (d : Device) (slot : Nat) : Device :=
  (d.uncorrectable
    { cause := 1, severity := 2, replays := 3, persistent := true, unitKind := 11, owner := d.slotOwner slot, jst := (d.slot slot).img.jst,
      slot := slot, address := d.postFld slot 232 6 }).postIdle slot

section
variable {d : Device} {slot lists : Nat} (table bad : Nat)

theorem Device.samplerReads_fails (hlists : 3 < lists) (f : Device → Device) : d.samplerReads slot lists table bad f = d.listsLost slot :=
  if_pos hlists

theorem Device.samplerReads_passes (hlists : lists ≤ 3) {f g : Device → Device} (h : ∀ e : Device, e.sequences = d.sequences → f e = g e) :
    d.samplerReads slot lists table bad f =
      (if lists = 0 then d else d.count F.ERR_COUNTS.REPLAYED).screenRead table bad g := by
  have hsame : (if lists = 0 then d else d.count F.ERR_COUNTS.REPLAYED).sequences = d.sequences := by split <;> simp
  exact (if_neg (Nat.not_lt.mpr hlists)).trans (Device.screenRead_congr (fun e he => h e (he.trans hsame)) _ _)

/-! ### What each request does -/

variable {a : Admitted} {k : Nat}

/-- A TARGET that samples: its entry is a DECODE, or a PREFILL of a final chunk. -/
theorem target_samples (hok : d.requestOk slot = true) (hfinal : a.e.kind = 2 → (d.slot slot).ts.finalChunk = true) :
    ¬(!d.requestOk slot || (a.e.kind == 2 && !(d.slot slot).ts.finalChunk)) = true := by
  by_cases hkind : a.e.kind = 2
  · simp [hok, hfinal hkind]
  · simp [hok, hkind]

theorem targetEff_refused (hposted : d.posted slot 1 [1, 2] = some a)
    (hbad : d.requestOk slot = false ∨ (a.e.kind = 2 ∧ (d.slot slot).ts.finalChunk = false)) :
    targetEff slot lists table bad d = d.postIdle slot := by
  rw [targetEff, hposted]
  exact if_pos (by rcases hbad with hbad | ⟨hkind, hchunk⟩ <;> simp [*])

theorem targetEff_fails (hposted : d.posted slot 1 [1, 2] = some a) (hok : d.requestOk slot = true)
    (hfinal : a.e.kind = 2 → (d.slot slot).ts.finalChunk = true) (hlists : 3 < lists) :
    targetEff slot lists table bad d = d.listsLost slot := by
  rw [targetEff, hposted]
  exact (if_neg (target_samples hok hfinal)).trans (Device.samplerReads_fails _ _ hlists _)

theorem targetEff_serves (hposted : d.posted slot 1 [1, 2] = some a) (hok : d.requestOk slot = true)
    (hfinal : a.e.kind = 2 → (d.slot slot).ts.finalChunk = true) (hfurrow : d.furById (d.slot slot).img.furrow = some k) (hlists : lists ≤ 3) :
    targetEff slot lists table bad d =
      (if lists = 0 then d else d.count F.ERR_COUNTS.REPLAYED).screenRead table bad fun e => (e.verdict slot a (d.furrow k)).served slot := by
  rw [targetEff, hposted]
  refine (if_neg (target_samples hok hfinal)).trans (Device.samplerReads_passes _ _ hlists fun e he => ?_)
  rw [Device.slot_of_sequences he, Device.furById_of_sequences he, hfurrow, ← Device.furrow_congr (congrArg Prod.fst he)]

theorem draftStepEff_fails (hposted : d.posted slot 2 [5] = some a) (hok : d.requestOk slot = true) (hlists : 3 < lists) :
    draftStepEff slot lists table bad d = d.listsLost slot := by
  rw [draftStepEff, hposted]
  exact (if_neg (by simp [hok])).trans (Device.samplerReads_fails _ _ hlists _)

theorem draftStepEff_serves (hposted : d.posted slot 2 [5] = some a) (hok : d.requestOk slot = true)
    (hfurrow : d.furById (d.slot slot).img.furrow = some k) (hlists : lists ≤ 3) :
    draftStepEff slot lists table bad d =
      (if lists = 0 then d else d.count F.ERR_COUNTS.REPLAYED).screenRead table bad fun e => e.draftStep slot (d.furrow k) := by
  rw [draftStepEff, hposted]
  refine (if_neg (by simp [hok])).trans (Device.samplerReads_passes _ _ hlists fun e he => ?_)
  rw [Device.slot_of_sequences he, Device.furById_of_sequences he, hfurrow, ← Device.furrow_congr (congrArg Prod.fst he)]

theorem headsEff_again (hposted : d.posted slot 3 [1, 2] = some a) (hdone : (d.slot slot).headsDone = true) :
    headsEff slot lists table bad d = d.postIdle slot := by
  rw [headsEff, hposted]
  exact if_pos (by simp [hdone])

section
variable (hposted : d.posted slot 3 [1, 2] = some a) (hok : d.requestOk slot = true) (hexpress : (d.slot slot).img.cls = 1)
  (hverdict : (d.slot slot).ts.verdict = true) (hnew : (d.slot slot).headsDone = false)
include hposted hok hexpress hverdict hnew

theorem headsEff_fails (hlists : 3 < lists) : headsEff slot lists table bad d = d.listsLost slot := by
  rw [headsEff, hposted]
  exact (if_neg (by simp [hok, hexpress, hverdict, hnew])).trans (Device.samplerReads_fails _ _ hlists _)

theorem headsEff_serves (hfurrow : d.furById (d.slot slot).img.furrow = some k) (hlists : lists ≤ 3) :
    headsEff slot lists table bad d =
      (if lists = 0 then d else d.count F.ERR_COUNTS.REPLAYED).screenRead table bad fun e => e.heads slot a (d.furrow k) := by
  rw [headsEff, hposted]
  refine (if_neg (by simp [hok, hexpress, hverdict, hnew])).trans (Device.samplerReads_passes _ _ hlists fun e he => ?_)
  rw [Device.furById_of_sequences he, hfurrow, ← Device.furrow_congr (congrArg Prod.fst he)]

end
end

/-! ### What serving leaves of the slot -/

section
variable (d : Device) (slot : Nat) (f : Furrow)

theorem Device.verdict_served (a : Admitted) : (((d.verdict slot a f).served slot).slot slot).ts.verdict = true := by
  simp [Device.verdict]

theorem Device.post_served : ((d.served slot).slot slot).post = [] := by
  simp

theorem Device.headsDone_heads (a : Admitted) : ((d.heads slot a f).slot slot).headsDone = true := by
  simp [Device.heads]

/-- The working state that a draft's next list is sampled under (R206). -/
def Slot.draftScreen (x : Slot) : ScreenW := x.screenDraft.getD (screenOf x.img)

/-- The sample of a draft's next list (R206). -/
def Device.draftSample : Option Nat :=
  (d.sample slot 0 (f.length + (d.slot slot).ts.proposed + 1) (d.slot slot).draftScreen).1

end

section
variable {d : Device} {slot : Nat} {f : Furrow}

theorem Device.draftStep_stands (h : (d.slot slot).draftOver = true ∨ 8 ≤ (d.slot slot).ts.proposed) : d.draftStep slot f = d.served slot :=
  if_pos h

variable (hopen : (d.slot slot).draftOver = false) (hroom : (d.slot slot).ts.proposed < 8)
include hopen hroom

theorem draft_grows : ¬((d.slot slot).draftOver = true ∨ (d.slot slot).ts.proposed ≥ 8) := by
  simp [hopen, hroom]

/-- An EMPTY list ends the draft, with the tokens it has. -/
theorem Device.slot_draftStep_empty (hsample : d.draftSample slot f = none) :
    ((d.draftStep slot f).slot slot).ts.proposed = (d.slot slot).ts.proposed ∧ ((d.draftStep slot f).slot slot).draftOver = true := by
  unfold Device.draftSample Slot.draftScreen at hsample
  unfold Device.draftStep
  dsimp only
  rw [if_neg (draft_grows hopen hroom), hsample]
  simp

/-- A list that is not EMPTY gives the draft one token. -/
theorem Device.slot_draftStep_token {t : Nat} (hsample : d.draftSample slot f = some t) :
    ((d.draftStep slot f).slot slot).ts.proposed = (d.slot slot).ts.proposed + 1 ∧ ((d.draftStep slot f).slot slot).draftOver = false := by
  unfold Device.draftSample Slot.draftScreen at hsample
  unfold Device.draftStep
  dsimp only
  rw [if_neg (draft_grows hopen hroom), hsample]
  simp [Device.slot_of_sequences (Device.sequences_writeMaskRec _ _ _ _ _), hopen]

theorem Device.slot_draftStep :
    ((d.draftStep slot f).slot slot).ts.proposed = (d.slot slot).ts.proposed + b2n (d.draftSample slot f).isSome ∧
      ((d.draftStep slot f).slot slot).draftOver = (d.draftSample slot f).isNone := by
  cases hsample : d.draftSample slot f with
  | none => exact Device.slot_draftStep_empty hopen hroom hsample
  | some t => exact Device.slot_draftStep_token hopen hroom hsample

end

/-! ### Prefill staging (R200) -/

section
variable {d : Device} {slot : Nat} {x : Staging} (hx : d.gen.staging.find? (fun x => x.slot == slot) = some x)
include hx

theorem stagingDoneEff_staged (tokens : List Nat) :
    stagingDoneEff slot tokens true d =
      let xs := (if x.held then [(d.slot slot).img.pending] else []) ++ (tokens ++ List.replicate x.count 0).take x.count
      (({ d with gen.staging := d.gen.staging.erase x } : Device).store x.addr (xs.flatMap fun t => leBytes 4 t)).modTs slot
        fun t => { t with staged := true, stageAddr := x.addr } := by
  rw [stagingDoneEff, hx]
  rfl

theorem stagingDoneEff_failed (tokens : List Nat) : stagingDoneEff slot tokens false d = d.hostErr.stagingFailed x := by
  rw [stagingDoneEff, hx]
  rfl

end

/-! ### The commands -/

/-- Writes that land change no slot. -/
theorem State.slot_put (s : State) (d : Device) (i : Nat) : (s.put d).dev.slot i = d.slot i := rfl

theorem State.awake.exec_flumeInterruptTest {s : State} (hs : s.awake) (t : Nat) :
    exec (.flumeInterruptTest t) s = .next (s.put ((s.dev.at_ t).testFlumes (s.dev.flu.flumes.map (·.1)))) :=
  hs.act_eq (f := fun d => (d.at_ t).testFlumes (d.flu.flumes.map Prod.fst)) rfl

section
variable {s : State} (hs : s.awake) {slot : Nat} (hslot : slot < 4096) {d : Device}
include hs hslot

theorem State.awake.exec_samplerTarget {lists table bad : Nat} (hd : targetEff slot lists table bad s.dev = d) :
    exec (.samplerTarget slot lists table bad) s = .next (s.put d) :=
  hs.act_eq (by rw [Nat.mod_eq_of_lt hslot]; exact hd)

theorem State.awake.exec_draftStep {lists table bad : Nat} (hd : draftStepEff slot lists table bad s.dev = d) :
    exec (.draftStep slot lists table bad) s = .next (s.put d) :=
  hs.act_eq (by rw [Nat.mod_eq_of_lt hslot]; exact hd)

theorem State.awake.exec_samplerHeads {lists table bad : Nat} (hd : headsEff slot lists table bad s.dev = d) :
    exec (.samplerHeads slot lists table bad) s = .next (s.put d) :=
  hs.act_eq (by rw [Nat.mod_eq_of_lt hslot]; exact hd)

theorem State.awake.exec_prefillStagingDone {tokens : List Nat} {ok : Bool} (hd : stagingDoneEff slot tokens ok s.dev = d) :
    exec (.prefillStagingDone slot tokens ok) s = .next (s.put d) :=
  hs.act_eq (by rw [Nat.mod_eq_of_lt hslot]; exact hd)

end

/-- Settles O44: each request by whether it is served and whether its lists read, what serving leaves by the slot, and the two ends of a
staging copy. -/
theorem samplersServeRequests : Obligations.SamplersServeRequests := by
  refine fun s slot lists table bad hs hslot =>
    ⟨fun a k hposted hfurrow => ⟨?refused, fun hok hfinal => ⟨?lost, ?served, ?verdict⟩⟩,
      fun a k hposted hok hfurrow => ⟨?draftLost, ?draftServed, fun hlists htable => ⟨?draftStands, ?draftGrows⟩⟩,
      fun a k hposted hok hfurrow hexpress hverdict => ⟨?headsAgain, ?headsLost, ?headsServed, ?headsDone⟩,
      fun tokens x hx => ⟨hs.exec_prefillStagingDone hslot (stagingDoneEff_staged hx tokens),
        hs.exec_prefillStagingDone hslot (stagingDoneEff_failed hx tokens)⟩,
      fun t => hs.exec_flumeInterruptTest t⟩
  case refused => exact fun hbad => hs.exec_samplerTarget hslot (targetEff_refused _ _ hposted hbad)
  case lost => exact fun hlists => hs.exec_samplerTarget hslot (targetEff_fails _ _ hposted hok hfinal hlists)
  case served => exact fun hlists => hs.exec_samplerTarget hslot (targetEff_serves _ _ hposted hok hfinal hfurrow hlists)
  case verdict =>
    rintro rfl rfl
    have hserved := (targetEff_serves 0 bad hposted hok hfinal hfurrow (Nat.zero_le 3)).trans (Device.screenRead_passed _ _ _)
    refine ⟨_, hs.exec_samplerTarget hslot hserved, ?_⟩
    rw [State.slot_put]
    exact ⟨Device.verdict_served _ _ _ _, Device.post_served _ _⟩
  case draftLost => exact fun hlists => hs.exec_draftStep hslot (draftStepEff_fails _ _ hposted hok hlists)
  case draftServed => exact fun hlists => hs.exec_draftStep hslot (draftStepEff_serves _ _ hposted hok hfurrow hlists)
  case draftStands =>
    subst hlists htable
    have hserved := (draftStepEff_serves 0 bad hposted hok hfurrow (Nat.zero_le 3)).trans (Device.screenRead_passed _ _ _)
    exact fun hstands => hs.exec_draftStep hslot (hserved.trans (Device.draftStep_stands hstands))
  case draftGrows =>
    subst hlists htable
    have hserved := (draftStepEff_serves 0 bad hposted hok hfurrow (Nat.zero_le 3)).trans (Device.screenRead_passed _ _ _)
    intro hopen hroom r
    refine ⟨_, hs.exec_draftStep hslot hserved, ?_⟩
    rw [State.slot_put]
    exact Device.slot_draftStep hopen hroom
  case headsAgain => exact fun hdone => hs.exec_samplerHeads hslot (headsEff_again _ _ hposted hdone)
  case headsLost => exact fun hnew hlists => hs.exec_samplerHeads hslot (headsEff_fails _ _ hposted hok hexpress hverdict hnew hlists)
  case headsServed =>
    exact fun hnew hlists => hs.exec_samplerHeads hslot (headsEff_serves _ _ hposted hok hexpress hverdict hnew hfurrow hlists)
  case headsDone =>
    rintro hnew rfl rfl
    have hserved := (headsEff_serves 0 bad hposted hok hexpress hverdict hnew hfurrow (Nat.zero_le 3)).trans (Device.screenRead_passed _ _ _)
    refine ⟨_, hs.exec_samplerHeads hslot hserved, ?_⟩
    rw [State.slot_put]
    exact Device.headsDone_heads _ _ _ _

end Sys2Proof.Machine

/-! ## Slot commands (R194 to R197, R233)

A slot command at the head of a SLOT queue acts on the device with the boundary's own effects done and its entry taken, and its RESULT
ends it there (R356). What Table 8.6 says of each command is one equation of its effect for each RESULT. -/

namespace Sys2Proof.Machine

/-! ### A command at the head of a SLOT queue -/

/-- A command of its own opcode acts on the device with its entry taken, and ends with the RESULT that its effect answers. -/
theorem Device.slotCommand_front {d : Device} {q : Nat} (hboundary : d.atBoundary = true) (hfront : d.hqFront q 1 = true) {op : Nat}
    {cmd : List Byte} (hop : (SlotCmd.ofBytes cmd).opcode = op) {f : SlotCmd → Device → Device × Nat} {e : Device} {r : Nat}
    (hf : f (SlotCmd.ofBytes cmd) (d.taken q) = (e, r)) : d.slotCommand q op cmd f = d.slotEnds q e r := by
  have hready : ¬(!(d.atBoundary && d.hqFront q 1) || (SlotCmd.ofBytes cmd).opcode != op) = true := by simp [hboundary, hfront, hop]
  rw [Device.taken] at hf
  rw [Device.slotCommand, Device.slotEnds]
  dsimp only
  rw [if_neg hready, hf]

section
variable {s : State} {q : Nat} {cmd : List Byte} (h : s.slotFront q) {e : Device} {r : Nat}
include h

theorem State.slotFront.act_slotCommand {op : Nat} (hop : (SlotCmd.ofBytes cmd).opcode = op) {f : Device → SlotCmd → Device → Device × Nat}
    (hf : f s.dev (SlotCmd.ofBytes cmd) (s.dev.taken q) = (e, r)) :
    s.act (fun d => d.slotCommand (q % 256) op cmd (f d)) = .next (s.put (s.dev.slotEnds q e r)) := by
  obtain ⟨hs, hq, hboundary, hfront⟩ := h
  exact hs.act_eq (by rw [Nat.mod_eq_of_lt hq]; exact Device.slotCommand_front hboundary hfront hop hf)

/-- Time that passes with a command leaves the head of the queue as it is. -/
theorem State.slotFront.act_slotCommand_at {op : Nat} (t : Nat) (hop : (SlotCmd.ofBytes cmd).opcode = op)
    {f : SlotCmd → Device → Device × Nat} (hf : f (SlotCmd.ofBytes cmd) ((s.dev.at_ t).taken q) = (e, r)) :
    s.act (fun d => (d.at_ t).slotCommand (q % 256) op cmd f) = .next (s.put ((s.dev.at_ t).slotEnds q e r)) := by
  obtain ⟨hs, hq, hboundary, hfront⟩ := h
  exact hs.act_eq (by rw [Nat.mod_eq_of_lt hq]; exact Device.slotCommand_front (d := s.dev.at_ t) hboundary hfront hop hf)

/-- The port through which the ring of a command's queue was set up is that of the queue's own number. -/
theorem State.slotFront.port_mod : (s.dev.ringFn .HQ_Q_BASE (q % 256)).port = (s.dev.ringFn .HQ_Q_BASE q).port := by
  obtain ⟨-, hq, -⟩ := h
  rw [Nat.mod_eq_of_lt hq]

theorem State.slotFront.exec_openSlot (hop : (SlotCmd.ofBytes cmd).opcode = 1) {image entry header : List Byte}
    (hf : openSlotEff (s.dev.ringFn .HQ_Q_BASE q).port image entry header (SlotCmd.ofBytes cmd) (s.dev.taken q) = (e, r)) :
    exec (.openSlot q cmd image entry header) s = .next (s.put (s.dev.slotEnds q e r)) :=
  h.act_slotCommand (f := fun d => openSlotEff (d.ringFn .HQ_Q_BASE (q % 256)).port image entry header) hop (by rw [h.port_mod]; exact hf)

theorem State.slotFront.exec_closeSlot (hop : (SlotCmd.ofBytes cmd).opcode = 2)
    (hf : closeSlotEff (SlotCmd.ofBytes cmd) (s.dev.taken q) = (e, r)) :
    exec (.closeSlot q cmd) s = .next (s.put (s.dev.slotEnds q e r)) :=
  h.act_slotCommand (f := fun _ => closeSlotEff) hop hf

theorem State.slotFront.exec_slotSet (hop : (SlotCmd.ofBytes cmd).opcode = 3) {image : List Byte}
    (hf : slotSetEff (s.dev.ringFn .HQ_Q_BASE q).port image (SlotCmd.ofBytes cmd) (s.dev.taken q) = (e, r)) :
    exec (.slotSet q cmd image) s = .next (s.put (s.dev.slotEnds q e r)) :=
  h.act_slotCommand (f := fun d => slotSetEff (d.ringFn .HQ_Q_BASE (q % 256)).port image) hop (by rw [h.port_mod]; exact hf)

theorem State.slotFront.exec_slotRead (hop : (SlotCmd.ofBytes cmd).opcode = 4) {ok : Bool}
    (hf : slotReadEff (s.dev.ringFn .HQ_Q_BASE q).port ok (SlotCmd.ofBytes cmd) (s.dev.taken q) = (e, r)) :
    exec (.slotRead q cmd ok) s = .next (s.put (s.dev.slotEnds q e r)) := by
  have hdefined : ¬((SlotCmd.ofBytes cmd).opcode = 0 ∨ (SlotCmd.ofBytes cmd).opcode > 8) := by omega
  have harm : exec (.slotRead q cmd ok) s = execSlotRead q cmd ok s := rfl
  rw [harm, execSlotRead]
  simp only [if_neg hdefined]
  exact h.act_slotCommand (f := fun d => slotReadEff (d.ringFn .HQ_Q_BASE (q % 256)).port ok) hop (by rw [h.port_mod]; exact hf)

/-- A reserved OPCODE, of which SLOT_READ disposes, ends INVALID. -/
theorem State.slotFront.exec_slotRead_reserved (hop : (SlotCmd.ofBytes cmd).opcode = 0 ∨ 8 < (SlotCmd.ofBytes cmd).opcode) (ok : Bool) :
    exec (.slotRead q cmd ok) s = .next (s.put (s.dev.slotEnds q (s.dev.taken q) 3)) := by
  have harm : exec (.slotRead q cmd ok) s = execSlotRead q cmd ok s := rfl
  rw [harm, execSlotRead]
  simp only [if_pos (c := (SlotCmd.ofBytes cmd).opcode = 0 ∨ (SlotCmd.ofBytes cmd).opcode > 8) hop]
  exact h.act_slotCommand (f := fun _ _ d => (d, 3)) rfl rfl

theorem State.slotFront.exec_slotPause (t : Nat) (hop : (SlotCmd.ofBytes cmd).opcode = 5)
    (hf : slotPauseEff (SlotCmd.ofBytes cmd) ((s.dev.at_ t).taken q) = (e, r)) :
    exec (.slotPause t q cmd) s = .next (s.put ((s.dev.at_ t).slotEnds q e r)) :=
  h.act_slotCommand_at t hop hf

theorem State.slotFront.exec_slotResume (t : Nat) (hop : (SlotCmd.ofBytes cmd).opcode = 6)
    (hf : slotResumeEff (SlotCmd.ofBytes cmd) ((s.dev.at_ t).taken q) = (e, r)) :
    exec (.slotResume t q cmd) s = .next (s.put ((s.dev.at_ t).slotEnds q e r)) :=
  h.act_slotCommand_at t hop hf

theorem State.slotFront.exec_tokBuffer (hop : (SlotCmd.ofBytes cmd).opcode = 7)
    (hf : tokBufferEff (s.dev.ringFn .HQ_Q_BASE q).port (SlotCmd.ofBytes cmd) (s.dev.taken q) = (e, r)) :
    exec (.tokBuffer q cmd) s = .next (s.put (s.dev.slotEnds q e r)) :=
  h.act_slotCommand (f := fun d => tokBufferEff (d.ringFn .HQ_Q_BASE (q % 256)).port) hop (by rw [h.port_mod]; exact hf)

theorem State.slotFront.exec_bufferAdd (hop : (SlotCmd.ofBytes cmd).opcode = 8)
    (hf : bufferAddEff (SlotCmd.ofBytes cmd) (s.dev.taken q) = (e, r)) :
    exec (.bufferAdd q cmd) s = .next (s.put (s.dev.slotEnds q e r)) :=
  h.act_slotCommand (f := fun _ => bufferAddEff) hop hf

end

/-! ### OPEN (R194 to R196, R233) -/

/-- The device once a slot command's image has been asked of the host. -/
def Device.imageRead (d : Device) (port : Nat) (c : SlotCmd) : Device := d.emit (.hostRead ⟨port, 0⟩ c.addr 128)

/-- Another slot has the flume that an image names (R233). -/
def Device.flumeUsed (d : Device) (slot : Nat) (img : SlotImg) : Bool :=
  img.flume != 0xFFFF && (d.gen.slots.any fun x => x.1 != slot && x.2.img.state != 0 && x.2.img.flume == img.flume)

/-- The flume that an image names, read once one of that number that closes has gone; an image that names none has an empty one. -/
def Device.openFlume (d : Device) (slot port : Nat) (img : SlotImg) (entry header : List Byte) : Device × Option Flume :=
  let ready := if (d.flume img.flume).closing then d.flushFlumes else d
  if img.flume = 0xFFFF then (ready, some ({} : Flume)) else ready.readFlume slot port img.flume entry header

/-- An image that is ADMITTED is charged to its owner's headgate (R338). -/
def Device.openCharge (d : Device) (slot owner : Nat) (img : SlotImg) : Device × Bool :=
  if img.state = 1 then d.hgCharge F.HG_LEVEL.REQ F.HG_STATS.REQ_DROPS 1 owner slot img.jst 256 else (d, true)

/-- The device with a slot opened on an image, and its flume. -/
def Device.opened (d : Device) (slot port : Nat) (img : SlotImg) (fl : Flume) : Device :=
  let set := d.setSlot slot { img := img, port := port }
  if img.flume = 0xFFFF then set else set.setFlume img.flume fl

section
variable {d : Device} {port : Nat} {image : List Byte} (entry header : List Byte) {c : SlotCmd}

theorem openSlotEff_used (hused : d.slotState c.slot ≠ 0) : openSlotEff port image entry header c d = (d, 4) := if_pos hused

variable (hfree : d.slotState c.slot = 0)
include hfree

theorem openSlotEff_unread (hshort : image.length < 128) :
    openSlotEff port image entry header c d = ((d.imageRead port c).hostErr, 6) :=
  (if_neg (not_not_intro hfree)).trans (if_pos hshort)

variable (hread : 128 ≤ image.length)
include hread

theorem openSlotEff_notOwned (hnone : (d.imageRead port c).ownerOfId (SlotImg.ofBytes image).furrow = none) :
    openSlotEff port image entry header c d = (d.imageRead port c, 5) := by
  unfold Device.imageRead at hnone
  rw [openSlotEff]
  dsimp only
  rw [if_neg (not_not_intro hfree), if_neg (Nat.not_lt.mpr hread), hnone]
  rfl

variable {owner : Nat} (howner : (d.imageRead port c).ownerOfId (SlotImg.ofBytes image).furrow = some owner)
  (hdraft : (SlotImg.ofBytes image).cls = 2 → ((d.imageRead port c).ownerOfId (SlotImg.ofBytes image).draft).isSome = true)
include howner hdraft

/-- An image whose furrows are owned is examined: what comes of it by whether it is refused, its flume is VALID and its charge is paid. -/
theorem openSlotEff_owned :
    openSlotEff port image entry header c d =
      let img := SlotImg.ofBytes image
      let read := d.imageRead port c
      if read.imageInvalid c.slot img owner true || read.flumeUsed c.slot img then (read, 3)
      else
        let p := read.openFlume c.slot port img entry header
        let g := p.1.openCharge c.slot owner img
        match p.2 with
        | none => (p.1, 3)
        | some fl => if !g.2 then (g.1, 2) else (g.1.opened c.slot port img fl, 1) := by
  obtain ⟨x, hx⟩ : ∃ x, (if (SlotImg.ofBytes image).cls = 2 then (d.imageRead port c).ownerOfId (SlotImg.ofBytes image).draft
      else some 0) = some x := by
    split
    · next hcls => exact Option.isSome_iff_exists.mp (hdraft hcls)
    · exact ⟨0, rfl⟩
  unfold Device.imageRead at howner hx
  rw [openSlotEff]
  dsimp only
  rw [if_neg (not_not_intro hfree), if_neg (Nat.not_lt.mpr hread), howner, hx]
  dsimp only
  rfl

theorem openSlotEff_refused
    (hbad : (d.imageRead port c).imageInvalid c.slot (SlotImg.ofBytes image) owner true = true ∨
      (d.imageRead port c).flumeUsed c.slot (SlotImg.ofBytes image) = true) :
    openSlotEff port image entry header c d = (d.imageRead port c, 3) := by
  rw [openSlotEff_owned entry header hfree hread howner hdraft]
  exact if_pos (by simpa using hbad)

variable (hvalid : (d.imageRead port c).imageInvalid c.slot (SlotImg.ofBytes image) owner true = false)
  (hunused : (d.imageRead port c).flumeUsed c.slot (SlotImg.ofBytes image) = false)
include hvalid hunused

theorem openSlotEff_badFlume
    (hnone : ((d.imageRead port c).openFlume c.slot port (SlotImg.ofBytes image) entry header).2 = none) :
    openSlotEff port image entry header c d =
      (((d.imageRead port c).openFlume c.slot port (SlotImg.ofBytes image) entry header).1, 3) := by
  rw [openSlotEff_owned entry header hfree hread howner hdraft]
  dsimp only
  rw [if_neg (by simp [hvalid, hunused]), hnone]

variable {fl : Flume} (hflume : ((d.imageRead port c).openFlume c.slot port (SlotImg.ofBytes image) entry header).2 = some fl)
include hflume

theorem openSlotEff_charged :
    openSlotEff port image entry header c d =
      let g := ((d.imageRead port c).openFlume c.slot port (SlotImg.ofBytes image) entry header).1.openCharge c.slot owner (SlotImg.ofBytes image)
      if !g.2 then (g.1, 2) else (g.1.opened c.slot port (SlotImg.ofBytes image) fl, 1) := by
  rw [openSlotEff_owned entry header hfree hread howner hdraft]
  dsimp only
  rw [if_neg (by simp [hvalid, hunused]), hflume]

end

/-! ### CLOSE -/

section
variable {c : SlotCmd} {d : Device}

theorem closeSlotEff_open (hopen : d.slotState c.slot ∉ [3, 5, 6, 7]) : closeSlotEff c d = (d, 4) :=
  if_neg (by simpa using hopen)

variable (hover : d.slotState c.slot ∈ [3, 5, 6, 7])
include hover

theorem closeSlotEff_frees
    (hnone : (d.freeSlot c.slot).fur.desc.find? (fun x => x.2.state == 3 && x.2.id == (d.slot c.slot).img.furrow) = none) :
    closeSlotEff c d = (d.freeSlot c.slot, 1) := by
  rw [closeSlotEff]
  dsimp only
  rw [if_pos (by simpa using hover), hnone]

/-- A descriptor that a RELEASE left to the slot goes with it (R296). -/
theorem closeSlotEff_freesFurrow {n : Nat} {f : Furrow}
    (hkept : (d.freeSlot c.slot).fur.desc.find? (fun x => x.2.state == 3 && x.2.id == (d.slot c.slot).img.furrow) = some (n, f))
    (hquiet : ((d.freeSlot c.slot).fur.dying.contains n || (d.freeSlot c.slot).fur.destroying == some n) = false) :
    closeSlotEff c d = ((d.freeSlot c.slot).setFurrow n {}, 1) := by
  rw [closeSlotEff]
  dsimp only
  rw [if_pos (by simpa using hover), hkept]
  exact if_neg (ne_true_of_eq_false hquiet)

end

/-! ### SET -/

/-- The owner that a slot's new image is examined for: that of its furrow. -/
def Device.setOwner (d : Device) (slot : Nat) : Nat :=
  match d.furById (d.slot slot).img.furrow with
  | some n => (d.furrow n).owner
  | none => 0

/-- The device with the settings of a slot taken from an image (Table 8.6). -/
def Device.settingsTaken (d : Device) (slot : Nat) (img : SlotImg) : Device :=
  let old := (d.slot slot).img
  d.modImg slot fun m =>
    { m with temperature := img.temperature, topP := img.topP, topK := img.topK, end0 := img.end0, end1 := img.end1, outLimit := img.outLimit,
             ckptK := img.ckptK, ckptPhase := img.ckptPhase, screenTable := img.screenTable,
             screenState := if img.screenTable = old.screenTable ∨ img.screenTable = 0xFFFF then old.screenState
               else d.scrAt img.screenTable 20 4,
             handoff := img.handoff }

section
variable {port : Nat} {image : List Byte} {c : SlotCmd} {d : Device}

theorem slotSetEff_barred (hbarred : d.slotState c.slot ∉ [1, 2, 3] ∨ d.offering c.slot = true) : slotSetEff port image c d = (d, 4) :=
  if_pos (by simpa using hbarred)

section
variable (hstate : d.slotState c.slot ∈ [1, 2, 3]) (hkept : d.offering c.slot = false)
include hstate hkept

/-- A command whose slot takes settings reads the image and examines it. -/
theorem slotSetEff_reads :
    slotSetEff port image c d =
      if image.length < 128 then ((d.imageRead port c).hostErr, 6)
      else if (d.imageRead port c).imageInvalid c.slot (SlotImg.ofBytes image) (d.setOwner c.slot) false then (d.imageRead port c, 3)
      else ((d.imageRead port c).settingsTaken c.slot (SlotImg.ofBytes image), 1) :=
  if_neg (not_or.mpr ⟨not_not_intro (by simpa using hstate), ne_true_of_eq_false hkept⟩)

theorem slotSetEff_unread (hshort : image.length < 128) : slotSetEff port image c d = ((d.imageRead port c).hostErr, 6) :=
  (slotSetEff_reads hstate hkept).trans (if_pos hshort)

variable (hread : 128 ≤ image.length)
include hread

theorem slotSetEff_refused (hbad : (d.imageRead port c).imageInvalid c.slot (SlotImg.ofBytes image) (d.setOwner c.slot) false = true) :
    slotSetEff port image c d = (d.imageRead port c, 3) := by
  rw [slotSetEff_reads hstate hkept, if_neg (Nat.not_lt.mpr hread), if_pos hbad]

theorem slotSetEff_takes (hvalid : (d.imageRead port c).imageInvalid c.slot (SlotImg.ofBytes image) (d.setOwner c.slot) false = false) :
    slotSetEff port image c d = ((d.imageRead port c).settingsTaken c.slot (SlotImg.ofBytes image), 1) := by
  rw [slotSetEff_reads hstate hkept, if_neg (Nat.not_lt.mpr hread), if_neg (ne_true_of_eq_false hvalid)]

end

/-! ### PAUSE and RESUME -/

theorem slotPauseEff_active (hactive : d.slotState c.slot = 2) :
    slotPauseEff c d = ((d.moveSlot c.slot 3 0x0A).stateChanged c.slot, 1) := if_pos hactive

theorem slotPauseEff_other (hother : d.slotState c.slot ≠ 2) : slotPauseEff c d = (d, 4) := if_neg hother

theorem slotResumeEff_paused (hpaused : d.slotState c.slot = 3) (hkept : d.offering c.slot = false) :
    slotResumeEff c d = ((d.moveSlot c.slot 2 0).stateChanged c.slot, 1) := if_pos ⟨hpaused, hkept⟩

theorem slotResumeEff_other (hother : d.slotState c.slot ≠ 3 ∨ d.offering c.slot = true) : slotResumeEff c d = (d, 4) :=
  if_neg (by rcases hother with h | h <;> simp [h])

/-! ### BUFFER and BUFFER_ADD (R197) -/

theorem tokBufferEff_invalid (hbad : c.count = 0 ∨ 16777216 < c.count ∨ 65535 < c.handle) : tokBufferEff port c d = (d, 3) :=
  if_pos (by omega)

theorem tokBufferEff_registers (hcount : 0 < c.count) (hmax : c.count ≤ 16777216) (hhandle : c.handle ≤ 65535)
    (hidle : (d.turn.admitted.any fun a => a.e.kind == 2 && a.e.arg == c.handle && decide (a.state = .running)) = false) :
    tokBufferEff port c d = (d.setTokBuf c.handle { port := port, addr := c.addr, cap := c.count }, 1) :=
  (if_neg (by omega)).trans (if_neg (ne_true_of_eq_false hidle))

theorem bufferAddEff_fits (hroom : (d.tokBuf c.handle).written + c.count ≤ (d.tokBuf c.handle).cap) :
    bufferAddEff c d = (d.setTokBuf c.handle { d.tokBuf c.handle with written := (d.tokBuf c.handle).written + c.count }, 1) :=
  if_neg (Nat.not_lt.mpr hroom)

theorem bufferAddEff_overflows (hfull : (d.tokBuf c.handle).cap < (d.tokBuf c.handle).written + c.count) : bufferAddEff c d = (d, 3) :=
  if_pos hfull

end

/-! ### The commands -/

/-- Settles O43: each command at the head of its queue, by the RESULT that its effect answers. -/
theorem slotCommandsAnswer : Obligations.SlotCommandsAnswer := by
  refine fun s q cmd h => ⟨fun hop image entry header => ⟨?used, ?unread, fun hfree hread => ⟨?notOwned, fun owner howner hdraft =>
      ⟨?refused, fun hvalid hunused => ⟨?badFlume, fun fl hflume => ⟨?unpaid, ?opens⟩⟩⟩⟩⟩,
    fun hop => ⟨fun hover => ⟨?closesFurrow, ?closes⟩, ?notClosed⟩,
    fun hop image => ⟨?barred, fun hstate hkept => ⟨?setUnread, ?setRefused, ?sets⟩⟩,
    fun hop => ⟨h.exec_slotRead hop rfl, h.exec_slotRead hop rfl⟩,
    fun hop ok => h.exec_slotRead_reserved hop ok,
    fun hop => ⟨?registers, ?bufferInvalid⟩, fun hop => ⟨?adds, ?overflows⟩,
    fun t => ⟨fun hop => ⟨?pauses, ?notPaused⟩, fun hop => ⟨?resumes, ?notResumed⟩⟩⟩
  case used => exact fun hused => h.exec_openSlot hop (openSlotEff_used _ _ hused)
  case unread => exact fun hfree hshort => h.exec_openSlot hop (openSlotEff_unread _ _ hfree hshort)
  case notOwned => exact fun hnone => h.exec_openSlot hop (openSlotEff_notOwned _ _ hfree hread hnone)
  case refused => exact fun hbad => h.exec_openSlot hop (openSlotEff_refused _ _ hfree hread howner hdraft hbad)
  case badFlume => exact fun hnone => h.exec_openSlot hop (openSlotEff_badFlume _ _ hfree hread howner hdraft hvalid hunused hnone)
  case unpaid =>
    exact fun hunpaid => h.exec_openSlot hop
      ((openSlotEff_charged _ _ hfree hread howner hdraft hvalid hunused hflume).trans (if_pos (congrArg not hunpaid)))
  case opens =>
    exact fun hpaid => h.exec_openSlot hop
      ((openSlotEff_charged _ _ hfree hread howner hdraft hvalid hunused hflume).trans (if_neg (ne_true_of_eq_false (congrArg not hpaid))))
  case closesFurrow => exact fun n f hkept hquiet => h.exec_closeSlot hop (closeSlotEff_freesFurrow hover hkept hquiet)
  case closes => exact fun hnone => h.exec_closeSlot hop (closeSlotEff_frees hover hnone)
  case notClosed => exact fun hopen => h.exec_closeSlot hop (closeSlotEff_open hopen)
  case barred => exact fun hbarred => h.exec_slotSet hop (slotSetEff_barred hbarred)
  case setUnread => exact fun hshort => h.exec_slotSet hop (slotSetEff_unread hstate hkept hshort)
  case setRefused => exact fun hread hbad => h.exec_slotSet hop (slotSetEff_refused hstate hkept hread hbad)
  case sets => exact fun hread hvalid => h.exec_slotSet hop (slotSetEff_takes hstate hkept hread hvalid)
  case registers =>
    exact fun hcount hmax hhandle hidle => h.exec_tokBuffer hop (tokBufferEff_registers hcount hmax hhandle hidle)
  case bufferInvalid => exact fun hbad => h.exec_tokBuffer hop (tokBufferEff_invalid hbad)
  case adds => exact fun hroom => h.exec_bufferAdd hop (bufferAddEff_fits hroom)
  case overflows => exact fun hfull => h.exec_bufferAdd hop (bufferAddEff_overflows hfull)
  case pauses => exact fun hactive => h.exec_slotPause t hop (slotPauseEff_active hactive)
  case notPaused => exact fun hother => h.exec_slotPause t hop (slotPauseEff_other hother)
  case resumes => exact fun hpaused hkept => h.exec_slotResume t hop (slotResumeEff_paused hpaused hkept)
  case notResumed => exact fun hother => h.exec_slotResume t hop (slotResumeEff_other hother)

end Sys2Proof.Machine

/-! ## Screen tables (R225 to R228)

Each command of the screen engine by what it meets first, with the device that it leaves named once; what that device reads at the
handle's STATE and at SCR_CMD_STATUS is said of the operations that every command shares. -/

namespace Sys2Proof.Machine

/-! ### A handle's state, and the end and the beginning of a command -/

theorem Device.scrState_congr {d e : Device} (h : ∀ k < 1024, e.fld F.SCR_TABLE.STATE k = d.fld F.SCR_TABLE.STATE k) (k : Nat) :
    e.scrState k = d.scrState k := by
  unfold Device.scrState
  split
  · exact h k ‹_›
  · rfl

/-- A write to a field that shares no bit with STATE leaves every handle's state. -/
theorem Device.scrState_setFld (d : Device) {f : Field} (x : Nat) {i : Nat} (k : Nat) (hi : i < 0x10000)
    (hf : f.reg ≠ .SCR_TABLE ∨ 3 ≤ f.lo ∧ f.lo + f.w ≤ 64) : (d.setFld f x i).scrState k = d.scrState k := by
  refine Device.scrState_congr (fun k hk => ?_) k
  by_cases hr : f.reg = .SCR_TABLE
  · obtain ⟨hlo, h64⟩ := hf.resolve_left (not_not_intro hr)
    exact d.fld_setFld_apart x i k hr.symm h64 (.inr hlo)
  · exact d.fld_setFld_reg x i k (Ne.symm hr) hi (by omega)

theorem Device.scrState_setState (d : Device) {x k : Nat} (hx : x < 8) (hk : k < 1024) :
    (d.setFld F.SCR_TABLE.STATE x k).scrState k = x :=
  (if_pos hk).trans ((d.fld_setFld_same _ x k (by decide)).trans (Nat.mod_eq_of_lt hx))

theorem Device.scrState_event (d : Device) {f : Field} (k : Nat) (hf : f.reg ≠ .SCR_TABLE) : (d.event f).scrState k = d.scrState k :=
  d.scrState_setFld 1 k (by decide) (.inl hf)

@[simp] theorem Device.scrState_scrResult (d : Device) (h r k : Nat) : (d.scrResult h r).scrState k = d.scrState k := by
  unfold Device.scrResult
  iterate 3 rw [Device.scrState_setFld _ _ _ (by decide) (.inl (by decide))]

@[simp] theorem Device.scr_scrResult (d : Device) (h r : Nat) : (d.scrResult h r).scr = d.scr := rfl

theorem Device.result_scrResult (d : Device) (h : Nat) {r : Nat} (hr : r < 256) : (d.scrResult h r).fld F.SCR_CMD_STATUS.RESULT = r := by
  unfold Device.scrResult
  rw [Device.fld_setFld_apart _ _ _ _ (by rfl) (by decide) (.inl (by decide)), Device.fld_setFld_same _ _ _ _ (by decide)]
  exact Nat.mod_eq_of_lt hr

/-- The device with a command for a handle under way: HANDLE shows it, RESULT 0 and ACTIVE 1. -/
def Device.scrBegun (d : Device) (h : Nat) : Device :=
  ((d.setFld F.SCR_CMD_STATUS.HANDLE h).setFld F.SCR_CMD_STATUS.RESULT 0).setFld F.SCR_CMD_STATUS.ACTIVE 1

section
variable (d : Device) (h : Nat)

@[simp] theorem Device.scrState_scrBegun (k : Nat) : (d.scrBegun h).scrState k = d.scrState k := by
  unfold Device.scrBegun
  iterate 3 rw [Device.scrState_setFld _ _ _ (by decide) (.inl (by decide))]

@[simp] theorem Device.mem_scrBegun : (d.scrBegun h).mem = d.mem := rfl
@[simp] theorem Device.scr_scrBegun : (d.scrBegun h).scr = d.scr := rfl

theorem Device.active_scrBegun : (d.scrBegun h).fld F.SCR_CMD_STATUS.ACTIVE = 1 := by
  unfold Device.scrBegun
  exact Device.fld_setFld_same _ _ _ _ (by decide)

theorem Device.result_scrBegun : (d.scrBegun h).fld F.SCR_CMD_STATUS.RESULT = 0 := by
  unfold Device.scrBegun
  rw [Device.fld_setFld_apart _ _ _ _ (by rfl) (by decide) (.inl (by decide)), Device.fld_setFld_same _ _ _ _ (by decide)]
  rfl

variable {h} in
theorem Device.handle_scrBegun (hh : h < 1024) : (d.scrBegun h).fld F.SCR_CMD_STATUS.HANDLE = h := by
  unfold Device.scrBegun
  iterate 2 rw [Device.fld_setFld_apart _ _ _ _ (by rfl) (by decide) (.inl (by decide))]
  rw [Device.fld_setFld_same _ _ _ _ (by decide)]
  exact Nat.mod_eq_of_lt hh

theorem Device.framed_scrBegun : d.framed (d.scrBegun h) [.SCR_CMD_STATUS] :=
  Device.framed_setFld (Device.framed_setFld (Device.framed_setFld (d.framed_refl _) _ _ _ (by decide) (by decide))
    _ _ _ (by decide) (by decide)) _ _ _ (by decide) (by decide)

end

/-! ### LOAD (R225) -/

/-- The device when a LOAD has failed with a RESULT. -/
def Device.loadFails (d : Device) (h result : Nat) : Device := (d.scrResult h result).event F.SCR_EVENTS.LOAD_FAILED

/-- Where the headwater area has space for a table. -/
def Device.screenArea (d : Device) (n : Nat) : Option Nat :=
  firstFit (d.fld F.SCR_AREA.ADDR * 65536) (d.fld F.SCR_AREA.SIZE_MIB * 0x100000) 4096 n ((d.scr.tables.map (·.2)).map fun t => (t.hw, t.bytes))

/-- Where the reservoir area has space for a table. -/
def Device.screenResArea (d : Device) (n : Nat) : Option Nat :=
  firstFit (d.fld F.SCR_RES_AREA.ADDR * 65536) (d.fld F.SCR_RES_AREA.SIZE_MIB * 0x100000) 65536 n
    ((d.scr.tables.map (·.2)).map fun t => (t.res, t.bytes))

/-- The device once the read of a table's header has gone to the host. -/
def Device.headerRead (d : Device) : Device := d.emit (.hostRead (d.ringFn .SCR_CMD_ADDR) (d.fld F.SCR_CMD_ADDR.ADDR * 4096) 128)

/-- The LOAD that a header's read begins, with the places that it has been given. -/
def Device.loadOf (d : Device) (port h bytes : Nat) (header : List Byte) (a b : Nat) : ScrLoad :=
  { handle := h, hw := a, res := b, bytes := bytes, owner := (headerOwner header).1, port := port, addr := d.fld F.SCR_CMD_ADDR.ADDR * 4096 }

/-- The device with a LOAD under way and its handle FETCHING, before the copy of the image is issued. -/
def Device.loadTaken (d : Device) (l : ScrLoad) : Device :=
  let t : ScrTable := { hw := l.hw, res := l.res, bytes := l.bytes, owner := l.owner }
  let e := { d with scr.tables := sput {} d.scr.tables l.handle t, scr.load := some l, scr.fetchEnded := none }
  ((e.setFld F.SCR_TABLE.STATE 1 l.handle).ownCopy l.res l.bytes (mkOwner l.owner false)).scrBegun l.handle

/-- The descriptor that copies a LOAD's image from host memory (R247). -/
def ScrLoad.copy (l : ScrLoad) : Desc :=
  { opcode := 1, owner := l.owner, loc := l.res, remote := l.addr, remHost := true, length := l.bytes }

section
variable {d : Device} {h : Nat} (port bytes : Nat) (header : List Byte) (hL : d.part.isL = false)
  (hidle : d.on F.SCR_CMD_STATUS.ACTIVE = false)
include hL hidle

theorem screenLoadEff_used (hused : d.scrState h ≠ 0) : screenLoadEff port h bytes header d = d.loadFails h 6 := by
  rw [screenLoadEff, if_neg (by simp [hL, hidle]), if_pos hused, Device.loadFails]

variable (hfree : d.scrState h = 0)
include hfree

theorem screenLoadEff_size (hsize : bytes = 0 ∨ 0x4000000 < bytes) : screenLoadEff port h bytes header d = d.loadFails h 3 := by
  rw [screenLoadEff, if_neg (by simp [hL, hidle]), if_neg (not_not_intro hfree), if_pos hsize, Device.loadFails]

variable {bytes} (hpos : 0 < bytes) (hmax : bytes ≤ 0x4000000)
include hpos hmax

theorem screenLoadEff_noSpace (hnone : d.screenArea bytes = none ∨ d.screenResArea bytes = none) :
    screenLoadEff port h bytes header d = d.loadFails h 4 := by
  unfold Device.screenArea Device.screenResArea at hnone
  rw [screenLoadEff, if_neg (by simp [hL, hidle]), if_neg (not_not_intro hfree), if_neg (by omega)]
  dsimp only
  obtain ha | hb := hnone
  · rw [ha]
    rfl
  · rw [hb]
    generalize firstFit _ _ _ _ _ = place
    cases place <;> rfl

variable {a b : Nat} (ha : d.screenArea bytes = some a) (hb : d.screenResArea bytes = some b)
include ha hb

/-- A LOAD that has space reads the header, and fails or begins by whether the read brought it. -/
theorem screenLoadEff_placed :
    screenLoadEff port h bytes header d =
      if header.length < 128 then d.headerRead.hostErr.loadFails h 5
      else (d.headerRead.loadTaken (d.loadOf port h bytes header a b)).issue 1 (d.loadOf port h bytes header a b).copy (.screen h)
        (d.ringFn .SCR_CMD_ADDR) := by
  unfold Device.screenArea at ha
  unfold Device.screenResArea at hb
  rw [screenLoadEff, if_neg (by simp [hL, hidle]), if_neg (not_not_intro hfree), if_neg (by omega)]
  dsimp only
  rw [ha, hb]
  rfl

variable {header}

theorem screenLoadEff_unread (hshort : header.length < 128) :
    screenLoadEff port h bytes header d = d.headerRead.hostErr.loadFails h 5 :=
  (screenLoadEff_placed port header hL hidle hfree hpos hmax ha hb).trans (if_pos hshort)

theorem screenLoadEff_starts (hread : 128 ≤ header.length) :
    screenLoadEff port h bytes header d =
      (d.headerRead.loadTaken (d.loadOf port h bytes header a b)).issue 1 (d.loadOf port h bytes header a b).copy (.screen h)
        (d.ringFn .SCR_CMD_ADDR) :=
  (screenLoadEff_placed port header hL hidle hfree hpos hmax ha hb).trans (if_neg (Nat.not_lt.mpr hread))

end

/-- The engine's descriptor takes a context of engine 31, or waits for one: neither touches the engine's own state. -/
theorem Device.scr_issue_screen (d : Device) (die : Nat) (x : Desc) (h : Nat) (fn : Fn) : (d.issue die x (.screen h) fn).scr = d.scr := by
  unfold Device.issue Device.openCtx
  dsimp only
  cases d.freeCtx _ <;> rfl

theorem Device.fld_issue_screen (d : Device) (die : Nat) (x : Desc) (h : Nat) (fn : Fn) {g : Field} {j : Nat}
    (hg : g.reg ≠ .SLU_ENG_STATUS) (hj : j < 0x10000) : (d.issue die x (.screen h) fn).fld g j = d.fld g j := by
  unfold Device.issue Device.openCtx
  dsimp only
  cases d.freeCtx _ with
  | none => rfl
  | some c => exact Device.fld_setFld_reg _ _ _ _ hg (by decide : 31 < 0x10000) hj

theorem Device.scrState_issue_screen (d : Device) (die : Nat) (x : Desc) (h : Nat) (fn : Fn) (k : Nat) :
    (d.issue die x (.screen h) fn).scrState k = d.scrState k :=
  Device.scrState_congr (fun j _ => d.fld_issue_screen die x h fn (by decide) (by omega)) k

@[simp] theorem Device.scrState_ownCopy (d : Device) (a n e k : Nat) : (d.ownCopy a n e).scrState k = d.scrState k :=
  Device.scrState_congr (fun j _ => by rw [Device.ownCopy, Device.fld_of_mem5]) k

theorem Device.scrState_loadTaken (d : Device) {l : ScrLoad} (hh : l.handle < 1024) : (d.loadTaken l).scrState l.handle = 1 := by
  unfold Device.loadTaken
  dsimp only
  rw [Device.scrState_scrBegun, Device.scrState_ownCopy]
  exact Device.scrState_setState _ (by decide) hh

theorem Device.scr_loadTaken (d : Device) (l : ScrLoad) :
    (d.loadTaken l).scr = { d.scr with tables := sput {} d.scr.tables l.handle { hw := l.hw, res := l.res, bytes := l.bytes, owner := l.owner },
                                       load := some l, fetchEnded := none } := rfl

/-! ### RETIRE (R225) -/

section
variable {d : Device} {h : Nat}

section
variable (hL : d.part.isL = false) (hidle : d.on F.SCR_CMD_STATUS.ACTIVE = false)
include hL hidle

theorem screenRetireEff_notLoaded (hstate : d.scrState h < 2) : screenRetireEff h d = d.scrResult h 6 := by
  rw [screenRetireEff, if_neg (by simp [hL, hidle]), if_pos hstate]

theorem screenRetireEff_waits (hstate : 2 ≤ d.scrState h) : screenRetireEff h d = { d.scrBegun h with scr.retire := some h } := by
  rw [screenRetireEff, if_neg (by simp [hL, hidle]), if_neg (Nat.not_lt.mpr hstate)]
  rfl

end

variable (hretire : d.scr.retire = some h)
include hretire

theorem Device.retireNow_frees (husers : d.fld F.SCR_TABLE.USERS h = 0) :
    d.retireNow = (({ d with scr.retire := none } : Device).scrFree h).scrResult h 1 := by
  rw [Device.retireNow, hretire]
  exact if_neg (not_not_intro husers)

theorem Device.retireNow_busy (husers : d.fld F.SCR_TABLE.USERS h ≠ 0) :
    d.retireNow = ({ d with scr.retire := none } : Device).scrResult h 2 := by
  rw [Device.retireNow, hretire]
  exact if_pos husers

end

theorem Device.scrState_scrFree (d : Device) {h : Nat} (hh : h < 1024) : (d.scrFree h).scrState h = 0 := by
  unfold Device.scrFree
  rw [Device.scrState_setFld _ _ _ (by omega) (.inr (by decide))]
  exact (if_pos hh).trans (congrArg F.SCR_TABLE.STATE.get (Device.reg_setReg_same _ .SCR_TABLE h 0))

/-! ### The end of a LOAD (R226)

The engine's reads pass and are counted as the encoder's are: `Device.codingRead` is the device once one has passed (R113, R228). -/

/-- The device with a LOAD's table STAGED: its pieces, its blocks and its owner shown from the reservoir copy. -/
def Device.tableStaged (d : Device) (l : ScrLoad) : Device :=
  let h := l.handle
  let e := (({ d with scr.load := none, scr.fetchEnded := none } : Device).setFld F.SCR_TABLE.STATE 2 h).setFld F.SCR_TABLE.PIECES
    (ceilDiv l.bytes 0x100000) h
  let o := headerOwner (e.readMem l.res 128)
  (((e.setFld F.SCR_TABLE.DONE 0 h).setFld F.SCR_TABLE.BLOCKS (ceilDiv l.bytes 4096) h).setFld F.SCR_TABLE.OWNER o.1 h).setFld
    F.SCR_TABLE.SHARED (b2n o.2) h

theorem Device.loadEnds_staged {d : Device} {l : ScrLoad} (hload : d.scr.load = some l) :
    d.loadEnds 1 = ((d.tableStaged l).scrResult l.handle 1).event F.SCR_EVENTS.LOAD_DONE := by
  rw [Device.loadEnds, hload]
  rfl

theorem Device.scrState_tableStaged (d : Device) {l : ScrLoad} (hh : l.handle < 1024) : (d.tableStaged l).scrState l.handle = 2 := by
  unfold Device.tableStaged
  dsimp only
  iterate 5 rw [Device.scrState_setFld _ _ _ (by omega) (.inr (by decide))]
  exact Device.scrState_setState _ (by decide) hh

/-- A LOAD that ends with 1 leaves its handle STAGED and no LOAD under way. -/
theorem Device.loadEnds_staged_reads {d : Device} {l : ScrLoad} (hload : d.scr.load = some l) (hh : l.handle < 1024) :
    (d.loadEnds 1).scrState l.handle = 2 ∧ (d.loadEnds 1).fld F.SCR_CMD_STATUS.RESULT = 1 ∧ (d.loadEnds 1).scr.load = none := by
  rw [Device.loadEnds_staged hload]
  refine ⟨?_, ?_, rfl⟩
  · rw [Device.scrState_event _ _ (by decide), Device.scrState_scrResult, Device.scrState_tableStaged _ hh]
  · exact (Device.fld_setFld_reg _ _ _ _ (by decide) (by decide) (by decide)).trans (Device.result_scrResult _ _ (by decide))

/-- The record of a screen table's read that has failed its last replay: its handle and where in the table it failed (R228). -/
def tableUnread (owner h at_ : Nat) : ErrRec :=
  { cause := 7, severity := 2, replays := 3, persistent := true, unitKind := 4, owner := owner, detail := [(2, h), (4, at_)] }

@[simp] theorem Device.scr_codingRead (d : Device) (parity : Nat) : (d.codingRead parity).scr = d.scr := by
  unfold Device.codingRead Device.count
  split
  · rfl
  · split <;> rfl

section
variable {d : Device} {l : ScrLoad} {status : Nat} {parity : Nat} (hload : d.scr.load = some l)
include hload

theorem loadFetchDoneEff_failed (hended : d.scr.fetchEnded = some (l.handle, status)) (hstatus : status ≠ 0) :
    loadFetchDoneEff parity d = d.loadEnds 5 := by
  rw [loadFetchDoneEff, hload, hended]
  exact (if_neg (not_not_intro rfl)).trans (if_pos hstatus)

variable (hended : d.scr.fetchEnded = some (l.handle, 0))
include hended

theorem loadFetchDoneEff_unread (hparity : 3 < parity) :
    loadFetchDoneEff parity d = (d.uncorrectable (tableUnread l.owner l.handle 0)).loadEnds 3 := by
  rw [loadFetchDoneEff, hload, hended]
  exact (if_neg (not_not_intro rfl)).trans ((if_neg (not_not_intro rfl)).trans (if_pos hparity))

variable (hparity : parity ≤ 3)
include hparity

/-- A copy that has been read passes the checks of R226, or frees its handle. -/
theorem loadFetchDoneEff_checks :
    loadFetchDoneEff parity d =
      (d.codingRead parity).loadEnds
        (if (tableOk (d.readMem l.res l.bytes) l.bytes && (headerOwner (d.readMem l.res l.bytes)).1 == l.owner) = true then 1 else 3) := by
  rw [loadFetchDoneEff, hload, hended]
  exact (if_neg (not_not_intro rfl)).trans ((if_neg (not_not_intro rfl)).trans (if_neg (Nat.not_lt.mpr hparity)))

theorem loadFetchDoneEff_bad
    (hbad : tableOk (d.readMem l.res l.bytes) l.bytes = false ∨ (headerOwner (d.readMem l.res l.bytes)).1 ≠ l.owner) :
    loadFetchDoneEff parity d = (d.codingRead parity).loadEnds 3 := by
  rw [loadFetchDoneEff_checks hload hended hparity, if_neg]
  rcases hbad with h | h <;> simp [h]

theorem loadFetchDoneEff_good (hok : tableOk (d.readMem l.res l.bytes) l.bytes = true)
    (howner : (headerOwner (d.readMem l.res l.bytes)).1 = l.owner) : loadFetchDoneEff parity d = (d.codingRead parity).loadEnds 1 := by
  rw [loadFetchDoneEff_checks hload hended hparity, if_pos (by simp [hok, howner])]

end

/-! ### SCREEN_UPDATE (R227) -/

/-- The piece of a table that its next update copies. -/
def Device.updatePiece (d : Device) (h : Nat) : Nat := d.fld F.SCR_TABLE.DONE h + sget 0 d.scr.pieces h

/-- The bytes of a piece as the reservoir copy reads. -/
def Device.pieceRead (d : Device) (h piece : Nat) : List Byte := d.readMem ((d.scrTable h).res + piece * 0x100000) (d.pieceBytes h piece)

/-- The device once an update has placed a piece in headwater, with the pieces of its table that the turn has copied, and has finished. -/
def Device.pieceCopied (d : Device) (k h hw copied : Nat) (bs : List Byte) : Device :=
  let c := d.store hw bs
  ({ c with scr.pieces := sput 0 c.scr.pieces h copied } : Device).modAdmitted k fun a => { a with state := .finished, plotsLeft := 0 }

theorem Device.scr_store (d : Device) (a : Nat) (bs : List Byte) : (d.store a bs).scr = d.scr := by
  unfold Device.store
  split <;> rfl

theorem Device.mem_pieceCopied (d : Device) (k h hw copied : Nat) (bs : List Byte) : (d.pieceCopied k h hw copied bs).mem = d.mem :=
  d.mem_store hw bs

section
variable {d : Device} {k h : Nat} {parity : Nat} {a : Admitted} (hadmitted : d.admittedAt k = some a) (hkind : a.e.kind = 3)
  (hrunning : a.state = .running) (hhandle : a.e.arg % 1024 = h) (hstaged : d.scrState h = 2)
  (hmore : d.updatePiece h < d.fld F.SCR_TABLE.PIECES h)
include hadmitted hkind hrunning hhandle hstaged hmore

theorem screenUpdateEff_fails (hparity : 3 < parity) :
    screenUpdateEff k parity d = d.uncorrectable (tableUnread (d.fld F.SCR_TABLE.OWNER h) h (256 * d.updatePiece h)) := by
  subst hhandle
  unfold Device.updatePiece at hmore
  rw [screenUpdateEff, hadmitted]
  dsimp only
  rw [if_neg (by simp [hkind, hrunning, hstaged, hmore]), if_pos hparity]
  rfl

/-- An update whose read passes copies the piece as it reads once a replay has been counted. -/
theorem screenUpdateEff_copies (hparity : parity ≤ 3) :
    screenUpdateEff k parity d =
      (d.codingRead parity).pieceCopied k h ((d.scrTable h).hw + d.updatePiece h * 0x100000) (sget 0 d.scr.pieces h + 1)
        ((d.codingRead parity).pieceRead h (d.updatePiece h)) := by
  have htable : d.scrTable h = (d.codingRead parity).scrTable h := by rw [Device.scrTable, Device.scrTable, Device.scr_codingRead]
  have hpieces : d.scr.pieces = (((d.codingRead parity).store ((d.scrTable h).hw + d.updatePiece h * 0x100000)
      ((d.codingRead parity).pieceRead h (d.updatePiece h))).scr.pieces) := by
    rw [Device.scr_store, Device.scr_codingRead]
  rw [Device.pieceCopied, hpieces, htable]
  subst hhandle
  unfold Device.updatePiece at hmore
  rw [screenUpdateEff, hadmitted]
  dsimp only
  rw [if_neg (by simp [hkind, hrunning, hstaged, hmore]), if_neg (Nat.not_lt.mpr hparity)]
  rfl

end

/-! ### What an update copies once a replay has been counted

A unit of the reservoir copy that was written without a key reads as free bytes of the running count of draws (R120), and counting a replay
draws a free value where the count is full (log entry 12). -/

theorem Device.readMem_codingRead (d : Device) (parity : Nat)
    (hfree : ∀ a, Config.freeByte (d.codingRead parity).freeCount a = Config.freeByte d.freeCount a) (a n : Nat) :
    (d.codingRead parity).readMem a n = d.readMem a n := by
  unfold Device.codingRead at hfree ⊢
  split
  · rfl
  · next hreplayed =>
    rw [if_neg hreplayed] at hfree
    exact d.readMem_count 1 (by decide) (by decide) hfree a n

theorem Device.pieceRead_codingRead (d : Device) (parity : Nat)
    (hfree : ∀ a, Config.freeByte (d.codingRead parity).freeCount a = Config.freeByte d.freeCount a) (h piece : Nat) :
    (d.codingRead parity).pieceRead h piece = d.pieceRead h piece := by
  simp only [Device.pieceRead, Device.pieceBytes, Device.scrTable, Device.scr_codingRead, d.readMem_codingRead parity hfree]

/-- A read that passes at once, and one whose replay the count has room for, draw no free value. -/
theorem Device.freeCount_codingRead (d : Device) {parity : Nat} (hroom : parity = 0 ∨ d.fld F.ERR_COUNTS.REPLAYED + 1 < 2 ^ 32) :
    (d.codingRead parity).freeCount = d.freeCount := by
  unfold Device.codingRead
  split
  · rfl
  · next hreplayed => exact Device.freeCount_count _ (hroom.resolve_left hreplayed)

theorem Device.freeCount_codingRead_full (d : Device) {parity : Nat} (hreplayed : parity ≠ 0)
    (hfull : ¬d.fld F.ERR_COUNTS.REPLAYED + 1 < 2 ^ 32) : (d.codingRead parity).freeCount = d.freeCount + 1 := by
  rw [Device.codingRead, if_neg hreplayed]
  exact Device.freeCount_count_full _ hfull

/-! ### The scrub (R228) -/

/-- The device with a table's next block in turn for the scrub. -/
def Device.scrubMoved (d : Device) (h : Nat) : Device :=
  let block := sget 0 d.scr.scrubAt h
  let more := decide (block + 1 < d.fld F.SCR_TABLE.BLOCKS h)
  { d with scr.scrubAt := sput 0 d.scr.scrubAt h (if more then block + 1 else 0)
           scr.wrapped := if more then d.scr.wrapped else h :: d.scr.wrapped }

/-- The device with a block of a table noted as clean in this turn. -/
def Device.notedClean (d : Device) (h block : Nat) : Device :=
  { d with scr.clean := sput 0 d.scr.clean (h * 16384 + block) d.turnNo }

/-- The two copies of a block of a table agree. -/
def Device.copiesAgree (d : Device) (h block : Nat) : Prop :=
  let n := min 4096 ((d.scrTable h).bytes - 4096 * block)
  d.bytes ((d.scrTable h).hw + 4096 * block) n = d.readMem ((d.scrTable h).res + 4096 * block) n

theorem Device.scrubBlock_agrees {d : Device} {h block : Nat} (hagree : d.copiesAgree h block) :
    d.scrubBlock h block false false = d.notedClean h block := by
  unfold Device.copiesAgree at hagree
  unfold Device.scrubBlock Device.notedClean
  dsimp only at hagree ⊢
  rw [hagree]
  simp

theorem Device.scrubTable_agrees {d : Device} {h : Nat} {hwBad resBad : List Nat} (hhw : hwBad.contains h = false)
    (hres : resBad.contains h = false) (hagree : d.copiesAgree h (sget 0 d.scr.scrubAt h)) :
    d.scrubTable hwBad resBad h = (d.scrubMoved h).notedClean h (sget 0 d.scr.scrubAt h) := by
  rw [Device.scrubTable, hhw, hres]
  exact Device.scrubBlock_agrees (d := d.scrubMoved h) hagree

theorem Device.clean_scrubCycle (d : Device) : d.scrubCycle.scr.clean = d.scr.clean := by
  unfold Device.scrubCycle
  split <;> rfl

theorem Device.mem_scrubCycle (d : Device) : d.scrubCycle.mem = d.mem := by
  unfold Device.scrubCycle
  split <;> rfl

theorem Device.framed_scrubCycle {d e : Device} (h : d.framed e [.SCR_SCRUB]) : d.framed e.scrubCycle [.SCR_SCRUB] := by
  unfold Device.scrubCycle
  split
  · exact h
  · exact Device.framed_setFld (Device.framed_congr h rfl rfl rfl rfl) _ _ _ (by decide) (by decide)

theorem scrubTickEff_runs {d : Device} (at_ : Nat) (hwBad resBad : List Nat) (hinterval : d.fld F.SCR_SCRUB.INTERVAL ≠ 0) :
    scrubTickEff at_ hwBad resBad d = ((d.at_ at_).validTables.foldl (Device.scrubTable hwBad resBad) (d.at_ at_)).scrubCycle :=
  if_neg hinterval

theorem scrubTickEff_agrees {d : Device} (at_ : Nat) {hwBad resBad : List Nat} {h : Nat} (hinterval : d.fld F.SCR_SCRUB.INTERVAL ≠ 0)
    (hvalid : d.validTables = [h]) (hhw : hwBad.contains h = false) (hres : resBad.contains h = false)
    (hagree : d.copiesAgree h (sget 0 d.scr.scrubAt h)) :
    scrubTickEff at_ hwBad resBad d = (((d.at_ at_).scrubMoved h).notedClean h (sget 0 d.scr.scrubAt h)).scrubCycle := by
  have htables : (d.at_ at_).validTables = [h] := hvalid
  rw [scrubTickEff_runs at_ hwBad resBad hinterval, htables, List.foldl_cons, List.foldl_nil]
  exact congrArg Device.scrubCycle (Device.scrubTable_agrees (d := d.at_ at_) hhw hres hagree)

/-! ### The commands -/

theorem State.takes.exec_scrLoad {s : State} {port h bytes : Nat} (ht : s.takes port) (hh : h < 1024) (hbytes : bytes < 2 ^ 32)
    {header : List Byte} {d : Device} (hd : screenLoadEff port h bytes header s.dev = d) :
    exec (.scrLoad port h bytes header) s = .next (s.put d) := by
  refine (State.takes_put ht _ _).trans ?_
  rw [Nat.mod_eq_of_lt hh, Nat.mod_eq_of_lt hbytes, hd]

theorem State.takes.exec_scrRetire {s : State} {port h : Nat} (ht : s.takes port) (hh : h < 1024) {d : Device}
    (hd : screenRetireEff h s.dev = d) : exec (.scrRetire port h) s = .next (s.put d) := by
  refine (State.takes_put ht _ _).trans ?_
  rw [Nat.mod_eq_of_lt hh, hd]

theorem State.awake.exec_loadFetchDone {s : State} (hs : s.awake) {parity : Nat} {d : Device} (hd : loadFetchDoneEff parity s.dev = d) :
    exec (.loadFetchDone parity) s = .next (s.put d) := hs.act_eq hd

theorem State.awake.exec_screenUpdate {s : State} (hs : s.awake) {k parity : Nat} {d : Device} (hd : screenUpdateEff k parity s.dev = d) :
    exec (.screenUpdate k parity) s = .next (s.put d) := hs.act_eq hd

theorem State.awake.exec_scrubTick {s : State} (hs : s.awake) {at_ : Nat} {hwBad resBad : List Nat} {d : Device}
    (hd : scrubTickEff at_ hwBad resBad s.dev = d) : exec (.scrubTick at_ hwBad resBad) s = .next (s.put d) := hs.act_eq hd

@[simp] theorem State.put_scrState (s : State) (d : Device) (k : Nat) : (s.put d).dev.scrState k = d.scrState k := rfl

/-! ### What O46 rests on

Every clause of O46 but one holds by the lemmas above in every state. The update clause holds in every state in which the count of the
replay draws no free value (`State.awake.exec_screenUpdate_room`); in the others it compares the free bytes of two draws.
`Config.freeByte` is a constant without a body, so O46 is open: the first theorem derives it from free bytes that draws leave as they are,
so that it cannot be refuted, and the second derives from it that two free bytes of an address are the same, so that it cannot be proved. -/

section
variable {s : State} {k h parity : Nat} {a : Admitted} (hs : s.awake) (hadmitted : s.dev.admittedAt k = some a) (hkind : a.e.kind = 3)
  (hrunning : a.state = .running) (hhandle : a.e.arg % 1024 = h) (hstaged : s.dev.scrState h = 2)
  (hmore : s.dev.updatePiece h < s.dev.fld F.SCR_TABLE.PIECES h) (hparity : parity ≤ 3)
include hs hadmitted hkind hrunning hhandle hstaged hmore hparity

/-- The piece that an update copies is the one that the reservoir copy held before it. -/
theorem State.awake.exec_screenUpdate_before
    (hfree : ∀ a, Config.freeByte (s.dev.codingRead parity).freeCount a = Config.freeByte s.dev.freeCount a) :
    exec (.screenUpdate k parity) s =
      .next (s.put ((s.dev.codingRead parity).pieceCopied k h ((s.dev.scrTable h).hw + s.dev.updatePiece h * 0x100000)
        (sget 0 s.dev.scr.pieces h + 1) (s.dev.pieceRead h (s.dev.updatePiece h)))) := by
  rw [hs.exec_screenUpdate (screenUpdateEff_copies hadmitted hkind hrunning hhandle hstaged hmore hparity),
    s.dev.pieceRead_codingRead parity hfree]

/-- The update clause of O46, in every state but one with a full count of replays whose update a replay cures. -/
theorem State.awake.exec_screenUpdate_room (hroom : parity = 0 ∨ s.dev.fld F.ERR_COUNTS.REPLAYED + 1 < 2 ^ 32) :
    exec (.screenUpdate k parity) s =
      .next (s.put ((s.dev.codingRead parity).pieceCopied k h ((s.dev.scrTable h).hw + s.dev.updatePiece h * 0x100000)
        (sget 0 s.dev.scr.pieces h + 1) (s.dev.pieceRead h (s.dev.updatePiece h)))) :=
  hs.exec_screenUpdate_before hadmitted hkind hrunning hhandle hstaged hmore hparity fun a => by rw [s.dev.freeCount_codingRead hroom]

end

/-- O46 from free bytes that no draw changes. -/
theorem screenTablesLoadAndRetire_of_freeByte (hfree : ∀ n a, Config.freeByte (n + 1) a = Config.freeByte n a) :
    Obligations.ScreenTablesLoadAndRetire := by
  refine ⟨fun s port h bytes header ht hh hbytes hL hidle =>
      ⟨?used, ?size, fun hunused hpos hmax => ⟨?noSpace, fun a b ha hb => ⟨?unread, ?starts⟩⟩, ?notLoaded, ?waits⟩,
    fun d h hretire hh => ⟨?frees, ?busy⟩,
    fun s l status parity hs hload hended hh => ⟨?copyFailed, ?bad, ?good, ?copyUnread⟩,
    fun s k parity a hs hadmitted hkind hrunning hstaged hmore => ⟨?copies, ?pieceUnread⟩,
    fun s at_ hwBad resBad hs hinterval => ⟨?scrubs, ?agrees⟩⟩
  case used => exact fun hused => ht.exec_scrLoad hh hbytes (screenLoadEff_used port bytes header hL hidle hused)
  case size => exact fun hunused hsize => ht.exec_scrLoad hh hbytes (screenLoadEff_size port bytes header hL hidle hunused hsize)
  case noSpace =>
    exact fun hnone => ht.exec_scrLoad hh hbytes (screenLoadEff_noSpace port header hL hidle hunused hpos hmax hnone)
  case unread => exact fun hshort => ht.exec_scrLoad hh hbytes (screenLoadEff_unread port hL hidle hunused hpos hmax ha hb hshort)
  case starts =>
    intro hread
    refine ⟨_, ht.exec_scrLoad hh hbytes (screenLoadEff_starts port hL hidle hunused hpos hmax ha hb hread), ?_, beq_of_eq ?_, ?_, ?_⟩
    · rw [State.put_scrState, Device.scrState_issue_screen]
      exact Device.scrState_loadTaken _ hh
    · rw [State.put_fld, Device.fld_issue_screen _ _ _ _ _ (by decide) (by decide)]
      exact Device.active_scrBegun _ _
    · rw [Device.scrTable, State.put_scr, Device.scr_issue_screen, Device.scr_loadTaken]
      exact sget_sput_same _ _ _
    · rw [State.put_scr, Device.scr_issue_screen, Device.scr_loadTaken]
      rfl
  case notLoaded => exact fun hstate => ht.exec_scrRetire hh (screenRetireEff_notLoaded hL hidle hstate)
  case waits =>
    intro hstate
    refine ⟨_, ht.exec_scrRetire hh (screenRetireEff_waits hL hidle hstate), rfl, beq_of_eq ?_, ?_, ?_, ?_⟩
    · rw [State.put_fld, Device.fld_of_scr, Device.active_scrBegun]
    · rw [State.put_fld, Device.fld_of_scr, Device.handle_scrBegun _ hh]
    · rw [State.put_fld, Device.fld_of_scr, Device.result_scrBegun]
    · have hframed : s.dev.framed { s.dev.scrBegun h with scr.retire := some h } [.SCR_CMD_STATUS] :=
        Device.framed_congr (s.dev.framed_scrBegun h) rfl rfl rfl rfl
      exact State.framed_put hframed (s.dev.mem_scrBegun h)
  case frees =>
    intro husers
    rw [Device.retireNow_frees hretire husers, Device.scrState_scrResult]
    exact ⟨Device.scrState_scrFree _ hh, Device.result_scrResult _ _ (by decide)⟩
  case busy =>
    intro husers
    rw [Device.retireNow_busy hretire husers, Device.scrState_scrResult]
    exact ⟨rfl, Device.result_scrResult _ _ (by decide)⟩
  case copyFailed => exact fun hstatus => hs.exec_loadFetchDone (loadFetchDoneEff_failed hload hended hstatus)
  case bad =>
    rintro rfl hparity hbad
    exact hs.exec_loadFetchDone (loadFetchDoneEff_bad hload hended hparity hbad)
  case good =>
    rintro rfl hparity hok howner
    have hends := hs.exec_loadFetchDone (loadFetchDoneEff_good hload hended hparity hok howner)
    exact ⟨hends, _, hends, Device.loadEnds_staged_reads ((congrArg ScrState.load (s.dev.scr_codingRead parity)).trans hload) hh⟩
  case copyUnread =>
    rintro rfl hparity
    exact hs.exec_loadFetchDone (loadFetchDoneEff_unread hload hended hparity)
  case copies =>
    refine fun hparity => hs.exec_screenUpdate_before hadmitted hkind hrunning rfl hstaged hmore hparity fun a => ?_
    by_cases hroom : parity = 0 ∨ s.dev.fld F.ERR_COUNTS.REPLAYED + 1 < 2 ^ 32
    · rw [s.dev.freeCount_codingRead hroom]
    · obtain ⟨hreplayed, hfull⟩ := not_or.mp hroom
      rw [s.dev.freeCount_codingRead_full hreplayed hfull, hfree]
  case pieceUnread =>
    exact fun hparity => hs.exec_screenUpdate (screenUpdateEff_fails hadmitted hkind hrunning rfl hstaged hmore hparity)
  case scrubs => exact hs.exec_scrubTick (scrubTickEff_runs at_ hwBad resBad hinterval)
  case agrees =>
    intro h hvalid hhw hres x block n hagree
    have hclean : s.dev.framed (((s.dev.at_ at_).scrubMoved h).notedClean h block) [.SCR_SCRUB] :=
      Device.framed_congr (s.dev.framed_refl _) rfl rfl rfl rfl
    refine ⟨_, hs.exec_scrubTick (scrubTickEff_agrees at_ hinterval hvalid hhw hres hagree), ?_, ?_⟩
    · exact State.framed_put (Device.framed_scrubCycle hclean) (Device.mem_scrubCycle _)
    · rw [State.put_scr, Device.clean_scrubCycle]
      exact sget_sput_same _ _ _

namespace UnkeyedPiece

/-- An update entry of table 0. -/
def update : Admitted := { e := { plotMask := 0, kind := 3 }, index := 0, cost := 0, plotsLeft := 0 }
/-- A device whose table 0 is STAGED and has one byte; the unit of its reservoir copy was written without a key and reads as free bytes, and
the count of replays is full. -/
def device : Device :=
  let d : Device := { turn.admitted := [update], scr.tables := [(0, { hw := 0, res := UnkeyedRead.addr, bytes := 1 })],
                      mem5.unitKey := [((UnkeyedRead.addr - resvBase) / 64, 2)] }
  (((d.setFld F.PIM_CH_STATUS.SCORE_SIZE 1).setFld F.SCR_TABLE.STATE 2).setFld F.SCR_TABLE.PIECES 1).setFld F.ERR_COUNTS.REPLAYED (2 ^ 32 - 1)
/-- The state that holds it alone. -/
def state : State := { dev := device }

theorem readByte_device : device.readByte UnkeyedRead.addr = Config.freeByte 0 UnkeyedRead.addr :=
  Device.readByte_open (t := 2) (by decide) (by decide) (by decide) (by decide) (by decide)

theorem codingRead_device : device.codingRead 1 = device.count F.ERR_COUNTS.REPLAYED := rfl

theorem readByte_replayed : (device.codingRead 1).readByte UnkeyedRead.addr = Config.freeByte 1 UnkeyedRead.addr := by
  have hdrawn : (device.codingRead 1).freeCount = 1 := device.freeCount_codingRead_full (by decide) (by decide)
  have hkey : sget 0 (device.codingRead 1).mem5.unitKey ((UnkeyedRead.addr - resvBase) / 64) = 2 := by
    rw [codingRead_device, Device.mem5_count]
    decide
  have htag : (device.codingRead 1).unitTag UnkeyedRead.addr = 0 := by
    rw [codingRead_device, device.unitTag_count 1 (by decide) (by decide)]
    decide
  rw [Device.readByte_open (by decide) hkey (by decide) (by decide) htag, hdrawn]

/-- The state once the update has copied a byte. -/
def copied (x : Byte) : State := state.put ((device.codingRead 1).pieceCopied 0 0 0 1 [x])

theorem byte_copied (x : Byte) : (copied x).dev.byte 0 = x := by
  have hmem : ((device.codingRead 1).pieceCopied 0 0 0 1 [x]).mem = state.dev.mem :=
    (Device.mem_pieceCopied _ _ _ _ _ _).trans (device.mem_count F.ERR_COUNTS.REPLAYED 1 0)
  have hwr : (device.codingRead 1).wr = [] := device.wr_count F.ERR_COUNTS.REPLAYED 1 0
  have hwritten : writtenByte 0 ((device.codingRead 1).wr ++ [.put 0 [x]]) none = some x := by
    rw [hwr]
    rfl
  rw [copied, State.put_byte _ _ hmem]
  exact Device.byte_written hwritten

end UnkeyedPiece

/-- From O46, of which the update clause has the piece read as it stood before its replay was counted, two free bytes that are the same: the
device's count of replays is full, so counting one draws a free value. -/
theorem freeByte_of_screenTablesLoadAndRetire (h : Obligations.ScreenTablesLoadAndRetire) :
    Config.freeByte 1 UnkeyedRead.addr = Config.freeByte 0 UnkeyedRead.addr := by
  open UnkeyedPiece in
  obtain ⟨-, -, -, hupdates, -⟩ := h
  have hawake : state.awake := by decide
  have hstated : exec (.screenUpdate 0 1) state = .next (copied (device.readByte UnkeyedRead.addr)) :=
    (hupdates state 0 1 update hawake rfl rfl rfl (by decide) (by decide)).1 (by decide)
  have hread : exec (.screenUpdate 0 1) state = .next (copied ((device.codingRead 1).readByte UnkeyedRead.addr)) :=
    hawake.exec_screenUpdate (screenUpdateEff_copies (a := update) rfl rfl rfl rfl (by decide) (by decide) (by decide))
  have hsame : copied ((device.codingRead 1).readByte UnkeyedRead.addr) = copied (device.readByte UnkeyedRead.addr) :=
    Host.Outcome.next.inj (hread.symm.trans hstated)
  rw [← readByte_replayed, ← readByte_device, ← byte_copied ((device.codingRead 1).readByte _), hsame, byte_copied]

end Sys2Proof.Machine

/-! ## CANCEL doorbells (R240, R241, R242, R351) -/

namespace Sys2Proof.Machine

/-! ### A write that does not count -/

@[simp] theorem Device.gen_count (d : Device) (f : Field) (n i : Nat) : (d.count f n i).gen = d.gen := by
  unfold Device.count
  split <;> rfl

/-- A PF that does not hold: its write is dropped, whatever it names (R351). -/
theorem cancelEff_foreign {d : Device} {fn : Fn} (value : Nat) (aligned : Bool) (hopen : d.barClosed = false) (hvf : fn.vf = 0)
    (hholder : d.holder ≠ some fn.port) : cancelEff fn value aligned d = d.count F.HQ_STATS.FOREIGN := by
  rw [cancelEff, if_neg (Bool.eq_false_iff.mp hopen), if_pos ⟨hvf, hholder⟩]

/-- What may keep a cancel from counting (R240). -/
abbrev Device.cancelIgnored (d : Device) (fn : Fn) (value : Nat) (aligned : Bool) : Prop :=
  aligned = false ∨ (d.slot (cancelSlotNo value)).img.state = 0 ∨ (d.slot (cancelSlotNo value)).img.jst ≠ cancelJst value ∨
    d.mayCancel (cancelSlotNo value) fn = false

/-- A cancel that does not count is counted itself: as foreign, as ignored, or as ignored by the doorbell too (R348, R351, R359). -/
theorem cancelEff_ignored {d : Device} {fn : Fn} {value : Nat} {aligned : Bool} (hopen : d.barClosed = false)
    (hignored : d.cancelIgnored fn value aligned) :
    cancelEff fn value aligned d = d.count F.HQ_STATS.FOREIGN ∨
      cancelEff fn value aligned d = (d.count F.HQ_STATS.CANCEL_IGNORED).count F.HQ_STATS.DOORBELL_IGNORED ∨
      cancelEff fn value aligned d = d.count F.HQ_STATS.CANCEL_IGNORED := by
  by_cases hforeign : fn.vf = 0 ∧ d.holder ≠ some fn.port
  · obtain ⟨hvf, hholder⟩ := hforeign
    exact .inl (cancelEff_foreign value aligned hopen hvf hholder)
  rw [cancelEff, if_neg (Bool.eq_false_iff.mp hopen), if_neg hforeign]
  obtain rfl | hslot := hignored
  · exact .inr (.inl rfl)
  · cases aligned with
    | false => exact .inr (.inl rfl)
    | true => exact .inr (.inr (if_pos hslot))

/-- What a counter of HQ_STATS leaves: memory, every other register and every slot. -/
structure Device.hqCounted (d e : Device) : Prop where
  framed : d.framed e [.HQ_STATS]
  gen : e.gen = d.gen
  mem : e.mem = d.mem

theorem Device.hqCounted.refl (d : Device) : d.hqCounted d := ⟨d.framed_refl _, rfl, rfl⟩

theorem Device.hqCounted.count {d e : Device} (h : d.hqCounted e) {f : Field} (hf : f.reg = .HQ_STATS) : d.hqCounted (e.count f) :=
  ⟨Device.framed_count h.framed f 1 0 (List.mem_singleton.mpr hf) (by decide), (e.gen_count f 1 0).trans h.gen,
    (e.mem_count f 1 0).trans h.mem⟩

theorem hqCounted_cancelEff {d : Device} {fn : Fn} {value : Nat} {aligned : Bool} (hopen : d.barClosed = false)
    (hignored : d.cancelIgnored fn value aligned) : d.hqCounted (cancelEff fn value aligned d) := by
  have hstart := Device.hqCounted.refl d
  obtain heff | heff | heff := cancelEff_ignored hopen hignored <;> rw [heff]
  · exact hstart.count rfl
  · exact (hstart.count rfl).count rfl
  · exact hstart.count rfl

/-! ### A cancel that counts, by the state of its slot -/

/-- What a cancel has to meet to count (R240, R351), but that its slot is not FREE. -/
structure Device.cancelCounts (d : Device) (fn : Fn) (value : Nat) : Prop where
  isOpen : d.barClosed = false
  writes : fn.vf ≠ 0 ∨ d.holder = some fn.port
  stamp : (d.slot (cancelSlotNo value)).img.jst = cancelJst value
  may : d.mayCancel (cancelSlotNo value) fn = true

/-- The device with its entries of a slot cut off from their reservoir commands and the slot cancelled (R241). -/
def Device.slotCut (d : Device) (slot : Nat) : Device :=
  ((d.entriesOf slot).foldl (fun (d : Device) k => d.pimCut k) d).cancelSlot slot

/-- The device with the record ALREADY_FINISHED of a slot written (R242). -/
def Device.doneRecorded (d : Device) (slot : Nat) : Device :=
  ((d.setSlot slot { d.slot slot with alreadyDone := true }).statusRecord slot 5).flushRecords

/-- What a cancel that counts does to its slot, by the slot's state: CANCELLING, not yet over, or over (R241, R242). -/
def Device.slotLatched (d : Device) (slot : Nat) : Device :=
  match (d.slot slot).img.state with
  | 4 => d
  | 1 | 2 | 3 => d.slotCut slot
  | _ => if (d.slot slot).alreadyDone then d else d.doneRecorded slot

section
variable {d : Device} {slot : Nat}

theorem Device.slotLatched_cancelling (hstate : (d.slot slot).img.state = 4) : d.slotLatched slot = d := by
  simp only [Device.slotLatched, hstate]

theorem Device.slotLatched_live (hstate : (d.slot slot).img.state ∈ [1, 2, 3]) : d.slotLatched slot = d.slotCut slot := by
  have hcases : (d.slot slot).img.state = 1 ∨ (d.slot slot).img.state = 2 ∨ (d.slot slot).img.state = 3 := by simpa using hstate
  obtain h | h | h := hcases <;> simp only [Device.slotLatched, h]

theorem Device.slotLatched_over (hstate : 4 < (d.slot slot).img.state) :
    d.slotLatched slot = if (d.slot slot).alreadyDone then d else d.doneRecorded slot := by
  rw [Device.slotLatched]
  split
  case h_5 => rfl
  all_goals omega

theorem Device.slotLatched_recorded (hstate : 4 < (d.slot slot).img.state) (hdone : (d.slot slot).alreadyDone = true) :
    d.slotLatched slot = d :=
  (Device.slotLatched_over hstate).trans (if_pos hdone)

theorem Device.slotLatched_records (hstate : 4 < (d.slot slot).img.state) (hdone : (d.slot slot).alreadyDone = false) :
    d.slotLatched slot = d.doneRecorded slot :=
  (Device.slotLatched_over hstate).trans (if_neg (Bool.eq_false_iff.mp hdone))

end

theorem cancelEff_counts {d : Device} {fn : Fn} {value : Nat} (hc : d.cancelCounts fn value)
    (hstate : (d.slot (cancelSlotNo value)).img.state ≠ 0) : cancelEff fn value true d = d.slotLatched (cancelSlotNo value) := by
  have hwrites : ¬(fn.vf = 0 ∧ d.holder ≠ some fn.port) := fun h => hc.writes.elim (· h.1) h.2
  have hnamed : ¬((d.slot (cancelSlotNo value)).img.state = 0 ∨ (d.slot (cancelSlotNo value)).img.jst ≠ cancelJst value ∨
      d.mayCancel (cancelSlotNo value) fn = false) := by
    simp [hstate, hc.stamp, hc.may]
  rw [cancelEff, if_neg (Bool.eq_false_iff.mp hc.isOpen), if_neg hwrites]
  exact if_neg hnamed

/-! ### The doorbell (R240, R241, R242, R351) -/

/-- The command is its effect at its own time. -/
theorem State.awake.exec_cancelDoorbell {s : State} (hs : s.awake) {at_ : Nat} {fn : Fn} {value : Nat} {aligned : Bool} {d : Device}
    (heff : cancelEff fn value aligned (s.dev.at_ at_) = d) : exec (.cancelDoorbell at_ fn value aligned) s = .next (s.put d) :=
  hs.act_eq (f := fun d => cancelEff fn value aligned (d.at_ at_)) heff

/-- Settles O45: a cancel that counts does what its slot's state asks (`Device.slotLatched`), and one that does not is counted
(`cancelEff_ignored`), as foreign where a PF does not hold. -/
theorem cancelDoorbell : Obligations.CancelDoorbell := by
  intro s at_ fn value hs hopen
  dsimp only
  refine ⟨fun hwrites hstamp hmay => ?counts, fun aligned hignored => ?ignored, fun aligned hvf hholder => ?foreign⟩
  case counts =>
    have hc : (s.dev.at_ at_).cancelCounts fn value := ⟨hopen, hwrites, hstamp, hmay⟩
    have hlatched {d : Device} (hstate : (s.dev.slot (cancelSlotNo value)).img.state ≠ 0)
        (hd : (s.dev.at_ at_).slotLatched (cancelSlotNo value) = d) : exec (.cancelDoorbell at_ fn value true) s = .next (s.put d) :=
      hs.exec_cancelDoorbell ((cancelEff_counts hc hstate).trans hd)
    refine ⟨fun h => ?cancelling, fun h => ?live, fun h hdone => ?recorded, fun h hdone => ?records⟩
    case cancelling => exact hlatched (by omega) (Device.slotLatched_cancelling h)
    case live => exact hlatched (fun h0 => by simp [h0] at h) (Device.slotLatched_live h)
    case recorded => exact hlatched (by omega) (Device.slotLatched_recorded h hdone)
    case records => exact hlatched (by omega) (Device.slotLatched_records h hdone)
  case ignored =>
    have hcounted := hqCounted_cancelEff (d := s.dev.at_ at_) hopen hignored
    exact ⟨_, hs.exec_cancelDoorbell rfl, State.framed_put hcounted.framed hcounted.mem, hcounted.gen⟩
  case foreign =>
    exact hs.exec_cancelDoorbell (cancelEff_foreign (d := s.dev.at_ at_) value aligned hopen hvf hholder)

end Sys2Proof.Machine

/-! ## Writes of fields: what a chain of them leaves (R7, R10) -/

namespace Sys2Proof.Machine

/-! ### Fields of registers apart -/

/-- A write to a field leaves every other field of the register tables, in its own register copy and in every other. -/
theorem Device.fld_setFld_ne (d : Device) {f g : Field} (x i j : Nat) (h : g ≠ f) (hf : f ∈ f.reg.fields) (hg : g ∈ g.reg.fields)
    (hi : i < 0x10000) (hj : j < 0x10000) : (d.setFld f x i).fld g j = d.fld g j := by
  by_cases hreg : g.reg = f.reg
  · obtain ⟨-, -, h64, -⟩ := Reg.fields_wellPlaced _ f hf
    exact d.fld_setFld_apart x i j hreg h64 (Reg.fields_apart hf (hreg ▸ hg) h.symm)
  · exact d.fld_setFld_reg x i j hreg hi hj

theorem Device.on_setFld_ne (d : Device) {f g : Field} (x i j : Nat) (h : g ≠ f) (hf : f ∈ f.reg.fields) (hg : g ∈ g.reg.fields)
    (hi : i < 0x10000) (hj : j < 0x10000) : (d.setFld f x i).on g j = d.on g j :=
  congrArg (· == 1) (d.fld_setFld_ne x i j h hf hg hi hj)

/-- A value that fits its field reads back as itself. -/
theorem Device.fld_setFld_fits (d : Device) {f : Field} {x : Nat} (i : Nat) (h : f.lo + f.w ≤ 64) (hx : x < 2 ^ f.w) :
    (d.setFld f x i).fld f i = x := (d.fld_setFld_same f x i h).trans (Nat.mod_eq_of_lt hx)

theorem Device.on_setFld_one (d : Device) {f : Field} (i : Nat) (h : f.lo + f.w ≤ 64) (hw : 1 < 2 ^ f.w) : (d.setFld f 1 i).on f i = true :=
  beq_iff_eq.mpr (d.fld_setFld_fits i h hw)

/-! ### What leaves the device writes no register -/

@[simp] theorem Device.fld_emit (d : Device) (o : Out) (g : Field) (j : Nat) : (d.emit o).fld g j = d.fld g j :=
  Device.fld_congr (Device.reg_emit d o) g j
@[simp] theorem Device.fld_signal (d : Device) (v : Nat) (g : Field) (j : Nat) : (d.signal v).fld g j = d.fld g j :=
  Device.fld_congr (Device.reg_signal d v) g j
@[simp] theorem Device.fld_hostWrite (d : Device) (fn : Fn) (a : Nat) (bs : List Byte) (g : Field) (j : Nat) :
    (d.hostWrite fn a bs).fld g j = d.fld g j := Device.fld_congr (Device.reg_hostWrite d fn a bs) g j
@[simp] theorem Device.fld_store (d : Device) (a : Nat) (bs : List Byte) (g : Field) (j : Nat) : (d.store a bs).fld g j = d.fld g j :=
  Device.fld_congr (Device.reg_store d a bs) g j

/-- A signalled event is the event's bit. -/
theorem Device.fld_eventSig (d : Device) (f v g : Field) (j : Nat) : (d.eventSig f v).fld g j = (d.setFld f 1).fld g j := Device.fld_signal _ _ g j

theorem Device.fld_eventSig_same (d : Device) {f : Field} (v : Field) (h : f.lo + f.w ≤ 64) (hw : 1 < 2 ^ f.w) : (d.eventSig f v).fld f = 1 :=
  (d.fld_eventSig f v f 0).trans (d.fld_setFld_fits 0 h hw)

theorem Device.fld_eventSig_ne (d : Device) {f g : Field} (v : Field) (j : Nat) (h : g ≠ f) (hf : f ∈ f.reg.fields) (hg : g ∈ g.reg.fields)
    (hj : j < 0x10000) : (d.eventSig f v).fld g j = d.fld g j :=
  (d.fld_eventSig f v g j).trans (d.fld_setFld_ne 1 0 j h hf hg (by decide) hj)

end Sys2Proof.Machine

/-! ## Host errors, ports and queues (R345, R353, R354, R355, R358, R463) -/

namespace Sys2Proof.Machine

/-! ### What a request served (R345) -/

theorem hostErrorEff_furrowRing (d : Device) : (hostErrorEff .furrowRing d).fld F.FUR_CQ_CTRL.ENABLE = 0 ∧
    (hostErrorEff .furrowRing d).fld F.FUR_CQ_HEAD.STOPPED = 1 ∧ (hostErrorEff .furrowRing d).fld F.FUR_EVENTS.CQ_ERROR = 1 := by
  unfold hostErrorEff
  dsimp only
  refine ⟨?_, ?_, Device.fld_eventSig_same _ _ (by decide) (by decide)⟩
  · rw [Device.fld_eventSig_ne _ _ _ (by decide) (by decide) (by decide) (by decide),
      Device.fld_setFld_ne _ _ _ _ (by decide) (by decide) (by decide) (by decide) (by decide)]
    exact Device.fld_setFld_fits _ _ (by decide) (by decide)
  · rw [Device.fld_eventSig_ne _ _ _ (by decide) (by decide) (by decide) (by decide)]
    exact Device.fld_setFld_fits _ _ (by decide) (by decide)

/-- Settles O23: the request by what it served; the furrow ring's fields as its last writes leave them. -/
theorem hostErrorsEndWhatTheyServed : Obligations.HostErrorsEndWhatTheyServed := by
  intro s hs
  refine ⟨fun _ => hs.act_eq rfl, fun _ _ => hs.act_eq rfl, fun _ => hs.act_eq rfl, fun _ => hs.act_eq rfl, hs.act_eq rfl,
    _, hs.act_eq rfl, ?_⟩
  simp only [State.put_fld]
  exact hostErrorEff_furrowRing s.dev

/-! ### Ports (R353) -/

/-- HQ_PORT_STATUS's field of a host port. -/
def portStatus (port : Nat) : Field := if port = 0 then F.HQ_PORT_STATUS.H0 else F.HQ_PORT_STATUS.H1

theorem portStatus_reg (port : Nat) : (portStatus port).reg = .HQ_PORT_STATUS := by
  unfold portStatus; split <;> rfl

theorem portStatus_lo_w (port : Nat) : (portStatus port).lo + (portStatus port).w ≤ 64 ∧ (portStatus port).w = 16 := by
  unfold portStatus; split <;> decide

/-- What a port's field reads once its link has trained (Table 15.10). -/
def trainedStatus (rate lanes : Nat) (flitMode : Bool) : Nat := 0x8000 + rate % 8 * 0x1000 + lanes % 16 * 0x100 + 0x80 * b2n flitMode

theorem b2n_true : b2n true = 1 := rfl
theorem b2n_le_one (b : Bool) : b2n b ≤ 1 := by cases b <;> decide

theorem trainedStatus_up (rate lanes : Nat) (flitMode : Bool) : trainedStatus rate lanes flitMode < 2 ^ 16 ∧
    (trainedStatus rate lanes flitMode).testBit 15 = true ∧ (trainedStatus rate lanes flitMode).testBit 6 = false := by
  have hmode := b2n_le_one flitMode
  simp only [trainedStatus, Nat.testBit_eq_decide_div_mod_eq, decide_eq_true_eq, decide_eq_false_iff_not]
  omega

theorem Device.portUp_of_status {d : Device} {port v : Nat} (hv : d.fld (portStatus port) = v) (h15 : v.testBit 15 = true)
    (h6 : v.testBit 6 = false) : d.portUp port = true := by
  have hup : d.portUp port = ((d.fld (portStatus port)).testBit 15 && !(d.fld (portStatus port)).testBit 6) := rfl
  rw [hup, hv, h15, h6]; rfl

theorem hostLinkTrainedEff_trains {port rate lanes : Nat} {flitMode : Bool} {vfs : List Nat} {d : Device} (h1 : port = 1 → d.pwr.perst1 = false) :
    ∃ vs, hostLinkTrainedEff port rate lanes flitMode vfs d =
      { d.setFld (portStatus port) (trainedStatus rate lanes flitMode) with host.vfEnabled := vs } :=
  ⟨_, if_neg fun h => Bool.false_ne_true ((h1 h.1).symm.trans h.2)⟩

theorem portUp_hostLinkTrainedEff {port rate lanes : Nat} {flitMode : Bool} {vfs : List Nat} {d : Device} (h1 : port = 1 → d.pwr.perst1 = false) :
    (hostLinkTrainedEff port rate lanes flitMode vfs d).portUp port = true := by
  obtain ⟨vs, heff⟩ := hostLinkTrainedEff_trains (rate := rate) (lanes := lanes) (flitMode := flitMode) (vfs := vfs) h1
  obtain ⟨hfits, h15, h6⟩ := trainedStatus_up rate lanes flitMode
  obtain ⟨h64, hw⟩ := portStatus_lo_w port
  rw [heff]
  exact Device.portUp_of_status (Device.fld_setFld_fits d 0 h64 (hw ▸ hfits)) h15 h6

theorem framed_hostLinkTrainedEff {port rate lanes : Nat} {flitMode : Bool} {vfs : List Nat} {d : Device} (h1 : port = 1 → d.pwr.perst1 = false) :
    d.framed (hostLinkTrainedEff port rate lanes flitMode vfs d) [.HQ_PORT_STATUS] ∧
      (hostLinkTrainedEff port rate lanes flitMode vfs d).mem = d.mem := by
  obtain ⟨vs, heff⟩ := hostLinkTrainedEff_trains (rate := rate) (lanes := lanes) (flitMode := flitMode) (vfs := vfs) h1
  have hset := Device.framed_setFld (d.framed_refl [.HQ_PORT_STATUS]) (portStatus port) (trainedStatus rate lanes flitMode) 0
    (List.mem_singleton.mpr (portStatus_reg port)) (by decide)
  rw [heff]
  exact ⟨Device.framed_congr hset rfl rfl rfl rfl, rfl⟩

theorem Device.fld_hqEvent_same (d : Device) {f : Field} (h : f.lo + f.w ≤ 64) (hw : 1 < 2 ^ f.w) : (d.hqEvent f).fld f = 1 :=
  d.fld_eventSig_same _ h hw

/-- A lost port ends with its event. -/
theorem Device.fld_portLost (d : Device) (port cause : Nat) : (d.portLost port cause).fld F.HQ_EVENTS.PORT_DOWN = 1 := by
  unfold Device.portLost
  exact Device.fld_hqEvent_same _ (by decide) (by decide)

theorem fld_vfFlrEff (fn : Fn) (disabled : Bool) (d : Device) : (vfFlrEff fn disabled d).fld F.HQ_EVENTS.FLR = 1 := by
  unfold vfFlrEff
  exact Device.fld_hqEvent_same _ (by decide) (by decide)

/-! ### Queues (R354, R355, R358) -/

@[simp] theorem State.put_on (s : State) (d : Device) (f : Field) (i : Nat) : (s.put d).dev.on f i = d.on f i := rfl
@[simp] theorem State.put_hq (s : State) (d : Device) (q : Nat) : (s.put d).dev.hq q = d.hq q := rfl

@[simp] theorem State.put_portUp (s : State) (d : Device) (port : Nat) : (s.put d).dev.portUp port = d.portUp port := rfl

/-- A PF's write to the CFG_ and HQ_ blocks that the device takes, a profile switch or not, is its effect (R385). -/
theorem State.takesOpen.act_eq {s : State} {port : Nat} (h : s.takesOpen port) {f : Device → Device} {d : Device} (hf : f s.dev = d) :
    s.act (fun d => d.asHolder port f true) = .next (s.put d) := by
  obtain ⟨hset, hlive, hopen, hholder⟩ := h
  have hs : s.awake := ⟨hset, hlive⟩
  refine hs.act_eq (Eq.trans ?_ hf)
  simp [Device.asHolder, hopen, hholder]

section
variable {d : Device} {q : Nat}

@[simp] theorem Device.fld_setHq (d : Device) (q : Nat) (h : HostQ) (g : Field) (j : Nat) : (d.setHq q h).fld g j = d.fld g j :=
  Device.fld_congr (fun _ _ => rfl) g j
@[simp] theorem Device.hq_setHq_same (d : Device) (q : Nat) (h : HostQ) : (d.setHq q h).hq q = h := sget_sput_same _ _ _

/-- ENABLE as written, STOPPED cleared. -/
def Device.queueWritten (d : Device) (q : Nat) (value : Bool) : Device :=
  (d.setFld F.HQ_Q_CTRL.ENABLE (b2n value) q).setFld F.HQ_Q_STATUS.STOPPED 0 q

theorem hqEnableEff_from0 (hoff : d.on F.HQ_Q_CTRL.ENABLE q = false) : hqEnableEff q true d =
    (((d.queueWritten q true).setFld F.HQ_Q_STATUS.HEAD 0 q).setFld F.HQ_Q_STATUS.WRITTEN 0 q).setHq q {} := by
  unfold hqEnableEff
  rw [hoff]
  rfl

theorem hqEnableEff_takes {v : Bool} (h : v = false ∨ d.on F.HQ_Q_CTRL.ENABLE q = true) : hqEnableEff q v d = d.queueWritten q v := by
  unfold hqEnableEff
  obtain rfl | hon := h
  · rfl
  · rw [hon]
    exact if_neg (by simp)

/-- The indices and STOPPED of a queue that has just been enabled are 0. -/
theorem hqEnableEff_clears (hq : q < 0x10000) (hoff : d.on F.HQ_Q_CTRL.ENABLE q = false) :
    (hqEnableEff q true d).on F.HQ_Q_CTRL.ENABLE q = true ∧ (hqEnableEff q true d).fld F.HQ_Q_STATUS.HEAD q = 0 ∧
      (hqEnableEff q true d).fld F.HQ_Q_STATUS.WRITTEN q = 0 ∧ (hqEnableEff q true d).fld F.HQ_Q_STATUS.STOPPED q = 0 ∧
        (hqEnableEff q true d).hq q = {} := by
  have hkeeps {f g : Field} (e : Device) (h : g ≠ f) (hf : f ∈ f.reg.fields) (hg : g ∈ g.reg.fields) : (e.setFld f 0 q).fld g q = e.fld g q :=
    e.fld_setFld_ne 0 q q h hf hg hq hq
  have hzero {f : Field} (e : Device) (h : f.lo + f.w ≤ 64) : (e.setFld f 0 q).fld f q = 0 := e.fld_setFld_fits q h (Nat.two_pow_pos _)
  have hset (e : Device) : (e.setFld F.HQ_Q_CTRL.ENABLE 1 q).fld F.HQ_Q_CTRL.ENABLE q = 1 := e.fld_setFld_fits q (by decide) (by decide)
  rw [hqEnableEff_from0 hoff, Device.on, beq_iff_eq]
  simp (disch := decide) only [Device.queueWritten, Device.fld_setHq, Device.hq_setHq_same, hkeeps, hzero, hset, b2n_true, and_self]

end

/-- Settles O22: a port by what its status field reads and the event its loss ends with, ENABLE by what it was, a doorbell by whether the
queue is enabled. -/
theorem portsAndQueues : Obligations.PortsAndQueues := by
  refine ⟨fun s hs => ⟨fun port rate lanes flit vfs _ h1 => ?trained, fun port cause => ?lost, fun fn disabled => ?flr⟩,
    fun s port q h hq => ?queues⟩
  case trained =>
    obtain ⟨hframed, hmem⟩ := framed_hostLinkTrainedEff (rate := rate) (lanes := lanes) (flitMode := flit) (vfs := vfs) h1
    exact ⟨_, s.act_put _ hs.2, (s.put_portUp _ _).trans (portUp_hostLinkTrainedEff h1), State.framed_put hframed hmem⟩
  case lost => exact ⟨_, s.act_put (fun d => d.portLost port cause) hs.2, (s.put_fld _ _ _).trans (s.dev.fld_portLost port cause)⟩
  case flr => exact ⟨_, s.act_put _ hs.2, (s.put_fld _ _ _).trans (fld_vfFlrEff fn disabled s.dev)⟩
  case queues =>
    have hmod : q % 256 = q := Nat.mod_eq_of_lt hq
    have hact {f : Nat → Device → Device} {d : Device} (hf : f q s.dev = d) :
        s.act (fun d => d.asHolder port (f (q % 256)) true) = .next (s.put d) := h.act_eq (by rw [hmod]; exact hf)
    refine ⟨fun hoff => ?from0, fun v hv => ?takes, fun tail hon => ?tail, fun n hon hkind => ?consumed, fun n hoff => ?ignored⟩
    case from0 =>
      refine ⟨_, hact (f := fun q => hqEnableEff q true) rfl, ?_⟩
      simp only [State.put_on, State.put_fld, State.put_hq]
      exact hqEnableEff_clears (by omega) hoff
    case takes => exact hact (f := fun q => hqEnableEff q v) (hqEnableEff_takes hv)
    case tail => exact hact (f := fun q => hqTailEff q tail) (if_pos hon)
    case consumed =>
      have hsluice : (s.dev.on F.HQ_Q_CTRL.ENABLE q && s.dev.fld F.HQ_Q_CTRL.KIND q == 2) = true := by rw [hon, hkind]; rfl
      exact hact (f := fun q => hqConsumedEff q n) (if_pos hsluice)
    case ignored =>
      have hother : ¬(s.dev.on F.HQ_Q_CTRL.ENABLE q && s.dev.fld F.HQ_Q_CTRL.KIND q == 2) = true := by simp [hoff]
      exact ⟨hact (f := fun q => hqTailEff q n) (if_neg (Bool.eq_false_iff.mp hoff)), hact (f := fun q => hqConsumedEff q n) (if_neg hother)⟩

end Sys2Proof.Machine

/-! ## Fabric links: flits received and sent, replays, control (R305 to R309, R321) -/

namespace Sys2Proof.Machine

@[simp] theorem Device.out_count (d : Device) (f : Field) (n i : Nat) : (d.count f n i).out = d.out := by
  unfold Device.count
  split <;> rfl

@[simp] theorem Device.link_setLink_same (d : Device) (l : Nat) (k : Link) : (d.setLink l k).link l = k := sget_sput_same _ _ _
theorem Device.link_congr {d e : Device} (h : e.fab = d.fab) (l : Nat) : e.link l = d.link l := by
  rw [Device.link, h, Device.link]
@[simp] theorem Device.link_count (d : Device) (f : Field) (n i l : Nat) : (d.count f n i).link l = d.link l :=
  Device.link_congr (d.fab_count f n i) l
@[simp] theorem Device.linkState_setLink (d : Device) (l : Nat) (k : Link) (j : Nat) : (d.setLink l k).linkState j = d.linkState j :=
  Device.fld_congr (fun _ _ => rfl) _ j
@[simp] theorem State.put_link (s : State) (d : Device) (l : Nat) : (s.put d).dev.link l = d.link l := rfl
@[simp] theorem State.put_linkState (s : State) (d : Device) (l : Nat) : (s.put d).dev.linkState l = d.linkState l := rfl

/-! ### What every good flit tells (R306, R307) -/

/-- A link's state once its transmitter has taken a flit's ACK, NAK, TACK and credits. -/
def Link.heard (k : Link) (f : Flit) : Link :=
  { k with replay := ackTo f.ack k.replay, turnReplay := ackTo f.tack k.turnReplay, credits := k.credits.modify f.creditTc (· + f.credits),
           resend := if f.nak then ackTo f.ack k.replay else k.resend.filter fun x => (ackTo f.ack k.replay).any fun y => y.2.seq == x.2.seq,
           turnResend := k.turnResend.filter fun x => (ackTo f.tack k.turnReplay).any fun y => y.2.seq == x.2.seq }

theorem Device.rxCommon_eq (d : Device) (l : Nat) (f : Flit) : d.rxCommon l f =
    if f.nak then (d.setLink l ((d.link l).heard f)).count F.FAB_LINK_REPLAY.REPLAYS 1 l else d.setLink l ((d.link l).heard f) := rfl

@[simp] theorem Device.link_rxCommon (d : Device) (l : Nat) (f : Flit) : (d.rxCommon l f).link l = (d.link l).heard f := by
  rw [Device.rxCommon_eq]
  split
  · rw [Device.link_count, Device.link_setLink_same]
  · rw [Device.link_setLink_same]

@[simp] theorem Device.arrived_rxCommon (d : Device) (l : Nat) (f : Flit) : (d.rxCommon l f).fab.arrived = d.fab.arrived := by
  rw [Device.rxCommon_eq]
  split
  · rw [Device.fab_count]; rfl
  · rfl

/-! ### Flits received -/

section
variable {d : Device} {l : Nat} {bs : List Byte} {f : Flit}

theorem Device.inLink_in {states : List Nat} (hl : l < 112) (hstate : states.contains (d.linkState l) = true) (g : Device → Device) :
    d.inLink l states g = g d := if_pos ⟨hl, hstate⟩

theorem Device.flitArrives_good {states : List Nat} {ty : FlitType} (hl : l < 112) (hstate : states.contains (d.linkState l) = true)
    (hcrc : flitCrcOk bs = true) (hty : isFlit ty bs = true) (g : Flit → Device → Device) :
    d.flitArrives l states ty bs g = g (Flit.ofBytes ty bs) d := by
  rw [Device.flitArrives, Device.inLink_in hl hstate, hcrc, if_neg (by decide), if_pos hty]

theorem Device.flitArrives_bad {states : List Nat} {ty : FlitType} (hl : l < 112) (hstate : states.contains (d.linkState l) = true)
    (hcrc : flitCrcOk bs = false) (g : Flit → Device → Device) : d.flitArrives l states ty bs g = d.rxBad l := by
  rw [Device.flitArrives, Device.inLink_in hl hstate, hcrc, if_pos (by decide)]

@[simp] theorem Device.link_deliver (d : Device) (l tc flits : Nat) (bs : List Byte) :
    (d.deliver l tc flits bs).link l = { d.link l with freed := (d.link l).freed.modify tc (· + flits) } := sget_sput_same _ _ _

@[simp] theorem Device.arrived_deliver (d : Device) (l tc flits : Nat) (bs : List Byte) :
    (d.deliver l tc flits bs).fab.arrived = d.fab.arrived ++ [(l, Packet.ofBytes bs)] := rfl

/-- The bytes of the packet being received once a DATA flit's body has joined them. -/
def Link.joined (k : Link) (f : Flit) : List Byte := (if f.sop then [] else k.rx) ++ f.body.take f.bodyLen

theorem takeBody_eq (l : Nat) (f : Flit) (d : Device) : takeBody l f d =
    let rx := (d.link l).joined f
    let e := d.setLink l { d.link l with rx := rx }
    if rx.length ≥ 32 ∧ rx.length ≥ (Packet.ofBytes rx).wireLen then
      (e.setLink l { e.link l with rx := [] }).deliver l f.tc (flitsOf rx.length) rx
    else e := rfl

/-- What taking the body of a DATA flit leaves of the link's receiver. -/
theorem link_takeBody (l : Nat) (f : Flit) (d : Device) :
    ((takeBody l f d).link l).rxAck = (d.link l).rxAck ∧ ((takeBody l f d).link l).nak = (d.link l).nak := by
  rw [takeBody_eq]
  dsimp only
  split <;> simp only [Device.link_deliver, Device.link_setLink_same, and_self]

/-- The device once a DATA flit is acknowledged and counted. -/
def Device.dataTaken (d : Device) (l : Nat) (f : Flit) : Device :=
  let n := (d.link l).inFlits + 1
  let e := d.setLink l { d.link l with rxAck := f.seq, nak := false, discarding := false, inFlits := n % 1000000 }
  if n ≥ 1000000 then e.count F.FAB_LINK_TRAFFIC.IN_MFLITS 1 l else e

theorem Device.link_dataTaken (d : Device) (l : Nat) (f : Flit) :
    ((d.dataTaken l f).link l).rxAck = f.seq ∧ ((d.dataTaken l f).link l).nak = false := by
  unfold Device.dataTaken
  dsimp only
  split <;> simp only [Device.link_count, Device.link_setLink_same, and_self]

theorem dataFlitEff_eq (l : Nat) (f : Flit) (d : Device) : dataFlitEff l f d =
    let b := d.rxCommon l f
    if f.seq = ((b.link l).rxAck + 1) % 4096 then takeBody l f (b.dataTaken l f)
    else if (b.link l).discarding then b else b.setLink l { b.link l with nak := true, discarding := true } := rfl

theorem dataFlitEff_next (hseq : f.seq = ((d.link l).rxAck + 1) % 4096) :
    ((dataFlitEff l f d).link l).rxAck = f.seq ∧ ((dataFlitEff l f d).link l).nak = false := by
  obtain ⟨hack, hnak⟩ := link_takeBody l f ((d.rxCommon l f).dataTaken l f)
  obtain ⟨htaken, hcleared⟩ := (d.rxCommon l f).link_dataTaken l f
  rw [dataFlitEff_eq]
  dsimp only
  rw [Device.link_rxCommon, if_pos (show f.seq = (((d.link l).heard f).rxAck + 1) % 4096 from hseq)]
  exact ⟨hack.trans htaken, hnak.trans hcleared⟩

theorem dataFlitEff_other (hseq : f.seq ≠ ((d.link l).rxAck + 1) % 4096) : dataFlitEff l f d =
    if (d.link l).discarding then d.rxCommon l f else (d.rxCommon l f).setLink l { (d.link l).heard f with nak := true, discarding := true } := by
  rw [dataFlitEff_eq]
  dsimp only
  rw [Device.link_rxCommon, if_neg (show f.seq ≠ (((d.link l).heard f).rxAck + 1) % 4096 from hseq)]
  rfl

theorem turnFlitEff_next (hseq : f.seq = ((d.link l).rxTack + 1) % 256) : ((turnFlitEff l f d).link l).rxTack = f.seq ∧
    (turnFlitEff l f d).fab.arrived = d.fab.arrived ++ [(l, Packet.ofBytes (f.body.take f.bodyLen))] := by
  unfold turnFlitEff
  dsimp only
  rw [Device.link_rxCommon, if_pos (show f.seq = (((d.link l).heard f).rxTack + 1) % 256 from hseq)]
  rw [Device.link_deliver, Device.link_setLink_same, Device.arrived_deliver]
  exact ⟨rfl, congrArg (· ++ _) (d.arrived_rxCommon l f)⟩

theorem turnFlitEff_other (hseq : f.seq ≠ ((d.link l).rxTack + 1) % 256) : turnFlitEff l f d = d.rxCommon l f := by
  unfold turnFlitEff
  dsimp only
  rw [Device.link_rxCommon, if_neg (show f.seq ≠ (((d.link l).heard f).rxTack + 1) % 256 from hseq)]

/-! ### PARAM flits (R309, R311) -/

/-- The device once a link in PARAM has taken a body. -/
def Device.paramTaken (d : Device) (l : Nat) (body : List Byte) : Device := d.setLink l { d.link l with peerSeen := true, lastParam := body }

theorem paramFlitEff_disagrees (hmagic : fieldAt f.body 0 4 = 0x5A54414C) (hstate : d.linkState l = 4) (hver : versionsAgree f.body = false) :
    paramFlitEff l f d = ((d.paramTaken l f.body).linkDown l 8).eventSig F.FAB_EVENTS.VERSION F.FAB_VECTOR.VECTOR := by
  unfold paramFlitEff
  rw [if_neg (not_not_intro hmagic), if_pos hstate, hver]
  rfl

theorem paramFlitEff_ready (hmagic : fieldAt f.body 0 4 = 0x5A54414C) (hstate : d.linkState l = 4) (hver : versionsAgree f.body = true)
    (hsent : (d.link l).sentSeen = true) (hseen : (fieldAt f.body 10 1).testBit 0 = true) :
    paramFlitEff l f d = (d.paramTaken l f.body).linkUp l := by
  have hready : ((d.paramTaken l f.body).link l).ready = true := by
    rw [Device.paramTaken, Device.link_setLink_same, Link.ready, hsent, hseen]
    rfl
  unfold paramFlitEff
  rw [if_neg (not_not_intro hmagic), if_pos hstate, hver]
  exact if_pos hready

/-- A link that comes up is ACTIVE. -/
theorem Device.linkState_linkUp (d : Device) {l : Nat} (hl : l < 0x10000) : (d.linkUp l).linkState l = 5 := by
  have hkeeps {f g : Field} (e : Device) (x : Nat) (h : g ≠ f) (hf : f ∈ f.reg.fields) (hg : g ∈ g.reg.fields) :
      (e.setFld f x l).fld g l = e.fld g l := e.fld_setFld_ne x l l h hf hg hl hl
  unfold Device.linkUp Device.linkState
  dsimp only
  rw [Device.fld_eventSig_ne _ _ _ (by decide) (by decide) (by decide) hl, Device.reviveNode, Device.fld_of_rt,
    hkeeps _ _ (by decide) (by decide) (by decide), hkeeps _ _ (by decide) (by decide) (by decide),
    hkeeps _ _ (by decide) (by decide) (by decide)]
  exact Device.fld_setFld_fits _ l (by decide) (by decide)

end

/-- Settles O16: a flit by its CRC, its number and the state of its link. -/
theorem linkFlitsReceived : Obligations.LinkFlitsReceived := by
  intro s l bs hs hl
  refine ⟨fun hstate hcrc => ?active, fun hstate hcrc => ?bad, fun hstate hcrc hty body hbody hmagic => ?param⟩
  case active =>
    have hin : [5].contains (s.dev.linkState l) = true := by rw [hstate]; rfl
    have hdata (hty : isFlit .data bs = true) : exec (.dataFlit l bs) s = .next (s.put (dataFlitEff l (Flit.ofBytes .data bs) s.dev)) :=
      hs.act_eq (f := fun d => d.flitArrives l [5] .data bs (dataFlitEff l)) (Device.flitArrives_good hl hin hcrc hty _)
    have hturn (hty : isFlit .turn bs = true) : exec (.turnFlit l bs) s = .next (s.put (turnFlitEff l (Flit.ofBytes .turn bs) s.dev)) :=
      hs.act_eq (f := fun d => d.flitArrives l [5] .turn bs (turnFlitEff l)) (Device.flitArrives_good hl hin hcrc hty _)
    refine ⟨fun hty hseq => ⟨_, hdata hty, dataFlitEff_next hseq⟩, fun hty hseq hopen => ⟨_, hdata hty, ?nak⟩, fun hty hseq hdisc => ?discards,
      fun hty hseq => ⟨_, hturn hty, turnFlitEff_next hseq⟩, fun hty hseq => ?acknowledges, fun hty => ?idle⟩
    case nak =>
      rw [dataFlitEff_other hseq, hopen, if_neg (by decide), State.put_link, Device.link_setLink_same]
      exact ⟨rfl, rfl⟩
    case discards => rw [hdata hty, dataFlitEff_other hseq, hdisc, if_pos rfl]
    case acknowledges => rw [hturn hty, turnFlitEff_other hseq]
    case idle =>
      exact hs.act_eq (f := fun d => d.flitArrives l [5] .idle bs fun f d => d.rxCommon l f) (Device.flitArrives_good hl hin hcrc hty _)
  case bad =>
    have hin : [5].contains (s.dev.linkState l) = true := by rw [hstate]; rfl
    have hin' : [4, 5].contains (s.dev.linkState l) = true := by rw [hstate]; rfl
    exact ⟨hs.act_eq (f := fun d => d.flitArrives l [5] .data bs (dataFlitEff l)) (Device.flitArrives_bad hl hin hcrc _),
      hs.act_eq (f := fun d => d.flitArrives l [5] .turn bs (turnFlitEff l)) (Device.flitArrives_bad hl hin hcrc _),
      hs.act_eq (f := fun d => d.flitArrives l [5] .idle bs fun f d => d.rxCommon l f) (Device.flitArrives_bad hl hin hcrc _),
      hs.act_eq (f := fun d => d.flitArrives l [4, 5] .param bs (paramFlitEff l)) (Device.flitArrives_bad hl hin' hcrc _)⟩
  case param =>
    subst hbody
    have hin : [4, 5].contains (s.dev.linkState l) = true := by rw [hstate]; rfl
    have hparam {d : Device} (hd : paramFlitEff l (Flit.ofBytes .param bs) s.dev = d) : exec (.paramFlit l bs) s = .next (s.put d) :=
      hs.act_eq (f := fun d => d.flitArrives l [4, 5] .param bs (paramFlitEff l)) ((Device.flitArrives_good hl hin hcrc hty _).trans hd)
    refine ⟨fun hver hsent hseen => ?ready, fun hver => ?disagrees⟩
    case ready => exact ⟨_, hparam (paramFlitEff_ready hmagic hstate hver hsent hseen),
      (s.put_linkState _ l).trans (Device.linkState_linkUp _ (by omega))⟩
    case disagrees => exact hparam (paramFlitEff_disagrees hmagic hstate hver)

end Sys2Proof.Machine

namespace Sys2Proof.Machine

@[simp] theorem Device.fld_setLink (d : Device) (l : Nat) (k : Link) (g : Field) (j : Nat) : (d.setLink l k).fld g j = d.fld g j :=
  Device.fld_congr (fun _ _ => rfl) g j

/-! ### Flits sent (R306) -/

/-- Between two devices exactly one flit has gone out, on a link. -/
def Device.sendsOne (d e : Device) (l : Nat) : Prop := ∃ f : Flit, e.out = d.out ++ [.flit l f.bytes]

/-- What sending adds to a flit leaves its TYPE. -/
theorem Device.out_sendFlit (d : Device) (l : Nat) (f : Flit) :
    ∃ g : Flit, (d.sendFlit l f).out = d.out ++ [.flit l g.bytes] ∧ g.ty = f.ty := ⟨_, rfl, rfl⟩

theorem Device.sendsOne_sendFlit {d e : Device} (h : e.out = d.out) (l : Nat) (f : Flit) : d.sendsOne (e.sendFlit l f) l := by
  obtain ⟨g, hout, -⟩ := e.out_sendFlit l f
  exact ⟨g, by rw [hout, h]⟩

theorem Device.sendsOne_sendNewData {d e : Device} (h : e.out = d.out) (l : Nat) : d.sendsOne (e.sendNewData l) l := by
  unfold Device.sendNewData
  dsimp only
  refine Device.sendsOne_sendFlit ?_ l _
  split
  · exact (Device.out_count _ _ _ _).trans h
  · exact h

/-- Each rank of an ACTIVE link's transmitter sends one flit. -/
theorem sendsOne_flitActive (l : Nat) (d : Device) : d.sendsOne (flitActive l d) l := by
  unfold flitActive
  dsimp only
  split
  case h_1 => exact Device.sendsOne_sendFlit (by rfl) l _
  case h_2 =>
    split
    case isTrue => exact Device.sendsOne_sendFlit (by rfl) l _
    case isFalse =>
      split
      case h_1 => exact Device.sendsOne_sendFlit (by rfl) l _
      case h_2 =>
        split
        case isTrue => exact Device.sendsOne_sendFlit (by rfl) l _
        case isFalse =>
          split
          case isTrue => exact Device.sendsOne_sendNewData (by rfl) l
          case isFalse =>
            split
            case h_1 => exact Device.sendsOne_sendNewData (by rfl) l
            case h_2 => exact Device.sendsOne_sendFlit (by rfl) l _

/-- A link in PARAM with no PARAM flit due. -/
theorem flitParam_idle {l : Nat} {d : Device} (hwait : (d.link l).paramWait ≠ 0) :
    flitParam l d = (d.setLink l { d.link l with paramWait := (d.link l).paramWait - 1 }).sendFlit l { ty := .idle } := if_neg hwait

theorem b2n_false : b2n false = 0 := rfl

/-! ### Control of a link (R308, R311) -/

section
variable {d : Device} {l : Nat}

theorem Device.linkState_setEnable (d : Device) (v : Nat) (hl : l < 0x10000) : (d.setFld F.FAB_LINK_CTRL.ENABLE v l).linkState l = d.linkState l :=
  d.fld_setFld_ne v l l (by decide) (by decide) (by decide) hl hl

theorem linkEnableEff_detects (hl : l < 112) (hpart : d.part.link l = true) (hstate : d.linkState l = 0) (hexists : d.linkExists l = true) :
    linkEnableEff l true d = (d.setFld F.FAB_LINK_CTRL.ENABLE 1 l).setFld F.FAB_LINK_STATUS.STATE 1 l := by
  have hthere : ¬(l ≥ 112 ∨ d.part.link l = false) := by simp [hl, hpart]
  have hmode : (d.setFld F.FAB_LINK_CTRL.ENABLE 1 l).linkExists l = d.linkExists l := by
    rw [Device.linkExists, d.fld_setFld_ne _ _ _ (by decide) (by decide) (by decide) (by omega) (by omega), Device.part_setFld, Device.linkExists]
  rw [linkEnableEff, if_neg hthere, if_pos rfl, b2n_true, Device.linkState_setEnable d 1 (by omega), hmode, if_pos ⟨hstate, hexists⟩]

theorem linkEnableEff_disables (hl : l < 112) (hpart : d.part.link l = true) (h0 : d.linkState l ≠ 0) (h5 : d.linkState l ≠ 5)
    (h7 : d.linkState l ≠ 7) : linkEnableEff l false d =
      (((d.setFld F.FAB_LINK_CTRL.ENABLE 0 l).setLink l {}).setFld F.FAB_LINK_STATUS.STATE 0 l).setFld F.FAB_LINK_STATUS.DOWN_REASON 7 l := by
  have hthere : ¬(l ≥ 112 ∨ d.part.link l = false) := by simp [hl, hpart]
  have hstate : (d.setFld F.FAB_LINK_CTRL.ENABLE 0 l).linkState l = d.linkState l := Device.linkState_setEnable d 0 (by omega)
  rw [linkEnableEff, if_neg hthere, if_neg Bool.false_ne_true, b2n_false]
  rw [hstate, if_neg (by simp [h0, h7]), Device.linkActive, hstate,
    if_neg (by simp [h5])]

end

/-- A flit boundary by the state of its link. -/
theorem State.awake.exec_flitBoundary {s : State} (hs : s.awake) {l : Nat} (hl : l < 112) {d : Device}
    (hd : (if s.dev.linkState l = 5 then flitActive l s.dev else if s.dev.linkState l = 4 then flitParam l s.dev else s.dev) = d) :
    exec (.flitBoundary l) s = .next (s.put d) :=
  hs.act_eq (f := fun d => if l < 112 then (if d.linkState l = 5 then flitActive l d else if d.linkState l = 4 then flitParam l d else d) else d)
    ((if_pos hl).trans hd)

theorem State.takes.act_eq {s : State} {port : Nat} (h : s.takes port) {f : Device → Device} {o : Bool} {d : Device} (hf : f s.dev = d) :
    s.act (fun d => d.asHolder port f o) = .next (s.put d) := (State.takes_put h f o).trans (by rw [hf])

/-- Settles O17: a flit boundary by the flit it sends, a timeout by what it resends, ENABLE and FAB_NODE by the states of links. -/
theorem linkTransmitsAndReplays : Obligations.LinkTransmitsAndReplays := by
  refine ⟨fun s l hs hl => ⟨fun hstate => ?active, fun hstate hwait => ?param, fun hstate hkept => ?replays, fun hstate => ?turnReplays⟩,
    fun s port l h hl hpart => ⟨fun hstate hexists => ?detects, fun h0 h5 h7 => ?disables⟩,
    fun s port node h => ⟨fun hdown => h.act_eq (f := fabNodeWriteEff node) (if_pos hdown), fun hup => h.act_eq (f := fabNodeWriteEff node) (if_neg (Bool.eq_false_iff.mp hup))⟩⟩
  case active =>
    obtain ⟨f, hout⟩ := sendsOne_flitActive l s.dev
    exact ⟨_, f, hs.exec_flitBoundary hl (if_pos hstate), hout⟩
  case param =>
    have hexec := hs.exec_flitBoundary hl ((if_neg (by omega)).trans ((if_pos hstate).trans (flitParam_idle hwait)))
    obtain ⟨f, hout, hty⟩ := (s.dev.setLink l { s.dev.link l with paramWait := (s.dev.link l).paramWait - 1 }).out_sendFlit l { ty := .idle }
    exact ⟨_, f, hexec, hout, hty⟩
  case replays =>
    have hin : [5].contains (s.dev.linkState l) = true := by rw [hstate]; rfl
    exact hs.act_eq (f := fun d => d.inLink l [5] fun d => if (d.link l).replay.isEmpty then d
      else (d.setLink l { d.link l with resend := (d.link l).replay }).count F.FAB_LINK_REPLAY.REPLAYS 1 l)
      ((Device.inLink_in hl hin _).trans (if_neg (mt List.isEmpty_iff.mp hkept)))
  case turnReplays =>
    have hin : [5].contains (s.dev.linkState l) = true := by rw [hstate]; rfl
    exact hs.act_eq (f := fun d => d.inLink l [5] fun d => d.setLink l { d.link l with turnResend := (d.link l).turnReplay })
      (Device.inLink_in hl hin _)
  case detects =>
    refine ⟨_, h.act_eq (f := linkEnableEff l true) (linkEnableEff_detects hl hpart hstate hexists), ?_, ?_⟩
    · exact (s.put_linkState _ l).trans (Device.fld_setFld_fits _ l (by decide) (by decide))
    · rw [State.put_fld, Device.fld_setFld_ne _ _ _ _ (by decide) (by decide) (by decide) (by omega) (by omega)]
      exact Device.fld_setFld_fits _ l (by decide) (by decide)
  case disables =>
    have hkeeps {f g : Field} (e : Device) (x : Nat) (h : g ≠ f) (hf : f ∈ f.reg.fields) (hg : g ∈ g.reg.fields) :
        (e.setFld f x l).fld g l = e.fld g l := e.fld_setFld_ne x l l h hf hg (by omega) (by omega)
    refine ⟨_, h.act_eq (f := linkEnableEff l false) (linkEnableEff_disables hl hpart h0 h5 h7), ?_, ?_, ?_⟩
    · rw [State.put_linkState, Device.linkState, hkeeps _ _ (by decide) (by decide) (by decide)]
      exact Device.fld_setFld_fits _ l (by decide) (by decide)
    · exact (s.put_fld _ _ l).trans (Device.fld_setFld_fits _ l (by decide) (by decide))
    · rw [State.put_fld, hkeeps _ _ (by decide) (by decide) (by decide), hkeeps _ _ (by decide) (by decide) (by decide), Device.fld_setLink]
      exact Device.fld_setFld_fits _ l (by decide) (by decide)

end Sys2Proof.Machine

/-! ## Routing maps (R327) -/

namespace Sys2Proof.Machine

/-- A counted and signalled host error writes HQ_STATS and HQ_EVENTS alone. -/
theorem Device.fld_hostErr (d : Device) {g : Field} (j : Nat) (h : g.reg ≠ .HQ_STATS) (h' : g.reg ≠ .HQ_EVENTS) (hj : j < 0x10000) :
    d.hostErr.fld g j = d.fld g j := by
  unfold Device.hostErr
  rw [Device.fld_eventSig, Device.fld_setFld_reg _ _ _ _ h' (by decide) hj]
  exact d.fld_count_reg 1 h (by decide) hj

section
variable {d : Device}

/-! ### Loading -/

theorem routeLoadEff_busy (port bytes : Nat) (hstate : d.fld F.FAB_ROUTE_STATUS.OTHER_STATE = 4) :
    routeLoadEff port bytes d = d.setFld F.FAB_ROUTE_STATUS.LOAD_RESULT 2 := by
  rw [routeLoadEff, hstate]
  rfl

theorem routeLoadEff_starts (port bytes : Nat) (hstate : d.fld F.FAB_ROUTE_STATUS.OTHER_STATE = 0) :
    routeLoadEff port bytes d = (d.setFld F.FAB_ROUTE_STATUS.OTHER_STATE 1).emit
      (.hostRead ⟨port, 0⟩ (d.fld F.FAB_ROUTE_LOAD_ADDR.ADDR * 64) bytes) := by
  rw [routeLoadEff, hstate]
  rfl

/-- The device once a load has ended: OTHER_STATE and LOAD_RESULT. -/
def Device.loadEnded (d : Device) (state result : Nat) : Device :=
  (d.setFld F.FAB_ROUTE_STATUS.OTHER_STATE state).setFld F.FAB_ROUTE_STATUS.LOAD_RESULT result

theorem Device.state_loadEnded (d : Device) {state : Nat} (result : Nat) (h : state < 8) :
    (d.loadEnded state result).fld F.FAB_ROUTE_STATUS.OTHER_STATE = state :=
  (Device.fld_setFld_ne _ _ _ _ (by decide) (by decide) (by decide) (by decide) (by decide)).trans (d.fld_setFld_fits 0 (by decide) h)

theorem Device.result_loadEnded (d : Device) (state : Nat) {result : Nat} (h : result < 16) :
    (d.loadEnded state result).fld F.FAB_ROUTE_STATUS.LOAD_RESULT = result := Device.fld_setFld_fits _ 0 (by decide) h

section
variable {bs : List Byte} (hloading : d.fld F.FAB_ROUTE_STATUS.OTHER_STATE = 1)
include hloading

theorem routeLoadDoneEff_unread : routeLoadDoneEff bs false d = (d.loadEnded 0 4).hostErr := by
  unfold routeLoadDoneEff
  rw [if_neg (not_not_intro hloading), if_pos (by rfl)]
  rfl

theorem routeLoadDoneEff_good (hok : d.mapOk (MapImage.ofBytes bs) = true) : routeLoadDoneEff bs true d =
    ((d.setOther (mapBank (MapImage.ofBytes bs))).loadEnded 2 1).setFld F.FAB_ROUTE_STATUS.OTHER_EPOCH (MapImage.ofBytes bs).epoch := by
  unfold routeLoadDoneEff
  rw [if_neg (not_not_intro hloading), if_neg (by decide)]
  exact if_pos hok

theorem routeLoadDoneEff_bad (hbad : d.mapOk (MapImage.ofBytes bs) = false) : routeLoadDoneEff bs true d = d.loadEnded 0 3 := by
  unfold routeLoadDoneEff
  rw [if_neg (not_not_intro hloading), if_neg (by decide)]
  exact if_neg (Bool.eq_false_iff.mp hbad)

end

/-! ### Switching -/

theorem armRouteEff_notLoaded (hstate : d.fld F.FAB_ROUTE_STATUS.OTHER_STATE ≠ 2) :
    armRouteEff d = d.setFld F.FAB_ROUTE_STATUS.SWITCH_RESULT 4 ∧ armImmediateEff d = d.setFld F.FAB_ROUTE_STATUS.SWITCH_RESULT 4 :=
  ⟨if_pos hstate, if_pos hstate⟩

theorem armRouteEff_later (hstate : d.fld F.FAB_ROUTE_STATUS.OTHER_STATE = 2) (hturn : d.turnNo < d.fld F.FAB_ROUTE_SWITCH_TURN.TURN) :
    armRouteEff d = (d.setFld F.FAB_ROUTE_STATUS.OTHER_STATE 3).setFld F.FAB_ROUTE_STATUS.SWITCH_RESULT 1 :=
  (if_neg (not_not_intro hstate)).trans (if_pos hturn)

theorem armRouteEff_past (hstate : d.fld F.FAB_ROUTE_STATUS.OTHER_STATE = 2) (hturn : d.fld F.FAB_ROUTE_SWITCH_TURN.TURN ≤ d.turnNo) :
    armRouteEff d = d.setFld F.FAB_ROUTE_STATUS.SWITCH_RESULT 3 :=
  (if_neg (not_not_intro hstate)).trans (if_neg (Nat.not_lt.mpr hturn))

/-- The routing unit's own state is no register. -/
theorem Device.fld_setRt (d : Device) (x : RouteState) (f : Field) (i : Nat) : ({ d with rt := x } : Device).fld f i = d.fld f i :=
  Device.fld_congr (fun _ _ => rfl) f i

/-- The device with the registers of a switch written: the banks exchanged, the old one RETAINED. -/
def Device.mapShown (d : Device) : Device :=
  let e := d.setFld F.FAB_ROUTE_STATUS.ACTIVE_BANK (1 - d.fld F.FAB_ROUTE_STATUS.ACTIVE_BANK)
  (((e.setFld F.FAB_ROUTE_STATUS.ACTIVE_EPOCH e.activeBank.epoch).setFld F.FAB_ROUTE_STATUS.OTHER_EPOCH d.activeBank.epoch).setFld
    F.FAB_ROUTE_STATUS.OTHER_STATE 4).setFld F.FAB_ROUTE_STATUS.SWITCH_RESULT 2

theorem Device.fld_mapSwitch (d : Device) (f : Field) (i : Nat) : d.mapSwitch.fld f i = d.mapShown.fld f i :=
  d.mapShown.fld_setRt _ f i

/-- What a switch shows: the other bank active, the old one draining. -/
theorem Device.mapSwitch_shows (d : Device) : d.mapSwitch.fld F.FAB_ROUTE_STATUS.OTHER_STATE = 4 ∧
    d.mapSwitch.fld F.FAB_ROUTE_STATUS.SWITCH_RESULT = 2 ∧ d.mapSwitch.fld F.FAB_ROUTE_STATUS.ACTIVE_BANK =
      (1 - d.fld F.FAB_ROUTE_STATUS.ACTIVE_BANK) % 2 ^ F.FAB_ROUTE_STATUS.ACTIVE_BANK.w := by
  have hkeeps {f g : Field} (e : Device) (x : Nat) (h : g ≠ f) (hf : f ∈ f.reg.fields) (hg : g ∈ g.reg.fields) :
      (e.setFld f x).fld g = e.fld g := e.fld_setFld_ne x 0 0 h hf hg (by decide) (by decide)
  have hsame {f : Field} (e : Device) (x : Nat) (h : f.lo + f.w ≤ 64) : (e.setFld f x).fld f = x % 2 ^ f.w := e.fld_setFld_same f x 0 h
  simp only [Device.fld_mapSwitch]
  unfold Device.mapShown
  simp (disch := decide) only [hkeeps, hsame, and_true]
  exact ⟨by decide, by decide⟩

end

/-- Settles O18: a load by OTHER_STATE and what its checks say, a switch by OTHER_STATE and the turn it is armed for. -/
theorem routingMapsLoadAndSwitch : Obligations.RoutingMapsLoadAndSwitch := by
  refine ⟨fun s port bytes h => ⟨fun hstate => ?busy, fun hstate => ?starts, fun hstate => ?notLoaded, fun hstate => ?loaded⟩,
    fun s bs m hs hloading hm => ?ends, fun s hs hstate hidle => ?drained⟩
  case busy => exact h.act_eq (routeLoadEff_busy port bytes hstate)
  case starts =>
    exact ⟨_, h.act_eq (routeLoadEff_starts port bytes hstate),
      (s.put_fld _ _ _).trans ((Device.fld_emit _ _ _ _).trans (Device.fld_setFld_fits _ 0 (by decide) (by decide))), rfl⟩
  case notLoaded =>
    obtain ⟨harm, hnow⟩ := armRouteEff_notLoaded hstate
    exact ⟨h.act_eq harm, h.act_eq hnow⟩
  case loaded =>
    refine ⟨fun hturn => ⟨_, h.act_eq (armRouteEff_later hstate hturn), ?_, ?_⟩, fun hturn => h.act_eq (armRouteEff_past hstate hturn),
      _, h.act_eq (f := armImmediateEff) (if_neg (not_not_intro hstate)), ?_⟩
    · rw [State.put_fld, Device.fld_setFld_ne _ _ _ _ (by decide) (by decide) (by decide) (by decide) (by decide)]
      exact Device.fld_setFld_fits _ 0 (by decide) (by decide)
    · exact (s.put_fld _ _ _).trans (Device.fld_setFld_fits _ 0 (by decide) (by decide))
    · rw [State.put_fld, State.put_fld, State.put_fld]
      exact s.dev.mapSwitch_shows
  case ends =>
    subst hm
    refine ⟨fun hok => ⟨_, hs.act_eq (routeLoadDoneEff_good hloading hok), ?_, ?_, ?_⟩,
      fun hbad => ⟨_, hs.act_eq (routeLoadDoneEff_bad hloading hbad), ?_, ?_, rfl⟩, ⟨_, hs.act_eq (routeLoadDoneEff_unread hloading), ?_, ?_⟩⟩
    · rw [State.put_fld, Device.fld_setFld_ne _ _ _ _ (by decide) (by decide) (by decide) (by decide) (by decide)]
      exact Device.state_loadEnded _ 1 (by decide)
    · rw [State.put_fld, Device.fld_setFld_ne _ _ _ _ (by decide) (by decide) (by decide) (by decide) (by decide)]
      exact Device.result_loadEnded _ 2 (by decide)
    · exact (s.put_fld _ _ _).trans (Device.fld_setFld_same _ _ _ 0 (by decide))
    · exact (s.put_fld _ _ _).trans (Device.state_loadEnded _ 3 (by decide))
    · exact (s.put_fld _ _ _).trans (Device.result_loadEnded _ 0 (by decide))
    · exact (s.put_fld _ _ _).trans ((Device.fld_hostErr _ 0 (by decide) (by decide) (by decide)).trans (Device.state_loadEnded _ 4 (by decide)))
    · exact (s.put_fld _ _ _).trans ((Device.fld_hostErr _ 0 (by decide) (by decide) (by decide)).trans (Device.result_loadEnded _ 0 (by decide)))
  case drained =>
    exact hs.act_eq (f := fun d => if d.fld F.FAB_ROUTE_STATUS.OTHER_STATE = 4 ∧ d.fld F.TURN_STATUS.STATE = 0 then
      d.setFld F.FAB_ROUTE_STATUS.OTHER_STATE 0 else d) (if_pos ⟨hstate, hidle⟩)

end Sys2Proof.Machine

/-! ## The headgate, the weirs and queue telemetry (R337, R339, R340, R342, R388) -/

namespace Sys2Proof.Machine

/-! ### The copies that a register lists -/

theorem filter_sins_outside {α : Type} [DecidableEq α] {dflt : α} (p : Nat × α → Bool) {a : Nat} (x : α) (h : ∀ y, p (a, y) = false) :
    ∀ m : SMap α, (sins dflt a x m).filter p = m.filter p
  | [] => by unfold sins scons; split <;> simp [h]
  | (k, v) :: m => by
    unfold sins scons
    split
    · split <;> simp [h]
    · rw [List.filter_cons, List.filter_cons, filter_sins_outside p x h m]

/-- A table's listing of other keys stands when a key is written. -/
theorem filter_sput_outside {α : Type} [DecidableEq α] {dflt : α} (p : Nat × α → Bool) {a : Nat} (x : α) (h : ∀ y, p (a, y) = false)
    (m : SMap α) : (sput dflt m a x).filter p = m.filter p := by
  rw [sput, filter_sins_outside p x h, List.filter_filter]
  refine List.filter_congr fun y _ => ?_
  by_cases hy : y.1 = a
  · rw [show p y = false from (congrArg p (Prod.ext hy rfl : y = (a, y.2))).trans (h y.2), Bool.false_and]
  · rw [bne_iff_ne.mpr hy, Bool.and_true]

theorem Device.listed_setFld (d : Device) {f : Field} (x : Nat) {i : Nat} {r : Reg} (h : r ≠ f.reg) (hi : i < 0x10000) :
    (d.setFld f x i).listed r = d.listed r := by
  have hkey : regKey f.reg i / 0x10000 = f.reg.ctorIdx := by unfold regKey; omega
  refine congrArg (List.map fun y => y.1 % 0x10000) (filter_sput_outside _ _ (fun y => ?_) d.regs)
  rw [hkey]
  exact beq_eq_false_iff_ne.mpr fun he => h (Reg.ctorIdx_inj he).symm

theorem Device.lt_of_mem_listed {d : Device} {r : Reg} {o : Nat} (h : o ∈ d.listed r) : o < 0x10000 := by
  obtain ⟨y, -, rfl⟩ := List.mem_map.mp h
  exact Nat.mod_lt _ (by decide)

/-! ### The headgate (R337, R339) -/

theorem Device.lt_of_mem_hgOwners {d : Device} {o : Nat} (h : o ∈ d.hgOwners) : o < 0x10000 := by
  rw [Device.hgOwners, List.mem_eraseDups, List.mem_append, List.mem_append] at h
  obtain (h | h) | h := h <;> exact Device.lt_of_mem_listed h

theorem Device.hgOwners_setEnable (d : Device) (v : Nat) : (d.setFld F.HG_CTRL.ENABLE v).hgOwners = d.hgOwners := by
  rw [Device.hgOwners, d.listed_setFld v (by decide) (by decide), d.listed_setFld v (by decide) (by decide),
    d.listed_setFld v (by decide) (by decide), Device.hgOwners]

/-- An owner's levels at their BURST. -/
def Device.levelsFull (d : Device) (o : Nat) : Device :=
  (d.setFld F.HG_LEVEL.REQ (d.fld F.HG_REQ_CFG.BURST o) o).setFld F.HG_LEVEL.PROMPT (d.fld F.HG_PROMPT_CFG.BURST o) o

section
variable {d : Device} {o : Nat} (ho : o < 0x10000)
include ho

theorem Device.fld_levelsFull_reg {g : Field} (h : g.reg ≠ .HG_LEVEL) {j : Nat} (hj : j < 0x10000) : (d.levelsFull o).fld g j = d.fld g j :=
  (Device.fld_setFld_reg _ _ _ _ h ho hj).trans (Device.fld_setFld_reg _ _ _ _ h ho hj)

theorem Device.levels_levelsFull : (d.levelsFull o).fld F.HG_LEVEL.REQ o = d.fld F.HG_REQ_CFG.BURST o % 2 ^ F.HG_LEVEL.REQ.w ∧
    (d.levelsFull o).fld F.HG_LEVEL.PROMPT o = d.fld F.HG_PROMPT_CFG.BURST o % 2 ^ F.HG_LEVEL.PROMPT.w :=
  ⟨(Device.fld_setFld_ne _ _ _ _ (by decide) (by decide) (by decide) ho ho).trans (Device.fld_setFld_same _ _ _ _ (by decide)),
    Device.fld_setFld_same _ _ _ _ (by decide)⟩

theorem Device.framed_levelsFull {b : Device} {rs : List Reg} (h : b.framed d rs) (hr : .HG_LEVEL ∈ rs) : b.framed (d.levelsFull o) rs :=
  Device.framed_setFld (Device.framed_setFld h _ _ _ hr ho) _ _ _ hr ho

end

theorem Device.fld_levelsFull_copy (d : Device) {o j : Nat} {g : Field} (hg : g.reg = .HG_LEVEL) (h : j ≠ o) : (d.levelsFull o).fld g j = d.fld g j :=
  (Device.fld_setFld_copy _ _ hg h).trans (Device.fld_setFld_copy _ _ hg h)

/-- Filling the levels of some owners fills each of them, and leaves those of the others. -/
theorem Device.levels_foldl_levelsFull (os : List Nat) : ∀ (d : Device), (∀ o ∈ os, o < 0x10000) → ∀ o, o < 0x10000 →
    (o ∈ os → (os.foldl Device.levelsFull d).fld F.HG_LEVEL.REQ o = d.fld F.HG_REQ_CFG.BURST o % 2 ^ F.HG_LEVEL.REQ.w ∧
      (os.foldl Device.levelsFull d).fld F.HG_LEVEL.PROMPT o = d.fld F.HG_PROMPT_CFG.BURST o % 2 ^ F.HG_LEVEL.PROMPT.w) ∧
    (o ∉ os → ∀ g : Field, g.reg = .HG_LEVEL → (os.foldl Device.levelsFull d).fld g o = d.fld g o) := by
  induction os with
  | nil => exact fun d _ o _ => ⟨fun h => absurd h List.not_mem_nil, fun _ g _ => rfl⟩
  | cons a os ih =>
    intro d hos o ho
    have ha : a < 0x10000 := hos a List.mem_cons_self
    obtain ⟨hin, hout⟩ := ih (d.levelsFull a) (fun o h => hos o (List.mem_cons_of_mem a h)) o ho
    rw [List.foldl_cons]
    refine ⟨fun h => ?filled, fun h g hg => ?kept⟩
    case filled =>
      by_cases hmem : o ∈ os
      · rw [(hin hmem).1, (hin hmem).2, Device.fld_levelsFull_reg ha (by decide) ho, Device.fld_levelsFull_reg ha (by decide) ho]
        exact ⟨rfl, rfl⟩
      · obtain rfl := (List.mem_cons.mp h).resolve_right hmem
        rw [hout hmem _ rfl, hout hmem _ rfl]
        exact Device.levels_levelsFull ha
    case kept =>
      rw [hout (fun hmem => h (List.mem_cons_of_mem a hmem)) g hg]
      exact d.fld_levelsFull_copy hg fun he => h (he ▸ List.mem_cons_self)

/-- Filling levels writes no other register and no memory. -/
theorem Device.framed_foldl_levelsFull {b : Device} {rs : List Reg} (hr : .HG_LEVEL ∈ rs) (os : List Nat) :
    ∀ (d : Device), (∀ o ∈ os, o < 0x10000) → b.framed d rs → b.framed (os.foldl Device.levelsFull d) rs := by
  induction os with
  | nil => exact fun _ _ h => h
  | cons a os ih =>
    exact fun d hos h => ih _ (fun o ho => hos o (List.mem_cons_of_mem a ho)) (Device.framed_levelsFull (hos a List.mem_cons_self) h hr)

theorem Device.mem_foldl_levelsFull (os : List Nat) (d : Device) : (os.foldl Device.levelsFull d).mem = d.mem :=
  List.foldl_keep Device.mem Device.levelsFull (fun _ _ => rfl) os d

section
variable {d : Device}

theorem hgEnableEff_fills (hoff : d.on F.HG_CTRL.ENABLE = false) :
    hgEnableEff true d = d.hgOwners.foldl Device.levelsFull (d.setFld F.HG_CTRL.ENABLE 1) := by
  unfold hgEnableEff
  rw [hoff, ← d.hgOwners_setEnable 1]
  rfl

theorem hgEnableEff_on (hon : d.on F.HG_CTRL.ENABLE = true) : hgEnableEff true d = d.setFld F.HG_CTRL.ENABLE 1 := by
  unfold hgEnableEff
  rw [hon]
  rfl

/-- ENABLE stands while levels are filled. -/
theorem Device.on_foldl_levelsFull (os : List Nat) : ∀ (d : Device), (∀ o ∈ os, o < 0x10000) →
    (os.foldl Device.levelsFull d).fld F.HG_CTRL.ENABLE = d.fld F.HG_CTRL.ENABLE := by
  induction os with
  | nil => exact fun _ _ => rfl
  | cons a os ih =>
    exact fun d hos => (ih _ fun o ho => hos o (List.mem_cons_of_mem a ho)).trans
      (Device.fld_levelsFull_reg (hos a List.mem_cons_self) (by decide) (by decide))

end

theorem Field.get_place (f : Field) (v : Nat) (h : f.lo + f.w ≤ 64) : f.get (f.place v) = v % 2 ^ f.w := by
  have hset := f.get_set (0#64) v h
  rwa [Field.set, BitVec.zero_and, BitVec.zero_or] at hset

/-- The drop ring once its base is written: the address, and live through the PF that wrote it. -/
theorem hgDropBaseEff_places (port addr : Nat) (d : Device) :
    (hgDropBaseEff port addr d).fld F.HG_DROP_BASE.ADDR = addr / 4096 % 2 ^ F.HG_DROP_BASE.ADDR.w ∧
      (hgDropBaseEff port addr d).ringFn .HG_DROP_BASE = ⟨port, 0⟩ ∧ d.framed (hgDropBaseEff port addr d) [.HG_DROP_BASE] := by
  refine ⟨?_, ?_, ?_⟩
  · refine (congrArg F.HG_DROP_BASE.ADDR.get (d.reg_setReg_same .HG_DROP_BASE 0 _)).trans (Field.get_place _ _ (by decide))
  · exact congrArg (fun n => (⟨n - 1, 0⟩ : Fn)) (sget_sput_same _ _ _)
  · exact Device.framed_congr (Device.framed_setReg (d.framed_refl _) _ _ _ (List.mem_singleton.mpr rfl) (by decide)) rfl rfl rfl rfl

/-! ### The weirs (R340, R388) -/

/-- A class weir refilled. -/
def Device.classRefilled (d : Device) (c : Nat) : Device :=
  let level := refilled (d.classLevel c) (d.fld F.WEIR_CLASS_CFG.RATE c) (d.fld F.WEIR_CLASS_CFG.BURST c)
  { d with rt.classLevel := sput weirFull d.rt.classLevel c level }

/-- An owner weir refilled. -/
def Device.ownerRefilled (d : Device) (o : Nat) : Device :=
  let level := refilled (d.ownerLevel o) (d.fld F.WEIR_OWNER_CFG.RATE o) (d.fld F.WEIR_OWNER_CFG.BURST o)
  { d with rt.ownerLevel := sput weirFull d.rt.ownerLevel o level }

theorem Device.fld_classRefilled (d : Device) (c : Nat) (f : Field) (i : Nat) : (d.classRefilled c).fld f i = d.fld f i :=
  d.fld_setRt _ f i

theorem Device.classLevel_classRefilled (d : Device) (c j : Nat) : (d.classRefilled c).classLevel j =
    if j = c then refilled (d.classLevel c) (d.fld F.WEIR_CLASS_CFG.RATE c) (d.fld F.WEIR_CLASS_CFG.BURST c) else d.classLevel j :=
  sget_sput _ _ _ _

/-- A refill of distinct classes raises each once. -/
theorem Device.classLevel_foldl (cs : List Nat) : ∀ (d : Device), cs.Nodup → ∀ c, (cs.foldl Device.classRefilled d).classLevel c =
    if c ∈ cs then refilled (d.classLevel c) (d.fld F.WEIR_CLASS_CFG.RATE c) (d.fld F.WEIR_CLASS_CFG.BURST c) else d.classLevel c := by
  induction cs with
  | nil => exact fun d _ c => (if_neg List.not_mem_nil).symm
  | cons a cs ih =>
    intro d hnodup c
    obtain ⟨ha, hcs⟩ := List.nodup_cons.mp hnodup
    rw [List.foldl_cons, ih _ hcs, Device.fld_classRefilled, Device.fld_classRefilled, Device.classLevel_classRefilled]
    by_cases hc : c = a
    · subst hc
      simp [ha]
    · simp [hc]

theorem weirRefillEff_eq {d : Device} (hsnap : d.snapWeir = none) : weirRefillEff d =
    let e := [1, 2, 3, 4, 5, 6].foldl Device.classRefilled d
    e.weirOwners.foldl Device.ownerRefilled e := by
  rw [weirRefillEff, hsnap]
  rfl

theorem weirRefillEff_class {d : Device} (hsnap : d.snapWeir = none) {c : Nat} (h1 : 1 ≤ c) (h6 : c ≤ 6) : (weirRefillEff d).classLevel c =
    refilled (d.classLevel c) (d.fld F.WEIR_CLASS_CFG.RATE c) (d.fld F.WEIR_CLASS_CFG.BURST c) := by
  have hmem : c ∈ [1, 2, 3, 4, 5, 6] := by simp; omega
  rw [weirRefillEff_eq hsnap]
  refine (List.foldl_keep (fun d : Device => d.classLevel c) Device.ownerRefilled (fun _ _ => rfl) _ _).trans ?_
  exact (Device.classLevel_foldl _ d (by decide) c).trans (if_pos hmem)

theorem Device.stageWeir_passes {d : Device} (h : lowest (weirFaults (Device.applySnap true d.staged d)) = none) :
    d.stageWeir = ({ d with snapWeir := some d.staged } : Device).setFld F.WEIR_STATUS.STAGE_RESULT 1 := by
  rw [Device.stageWeir, h]

theorem Device.stageWeir_fails {d : Device} {off : Nat} (h : lowest (weirFaults (Device.applySnap true d.staged d)) = some off) :
    d.stageWeir = (d.setFld F.WEIR_STATUS.STAGE_RESULT 3).setFld F.CFG_STAGE_FAULT.OFFSET off := by
  rw [Device.stageWeir, h]

/-! ### Telemetry (R342) -/

/-- One source's sample written to a ring that has room, PRODUCED counting it. -/
def Device.sampled (d : Device) (ages : List (Nat × Nat × Nat)) (src : Nat) : Device :=
  let p := d.fld F.WEIR_TEL_PRODUCED.PRODUCED
  (d.hostWrite (d.ringFn .WEIR_TEL_BASE)
    (d.fld F.WEIR_TEL_BASE.ADDR * 4096 + 64 * (p % 2 ^ d.fld F.WEIR_TEL_CTRL.LOG2_SIZE))
    ((d.telRecord ages src).take 63 ++ [BitVec.ofNat 8 (phase p (2 ^ d.fld F.WEIR_TEL_CTRL.LOG2_SIZE))])).setFld
    F.WEIR_TEL_PRODUCED.PRODUCED (p + 1)

theorem Device.ringPut_room {d : Device} {fn : Fn} {base size produced consumed n : Nat} {bs : List Byte} (h : produced - consumed < size) :
    d.ringPut fn base size produced consumed n bs =
      (d.hostWrite fn (base + n * (produced % size)) (bs.take (n - 1) ++ [BitVec.ofNat 8 (phase produced size)]), true) :=
  if_neg (Nat.not_le.mpr h)

theorem telemetryEff_single {d : Device} {ages : List (Nat × Nat × Nat)} {src : Nat} (hon : d.on F.WEIR_TEL_CTRL.ENABLE = true)
    (hsrc : d.telSources = [src])
    (hroom : d.fld F.WEIR_TEL_PRODUCED.PRODUCED - d.fld F.WEIR_TEL_CONSUMED.CONSUMED < 2 ^ d.fld F.WEIR_TEL_CTRL.LOG2_SIZE) :
    ∃ v, telemetryEff ages d = (d.sampled ages src).signal v := by
  rw [telemetryEff, hon, hsrc, if_neg (by decide), List.foldl_cons, List.foldl_nil]
  dsimp only
  rw [Device.ringPut_room hroom]
  exact ⟨_, rfl⟩

theorem Device.framed_hostWrite {d e : Device} {rs : List Reg} (h : d.framed e rs) (fn : Fn) (a : Nat) (bs : List Byte) :
    d.framed (e.hostWrite fn a bs) rs := by
  unfold Device.hostWrite
  split
  · exact Device.framed_congr h rfl rfl rfl rfl
  · exact h

theorem Device.framed_signal {d e : Device} {rs : List Reg} (h : d.framed e rs) (v : Nat) : d.framed (e.signal v) rs := by
  unfold Device.signal Device.msix
  split
  · split
    · exact Device.framed_congr h rfl rfl rfl rfl
    · exact h
  · exact h

@[simp] theorem Device.mem_hostWrite (d : Device) (fn : Fn) (a : Nat) (bs : List Byte) : (d.hostWrite fn a bs).mem = d.mem := by
  unfold Device.hostWrite
  split <;> rfl

@[simp] theorem Device.mem_signal (d : Device) (v : Nat) : (d.signal v).mem = d.mem := by
  unfold Device.signal Device.msix
  split
  · split <;> rfl
  · rfl

theorem Device.framed_sampled (d : Device) (ages : List (Nat × Nat × Nat)) (src : Nat) : d.framed (d.sampled ages src) [.WEIR_TEL_PRODUCED] :=
  Device.framed_setFld (Device.framed_hostWrite (d.framed_refl _) _ _ _) _ _ _ (List.mem_singleton.mpr rfl) (by decide)

/-- Settles O20: ENABLE by what it was, a weir commit by its checks, a refill and a sample by what they find. -/
theorem headgateAndWeirs : Obligations.HeadgateAndWeirs := by
  refine ⟨fun s port h => ⟨fun hon => ?on, ?off, fun hoff => ?fills, fun addr => ?ring, fun hpass => ?passes, fun off hfail => ?fails⟩,
    fun s at_ hs => ⟨fun hsnap => ?refill, fun ages hoff => ?silent, fun ages src hon hsrc hroom => ?samples⟩⟩
  case on => exact h.act_eq (hgEnableEff_on hon)
  case off => exact h.act_eq (f := hgEnableEff false) rfl
  case fills =>
    have hlt : ∀ o ∈ s.dev.hgOwners, o < 0x10000 := fun o => Device.lt_of_mem_hgOwners
    refine ⟨_, h.act_eq (hgEnableEff_fills hoff), ?_, fun o ho => ?_, ?_⟩
    · rw [State.put_on, Device.on, Device.on_foldl_levelsFull _ _ hlt]
      exact Device.on_setFld_one _ 0 (by decide) (by decide)
    · obtain ⟨hreq, hprompt⟩ := (Device.levels_foldl_levelsFull s.dev.hgOwners (s.dev.setFld F.HG_CTRL.ENABLE 1) hlt o (hlt o ho)).1 ho
      rw [State.put_fld, State.put_fld, hreq, hprompt, Device.fld_setFld_reg _ _ _ _ (by decide) (by decide) (hlt o ho),
        Device.fld_setFld_reg _ _ _ _ (by decide) (by decide) (hlt o ho)]
      exact ⟨rfl, rfl⟩
    · exact State.framed_put (Device.framed_foldl_levelsFull (by decide) _ _ hlt
        (Device.framed_setFld (s.dev.framed_refl _) _ _ _ (by decide) (by decide))) (Device.mem_foldl_levelsFull _ _)
  case ring =>
    obtain ⟨haddr, hfn, hframed⟩ := hgDropBaseEff_places port addr s.dev
    exact ⟨_, h.act_eq (f := hgDropBaseEff port addr) rfl, haddr, rfl, hfn, State.framed_put hframed rfl⟩
  case passes => exact h.act_eq (Device.stageWeir_passes hpass)
  case fails => exact h.act_eq (Device.stageWeir_fails hfail)
  case refill =>
    exact ⟨_, hs.act_eq (f := fun d => weirRefillEff (d.at_ at_)) rfl,
      fun c h1 h6 => weirRefillEff_class (d := s.dev.at_ at_) hsnap h1 h6⟩
  case silent =>
    have hsilent : (!(s.dev.at_ at_).on F.WEIR_TEL_CTRL.ENABLE) = true := by rw [Device.on_at, hoff]; rfl
    exact hs.act_eq (f := fun d => telemetryEff ages (d.at_ at_)) (if_pos hsilent)
  case samples =>
    obtain ⟨v, heff⟩ := telemetryEff_single (d := s.dev.at_ at_) (ages := ages) hon hsrc hroom
    refine ⟨_, hs.act_eq (f := fun d => telemetryEff ages (d.at_ at_)) heff, ?_, State.framed_put (Device.framed_signal ?_ v) ?_⟩
    · exact (s.put_fld _ _ _).trans ((Device.fld_signal _ _ _ _).trans (Device.fld_setFld_same _ _ _ _ (by decide)))
    · exact (s.dev.at_ at_).framed_sampled ages src
    · rw [Device.mem_signal, Device.sampled, Device.mem_setFld, Device.mem_hostWrite]
      rfl

end Sys2Proof.Machine

/-! ## Packets in transit, holds and routing notices (R268, R317, R325, R326) -/

namespace Sys2Proof.Machine

/-! ### Counting the packets that a weir holds (R340) -/

@[simp] theorem Device.rt_count (d : Device) (f : Field) (n i : Nat) : (d.count f n i).rt = d.rt := by
  unfold Device.count
  split <;> rfl

theorem Device.countWaits_eq (d : Device) (c : Nat) : ∃ nc no : Nat, ∃ wait : List TxPacket, d.countWaits c =
    let e : Device := { d with rt.wait := wait }
    let e := if nc = 0 then e else e.count F.WEIR_STATS.CLASS_WAITS nc
    if no = 0 then e else e.count F.WEIR_STATS.OWNER_WAITS no := ⟨_, _, _, rfl⟩

/-- Counting what the weirs hold writes no link and no register but WEIR_STATS. -/
theorem Device.countWaits_keeps (d : Device) (c : Nat) : (d.countWaits c).fab = d.fab ∧ (d.countWaits c).node = d.node := by
  obtain ⟨nc, no, wait, heq⟩ := d.countWaits_eq c
  have hkeeps (e : Device) (f : Field) (hf : f.reg = .WEIR_STATS) (n : Nat) (h : e.fab = d.fab ∧ e.node = d.node) :
      (if n = 0 then e else e.count f n).fab = d.fab ∧ (if n = 0 then e else e.count f n).node = d.node := by
    split
    · exact h
    · exact ⟨(e.fab_count f n 0).trans h.1, (e.fld_count_reg n (by rw [hf]; decide) (by decide) (by decide)).trans h.2⟩
  rw [heq]
  exact hkeeps _ _ rfl no (hkeeps _ _ rfl nc ⟨rfl, d.fld_setRt _ _ _⟩)

/-! ### A packet in transit (R317) -/

section
variable {d : Device} {p : TxPacket} {l : Nat}

theorem Device.epochOf_transit (hsrc : p.pkt.src ≠ d.node) : d.epochOf p = p.pkt.epoch := if_neg hsrc

/-- A transit packet with a link for its route joins that link's queue. -/
theorem Device.sendWaiting_transit (hsrc : p.pkt.src ≠ d.node) (hroute : d.routeOf p.pkt.dest p.pkt.tc p.pkt.epoch = .link l) :
    d.sendWaiting p = (if (d.unwait p).oldRouted p.pkt.epoch then (d.unwait p).count F.FAB_ROUTE_STATS.OLD_ROUTED
      else d.unwait p).enqueue l { p with heldUntil := none } := by
  have hown : (p.pkt.src == d.node) = false := beq_eq_false_iff_ne.mpr hsrc
  have hepoch : (d.unwait p).epochOf p = p.pkt.epoch := if_neg hsrc
  rw [Device.sendWaiting, Device.epochOf_transit hsrc, hroute]
  dsimp only
  rw [hown, hepoch]
  rfl

theorem Device.queue_sendWaiting (hsrc : p.pkt.src ≠ d.node) (hroute : d.routeOf p.pkt.dest p.pkt.tc p.pkt.epoch = .link l) :
    ((d.sendWaiting p).link l).queue = (d.link l).queue ++ [{ p with heldUntil := none }] := by
  rw [Device.sendWaiting_transit hsrc hroute, Device.enqueue, Device.link_setLink_same]
  split
  · rw [Device.link_count]
    rfl
  · rfl

end

/-- What PACKET_TRANSMIT does with the next packet of a class. -/
def transmitEff (cls : Nat) (d : Device) : Device :=
  match (d.countWaits cls).nextPacket cls with
  | some t => (d.countWaits cls).sendWaiting t
  | none => d.countWaits cls

theorem State.awake.exec_packetTransmit {s : State} (hs : s.awake) {at_ cls : Nat} {d : Device} (hd : transmitEff cls (s.dev.at_ at_) = d) :
    exec (.packetTransmit at_ cls) s = .next (s.put d) := hs.act_eq (f := fun d => transmitEff cls (d.at_ at_)) hd

/-! ### Holds that run out (R325) -/

/-- A waiting packet whose hold has run out. -/
def Device.heldOut (d : Device) (t : TxPacket) : Bool :=
  match t.heldUntil with
  | some u => decide (u ≤ d.now) && !d.movable t
  | none => false

/-- A packet whose hold has run out is dropped (R325). -/
def Device.holdDropped (d : Device) (t : TxPacket) : Device :=
  if t.pkt.src = d.node then ((d.unwait t).count F.FAB_ROUTE_STATS.HELD_DROPS).responseCut t.pkt.msgId
  else (d.unwait t).dropTransit t.pkt

theorem State.awake.exec_routeHoldExpiry {s : State} (hs : s.awake) {at_ : Nat} {d : Device}
    (hd : ((s.dev.at_ at_).rt.wait.filter (s.dev.at_ at_).heldOut).foldl Device.holdDropped (s.dev.at_ at_) = d) :
    exec (.routeHoldExpiry at_) s = .next (s.put d) :=
  hs.act_eq (f := fun d => ((d.at_ at_).rt.wait.filter (d.at_ at_).heldOut).foldl Device.holdDropped (d.at_ at_)) hd

theorem Device.holdDropped_own {d : Device} {p : TxPacket} (hwait : d.rt.wait = [p]) (hsrc : p.pkt.src = d.node) :
    d.holdDropped p = (({ d with rt.wait := [] } : Device).count F.FAB_ROUTE_STATS.HELD_DROPS |>.responseCut p.pkt.msgId) := by
  have hunwait : d.unwait p = { d with rt.wait := [] } := by
    rw [Device.unwait, hwait, List.erase_cons_head]
  rw [Device.holdDropped, hunwait, if_pos hsrc]

/-! ### Notices (R268, R326) -/

section
variable {d : Device} {p : List Byte} {o : OutMsg}

theorem routingNoticeEff_unreachable (host : List Byte) (hty : fieldAt p 0 1 = 0x42) : routingNoticeEff p host d = d.declareDead (fieldAt p 6 2) :=
  if_pos hty

section
variable (hty : fieldAt p 0 1 = 0x41) (hmsg : d.outMsg (fieldAt p 8 6) = some o) (hnode : o.node = fieldAt p 6 2)
  (hattempt : fieldAt p 14 1 = o.attempt % 16)
include hty hmsg hnode hattempt

theorem routingNoticeEff_stale (host : List Byte) : routingNoticeEff p host d =
    if o.stale then (d.settle o 3).event F.SLU_EVENTS.STALE_EPOCH
    else ({ d with slu.msgs := d.slu.msgs.map fun (x : OutMsg) => if x.msgId = fieldAt p 8 6 then { o with stale := true } else x } : Device).resend
      { o with stale := true } host := by
  have hnamed : ¬(o.node ≠ fieldAt p 6 2 ∨ fieldAt p 14 1 ≠ o.attempt % 16) := by simp [hnode, hattempt]
  rw [routingNoticeEff]
  dsimp only
  rw [if_neg (by rw [hty]; decide), if_pos hty, hmsg]
  dsimp only
  rw [if_neg hnamed]

end
end

/-- Settles O19: a class by its next packet, a hold by whose packet it is, a notice by its TYPE and whether the message was stale before. -/
theorem packetsRouteAndNotices : Obligations.PacketsRouteAndNotices := by
  intro s hs
  refine ⟨fun at_ cls p l hnext hsrc hroute => ?transit, fun at_ cls hnext => ?idle, fun at_ p u hwait hheld hu hmov hsrc => ?expiry,
    fun p host hty => hs.act_eq (routingNoticeEff_unreachable host hty), fun p host o hty hmsg hnode hattempt => ⟨?again, ?first⟩⟩
  case transit =>
    obtain ⟨hfab, hnode⟩ := (s.dev.at_ at_).countWaits_keeps cls
    have heff : transmitEff cls (s.dev.at_ at_) = ((s.dev.at_ at_).countWaits cls).sendWaiting p := by rw [transmitEff, hnext]
    refine ⟨_, hs.exec_packetTransmit heff, ?_⟩
    rw [State.put_link, Device.queue_sendWaiting (fun h => hsrc (h.trans hnode)) hroute, Device.link_congr hfab]
    rfl
  case idle => exact hs.exec_packetTransmit (by rw [transmitEff, hnext])
  case expiry =>
    have hout : (s.dev.at_ at_).heldOut p = true := by
      rw [Device.heldOut, hheld]
      simp [hu, hmov]
    refine hs.exec_routeHoldExpiry ?_
    rw [show (s.dev.at_ at_).rt.wait = [p] from hwait, List.filter_cons_of_pos hout, List.filter_nil, List.foldl_cons, List.foldl_nil]
    exact Device.holdDropped_own hwait hsrc
  case again => exact fun hstale => hs.act_eq ((routingNoticeEff_stale hty hmsg hnode hattempt host).trans (if_pos hstale))
  case first =>
    rintro ms rfl hfresh
    exact hs.act_eq ((routingNoticeEff_stale hty hmsg hnode hattempt host).trans (if_neg (Bool.eq_false_iff.mp hfresh)))

end Sys2Proof.Machine

/-! ## NVMe commands and the admin pass-through (R364, R365, R366, R369) -/

namespace Sys2Proof.Machine

/-! ### What a submission leaves (R364) -/

/-- A write of a register that stands later in the table leaves the first copy of an earlier one, whatever copy it names. -/
theorem Device.fld_setFld_below (d : Device) {f g : Field} (x i : Nat) (h : g.reg.ctorIdx < f.reg.ctorIdx) : (d.setFld f x i).fld g = d.fld g := by
  refine congrArg g.get (d.reg_setReg_key f.reg g.reg i 0 _ ?_)
  unfold regKey
  omega

@[simp] theorem Device.host_store (d : Device) (a : Nat) (bs : List Byte) : (d.store a bs).host = d.host := by
  unfold Device.store
  split <;> rfl

@[simp] theorem Device.host_count (d : Device) (f : Field) (n i : Nat) : (d.count f n i).host = d.host := by
  unfold Device.count
  split <;> rfl

section
variable {d : Device}

theorem Device.fld_setHost (d : Device) (x : HostState) (f : Field) (i : Nat) : ({ d with host := x } : Device).fld f i = d.fld f i :=
  Device.fld_congr (fun _ _ => rfl) f i

/-- Submitting a command appends it, as given but for what the port gives it. -/
theorem Device.submit_eq (d : Device) (c : NvmeCmd) (opcode nsid : Nat) : ∃ c' : NvmeCmd, ∃ h : HostState, ∃ n : Nat, ∃ o : Out,
    d.submit c opcode nsid = (({ d with host := h } : Device).setFld F.NVM_PORT_STATS.OUTSTANDING n c.port).emit o ∧
      h.nvme = d.host.nvme ++ [c'] ∧ h.adminPort = d.host.adminPort ∧ c'.port = c.port ∧ c'.kind = c.kind ∧ c'.opcode = opcode ∧
      c'.offset = c.offset :=
  ⟨_, _, _, _, rfl, rfl, rfl, rfl, rfl, rfl, rfl⟩

/-- Of the registers, a submission writes the port's counters. -/
theorem Device.fld_submit (d : Device) (c : NvmeCmd) (opcode nsid : Nat) {g : Field} (h : g.reg.ctorIdx < Reg.ctorIdx .NVM_PORT_STATS) :
    (d.submit c opcode nsid).fld g = d.fld g := by
  obtain ⟨c', x, n, o, heq, -⟩ := d.submit_eq c opcode nsid
  rw [heq, Device.fld_emit, Device.fld_setFld_below _ _ _ h, Device.fld_setHost]

theorem Device.fld_readErrorLog (d : Device) (p : Nat) {g : Field} (h : g.reg.ctorIdx < Reg.ctorIdx .NVM_PORT_STATS) :
    (d.readErrorLog p).fld g = d.fld g := by
  unfold Device.readErrorLog Device.setup
  split
  · exact d.fld_submit _ _ _ h
  · rfl

/-! ### Completions (R364, R369) -/

section
variable {root : Nat} {entry : List Byte} {c : NvmeCmd} (hby : d.nvmeBy root (fieldAt entry 12 2) = some c)
include hby

/-- What an admin command's completion shows: STATUS and ACTIVE, an error's event and log, RESULT and ADMIN_DONE. -/
def Device.adminShown (d : Device) (root status : Nat) : Device :=
  let e := (d.setFld F.NVM_ADMIN_STATUS.NVME_STATUS status).setFld F.NVM_ADMIN_STATUS.ACTIVE 0
  let e := if status ≠ 0 then (e.nvmEvent F.NVM_EVENTS.IO_ERROR).readErrorLog root else e
  (e.setFld F.NVM_ADMIN_STATUS.RESULT (if status = 0 then 1 else 6)).nvmEvent F.NVM_EVENTS.ADMIN_DONE

theorem nvmeCompletionEff_admin (hkind : c.kind = .admin) :
    ∃ e : Device, nvmeCompletionEff root entry d = e.adminShown root (fieldAt entry 14 2 / 2) := by
  have hplaced : (if fieldAt entry 14 2 / 2 = 0 then d.readWaits c else none) = none := by
    rw [Device.readWaits, hkind]
    exact ite_self none
  unfold nvmeCompletionEff
  rw [hby]
  dsimp only
  rw [hplaced, hkind]
  exact ⟨_, rfl⟩

section
variable (hok : fieldAt entry 14 2 / 2 = 0)
include hok

theorem nvmeCompletionEff_write (hkind : c.kind = .write) :
    nvmeCompletionEff root entry d = ((d.dropNvme c).count F.NVM_PORT_ERRORS.COMMANDS 1 root).flashEnded c 0 := by
  have hplaced : d.readWaits c = none := by rw [Device.readWaits, hkind]
  unfold nvmeCompletionEff
  rw [hby]
  dsimp only
  rw [hok, hplaced, hkind]
  rfl

theorem nvmeCompletionEff_read (hkind : c.kind = .read ∨ c.kind = .page) (hw : d.readWaits c = none) :
    nvmeCompletionEff root entry d = ((d.dropNvme c).count F.NVM_PORT_ERRORS.COMMANDS 1 root).readDone c := by
  unfold nvmeCompletionEff
  rw [hby]
  dsimp only
  rw [hok, hw]
  rcases hkind with h | h <;> rw [h] <;> rfl

theorem nvmeCompletionEff_trim (hkind : c.kind = .trim) :
    nvmeCompletionEff root entry d = (d.dropNvme c).count F.NVM_PORT_ERRORS.COMMANDS 1 root := by
  have hplaced : d.readWaits c = none := by rw [Device.readWaits, hkind]
  unfold nvmeCompletionEff
  rw [hby]
  dsimp only
  rw [hok, hplaced, hkind]
  rfl

theorem nvmeCompletionEff_own (hkind : c.kind = .abort ∨ c.kind = .setup) : nvmeCompletionEff root entry d = d.dropNvme c := by
  have hplaced : d.readWaits c = none := by rcases hkind with h | h <;> rw [Device.readWaits, h]
  unfold nvmeCompletionEff
  rw [hby]
  dsimp only
  rw [hok, hplaced]
  rcases hkind with h | h <;> rw [h] <;> rfl

end
end

/-- An admin command's completion shows its status with ACTIVE 0, RESULT 1 or 6 and the event. -/
theorem Device.adminShown_fields (d : Device) (root status : Nat) :
    (d.adminShown root status).fld F.NVM_ADMIN_STATUS.ACTIVE = 0 ∧
      (d.adminShown root status).fld F.NVM_ADMIN_STATUS.NVME_STATUS = status % 2 ^ F.NVM_ADMIN_STATUS.NVME_STATUS.w ∧
      (d.adminShown root status).fld F.NVM_ADMIN_STATUS.RESULT = (if status = 0 then 1 else 6) ∧
      (d.adminShown root status).fld F.NVM_EVENTS.ADMIN_DONE = 1 := by
  have hkeeps (e : Device) (f g : Field) (x : Nat) (h : g ≠ f) (hf : f ∈ f.reg.fields) (hg : g ∈ g.reg.fields) : (e.setFld f x).fld g = e.fld g :=
    e.fld_setFld_ne x 0 0 h hf hg (by decide) (by decide)
  have hevent (e : Device) (f g : Field) (h : g ≠ f) (hf : f ∈ f.reg.fields) (hg : g ∈ g.reg.fields) : (e.nvmEvent f).fld g = e.fld g :=
    e.fld_eventSig_ne _ 0 h hf hg (by decide)
  have hlog (e : Device) (g : Field) (h : g.reg.ctorIdx < Reg.ctorIdx .NVM_PORT_STATS) (hne : g ≠ F.NVM_EVENTS.IO_ERROR) (hg : g ∈ g.reg.fields) :
      (if status ≠ 0 then (e.nvmEvent F.NVM_EVENTS.IO_ERROR).readErrorLog root else e).fld g = e.fld g := by
    split
    · exact (Device.fld_readErrorLog _ _ h).trans (hevent _ _ _ hne (by decide) hg)
    · rfl
  unfold Device.adminShown
  dsimp only
  refine ⟨?_, ?_, ?_, Device.fld_eventSig_same _ _ (by decide) (by decide)⟩
  · rw [hevent _ _ _ (by decide) (by decide) (by decide), hkeeps _ _ _ _ (by decide) (by decide) (by decide),
      hlog _ _ (by decide) (by decide) (by decide)]
    exact Device.fld_setFld_fits _ 0 (by decide) (by decide)
  · rw [hevent _ _ _ (by decide) (by decide) (by decide), hkeeps _ _ _ _ (by decide) (by decide) (by decide),
      hlog _ _ (by decide) (by decide) (by decide), hkeeps _ _ _ _ (by decide) (by decide) (by decide)]
    exact Device.fld_setFld_same _ _ _ 0 (by decide)
  · rw [hevent _ _ _ (by decide) (by decide) (by decide)]
    refine Device.fld_setFld_fits _ 0 (by decide) ?_
    split <;> decide

/-! ### Timeouts and the controllers' requests (R365, R366) -/

theorem ioTimeoutEff_names {root id : Nat} {c : NvmeCmd} (hby : d.nvmeBy root id = some c)
    (hkind : c.kind = .read ∨ c.kind = .write ∨ c.kind = .trim ∨ c.kind = .page) :
    ioTimeoutEff root id d = (((d.failNvme c 2).count F.NVM_PORT_STATS.TIMEOUTS 1 root).nvmEvent F.NVM_EVENTS.TIMEOUT).submit
      { port := root, id := 0, kind := .abort, lba := c.queue + id * 65536 } 8 0 := by
  unfold ioTimeoutEff
  rw [hby]
  exact if_pos hkind

theorem adminTimeoutEff_finds {root : Nat} {c : NvmeCmd} (hfind : (d.nvmeOf root).find? (fun c => c.queue == 0) = some c) :
    adminTimeoutEff root d =
      (((d.failNvme c 2).count F.NVM_PORT_STATS.TIMEOUTS 1 root).nvmEvent F.NVM_EVENTS.TIMEOUT).resetRoot root 2 := by
  unfold adminTimeoutEff
  rw [hfind]

/-! ### The admin pass-through (R369) -/

section
variable {port p : Nat} {block : List Byte} (hidle : d.on F.NVM_ADMIN_STATUS.ACTIVE = false)
include hidle

/-- A command that is not allowed only shows it, after its block was read. -/
theorem nvmAdminStartEff_refused (h : adminAllowed (fieldAt block 0 1) (fieldAt block 40 1) = 0) :
    nvmAdminStartEff port p block true d =
      ((d.emit (.hostRead ⟨port, 0⟩ (d.fld F.NVM_ADMIN_ADDR.ADDR * 4096) 4160)).setFld F.NVM_ADMIN_STATUS.RESULT 2).nvmEvent
        F.NVM_EVENTS.ADMIN_DONE := by
  unfold nvmAdminStartEff
  rw [hidle]
  dsimp only
  rw [h]
  rfl

/-- The device whose port is given an allowed command. -/
def Device.adminBegun (d : Device) (port : Nat) : Device :=
  let e := ((d.emit (.hostRead ⟨port, 0⟩ (d.fld F.NVM_ADMIN_ADDR.ADDR * 4096) 4160)).setFld F.NVM_ADMIN_STATUS.ACTIVE 1).setFld
    F.NVM_ADMIN_STATUS.RESULT 0
  { e with host.adminPort := port }

/-- What follows an admin command's submission: the buffer of a command that writes, and the entry. -/
def Device.adminSent (d : Device) (p : Nat) (block : List Byte) : Device :=
  match d.host.nvme.getLast? with
  | some c =>
    let at0 := (c.windows.head?.map (·.1)).getD 0
    let d := if fieldAt block 0 1 % 4 = 1 ∧ c.windows ≠ [] then d.store at0 (fit 4096 (block.drop 64)) else d
    d.emit (.nvmeEntry p c.id (adminEntry (fit 64 block) c.id at0))
  | none => d

/-- The command that a block gives a root port. -/
def Device.adminCmd (d : Device) (p : Nat) (block : List Byte) : NvmeCmd where
  port := p
  id := 0
  kind := .admin
  lba := fieldAt block 40 8
  count := 1
  offset := d.fld F.NVM_ADMIN_ADDR.ADDR * 4096

theorem nvmAdminStartEff_allowed (h : adminAllowed (fieldAt block 0 1) (fieldAt block 40 1) = 1) (hready : d.rootState p = 3) :
    nvmAdminStartEff port p block true d =
      ((d.adminBegun port).submit (d.adminCmd p block) (fieldAt block 0 1) (fieldAt block 4 4)).adminSent p block := by
  have hstate (o : Out) : (d.emit o).rootState p = 3 := (Device.fld_emit d o _ p).trans hready
  unfold nvmAdminStartEff
  rw [hidle]
  dsimp only
  rw [h, hstate]
  rfl

end

/-- The command that was appended last goes out as an entry, and nothing but memory changes. -/
theorem Device.adminSent_appended (e : Device) (p : Nat) (block : List Byte) {cs : List NvmeCmd} {c : NvmeCmd} (h : e.host.nvme = cs ++ [c]) :
    ((∀ g : Field, (e.adminSent p block).fld g = e.fld g) ∧ (e.adminSent p block).host = e.host) ∧
      (e.adminSent p block).out.getLast? =
        some (.nvmeEntry p c.id (adminEntry (fit 64 block) c.id ((c.windows.head?.map (·.1)).getD 0))) := by
  unfold Device.adminSent
  rw [h, List.getLast?_concat]
  dsimp only
  refine ⟨?_, List.getLast?_concat ..⟩
  split
  · exact ⟨fun g => (Device.fld_emit _ _ g 0).trans (Device.fld_store _ _ _ g 0), e.host_store _ _⟩
  · exact ⟨fun g => Device.fld_emit _ _ g 0, rfl⟩

/-- The command goes to the port it names, with the device's data pointer, and its registers show it. -/
theorem Device.adminSubmitted (d : Device) (port p : Nat) (block : List Byte) (k : NvmeCmd) (opcode nsid : Nat) :
    ∃ c : NvmeCmd, let t := ((d.adminBegun port).submit k opcode nsid).adminSent p block
      t.fld F.NVM_ADMIN_STATUS.ACTIVE = 1 ∧ t.fld F.NVM_ADMIN_STATUS.RESULT = 0 ∧ t.host.adminPort = port ∧ t.host.nvme = d.host.nvme ++ [c] ∧
      c.port = k.port ∧ c.kind = k.kind ∧ c.opcode = opcode ∧ c.offset = k.offset ∧
      t.out.getLast? = some (.nvmeEntry p c.id (adminEntry (fit 64 block) c.id ((c.windows.head?.map (·.1)).getD 0))) := by
  obtain ⟨c, h, n, o, heq, hnvme, hadmin, hport, hkind, hop, hoff⟩ := (d.adminBegun port).submit_eq k opcode nsid
  have hhost : ((d.adminBegun port).submit k opcode nsid).host = h := by rw [heq]; rfl
  obtain ⟨⟨hfld, hsame⟩, hout⟩ := Device.adminSent_appended _ p block ((congrArg HostState.nvme hhost).trans hnvme)
  have hbegun (g : Field) (hg : g.reg.ctorIdx < Reg.ctorIdx .NVM_PORT_STATS) :
      (((d.adminBegun port).submit k opcode nsid).adminSent p block).fld g = (((d.emit (.hostRead ⟨port, 0⟩
        (d.fld F.NVM_ADMIN_ADDR.ADDR * 4096) 4160)).setFld F.NVM_ADMIN_STATUS.ACTIVE 1).setFld F.NVM_ADMIN_STATUS.RESULT 0).fld g :=
    (hfld g).trans (((d.adminBegun port).fld_submit k opcode nsid hg).trans (Device.fld_setHost _ _ g 0))
  refine ⟨c, ?_, ?_, ?_, ?_, hport, hkind, hop, hoff, hout⟩
  · rw [hbegun _ (by decide), Device.fld_setFld_ne _ 0 0 0 (by decide) (by decide) (by decide) (by decide) (by decide)]
    exact Device.fld_setFld_fits _ 0 (by decide) (by decide)
  · rw [hbegun _ (by decide)]
    exact Device.fld_setFld_fits _ 0 (by decide) (by decide)
  · rw [hsame, hhost, hadmin]
    rfl
  · rw [hsame, hhost, hnvme]
    rfl

end

/-! ### O25 -/

section
variable {s : State}

theorem nvmeCompletion_act (hs : s.awake) (at_ root : Nat) (entry : List Byte) :
    exec (.nvmeCompletion at_ root entry) s = .next (s.put (nvmeCompletionEff root entry (s.dev.at_ at_))) :=
  hs.act_eq (f := fun d => nvmeCompletionEff root entry (d.at_ at_)) rfl

theorem nvmAdminStart_refuses {port p : Nat} {block : List Byte} (hs : s.takes port) (hidle : s.dev.on F.NVM_ADMIN_STATUS.ACTIVE = false)
    (h : adminAllowed (fieldAt block 0 1) (fieldAt block 40 1) = 0) : ∃ t, exec (.nvmAdminStart port p block true) s = .next t ∧
      t.dev.fld F.NVM_ADMIN_STATUS.RESULT = 2 ∧ t.dev.fld F.NVM_EVENTS.ADMIN_DONE = 1 := by
  refine ⟨_, hs.act_eq (f := nvmAdminStartEff port p block true) (nvmAdminStartEff_refused hidle h), ?_, ?_⟩
  · refine (s.put_fld _ _ _).trans ((Device.fld_eventSig_ne _ _ 0 (by decide) (by decide) (by decide) (by decide)).trans ?_)
    exact Device.fld_setFld_fits _ 0 (by decide) (by decide)
  · exact (s.put_fld _ _ _).trans (Device.fld_eventSig_same _ _ (by decide) (by decide))

theorem nvmAdminStart_submits {port p : Nat} {block : List Byte} (hs : s.takes port) (hidle : s.dev.on F.NVM_ADMIN_STATUS.ACTIVE = false)
    (h : adminAllowed (fieldAt block 0 1) (fieldAt block 40 1) = 1) (hready : s.dev.rootState p = 3) :
    ∃ t c, exec (.nvmAdminStart port p block true) s = .next t ∧ t.dev.fld F.NVM_ADMIN_STATUS.ACTIVE = 1 ∧
      t.dev.fld F.NVM_ADMIN_STATUS.RESULT = 0 ∧ t.dev.host.adminPort = port ∧ t.dev.host.nvme = s.dev.host.nvme ++ [c] ∧ c.port = p ∧
      c.kind = .admin ∧ c.opcode = fieldAt block 0 1 ∧ c.offset = s.dev.fld F.NVM_ADMIN_ADDR.ADDR * 4096 ∧
      t.dev.out.getLast? = some (.nvmeEntry p c.id (adminEntry (fit 64 block) c.id ((c.windows.head?.map (·.1)).getD 0))) := by
  obtain ⟨c, hactive, hresult, hport, hnvme, hp, hkind, hop, hoff, hout⟩ := s.dev.adminSubmitted port p block
    (s.dev.adminCmd p block) (fieldAt block 0 1) (fieldAt block 4 4)
  have hexec : exec (.nvmAdminStart port p block true) s = .next (s.put (((s.dev.adminBegun port).submit (s.dev.adminCmd p block)
      (fieldAt block 0 1) (fieldAt block 4 4)).adminSent p block)) :=
    hs.act_eq (f := nvmAdminStartEff port p block true) (nvmAdminStartEff_allowed hidle h hready)
  refine ⟨_, c, hexec, ?_, ?_, ?_, ?_, hp, hkind, hop, hoff, ?_⟩
  · exact (s.put_fld _ _ _).trans hactive
  · exact (s.put_fld _ _ _).trans hresult
  · rw [s.put_host]
    exact hport
  · rw [s.put_host]
    exact hnvme
  · rw [s.put_out]
    exact hout

/-- Settles O25: each request's effect at the command it names, by the kind of the command. -/
theorem nvmeCommandsComplete : Obligations.NvmeCommandsComplete := by
  unfold Obligations.NvmeCommandsComplete
  refine ⟨fun s hs => ⟨?_, ?_, ?_, ?_, ?_⟩, fun s port p block hs hidle =>
    ⟨nvmAdminStart_refuses hs hidle, nvmAdminStart_submits hs hidle⟩⟩
  · rintro at_ root entry c d rfl hby
    have hexec (e : Device) (he : nvmeCompletionEff root entry (s.dev.at_ at_) = e) : exec (.nvmeCompletion at_ root entry) s = .next (s.put e) :=
      (nvmeCompletion_act hs at_ root entry).trans (he ▸ rfl)
    refine ⟨fun hkind => ?_, fun hok => ⟨fun hkind => ?_, fun hkind hw => ?_, fun hkind => ?_, fun hkind => ?_⟩⟩
    · obtain ⟨e, he⟩ := nvmeCompletionEff_admin hby hkind
      obtain ⟨hactive, hstatus, hresult, hdone⟩ := e.adminShown_fields root (fieldAt entry 14 2 / 2)
      exact ⟨_, hexec _ he, (s.put_fld _ _ _).trans hactive, (s.put_fld _ _ _).trans hstatus, (s.put_fld _ _ _).trans hresult,
        (s.put_fld _ _ _).trans hdone⟩
    · exact hexec _ (nvmeCompletionEff_write hby hok hkind)
    · exact hexec _ (nvmeCompletionEff_read hby hok hkind hw)
    · exact hexec _ (nvmeCompletionEff_trim hby hok hkind)
    · exact hexec _ (nvmeCompletionEff_own hby hok hkind)
  · exact fun root id c hby hkind => hs.act_eq (ioTimeoutEff_names hby hkind)
  · exact fun root c hfind => hs.act_eq (adminTimeoutEff_finds hfind)
  · exact fun root addr n data hopen => ⟨hs.act_eq (if_pos hopen), hs.act_eq (if_pos hopen)⟩
  · exact fun root addr n write data hshut => hs.act_eq (if_neg (Bool.eq_false_iff.mp hshut))

end

end Sys2Proof.Machine

/-! ## Pins at the end of PERST0_N: a context of an engine that is not there (R269, R383, R447) -/

namespace Sys2Proof.Machine

/-! ### What the state without an image leaves of the sampled pins (R383) -/

theorem List.foldl_keeps {α β γ : Type} (p : α → γ) (f : α → β → α) : ∀ (l : List β) (a : α), (∀ a, ∀ b ∈ l, p (f a b) = p a) → p (l.foldl f a) = p a
  | [], _, _ => rfl
  | x :: l, a, h => by
    rw [List.foldl_cons, List.foldl_keeps p f l _ fun a b hb => h a b (List.mem_cons_of_mem x hb)]
    exact h a x List.mem_cons_self

/-- The register of the sampled pins is written by no field that an image fixes but CFG_EPOCH. -/
theorem Device.pins_clearFields (d : Device) {fs : List Field} (h : ∀ f ∈ fs, F.CFG_STATUS.PINS ≠ f ∧ f ∈ f.reg.fields) :
    (d.clearFields fs).fld F.CFG_STATUS.PINS = d.fld F.CFG_STATUS.PINS := by
  unfold Device.clearFields
  refine List.foldl_keeps (fun d : Device => d.fld F.CFG_STATUS.PINS) _ _ _ fun d f hf => ?_
  refine List.foldl_keeps (fun d : Device => d.fld F.CFG_STATUS.PINS) _ _ _ fun e i hi => ?_
  obtain ⟨hne, hmem⟩ := h f hf
  split
  · rfl
  · exact e.fld_setFld_ne 0 i 0 hne hmem (by decide) (Device.lt_of_mem_listed hi) (by decide)

/-- A register without staged fields keeps its value where staged fields take their reset values. -/
theorem Device.reg_setReg_unstaged (d : Device) {r q : Reg} (i j : Nat) (v : Word) (hq : q.stMask = 0#64) (hi : i < 0x10000) (hj : j < 0x10000) :
    (d.setReg r i ((d.reg r i &&& ~~~r.stMask) ||| (v &&& r.stMask))).reg q j = d.reg q j := by
  by_cases hkey : regKey q j = regKey r i
  · obtain ⟨rfl, rfl⟩ := regKey_inj hj hi hkey
    rw [Device.reg_setReg_same, hq, BitVec.and_zero, BitVec.or_zero, BitVec.not_zero, BitVec.and_allOnes]
  · exact d.reg_setReg_key _ _ _ _ _ hkey

theorem Device.pins_resetStaged (d : Device) : (d.resetStaged false).fld F.CFG_STATUS.PINS = d.fld F.CFG_STATUS.PINS := by
  have hset (e : Device) (f : Field) (hne : F.CFG_STATUS.PINS ≠ f) (hf : f ∈ f.reg.fields) :
      (if e.fld f = 1 then e.setFld f 0 else e).fld F.CFG_STATUS.PINS = e.fld F.CFG_STATUS.PINS := by
    split
    · exact e.fld_setFld_ne 0 0 0 hne hf (by decide) (by decide) (by decide)
    · rfl
  unfold Device.resetStaged
  dsimp only
  rw [hset _ _ (by decide) (by decide), hset _ _ (by decide) (by decide)]
  refine (List.foldl_keeps (fun d : Device => d.fld F.CFG_STATUS.PINS) _ _ _ fun e k _ => ?_).trans (Device.fld_congr (fun _ _ => rfl) _ _)
  refine congrArg F.CFG_STATUS.PINS.get ?_
  exact e.reg_setReg_unstaged _ 0 _ (by decide) (Nat.mod_lt _ (by decide)) (by decide)

/-- The device whose links are reset as a device without an image resets them. -/
def Device.linksCleared (d : Device) : Device :=
  (List.range 112).foldl (fun (d : Device) l => if d.linkState l = 0 ∨ d.linkState l = 7 then d else d.linkReset l 0) d

/-- What a device without an image gives its fields, its links being reset. -/
def Device.imageless (d : Device) : Device :=
  let d := ({ d with cfg.image := none, cores := [], plots := [] } : Device).clearFields imageFields |>.resetStaged false
  let d := (d.listed .PLOT_STATUS).foldl (fun d p => d.setFld F.PLOT_STATUS.STATE 0 p) d
  (d.setFld F.CFG_STATUS.STATE 0).event F.CFG_EVENTS.NO_IMAGE

theorem Device.noImage_eq (d : Device) : d.noImage = d.linksCleared.imageless := by
  unfold Device.noImage Device.linksCleared Device.imageless
  rfl

theorem Device.pins_imageless (d : Device) : d.imageless.fld F.CFG_STATUS.PINS = d.fld F.CFG_STATUS.PINS := by
  have hne (e : Device) (f : Field) (x i : Nat) (h : F.CFG_STATUS.PINS ≠ f) (hf : f ∈ f.reg.fields) (hi : i < 0x10000) :
      (e.setFld f x i).fld F.CFG_STATUS.PINS = e.fld F.CFG_STATUS.PINS := e.fld_setFld_ne x i 0 h hf (by decide) hi (by decide)
  unfold Device.imageless Device.event
  dsimp only
  rw [hne _ _ _ _ (by decide) (by decide) (by decide), hne _ _ _ _ (by decide) (by decide) (by decide)]
  refine (List.foldl_keeps (fun d : Device => d.fld F.CFG_STATUS.PINS) _ _ _ fun e p hp =>
    hne e _ 0 p (by decide) (by decide) (Device.lt_of_mem_listed hp)).trans ?_
  rw [Device.pins_resetStaged, Device.pins_clearFields _ (by decide)]
  exact Device.fld_congr (fun _ _ => rfl) _ _

/-! ### A context whose engine number names another register's copy -/

/-- The engine number whose copy of SLU_ENG_STATUS stands at the key of CFG_STATUS. -/
def strayEngine : Nat := (Reg.ctorIdx .CFG_STATUS - Reg.ctorIdx .SLU_ENG_STATUS) * 0x10000

/-- A SEND to node 1 that has started on it. -/
def strayCtx : SluCtx where
  eng := strayEngine
  id := 0
  desc := { opcode := 5, node := 1 }
  iss := .furrow 0 .none
  fn := ⟨0, 0⟩
  started := true

/-- OUTSTANDING covers the place that PINS has in its own register. -/
theorem pins_outstanding (v : Word) : F.CFG_STATUS.PINS.get (F.SLU_ENG_STATUS.OUTSTANDING.set v 0) = 0 := by
  have hbits : (F.SLU_ENG_STATUS.OUTSTANDING.set v 0).extractLsb' 8 2 = 0 := by
    ext i hi
    have : i = 0 ∨ i = 1 := by omega
    obtain rfl | rfl := this <;> simp [Field.set, Field.mask, Field.place, F.SLU_ENG_STATUS.OUTSTANDING]
  have := congrArg BitVec.toNat hbits
  simpa [Field.get, F.CFG_STATUS.PINS] using this

theorem Device.pins_engineWritten (d : Device) : (d.setFld F.SLU_ENG_STATUS.OUTSTANDING 0 strayEngine).fld F.CFG_STATUS.PINS = 0 := by
  have hread (v : Word) : (d.setReg .SLU_ENG_STATUS strayEngine v).reg .CFG_STATUS = v := d.reg_setReg_same .SLU_ENG_STATUS strayEngine v
  show F.CFG_STATUS.PINS.get ((d.setReg .SLU_ENG_STATUS strayEngine _).reg .CFG_STATUS) = 0
  rw [hread]
  exact pins_outstanding _

section
variable {d : Device} {x : SluCtx} (hctxs : d.slu.ctxs = [x]) (hwaiting : d.slu.waiting = [])
include hctxs

theorem Device.ctx_sole : d.ctx x.eng x.id = some x := by
  rw [Device.ctx, hctxs, List.find?_cons_of_pos]
  rw [beq_self_eq_true, beq_self_eq_true]
  rfl

include hwaiting

/-- The only context closes: its engine has none left, and nothing waited for it. -/
theorem Device.closeCtx_sole (hiss : x.iss = .furrow 0 .none) :
    d.closeCtx x.eng x.id = ({ d with slu.ctxs := [] } : Device).setFld F.SLU_ENG_STATUS.OUTSTANDING 0 x.eng := by
  have hgone : d.slu.ctxs.filter (fun y => !(y.eng == x.eng && y.id == x.id)) = [] := by
    rw [hctxs, List.filter_cons_of_neg, List.filter_nil]
    rw [beq_self_eq_true, beq_self_eq_true]
    exact Bool.false_ne_true
  have hnone (e : Device) (h : e.slu.waiting = []) : e.admitWaiting = e := by
    rw [Device.admitWaiting, h]
    rfl
  unfold Device.closeCtx
  rw [Device.ctx_sole hctxs]
  dsimp only
  rw [hgone, hiss]
  exact hnone _ hwaiting

end

/-- The context as it has ended. -/
def endedCtx : SluCtx := { strayCtx with done := true, status := 4 }

section
variable {d : Device} (hctxs : d.slu.ctxs = [strayCtx]) (hwaiting : d.slu.waiting = [])
include hctxs hwaiting

/-- The context ends at once, and its engine's count of contexts is written at the engine's number. -/
theorem Device.endCtx_stray : d.endCtx strayEngine 0 4 0 =
    ({ d with slu.ctxs := [] } : Device).setFld F.SLU_ENG_STATUS.OUTSTANDING 0 strayEngine := by
  have hmod : d.modCtx strayEngine 0 (fun _ => endedCtx) = { d with slu.ctxs := [endedCtx] } := by
    rw [Device.modCtx, hctxs]
    rfl
  have hclose : ({ d with slu.ctxs := [endedCtx] } : Device).closeCtx strayEngine 0 = _ :=
    Device.closeCtx_sole (x := endedCtx) rfl hwaiting rfl
  unfold Device.endCtx
  rw [show d.ctx strayEngine 0 = some strayCtx from Device.ctx_sole hctxs]
  dsimp only
  show (d.modCtx strayEngine 0 fun _ => endedCtx).closeCtx strayEngine 0 = _
  rw [hmod, hclose]
  rfl

end

/-- A node is marked dead, and what the handoff logic awaited of it fails. -/
def Device.deadMarked (d : Device) (node : Nat) : Device :=
  let d := if d.rt.dead.contains node then d
    else (({ d with rt.dead := node :: d.rt.dead } : Device).setFld F.SLU_DEAD_LAST.NODE node).count F.SLU_DEAD_LAST.COUNT
  let p := sget {} d.ho.peers node
  let lost := p.held.map fun (h : HoHeld) => ({ desc := h.desc, node := node, status := 4, ty := hoType h.data, op := h.op } : HoFailed)
  let d := { d with ho.peers := sput {} d.ho.peers node {}, ho.failed := d.ho.failed ++ lost }
  d.event F.SLU_EVENTS.DEAD_TARGET

theorem Device.slu_deadMarked (d : Device) (node : Nat) : (d.deadMarked node).slu = d.slu := by
  have hmark : (if d.rt.dead.contains node then d
      else (({ d with rt.dead := node :: d.rt.dead } : Device).setFld F.SLU_DEAD_LAST.NODE node).count F.SLU_DEAD_LAST.COUNT).slu = d.slu := by
    split
    · rfl
    · rw [Device.slu_count]
      rfl
  exact hmark

/-- A FLUSH of a node ends with it. -/
def Device.flushCut (d : Device) (node : Nat) : Device :=
  if d.on F.SLU_FLUSH_STATUS.ACTIVE && d.fld F.SLU_FLUSH_STATUS.NODE == node then
    ({ d with slu.flushWatch := [] } : Device).setFld F.SLU_FLUSH_STATUS.ACTIVE 0 |>.setFld F.SLU_FLUSH_STATUS.STATUS 4
  else d

theorem Device.msgs_flushCut (d : Device) (node : Nat) : (d.flushCut node).slu.msgs = d.slu.msgs := by
  unfold Device.flushCut
  split <;> rfl

theorem Device.pins_flushCut (d : Device) (node : Nat) : (d.flushCut node).fld F.CFG_STATUS.PINS = d.fld F.CFG_STATUS.PINS := by
  unfold Device.flushCut
  split
  · rw [Device.fld_setFld_ne _ 4 0 0 (by decide) (by decide) (by decide) (by decide) (by decide),
      Device.fld_setFld_ne _ 0 0 0 (by decide) (by decide) (by decide) (by decide) (by decide)]
    exact Device.fld_congr (fun _ _ => rfl) _ _
  · rfl

/-- The SENDs to a node end with it. -/
def Device.sendsCut (d : Device) (node : Nat) : Device :=
  (d.slu.ctxs.filter fun x => x.desc.opcode == 5 && x.desc.node == node && x.started && !x.done).foldl (fun d x => d.endCtx x.eng x.id 4 0) d

/-- The messages to a node settle as lost with it. -/
def Device.msgsCut (d : Device) (node : Nat) : Device := (d.slu.msgs.filter fun o => o.node == node).foldl (fun d o => d.settle o 4) d

theorem Device.declareDead_eq (d : Device) (node : Nat) :
    d.declareDead node = (((d.deadMarked node).sendsCut node).flushCut node).msgsCut node := by
  unfold Device.declareDead Device.msgsCut Device.flushCut Device.sendsCut Device.deadMarked
  rfl

/-- The end of its node ends the context, and with it the copy of the pins. -/
theorem Device.pins_declareDead {d : Device} (hctxs : d.slu.ctxs = [strayCtx]) (hwaiting : d.slu.waiting = []) (hmsgs : d.slu.msgs = []) :
    (d.declareDead 1).fld F.CFG_STATUS.PINS = 0 := by
  have hslu := d.slu_deadMarked 1
  obtain ⟨e, he⟩ : ∃ e, e = (d.deadMarked 1).sendsCut 1 := ⟨_, rfl⟩
  have hended : e = ({ d.deadMarked 1 with slu.ctxs := [] } : Device).setFld F.SLU_ENG_STATUS.OUTSTANDING 0 strayEngine := by
    rw [he, Device.sendsCut, hslu, hctxs]
    exact Device.endCtx_stray (d := d.deadMarked 1) (by rw [hslu, hctxs]) (by rw [hslu, hwaiting])
  have hnone : (e.flushCut 1).slu.msgs = [] := by
    rw [Device.msgs_flushCut, hended]
    exact (congrArg SluState.msgs hslu).trans hmsgs
  rw [Device.declareDead_eq, ← he, Device.msgsCut, hnone, List.filter_nil, List.foldl_nil, Device.pins_flushCut, hended]
  exact Device.pins_engineWritten _

/-! ### A link that falls with its neighbour (R269, R312) -/

/-- The fields that tell which neighbours a link's fall leaves without a port. -/
def neighbourFields : List Field :=
  [F.FAB_LINK_STATUS.STATE, F.FAB_LINK_STATUS.VERSION, F.FAB_LINK_STATUS.PEER_NODE, F.FAB_ROUTE_STATUS.ACTIVE_BANK]

theorem neighbourFields_mem : ∀ g ∈ neighbourFields, g ∈ g.reg.fields := by decide

/-- A device that holds the links, the routes and the contexts of another. -/
structure Device.SameNeighbours (d e : Device) : Prop where
  part : e.part = d.part
  bank0 : e.rt.bank0 = d.rt.bank0
  bank1 : e.rt.bank1 = d.rt.bank1
  dead : e.rt.dead = d.rt.dead
  slu : e.slu = d.slu
  fld : ∀ f ∈ neighbourFields, ∀ k, k < 0x10000 → e.fld f k = d.fld f k

namespace Device.SameNeighbours

theorem refl (d : Device) : d.SameNeighbours d := ⟨rfl, rfl, rfl, rfl, rfl, fun _ _ _ _ => rfl⟩

variable {d e : Device}

theorem setFld (h : d.SameNeighbours e) {f : Field} (x i : Nat) (hf : f ∈ f.reg.fields := by decide)
    (hne : f ∉ neighbourFields := by decide) (hi : i < 0x10000 := by decide) : d.SameNeighbours (e.setFld f x i) where
  part := h.part
  bank0 := h.bank0
  bank1 := h.bank1
  dead := h.dead
  slu := h.slu
  fld g hg k hk := by
    have hgf : g ≠ f := fun hgf => hne (hgf ▸ hg)
    exact (e.fld_setFld_ne x i k hgf hf (neighbourFields_mem g hg) hi hk).trans (h.fld g hg k hk)

/-- What changes none of what the neighbours are told by. -/
theorem of_regs {e' : Device} (h : d.SameNeighbours e) (hregs : ∀ r i, e'.reg r i = e.reg r i) (hpart : e'.part = e.part)
    (h0 : e'.rt.bank0 = e.rt.bank0) (h1 : e'.rt.bank1 = e.rt.bank1) (hdead : e'.rt.dead = e.rt.dead) (hslu : e'.slu = e.slu) :
    d.SameNeighbours e' :=
  ⟨hpart.trans h.part, h0.trans h.bank0, h1.trans h.bank1, hdead.trans h.dead, hslu.trans h.slu,
    fun f hf k hk => (Device.fld_congr hregs f k).trans (h.fld f hf k hk)⟩

/-- The same write to both. -/
theorem setFld_both (h : d.SameNeighbours e) {f : Field} (x i : Nat) (hf : f ∈ f.reg.fields) (h64 : f.lo + f.w ≤ 64) (hi : i < 0x10000) :
    (d.setFld f x i).SameNeighbours (e.setFld f x i) where
  part := h.part
  bank0 := h.bank0
  bank1 := h.bank1
  dead := h.dead
  slu := h.slu
  fld g hg k hk := by
    by_cases hgf : g = f
    · subst hgf
      by_cases hki : k = i
      · subst hki
        rw [e.fld_setFld_same g x k h64, d.fld_setFld_same g x k h64]
      · rw [e.fld_setFld_copy x rfl hki, d.fld_setFld_copy x rfl hki]
        exact h.fld g hg k hk
    · rw [e.fld_setFld_ne x i k hgf hf (neighbourFields_mem g hg) hi hk, d.fld_setFld_ne x i k hgf hf (neighbourFields_mem g hg) hi hk]
      exact h.fld g hg k hk

theorem drew (h : d.SameNeighbours e) : d.SameNeighbours e.drew := h.of_regs (fun _ _ => rfl) rfl rfl rfl rfl rfl

theorem count (h : d.SameNeighbours e) {f : Field} (n i : Nat) (hf : f ∈ f.reg.fields := by decide)
    (hne : f ∉ neighbourFields := by decide) (hi : i < 0x10000 := by decide) : d.SameNeighbours (e.count f n i) := by
  unfold Device.count
  split
  · exact h.setFld _ i hf hne hi
  · exact (h.setFld _ i hf hne hi).drew

theorem signal (h : d.SameNeighbours e) (v : Nat) : d.SameNeighbours (e.signal v) := by
  unfold Device.signal Device.msix
  repeat' split
  · exact h.of_regs (fun _ _ => rfl) rfl rfl rfl rfl rfl
  all_goals exact h

theorem eventSig (h : d.SameNeighbours e) {f : Field} (v : Field) (hf : f ∈ f.reg.fields := by decide)
    (hne : f ∉ neighbourFields := by decide) : d.SameNeighbours (e.eventSig f v) := (h.setFld 1 0 hf hne (by decide)).signal _

theorem setLink (h : d.SameNeighbours e) (l : Nat) (k : Link) : d.SameNeighbours (e.setLink l k) :=
  h.of_regs (fun _ _ => rfl) rfl rfl rfl rfl rfl

theorem requeued (h : d.SameNeighbours e) (w : List TxPacket) : d.SameNeighbours { e with rt.wait := w } :=
  h.of_regs (fun _ _ => rfl) rfl rfl rfl rfl rfl

theorem noteSealLink (h : d.SameNeighbours e) (l : Nat) : d.SameNeighbours (e.noteSealLink l) := by
  unfold Device.noteSealLink
  dsimp only
  split
  · exact h.of_regs (fun _ _ => rfl) rfl rfl rfl rfl rfl
  · exact h

/-- What a link's fall asks of its neighbours. -/
theorem lostBy (h : d.SameNeighbours e) (l : Nat) : e.lostBy l = d.lostBy l := by
  have hfld (f : Field) (hf : f ∈ neighbourFields) (k : Nat) (hk : k < 112) : e.fld f k = d.fld f k := h.fld f hf k (by omega)
  have hbank : e.activeBank = d.activeBank := by
    unfold Device.activeBank Device.on
    rw [hfld _ (by decide) _ (by decide), h.bank0, h.bank1]
  have hstate (k : Nat) (hk : k ∈ List.range 112) : e.linkActive k = d.linkActive k :=
    congrArg (· == 5) (hfld F.FAB_LINK_STATUS.STATE (by decide) k (List.mem_range.mp hk))
  have hlost (n : Nat) : e.neighbourLost n = d.neighbourLost n := by
    unfold Device.neighbourLost
    dsimp only
    rw [hbank]
    refine congrArg (d.activeBank.hasRoute n && ·) (Bool.eq_iff_iff.mpr ?_)
    rw [List.all_eq_true, List.all_eq_true]
    exact forall₂_congr fun k hk => by rw [hstate k hk]
  unfold Device.lostBy
  dsimp only
  rw [hbank, h.dead]
  have hpeers : (List.range 112).filter (fun k => e.fld F.FAB_LINK_STATUS.VERSION k != 0) =
      (List.range 112).filter (fun k => d.fld F.FAB_LINK_STATUS.VERSION k != 0) :=
    List.filter_congr fun k hk => by rw [hfld _ (by decide) k (List.mem_range.mp hk)]
  have hnodes : ((List.range 112).filter (fun k => d.fld F.FAB_LINK_STATUS.VERSION k != 0)).map (fun k => e.fld F.FAB_LINK_STATUS.PEER_NODE k) =
      ((List.range 112).filter (fun k => d.fld F.FAB_LINK_STATUS.VERSION k != 0)).map (fun k => d.fld F.FAB_LINK_STATUS.PEER_NODE k) :=
    List.map_congr_left fun k hk => hfld _ (by decide) k (List.mem_range.mp (List.mem_of_mem_filter hk))
  rw [hpeers, hnodes]
  exact List.filter_congr fun n _ => by rw [hlost]

end Device.SameNeighbours

/-- A device whose link 111 leads to node 1, alone, while a context of a stray engine serves that node; no
firmware slot holds an image, and PERST0_N is asserted. -/
def strayDevice : Device where
  regs := [(regKey .FAB_LINK_STATUS 111, F.FAB_LINK_STATUS.STATE.place 5 ||| F.FAB_LINK_STATUS.VERSION.place 0x10 |||
    F.FAB_LINK_STATUS.PEER_NODE.place 1)]
  rt := { bank0 := { sets := [(0, 2 ^ 111)], entries := [(1, 2 ^ 31)] } }
  slu := { ctxs := [strayCtx] }
  sec := { slots := [] }
  pwr := { held := true }

/-- Once link 111 is down, no link leads to node 1. -/
theorem strayDevice_lostBy : (strayDevice.setFld F.FAB_LINK_STATUS.STATE 0 111).lostBy 111 = [1] := by
  decide

theorem strayDevice_links : ∀ l < 111, strayDevice.linkState l = 0 := by
  decide

/-- A link that has gone down, before its neighbours are asked for. -/
def Device.fallen (d : Device) (l reason next : Nat) : Device :=
  let k := d.link l
  let d := (d.setFld F.FAB_LINK_STATUS.STATE next l).setFld F.FAB_LINK_STATUS.DOWN_REASON reason l
  let d := d.setFld F.FAB_LINK_STATUS.WIDTH 0 l
  let d := d.setLink l { outFlits := k.outFlits, inFlits := k.inFlits }
  let d := { d with rt.wait := d.rt.wait ++ k.queue.map fun (t : TxPacket) => { t with own := false } }
  let d := d.count F.FAB_LINK_REPLAY.DOWNS 1 l
  let d := d.eventSig F.FAB_EVENTS.LINK_DOWN F.FAB_VECTOR.VECTOR
  d.noteSealLink l

theorem Device.linkFall_active {d : Device} {l : Nat} (reason next : Nat) (h : d.linkActive l = true) :
    d.linkFall l reason next = ((d.fallen l reason next).lostBy l).foldl Device.declareDead (d.fallen l reason next) := by
  unfold Device.linkFall
  rw [h]
  rfl

theorem Device.SameNeighbours.fallen {d e : Device} (h : d.SameNeighbours e) :
    (d.setFld F.FAB_LINK_STATUS.STATE 0 111).SameNeighbours (e.fallen 111 6 0) := by
  have hstate := h.setFld_both (f := F.FAB_LINK_STATUS.STATE) 0 111 (by decide) (by decide) (by decide)
  have hfields := (hstate.setFld (f := F.FAB_LINK_STATUS.DOWN_REASON) 6 111).setFld (f := F.FAB_LINK_STATUS.WIDTH) 0 111
  unfold Device.fallen
  exact (((hfields.setLink 111 _).requeued _).count 1 111).eventSig _ |>.noteSealLink 111

/-- The fall of link 111 takes node 1 with it. -/
theorem pins_linkReset {e : Device} (h : strayDevice.SameNeighbours e) : (e.linkReset 111 0).fld F.CFG_STATUS.PINS = 0 := by
  have hpart : e.part.link 111 = true := by
    rw [h.part]
    decide
  have hactive : e.linkActive 111 = true := by
    rw [Device.linkActive, Device.linkState, h.fld _ (by decide) _ (by decide)]
    decide
  have hreset : e.linkReset 111 0 = e.linkFall 111 6 0 := by
    unfold Device.linkReset
    rw [hpart, hactive]
    rfl
  rw [hreset, Device.linkFall_active 6 0 hactive, h.fallen.lostBy, strayDevice_lostBy]
  exact Device.pins_declareDead (congrArg SluState.ctxs h.fallen.slu) (congrArg SluState.waiting h.fallen.slu)
    (congrArg SluState.msgs h.fallen.slu)

theorem List.foldl_stays {α β : Type} (f : α → β → α) (a : α) : ∀ l : List β, (∀ b ∈ l, f a b = a) → l.foldl f a = a
  | [], _ => rfl
  | x :: l, h => by
    rw [List.foldl_cons, h x List.mem_cons_self]
    exact List.foldl_stays f a l fun b hb => h b (List.mem_cons_of_mem x hb)

/-- Of the links of the stray device only link 111 is reset. -/
theorem pins_linksCleared {e : Device} (h : strayDevice.SameNeighbours e) : e.linksCleared.fld F.CFG_STATUS.PINS = 0 := by
  have hstate (l : Nat) (hl : l < 0x10000) : e.linkState l = strayDevice.linkState l := h.fld _ (by decide) l hl
  have hlast : e.linkState 111 = 5 := (hstate 111 (by decide)).trans (by decide)
  have hreset : e.linksCleared = e.linkReset 111 0 := by
    unfold Device.linksCleared
    rw [List.range_succ, List.foldl_append, List.foldl_stays _ e]
    · rw [List.foldl_cons, List.foldl_nil, hlast]
      rfl
    · intro l hl
      have hlt : l < 111 := List.mem_range.mp hl
      exact if_pos (.inl ((hstate l (by omega)).trans (strayDevice_links l hlt)))
  rw [hreset]
  exact pins_linkReset h

/-! ### The end of PERST0_N on it (R383, R401, Table 19.3) -/

/-- The device as the boot ROM leaves it where no firmware slot holds an image. -/
def Device.bootFailed (d : Device) : Device :=
  let d := d.setFld F.SEC_STATUS.FW_FLOOR d.sec.floor
  let d := ({ d with sec.running := 0 } : Device).setFld F.SEC_STATUS.STATE 0
  ((d.setFld F.SEC_STATUS.FW_SLOT 0).setFld F.SEC_STATUS.FW_SVN 0).setFld F.RIDE_STATUS.STATE 4

theorem Device.bootRom_empty {d : Device} (h : d.sec.slots = []) : d.bootRom = d.bootFailed := by
  have hnone (e : Device) (he : e.sec.slots = []) (slot : Nat) : e.fwValid slot = none := by
    rw [Device.fwValid, he]
    rfl
  unfold Device.bootRom
  dsimp only
  rw [hnone (d.setFld F.SEC_STATUS.FW_FLOOR d.sec.floor) h, hnone (d.setFld F.SEC_STATUS.FW_FLOOR d.sec.floor) h]
  rfl

theorem Device.riderRuns_bootFailed (d : Device) : d.bootFailed.riderRuns = false := by
  have hfour (e : Device) : (e.setFld F.RIDE_STATUS.STATE 4).riderRuns = false :=
    (congrArg (· == 2) (e.fld_setFld_fits 0 (by decide) (by decide))).trans rfl
  exact hfour _

theorem Device.SameNeighbours.bootFailed {d e : Device} (h : d.SameNeighbours e) : d.SameNeighbours e.bootFailed := by
  have hfloor := h.setFld (f := F.SEC_STATUS.FW_FLOOR) e.sec.floor 0
  have hrunning : d.SameNeighbours { e.setFld F.SEC_STATUS.FW_FLOOR e.sec.floor with sec.running := 0 } :=
    hfloor.of_regs (fun _ _ => rfl) rfl rfl rfl rfl rfl
  exact (((hrunning.setFld 0 0).setFld 0 0).setFld 0 0).setFld 4 0

/-- The device with PROF sampled, its channels refreshed and SALT drawn. -/
def Device.pinsSampled (d : Device) (prof : Nat) : Device :=
  let d := (d.setFld F.CFG_STATUS.PINS (prof % 4)).setFld F.CFG_STATUS.ACTIVE_SLOT (prof % 4)
  (((List.range 8).flatMap d.stackChans).foldl (fun (d : Device) k => d.refreshAll k) d).drawSalt

theorem Device.SameNeighbours.pinsSampled {d e : Device} (h : d.SameNeighbours e) (prof : Nat) : d.SameNeighbours (e.pinsSampled prof) := by
  have hpins := (h.setFld (f := F.CFG_STATUS.PINS) (prof % 4) 0).setFld (f := F.CFG_STATUS.ACTIVE_SLOT) (prof % 4) 0
  have hrefreshed (l : List Nat) (e : Device) (he : d.SameNeighbours e) : d.SameNeighbours (l.foldl (fun (d : Device) k => d.refreshAll k) e) := by
    induction l generalizing e with
    | nil => exact he
    | cons k l ih => exact ih _ (he.of_regs (fun _ _ => rfl) rfl rfl rfl rfl rfl)
  have hsalt (e : Device) (he : d.SameNeighbours e) : d.SameNeighbours e.drawSalt :=
    (he.setFld (f := F.FAB_CTRL.SALT) (e.rand 20) 0).of_regs (fun _ _ => rfl) rfl rfl rfl rfl rfl
  exact hsalt _ (hrefreshed _ _ hpins)

theorem Device.sec_pinsSampled (d : Device) (prof : Nat) : (d.pinsSampled prof).sec = d.sec :=
  List.foldl_keep Device.sec (fun (d : Device) k => d.refreshAll k) (fun _ _ => rfl) _ _

/-- The device with PERST0_N deasserted. -/
def freedDevice : Device := { strayDevice with pwr := {} }

theorem perst0DeassertEff_stray : perst0DeassertEff 1 true strayDevice = ((freedDevice.pinsSampled 1).bootFailed).noImage := by
  have hboot : (freedDevice.pinsSampled 1).bootRom = (freedDevice.pinsSampled 1).bootFailed :=
    Device.bootRom_empty (by rw [Device.sec_pinsSampled]; rfl)
  show (if (freedDevice.pinsSampled 1).bootRom.riderRuns then (freedDevice.pinsSampled 1).bootRom.loadAtBoot true else (freedDevice.pinsSampled 1).bootRom.noImage) = _
  rw [hboot, Device.riderRuns_bootFailed]
  rfl

theorem pins_perst0Deassert : (perst0DeassertEff 1 true strayDevice).fld F.CFG_STATUS.PINS = 0 := by
  have hfreed : strayDevice.SameNeighbours freedDevice :=
    (Device.SameNeighbours.refl _).of_regs (fun _ _ => rfl) rfl rfl rfl rfl rfl
  rw [perst0DeassertEff_stray, Device.noImage_eq, Device.pins_imageless]
  exact pins_linksCleared (hfreed.pinsSampled 1).bootFailed

/-- Refutes O52: on a held device whose link 111 is still ACTIVE and whose context serves the neighbour there under an engine number that
no engine has, PROF = 1 is sampled, and the reset of the link then ends the context, which writes its engine's count over PINS. -/
theorem not_pinsSuppliesAndSensors : ¬ Obligations.PinsSuppliesAndSensors := by
  unfold Obligations.PinsSuppliesAndSensors
  rintro ⟨hpins, -⟩
  obtain ⟨-, -, -, hdeassert, -⟩ := hpins { dev := strayDevice } ⟨by decide, rfl⟩
  obtain ⟨t, hexec, -, hprof, -⟩ := hdeassert 1 true rfl rfl rfl
  have hnext : exec (.perst0Deassert 1 true) { dev := strayDevice } =
      .next (State.put { dev := strayDevice } (perst0DeassertEff 1 true strayDevice)) := State.pin_put _ _
  have ht : t = State.put { dev := strayDevice } (perst0DeassertEff 1 true strayDevice) := Host.Outcome.next.inj (hexec.symm.trans hnext)
  have hzero : t.dev.fld F.CFG_STATUS.PINS = 0 := by
    rw [ht]
    exact (State.put_fld _ _ _ _).trans pins_perst0Deassert
  rw [hzero] at hprof
  exact absurd hprof (by decide)

end Sys2Proof.Machine

/-! ## The metergate's commands (R413, R415 to R418) -/

namespace Sys2Proof.Machine

/-! ### Acting through BAR4 (R351, R420) -/

/-- A write of BAR4 by a PF acts on a device that carries commands out. -/
theorem State.awake.bar4_eq {s : State} {port : Nat} (hs : s.awake) (hport : port < 2) {f : Device → Device} {d : Device} (hf : f s.dev = d) :
    bar4 port f s = .next (s.put d) := by
  have hlive := hs.2
  rw [Device.dead, Bool.or_eq_false_iff] at hlive
  have hpf : decide (port > 1) = false := decide_eq_false (by omega)
  refine hs.act_eq ?_
  rw [hlive.1, hpf]
  exact hf

/-- One that changes nothing leaves the state as it is. -/
theorem State.awake.bar4_id {s : State} {port : Nat} (hs : s.awake) (hport : port < 2) {f : Device → Device} (hf : f s.dev = s.dev) :
    bar4 port f s = .next s := (hs.bar4_eq hport hf).trans (congrArg _ (State.put_of hs.1 rfl rfl))

/-! ### The effects on a device, case by case -/

section
variable {d : Device}

theorem tallyNowEff_waits (h : d.fld F.TURN_STATUS.STATE ∉ [0, 2]) : tallyNowEff d = { d with mtr.demand := true } :=
  if_neg fun hst => h (by simpa using hst)

section
variable {port n : Nat} {bytes : List Byte} {ho fl : Bool} (hchange : d.mtr.change = none)
include hchange

theorem fwChangeEff_turn (h : d.fld F.TURN_STATUS.STATE ≠ 0) : fwChangeEff port n bytes ho fl d = d.fwDone 2 d.mtrState := by
  unfold fwChangeEff
  rw [hchange, if_neg (by decide)]
  exact if_pos h

/-- The image of a change read from the host, and checked (R417). -/
def fwChecked (port n : Nat) (bytes : List Byte) (fl : Bool) (d : Device) : Device :=
  let im := mtrOfBytes (fit n bytes)
  let b := d.emit (.hostRead ⟨port, 0⟩ (d.fld F.MTR_FW_ADDR.ADDR * 4096) n)
  if !mtrVerifies d.part im then b.fwDone 3 d.mtrState
  else if im.svn < d.mtr.image.svn then b.fwDone 4 d.mtrState
  else if d.mtr.fuse ≥ 1023 then b.fwDone 6 d.mtrState
  else (((((({ b with mtr.change := some (im, fl, d.mtrState) } : Device).setFld F.MTR_STATUS.STATE 3).setFld F.MTR_FW_STATUS.ACTIVE 1).setFld
    F.MTR_FW_STATUS.RESULT 0).closePeriod 4 none).fwProceed)

theorem fwChangeEff_idle (h : d.fld F.TURN_STATUS.STATE = 0) : fwChangeEff port n bytes true fl d = fwChecked port n bytes fl d := by
  unfold fwChangeEff
  rw [hchange, if_neg (by decide)]
  exact if_neg (not_not_intro h)

end

section
variable (hsigns : d.signs = true) (hqueue : d.mtr.queue ≠ [])
include hsigns hqueue

theorem recordSignEff_signs : recordSignEff d =
    if d.fld F.MTR_PRODUCED.PRODUCED - d.fld F.MTR_CONSUMED.CONSUMED ≥ 1024 then d.mtrEvent F.MTR_EVENTS.RING_FULL else d.signNext.fwProceed := by
  unfold recordSignEff
  rw [hsigns, beq_eq_false_iff_ne.mpr hqueue]
  rfl

end

theorem fwDrainTimeoutEff_ends {im : MtrImage} {fl : Bool} {st : Nat} (h : d.mtr.change = some (im, fl, st)) :
    fwDrainTimeoutEff d = ({ d with mtr.change := none } : Device).fwDone 5 st := by
  unfold fwDrainTimeoutEff
  rw [h]

theorem Device.reg_mtrSignal (d : Device) (r : Reg) (i : Nat) : d.mtrSignal.reg r i = d.reg r i := by
  unfold Device.mtrSignal
  dsimp only
  split <;> split <;> simp only [Device.reg_msix]

theorem Device.mtr_msix (d : Device) (fn : Fn) (v : Nat) : (d.msix fn v).mtr = d.mtr := by
  unfold Device.msix
  split <;> rfl

theorem Device.mtr_mtrSignal (d : Device) : d.mtrSignal.mtr = d.mtr := by
  unfold Device.mtrSignal
  dsimp only
  split <;> split <;> simp only [Device.mtr_msix]

theorem Device.mtr_mtrEvent (d : Device) (f : Field) : (d.mtrEvent f).mtr = d.mtr := (d.event f).mtr_mtrSignal

/-- The end of a change shows its result, and no change in progress. -/
theorem Device.fwDone_shows (d : Device) {r : Nat} (hr : r < 2 ^ F.MTR_FW_STATUS.RESULT.w) (st : Nat) :
    (d.fwDone r st).fld F.MTR_FW_STATUS.RESULT = r ∧ (d.fwDone r st).fld F.MTR_FW_STATUS.ACTIVE = 0 ∧ (d.fwDone r st).mtr = d.mtr := by
  have hkeeps (e : Device) (f g : Field) (x : Nat) (h : g ≠ f) (hf : f ∈ f.reg.fields) (hg : g ∈ g.reg.fields) : (e.setFld f x).fld g = e.fld g :=
    e.fld_setFld_ne x 0 0 h hf hg (by decide) (by decide)
  have hevent (e : Device) (f g : Field) (h : g ≠ f) (hf : f ∈ f.reg.fields) (hg : g ∈ g.reg.fields) : (e.mtrEvent f).fld g = e.fld g :=
    (Device.fld_congr (Device.reg_mtrSignal _) g 0).trans (hkeeps e f g 1 h hf hg)
  unfold Device.fwDone
  dsimp only
  refine ⟨?_, ?_, Device.mtr_mtrEvent _ _⟩
  · rw [hevent _ _ _ (by decide) (by decide) (by decide), hkeeps _ _ _ _ (by decide) (by decide) (by decide),
      hkeeps _ _ _ _ (by decide) (by decide) (by decide)]
    exact d.fld_setFld_fits 0 (by decide) hr
  · rw [hevent _ _ _ (by decide) (by decide) (by decide), hkeeps _ _ _ _ (by decide) (by decide) (by decide)]
    exact Device.fld_setFld_fits _ 0 (by decide) (by decide)

theorem meterQueryEff_refuses {q : List Byte} (h : (d.mtr.image.audit.take 8).contains (fieldAt q 2 2) = false) :
    meterQueryEff q d = d.mtrEvent F.MTR_EVENTS.QUERY_REFUSED := if_pos (.inr (.inr (.inl h)))

/-- The records of a query's range that the ring holds (R418). -/
def Device.heldRecords (d : Device) (q : List Byte) : List Nat :=
  if fieldAt q 4 4 = d.mtr.boot then
    ((List.range (fieldAt q 1 1)).map (fieldAt q 8 8 + ·)).filter fun k =>
      decide (k < d.fld F.MTR_PRODUCED.PRODUCED) && decide (d.fld F.MTR_PRODUCED.PRODUCED ≤ k + 1024)
  else []

/-- The answer to an audit node's query. -/
theorem meterQueryEff_answers {q : List Byte} (hstate : d.mtrState = 1) (haudit : (d.mtr.image.audit.take 8).contains (fieldAt q 2 2) = true)
    (hty : fieldAt q 0 1 = 0x61) (hpos : 0 < fieldAt q 1 1) (hmax : fieldAt q 1 1 ≤ 7) :
    meterQueryEff q d = d.sendBare (fieldAt q 2 2) 6 (pack [(1, 0x62), (1, (d.heldRecords q).length),
      (1, if (d.heldRecords q).length = fieldAt q 1 1 then 0 else if d.heldRecords q = [] then 2 else 1), (1, 0),
      (2, d.node), (2, 0), (4, d.mtr.boot), (4, 0), (8, fieldAt q 8 8), (8, 0)] ++
      (d.heldRecords q).flatMap fun k => fit 512 (sget [] d.mtr.ring (k % 1024))) := by
  have hask : ¬ (d.mtrState ≠ 1 ∨ fieldAt q 0 1 ≠ 0x61 ∨ (d.mtr.image.audit.take 8).contains (fieldAt q 2 2) = false ∨
      fieldAt q 1 1 = 0 ∨ fieldAt q 1 1 > 7) := by
    rw [haudit]
    simp only [not_or, ne_eq, not_not]
    exact ⟨hstate, hty, Bool.noConfusion, by omega, by omega⟩
  have hempty (l : List Nat) : (if l.isEmpty = true then (2 : Nat) else 1) = if l = [] then 2 else 1 := by
    simp only [List.isEmpty_iff]
  unfold meterQueryEff
  dsimp only
  rw [if_neg hask, hempty]
  rfl

end

/-! ### O49 -/

/-- Settles O49: each command through its effect, by the branch of it that the clause names. -/
theorem metergateCommands : Obligations.MetergateCommands := by
  unfold Obligations.MetergateCommands
  intro s hs
  have hstays {f : Device → Device} (hf : f s.dev = s.dev) : s.act f = .next s := State.act_id hs.1 hf
  refine ⟨fun h0 hrider => hs.act_eq (if_pos ⟨h0, hrider⟩), fun hne => hstays (if_neg fun h => hne h.1), fun hat hdue => hs.act_eq ?_,
    fun port hport => ⟨fun hst => hs.bar4_eq hport ?_, fun hst => ?_, hs.bar4_eq (f := fun d => d.closePeriod 3 none) hport rfl, fun v hlo hhi => hs.bar4_eq hport ?_,
      fun v hv => hs.bar4_id hport (if_pos hv), fun n bytes ho fl hchange => ?_⟩,
    fun cause hdue hstarted => hs.act_eq ?_, fun hsigns hqueue => ?_, fun im fl st hchange => ?_,
    fun q hq => hs.act_eq (meterQueryEff_refuses hq), fun q hstate haudit hty hpos hmax => hs.act_eq (meterQueryEff_answers hstate haudit hty hpos hmax)⟩
  · rw [intervalCloseEff, hat, hdue]
    rfl
  · exact if_pos (by simpa using hst)
  · exact ⟨_, hs.bar4_eq hport (tallyNowEff_waits hst), rfl, s.framed_put (s.dev.framed_refl _) rfl⟩
  · exact if_neg (by omega)
  · have hidle (h : s.dev.fld F.TURN_STATUS.STATE = 0) (e : Device) (he : fwChecked port n bytes fl s.dev = e) :
        exec (.metergateFwChange port n bytes true fl) s = .next (s.put e) := hs.bar4_eq hport ((fwChangeEff_idle hchange h).trans he)
    refine ⟨fun hturn => hs.bar4_eq hport (fwChangeEff_turn hchange hturn), fun h hbad => hidle h _ ?_, fun h hgood => ?_⟩
    · rw [fwChecked, hbad]
      rfl
    · have hchecked : ¬ (!mtrVerifies s.dev.part (mtrOfBytes (fit n bytes))) = true := by rw [hgood]; decide
      refine ⟨fun hold => hidle h _ ?_, fun hnew hfuse => hidle h _ ?_, fun hnew hfuse => hidle h _ ?_⟩
      · exact (if_neg hchecked).trans (if_pos hold)
      · exact (if_neg hchecked).trans ((if_neg (by omega)).trans (if_pos hfuse))
      · exact (if_neg hchecked).trans ((if_neg (by omega)).trans (if_neg (by omega)))
  · rw [periodCloseEff, hdue, hstarted]
    rfl
  · exact ⟨fun hfull => hs.act_eq ((recordSignEff_signs hsigns hqueue).trans (if_pos hfull)),
      fun hroom => hs.act_eq ((recordSignEff_signs hsigns hqueue).trans (if_neg (by omega)))⟩
  · obtain ⟨hresult, hactive, hmtr⟩ := Device.fwDone_shows { s.dev with mtr.change := none } (r := 5) (by decide) st
    exact ⟨_, hs.act_eq (fwDrainTimeoutEff_ends hchange), congrArg MtrState.change hmtr, (s.put_fld _ _ _).trans hresult,
      (s.put_fld _ _ _).trans hactive⟩

end Sys2Proof.Machine

/-! ## What moves no profile slot and no region (R383, R385) -/

namespace Sys2Proof.Machine

/-- What error records, stopped entries, ended descriptors and lost links leave as it was: the profile slots and the regions. -/
def Device.kept (d : Device) : CfgState × SMap Region := (d.cfg, d.slu.regions)

theorem Device.kept_setFld (d : Device) (f : Field) (x i : Nat) : (d.setFld f x i).kept = d.kept := rfl

theorem Device.kept_ite {c : Prop} [Decidable c] {a b e : Device} (ha : a.kept = e.kept) (hb : b.kept = e.kept) : (if c then a else b).kept = e.kept := by
  split
  · exact ha
  · exact hb

section
variable (d : Device)

theorem Device.kept_count (f : Field) (n i : Nat) : (d.count f n i).kept = d.kept := by
  unfold Device.count
  split <;> rfl

theorem Device.kept_signal (v : Nat) : (d.signal v).kept = d.kept := by
  unfold Device.signal Device.msix
  split
  · split <;> rfl
  · rfl

theorem Device.kept_eventSig (f v : Field) : (d.eventSig f v).kept = d.kept := Device.kept_signal _ _

theorem Device.kept_hostWrite (fn : Fn) (a : Nat) (bs : List Byte) : (d.hostWrite fn a bs).kept = d.kept := by
  unfold Device.hostWrite
  split <;> rfl

theorem Device.kept_store (a : Nat) (bs : List Byte) : (d.store a bs).kept = d.kept := by
  unfold Device.store
  split <;> rfl

theorem Device.kept_hostErr : d.hostErr.kept = d.kept := (Device.kept_eventSig _ _ _).trans (d.kept_count _ _ _)

theorem Device.kept_foldl {α : Type} {f : Device → α → Device} (h : ∀ d x, (f d x).kept = d.kept) (l : List α) : (l.foldl f d).kept = d.kept :=
  List.foldl_keep Device.kept f h l d

/-! ### Error records and stops -/

theorem Device.kept_errRing (bs : List Byte) : (d.errRing bs).kept = d.kept := by
  unfold Device.errRing
  split
  · rfl
  dsimp only
  split
  · rfl
  split
  · rfl
  · exact (Device.kept_signal _ _).trans (d.kept_hostWrite _ _ _)

theorem Device.kept_bumpErr (r : ErrRec) : (d.bumpErr r).kept = d.kept := rfl

theorem Device.kept_record (r : ErrRec) (b : Bool) : (d.record r b).kept = d.kept := by
  have hstored (e : Device) : ({ e.bumpErr r with err.seq := e.err.seq + 1 } : Device).kept = e.kept := rfl
  have hval (e : Device) (a v : Nat) : (e.storeVal a 8 v).kept = e.kept := e.kept_store _ _
  unfold Device.record
  split
  · rfl
  · dsimp only
    rw [Device.kept_errRing]
    refine (Device.kept_setFld _ _ _ _).trans ((hstored _).trans ?_)
    rw [hval, hval, Device.kept_store]

theorem Device.kept_setSlot (i : Nat) (x : Slot) : (d.setSlot i x).kept = d.kept := by
  have husers (a b : Nat) : (d.countUsers a b).kept = d.kept := by
    have hdown : (if a < 1024 then d.countDown F.SCR_TABLE.USERS 1 a else d).kept = d.kept := Device.kept_ite rfl rfl
    unfold Device.countUsers
    exact Device.kept_ite rfl (Device.kept_ite ((Device.kept_count _ _ _ _).trans hdown) hdown)
  unfold Device.setSlot Device.mirror
  exact Device.kept_ite ((Device.kept_store _ _ _).trans (husers _ _)) (husers _ _)

theorem Device.kept_noteStop (a : Admitted) : (d.noteStop a).kept = d.kept := by
  have hpeak (e : Device) (f : Field) (v p : Nat) : (e.peak f v p).drew.kept = e.kept := rfl
  have hplots : ((plotsOf a.plotsLeft).foldl (fun (d : Device) p =>
      ((d.count F.PLOT_STOP_STATS.STOPS 1 p).peak F.PLOT_STOP_STATS.MAX_STOP (d.free 64 % 2001) p).drew) d).kept = d.kept :=
    Device.kept_foldl d (fun d p => (hpeak _ _ _ _).trans (d.kept_count F.PLOT_STOP_STATS.STOPS 1 p)) _
  have hslot (e : Device) (f : SlotTurn → SlotTurn) : (e.modTs a.e.slot f).kept = e.kept := e.kept_setSlot _ _
  unfold Device.noteStop
  exact Device.kept_ite ((hslot _ _).trans hplots) hplots

theorem Device.kept_plotRests (p : Nat) : (d.plotRests p).kept = d.kept := by
  unfold Device.plotRests
  split <;> rfl

theorem Device.kept_reportLate (a : Admitted) : (d.reportLate a).kept = d.kept := by
  have htag (e : Device) (r j : Nat) : (e.tag r j).kept = e.kept := by
    unfold Device.tag
    split <;> rfl
  unfold Device.reportLate
  split
  · rfl
  dsimp only
  split
  · exact (htag _ _ _).trans (d.kept_count _ _ _)
  · exact d.kept_count _ _ _

theorem Device.kept_stopLate (i : Nat) : (d.stopLate i).kept = d.kept := by
  unfold Device.stopLate
  split
  · rfl
  split
  · exact (Device.kept_reportLate _ _).trans ((Device.kept_foldl _ Device.kept_plotRests _).trans (Device.kept_noteStop _ _))
  · rfl

theorem Device.kept_issuerFailed (plot core entry turn status node : Nat) : (d.issuerFailed plot core entry turn status node).kept = d.kept := by
  unfold Device.issuerFailed
  exact Device.kept_ite ((Device.kept_stopLate _ _).trans (d.kept_record _ _)) (d.kept_record _ _)

/-! ### Contexts and messages -/

theorem Device.kept_cplRecord (x : SluCtx) (q index status : Nat) (late : Bool) : (d.cplRecord x q index status late).kept = d.kept := by
  unfold Device.cplRecord
  dsimp only
  refine (Device.kept_signal _ _).trans ?_
  split <;> exact d.kept_hostWrite _ _ _

theorem Device.kept_coreAnswered (x : SluCtx) (plot core run entry turn status : Nat) :
    (d.coreAnswered x plot core run entry turn status).kept = d.kept := by
  have hput : (if x.desc.cls = 1 then d.putAnswered plot core run else d).kept = d.kept := by
    split <;> rfl
  unfold Device.coreAnswered
  exact Device.kept_ite hput (Device.kept_ite ((Device.kept_issuerFailed _ _ _ _ _ _ _).trans hput) (Device.kept_ite hput hput))

theorem Device.kept_tellIssuer (x : SluCtx) (status : Nat) (late : Bool) : (d.tellIssuer x status late).kept = d.kept := by
  have hfails (q prog pos : Nat) : (if status ≠ 0 ∧ late = false then d.progFails q prog pos else d).kept = d.kept := by
    split <;> rfl
  unfold Device.tellIssuer
  split
  · dsimp only
    split
    · exact hfails _ _ _
    · exact (Device.kept_cplRecord _ _ _ _ _ _).trans (hfails _ _ _)
  · split
    · rfl
    · exact d.kept_coreAnswered _ _ _ _ _ _ _
  · split <;> rfl
  · rfl
  · split <;> rfl
  · rfl
  · rfl
  · rfl

theorem Device.kept_ctxTaken (iss : Issuer) (e c : Nat) : (d.ctxTaken iss e c).kept = d.kept := by
  unfold Device.ctxTaken
  split <;> rfl

theorem Device.kept_openCtx {e c : Nat} {desc : Desc} {iss : Issuer} {fn : Fn} {payload : List Byte} {d' : Device}
    (h : d.openCtx e desc iss fn payload = some (c, d')) : d'.kept = d.kept := by
  unfold Device.openCtx at h
  obtain ⟨k, -, hk⟩ := Option.map_eq_some_iff.mp h
  rw [← (Prod.mk.inj hk).2]
  rfl

theorem Device.kept_admitWaiting : d.admitWaiting.kept = d.kept := by
  unfold Device.admitWaiting
  split
  · rfl
  split
  · next h =>
    have hopened := Device.kept_openCtx _ h
    exact (Device.kept_ctxTaken _ _ _ _).trans hopened
  · rfl

theorem Device.kept_closeCtx (e c : Nat) : (d.closeCtx e c).kept = d.kept := by
  unfold Device.closeCtx
  split
  · rfl
  dsimp only
  split <;> exact Device.kept_admitWaiting _

theorem Device.kept_endCtx (e c status result : Nat) : (d.endCtx e c status result).kept = d.kept := by
  unfold Device.endCtx
  split
  · rfl
  split
  · rfl
  dsimp only
  split
  · exact (Device.kept_closeCtx _ _ _).trans (Device.kept_tellIssuer _ _ _ _)
  · exact Device.kept_tellIssuer _ _ _ _

theorem Device.kept_flushDone : d.flushDone.kept = d.kept := by
  unfold Device.flushDone
  dsimp only
  split
  · exact Device.kept_foldl d (fun d x => d.kept_endCtx _ _ _ _) _
  · exact Device.kept_foldl d (fun d x => d.kept_endCtx _ _ _ _) _

theorem Device.kept_msgEnded (o : OutMsg) (status : Nat) : (d.msgEnded o status).kept = d.kept := by
  unfold Device.msgEnded
  split
  · rfl
  refine Device.kept_ite ?_ (Device.kept_ite (Device.kept_endCtx _ _ _ _ _) rfl)
  refine Device.kept_ite ((Device.kept_closeCtx _ _ _).trans ?_) ?_
  · exact Device.kept_ite (Device.kept_tellIssuer _ _ _ _) rfl
  · exact Device.kept_ite (Device.kept_tellIssuer _ _ _ _) rfl

theorem Device.kept_settle (o : OutMsg) (status : Nat) : (d.settle o status).kept = d.kept := by
  unfold Device.settle Device.unwatch
  exact (Device.kept_flushDone _).trans (Device.kept_msgEnded _ _ _)

/-! ### Links -/

theorem Device.kept_declareDead (node : Nat) : (d.declareDead node).kept = d.kept := by
  have hmarked : (d.deadMarked node).kept = d.kept := by
    have hcount : (if d.rt.dead.contains node then d else
        (({ d with rt.dead := node :: d.rt.dead } : Device).setFld F.SLU_DEAD_LAST.NODE node).count F.SLU_DEAD_LAST.COUNT).kept = d.kept := by
      split
      · rfl
      · exact Device.kept_count _ _ _ _
    exact hcount
  have hflush (e : Device) : (e.flushCut node).kept = e.kept := by
    unfold Device.flushCut
    split <;> rfl
  rw [Device.declareDead_eq]
  exact (Device.kept_foldl _ (fun d o => d.kept_settle _ _) _).trans ((hflush _).trans
    ((Device.kept_foldl _ (fun d x => d.kept_endCtx _ _ _ _) _).trans hmarked))

theorem Device.kept_fallen (l reason next : Nat) : (d.fallen l reason next).kept = d.kept := by
  have hseal (e : Device) : (e.noteSealLink l).kept = e.kept := by
    unfold Device.noteSealLink
    dsimp only
    split <;> rfl
  unfold Device.fallen
  exact (hseal _).trans ((Device.kept_eventSig _ _ _).trans (Device.kept_count _ _ _ _))

theorem Device.kept_linkReset (l next : Nat) : (d.linkReset l next).kept = d.kept := by
  unfold Device.linkReset
  split
  · rfl
  split
  · next h => rw [Device.linkFall_active _ _ h]
              exact (Device.kept_foldl _ Device.kept_declareDead _).trans (d.kept_fallen _ _ _)
  · rfl

/-! ### The profile slots -/

theorem Device.cfg_ite {c : Prop} [Decidable c] {a b e : Device} (ha : a.cfg = e.cfg) (hb : b.cfg = e.cfg) : (if c then a else b).cfg = e.cfg := by
  split
  · exact ha
  · exact hb

theorem Device.cfg_foldl {α : Type} {f : Device → α → Device} (h : ∀ d x, (f d x).cfg = d.cfg) (l : List α) : (l.foldl f d).cfg = d.cfg :=
  List.foldl_keep Device.cfg f h l d

@[simp] theorem Device.cfg_count (f : Field) (n i : Nat) : (d.count f n i).cfg = d.cfg := congrArg Prod.fst (d.kept_count f n i)

@[simp] theorem Device.cfg_signal (v : Nat) : (d.signal v).cfg = d.cfg := congrArg Prod.fst (d.kept_signal v)

@[simp] theorem Device.cfg_eventSig (f v : Field) : (d.eventSig f v).cfg = d.cfg := congrArg Prod.fst (d.kept_eventSig f v)

@[simp] theorem Device.cfg_hostWrite (fn : Fn) (a : Nat) (bs : List Byte) : (d.hostWrite fn a bs).cfg = d.cfg :=
  congrArg Prod.fst (d.kept_hostWrite fn a bs)

@[simp] theorem Device.cfg_store (a : Nat) (bs : List Byte) : (d.store a bs).cfg = d.cfg := congrArg Prod.fst (d.kept_store a bs)

@[simp] theorem Device.cfg_hostErr : d.hostErr.cfg = d.cfg := congrArg Prod.fst d.kept_hostErr

theorem Device.cfg_linkReset (l next : Nat) : (d.linkReset l next).cfg = d.cfg := congrArg Prod.fst (d.kept_linkReset l next)

/-! ### Images (R383) -/

theorem Device.cfg_applyPort (im : Image) (k : Nat) : (d.applyPort im k).cfg = d.cfg := by
  have hlink (e : Device) (l : Nat) : (if e.linkState l = 0 then e else e.linkReset l 0).cfg = e.cfg := Device.cfg_ite rfl (e.cfg_linkReset l 0)
  have hset (e : Device) (f g h : Field) (x y z l : Nat) : (((e.setFld f x l).setFld g y l).setFld h z l).cfg = e.cfg := rfl
  unfold Device.applyPort
  split
  · rfl
  dsimp only
  split
  · rfl
  · exact Device.cfg_foldl d (fun e l => (hset _ _ _ _ _ _ _ l).trans (hlink e l)) _

theorem Device.cfg_applyPlot (im : Image) (p : Nat) : (d.applyPlot im p).cfg = d.cfg := by
  have hset (e : Device) (f g : Field) (x y i : Nat) : ((e.setFld f x i).setFld g y i).cfg = e.cfg := rfl
  unfold Device.applyPlot
  dsimp only
  rw [Device.cfg_foldl _ fun e c => hset e _ _ _ _ _]
  iterate 6 rw [Device.cfg_setFld]

theorem Device.cfg_applyChannel (im : Image) (k : Nat) : (d.applyChannel im k).cfg = d.cfg := by
  unfold Device.applyChannel
  exact Device.cfg_ite rfl (Device.cfg_ite rfl (Device.cfg_ite rfl rfl))

theorem Device.cfg_applyAreas (im : Image) : (d.applyAreas im).cfg = d.cfg := by
  unfold Device.applyAreas
  dsimp only
  rw [Device.cfg_foldl _ fun e k => e.cfg_setFld F.CFG_DIGEST.DIGEST (bitsOf im.cfgDigest.toNat (64 * k) 64) k]
  iterate 8 rw [Device.cfg_setFld]
  refine Device.cfg_ite ?_ ?_
  · iterate 7 rw [Device.cfg_setFld]
  · iterate 12 rw [Device.cfg_setFld]

theorem Device.cfg_applyPools (im : Image) : (d.applyPools im).cfg = d.cfg := by
  have hmarks (e : Device) (f g : Field) (x y i : Nat) : ((e.setBoth f x i).setBoth g y i).cfg = e.cfg := rfl
  have hflash (e : Device) : e.recountFlash.cfg = e.cfg := rfl
  unfold Device.applyPools
  dsimp only
  rw [hflash]
  iterate 6 rw [Device.cfg_setFld]
  exact Device.cfg_foldl d (fun e i => hmarks e _ _ _ _ i) _

theorem Device.cfg_applyRota (im : Image) : (d.applyRota im).cfg = d.cfg := by
  have hset (e : Device) (r : Reg) (i : Nat) (v w : Word) : ((e.setReg r i v).setStaged r i w).cfg = e.cfg := rfl
  unfold Device.applyRota
  exact Device.cfg_foldl d (fun e x => hset e _ _ _ _) _

theorem Device.cfg_checkProgram (p : Nat) : (d.checkProgram p).cfg = d.cfg := by
  unfold Device.checkProgram
  exact Device.cfg_ite rfl rfl

theorem Device.cfg_restartPlots : d.restartPlots.cfg = d.cfg := by
  unfold Device.restartPlots
  dsimp only
  rw [Device.cfg_foldl _ fun e p => (Device.cfg_checkProgram _ p).trans (e.cfg_setFld _ _ p)]

/-- An image becomes active, and the slots stay. -/
theorem Device.cfg_applyImage (im : Image) : (d.applyImage im).cfg = { d.cfg with image := some im } := by
  unfold Device.applyImage
  dsimp only
  rw [Device.cfg_setFld, Device.cfg_restartPlots, Device.cfg_foldl _ fun e k => e.cfg_applyPort im k, Device.cfg_applyRota, Device.cfg_applyPools,
    Device.cfg_applyAreas, Device.cfg_foldl _ fun e k => e.cfg_applyChannel im k, Device.cfg_foldl _ fun e p => e.cfg_applyPlot im p]

end

end Sys2Proof.Machine

/-! ## The CFG_ commands and the census (R384 to R386, R391, R392) -/

namespace Sys2Proof.Machine

/-! ### A CFG_ command begins and ends (R384) -/

/-- An event leaves every register but its own. -/
theorem Device.fld_eventSig_reg (d : Device) {f g : Field} (v : Field) {r : Reg} (hf : f.reg = r) (hg : g.reg ≠ r) :
    (d.eventSig f v).fld g = d.fld g :=
  (d.fld_eventSig f v g 0).trans (d.fld_setFld_reg 1 0 0 (fun h => hg (h.trans hf)) (by decide) (by decide))

/-- The status register of a CFG_ command that begins. -/
def Device.cmdShown (d : Device) (opcode : Nat) : Device :=
  ((d.setFld F.CFG_CMD_STATUS.OPCODE opcode).setFld F.CFG_CMD_STATUS.BUSY_WHY 0).setFld F.CFG_CMD_STATUS.RESULT 0

/-- The device of a CFG_ command that begins to be carried out. -/
def Device.cmdBegun (d : Device) (opcode : Nat) : Device := (d.cmdShown opcode).setFld F.CFG_CMD_STATUS.ACTIVE 1

/-- The device of a CFG_ command that the rider is not there to carry out. -/
def Device.cmdState (d : Device) (opcode : Nat) (failed : Field) : Device :=
  ((if opcode = 1 then (d.cmdShown opcode).setFld F.CFG_STATUS.RESULT 0x0A else d.cmdShown opcode).setFld F.CFG_CMD_STATUS.RESULT 0x0A).eventSig
    failed F.CFG_CTRL.VECTOR

section
variable {d : Device} {opcode : Nat} {failed : Field} {f : Device → Device}

theorem Device.fld_cmdShown (d : Device) (opcode : Nat) {g : Field} (h : g.reg ≠ .CFG_CMD_STATUS) : (d.cmdShown opcode).fld g = d.fld g := by
  unfold Device.cmdShown
  rw [Device.fld_setFld_reg _ _ 0 0 h (by decide) (by decide), Device.fld_setFld_reg _ _ 0 0 h (by decide) (by decide),
    Device.fld_setFld_reg _ _ 0 0 h (by decide) (by decide)]

theorem Device.fld_cmdBegun (d : Device) (opcode : Nat) {g : Field} (h : g.reg ≠ .CFG_CMD_STATUS) : (d.cmdBegun opcode).fld g = d.fld g :=
  (Device.fld_setFld_reg _ 1 0 0 h (by decide) (by decide)).trans (d.fld_cmdShown opcode h)

theorem Device.cfgBegin_active (h : d.on F.CFG_CMD_STATUS.ACTIVE = true) : d.cfgBegin opcode failed f = d := if_pos h

theorem Device.cfgBegin_runs (hactive : d.on F.CFG_CMD_STATUS.ACTIVE = false) (h : d.fld F.RIDE_STATUS.STATE = 2) :
    d.cfgBegin opcode failed f = f (d.cmdBegun opcode) :=
  (if_neg (Bool.eq_false_iff.mp hactive)).trans (if_neg (not_not_intro ((d.fld_cmdShown opcode (by decide)).trans h)))

theorem Device.cfgBegin_riderless (hactive : d.on F.CFG_CMD_STATUS.ACTIVE = false) (h : d.fld F.RIDE_STATUS.STATE ≠ 2) :
    d.cfgBegin opcode failed f = d.cmdState opcode failed :=
  (if_neg (Bool.eq_false_iff.mp hactive)).trans (if_pos fun hst => h ((d.fld_cmdShown opcode (by decide)).symm.trans hst))

/-- Without the rider a command ends STATE. -/
theorem Device.result_cmdState (d : Device) (opcode : Nat) (h : failed.reg = .CFG_EVENTS) :
    (d.cmdState opcode failed).fld F.CFG_CMD_STATUS.RESULT = 10 :=
  (Device.fld_eventSig_reg _ _ h (by decide)).trans (Device.fld_setFld_fits _ 0 (by decide) (by decide))

/-- The end of a command shows its result with ACTIVE 0, and leaves every register but those of the status and the events. -/
theorem Device.cfgEnd_shows (d : Device) (r : Nat) {ok failed : Field} (hok : ok.reg = .CFG_EVENTS) (hfailed : failed.reg = .CFG_EVENTS) :
    (d.cfgEnd r ok failed).fld F.CFG_CMD_STATUS.RESULT = r % 256 ∧ (d.cfgEnd r ok failed).on F.CFG_CMD_STATUS.ACTIVE = false ∧
      (d.cfgEnd r ok failed).fld F.CFG_CMD_STATUS.BUSY_WHY = d.fld F.CFG_CMD_STATUS.BUSY_WHY ∧
      (d.cfgEnd r ok failed).fld F.CFG_STATUS.STATE = d.fld F.CFG_STATUS.STATE ∧ (d.cfgEnd r ok failed).cfg = d.cfg := by
  have hevent : (if r = 1 then ok else failed).reg = .CFG_EVENTS := by split <;> assumption
  have hkeeps (e : Device) (f g : Field) (x : Nat) (h : g ≠ f) (hf : f ∈ f.reg.fields) (hg : g ∈ g.reg.fields) : (e.setFld f x).fld g = e.fld g :=
    e.fld_setFld_ne x 0 0 h hf hg (by decide) (by decide)
  unfold Device.cfgEnd
  refine ⟨?_, ?_, ?_, ?_, Device.cfg_eventSig _ _ _⟩
  · rw [Device.fld_eventSig_reg _ _ hevent (by decide)]
    exact Device.fld_setFld_same _ _ _ 0 (by decide)
  · rw [Device.on, Device.fld_eventSig_reg _ _ hevent (by decide), hkeeps _ _ _ _ (by decide) (by decide) (by decide),
      Device.fld_setFld_fits _ 0 (by decide) (by decide)]
    rfl
  · rw [Device.fld_eventSig_reg _ _ hevent (by decide), hkeeps _ _ _ _ (by decide) (by decide) (by decide),
      hkeeps _ _ _ _ (by decide) (by decide) (by decide)]
  · rw [Device.fld_eventSig_reg _ _ hevent (by decide), hkeeps _ _ _ _ (by decide) (by decide) (by decide),
      hkeeps _ _ _ _ (by decide) (by decide) (by decide)]

/-! ### PROFILE_SWITCH (R384, R385) -/

theorem Device.busyWhy_congr {d e : Device} (hstate : e.fld F.TURN_STATUS.STATE = d.fld F.TURN_STATUS.STATE)
    (hring : e.fld F.PIM_DQ_CTRL.ENABLE = d.fld F.PIM_DQ_CTRL.ENABLE) (hgen : e.gen = d.gen) (hfur : e.fur = d.fur) (hslu : e.slu = d.slu)
    (hho : e.ho = d.ho) (hpim : e.pim = d.pim) : e.busyWhy = d.busyWhy := by
  unfold Device.busyWhy Device.liveSlots Device.hoBusy Device.on
  rw [hstate, hring, hgen, hfur, hslu, hho, hpim]

theorem Device.busyWhy_cmdBegun (d : Device) (opcode : Nat) : (d.cmdBegun opcode).busyWhy = d.busyWhy :=
  Device.busyWhy_congr (d.fld_cmdBegun opcode (by decide)) (d.fld_cmdBegun opcode (by decide)) rfl rfl rfl rfl rfl

theorem Device.busyWhy_lt (d : Device) : d.busyWhy < 64 := by
  have hbit (b : Bool) : b2n b ≤ 1 := b2n_le_one b
  unfold Device.busyWhy
  generalize (d.fld F.TURN_STATUS.STATE != 0) = a
  generalize (d.liveSlots != []) = b
  generalize (d.fur.desc.any fun x => x.2.state != 0) = c
  generalize (d.slu.regions.any fun x => x.2.state != 0) = e
  generalize (d.slu.ctxs != [] || d.slu.waiting != [] || d.hoBusy) = f
  generalize (d.pim.chans.any (fun x => x.2.entryQ ++ x.2.hold0 ++ x.2.maintQ ++ x.2.hold1 != []) || d.on F.PIM_DQ_CTRL.ENABLE) = g
  have := hbit a
  have := hbit b
  have := hbit c
  have := hbit e
  have := hbit f
  have := hbit g
  omega

/-- A switch that the drain conditions forbid. -/
def Device.switchBusy (d : Device) : Device :=
  (((d.cmdBegun 1).setFld F.CFG_CMD_STATUS.BUSY_WHY d.busyWhy).setFld F.CFG_STATUS.RESULT 0x09).cfgEnd 0x09 F.CFG_EVENTS.SWITCH_DONE
    F.CFG_EVENTS.SWITCH_FAILED

/-- The target of a switch, and the push of the retention area before it. -/
def Device.armed (d : Device) (slot : Nat) : Device := { d with cfg.switchTo := some (slot % 4), err.pushing := true, err.pushSwitch := true }

theorem Device.fld_armed (d : Device) (slot : Nat) (g : Field) : (d.armed slot).fld g = d.fld g := Device.fld_congr (fun _ _ => rfl) g 0

theorem Device.framed_armed {d e : Device} {rs : List Reg} (h : d.framed e rs) (slot : Nat) : d.framed (e.armed slot) rs :=
  Device.framed_congr h rfl rfl rfl rfl

theorem Device.switchTo_armed (d : Device) (slot : Nat) : (d.armed slot).cfg.switchTo = some (slot % 4) := rfl

theorem Device.mem_armed (d : Device) (slot : Nat) : (d.armed slot).mem = d.mem := rfl

/-- A switch that begins. -/
def Device.switching (d : Device) (slot : Nat) : Device := ((d.cmdBegun 1).setFld F.CFG_STATUS.STATE 2).armed slot

theorem profileSwitchEff_runs (slot : Nat) (hactive : d.on F.CFG_CMD_STATUS.ACTIVE = false) (h : d.fld F.RIDE_STATUS.STATE = 2) :
    profileSwitchEff slot d = if d.busyWhy ≠ 0 then d.switchBusy else d.switching slot := by
  refine (Device.cfgBegin_runs hactive h).trans ?_
  dsimp only
  rw [Device.busyWhy_cmdBegun]
  rfl

/-- An end of SWITCH_FAILED's command without the rider, and of SLOT_WRITE_FAILED's. -/
theorem Device.event_cmdState (d : Device) (opcode : Nat) (h64 : failed.lo + failed.w ≤ 64) (hw : 1 < 2 ^ failed.w) :
    (d.cmdState opcode failed).fld failed = 1 := Device.fld_eventSig_same _ _ h64 hw

/-! ### SLOT_WRITE (R386) -/

/-- A SLOT_WRITE that is carried out. -/
theorem slotWriteEff_runs (port slot bytes : Nat) (hactive : d.on F.CFG_CMD_STATUS.ACTIVE = false) (h : d.fld F.RIDE_STATUS.STATE = 2) :
    slotWriteEff port slot bytes d =
      if slot % 4 = d.fld F.CFG_STATUS.ACTIVE_SLOT then (d.cmdBegun 2).cfgEnd 0x0A F.CFG_EVENTS.SLOT_WRITTEN F.CFG_EVENTS.SLOT_WRITE_FAILED
      else if bytes > 0x3800000 then (d.cmdBegun 2).cfgEnd 0x07 F.CFG_EVENTS.SLOT_WRITTEN F.CFG_EVENTS.SLOT_WRITE_FAILED
      else
        let e := ({ d.cmdBegun 2 with
          cfg.slots := sput none d.cfg.slots (slot % 4) none, cfg.writing := some (slot % 4, bytes) } : Device).showSlot (slot % 4) 0x0D
        e.emit (.hostRead ⟨port, 0⟩ (e.fld F.CFG_CMD_ADDR.ADDR * 4096) bytes) := by
  refine (Device.cfgBegin_runs hactive h).trans ?_
  dsimp only
  rw [Device.fld_cmdBegun _ _ (by decide)]
  rfl

theorem Device.cfg_showSlot (d : Device) (slot r : Nat) : (d.showSlot slot r).cfg = d.cfg := by
  unfold Device.showSlot
  dsimp only
  generalize sget none (d.setFld F.CFG_SLOT_INFO.LAST_RESULT r slot).cfg.slots slot = o
  cases o <;> rfl

/-! ### PROFILE_SWITCH_DONE (R385) -/

theorem Device.cfg_restartTimer (o d : Device) : (Device.restartTimer o d).cfg = d.cfg := by
  unfold Device.restartTimer
  split <;> rfl

theorem Device.fld_restartTimer (o d : Device) (g : Field) : (Device.restartTimer o d).fld g = d.fld g := by
  unfold Device.restartTimer
  split <;> rfl

theorem Device.state_applyImage (d : Device) (im : Image) : (d.applyImage im).fld F.CFG_STATUS.STATE = 1 := by
  unfold Device.applyImage
  exact Device.fld_setFld_fits _ 0 (by decide) (by decide)

/-- The device whose target slot has been checked for a switch. -/
def Device.targetChecked (d : Device) (slot result : Nat) : Device :=
  (({ d with cfg.switchTo := none } : Device).showSlot slot result).setFld F.CFG_STATUS.RESULT result

theorem Device.cfg_targetChecked (d : Device) (slot result : Nat) : (d.targetChecked slot result).cfg = { d.cfg with switchTo := none } :=
  Device.cfg_showSlot _ _ _

/-- STATE and the push as before a switch. -/
def Device.unswitched (d : Device) : Device :=
  ({ d with err.pushing := false, err.pushSwitch := false } : Device).setFld F.CFG_STATUS.STATE (b2n d.cfg.image.isSome)

theorem Device.cfg_unswitched (d : Device) : d.unswitched.cfg = d.cfg := rfl

/-- A switch that has failed: the image stays. -/
def Device.switchFailed (d : Device) (slot result : Nat) : Device :=
  (d.targetChecked slot result).unswitched.cfgEnd result F.CFG_EVENTS.SWITCH_DONE F.CFG_EVENTS.SWITCH_FAILED

theorem Device.switchFailed_shows (d : Device) (slot result : Nat) : (d.switchFailed slot result).cfg = { d.cfg with switchTo := none } ∧
    (d.switchFailed slot result).on F.CFG_CMD_STATUS.ACTIVE = false := by
  obtain ⟨-, hoff, -, -, hcfg⟩ := (d.targetChecked slot result).unswitched.cfgEnd_shows result (ok := F.CFG_EVENTS.SWITCH_DONE)
    (failed := F.CFG_EVENTS.SWITCH_FAILED) rfl rfl
  exact ⟨hcfg.trans ((Device.cfg_unswitched _).trans (d.cfg_targetChecked slot result)), hoff⟩

section
variable {slot : Nat} {fl ho nv : Bool} (hswitch : d.cfg.switchTo = some slot)
include hswitch

theorem profileSwitchDoneEff_applies {im : Image} (him : sget none d.cfg.slots slot = some im) (hresult : d.slotResult slot fl = 1) :
    ∃ o e : Device, profileSwitchDoneEff fl ho nv d =
      (Device.restartTimer o (e.applyImage im)).cfgEnd 1 F.CFG_EVENTS.SWITCH_DONE F.CFG_EVENTS.SWITCH_FAILED := by
  have hslot : sget none (d.targetChecked slot 1).cfg.slots slot = some im := (congrArg (sget none ·.slots slot) (d.cfg_targetChecked slot 1)).trans him
  unfold profileSwitchDoneEff
  rw [hswitch]
  dsimp only
  rw [hresult]
  rw [show sget none ((({ d with cfg.switchTo := none } : Device).showSlot slot 1).setFld F.CFG_STATUS.RESULT 1).cfg.slots slot = some im from hslot]
  exact ⟨_, _, rfl⟩

theorem profileSwitchDoneEff_fails (hresult : d.slotResult slot fl ≠ 1) :
    profileSwitchDoneEff fl ho nv d = d.switchFailed slot (d.slotResult slot fl) := by
  unfold profileSwitchDoneEff
  rw [hswitch]
  dsimp only
  cases sget none ((({ d with cfg.switchTo := none } : Device).showSlot slot (d.slotResult slot fl)).setFld F.CFG_STATUS.RESULT
      (d.slotResult slot fl)).cfg.slots slot with
  | none => rfl
  | some im => exact if_neg hresult

end

/-! ### SLOT_WRITE_DONE (R386) -/

/-- A slot that has been programmed with an image. -/
def Device.slotProgrammed (d : Device) (slot : Nat) (im : Image) : Device :=
  { d with cfg.writing := none, cfg.slots := sput none d.cfg.slots slot (some im) }

/-- The end of a slot's write. -/
def Device.writeEnded (d : Device) (slot r : Nat) : Device :=
  (d.showSlot slot r).cfgEnd r F.CFG_EVENTS.SLOT_WRITTEN F.CFG_EVENTS.SLOT_WRITE_FAILED

theorem Device.writeEnded_shows (d : Device) (slot r : Nat) : (d.writeEnded slot r).fld F.CFG_CMD_STATUS.RESULT = r % 256 ∧
    (d.writeEnded slot r).on F.CFG_CMD_STATUS.ACTIVE = false ∧ (d.writeEnded slot r).cfg = d.cfg := by
  obtain ⟨hresult, hactive, -, -, hcfg⟩ := (d.showSlot slot r).cfgEnd_shows r (ok := F.CFG_EVENTS.SLOT_WRITTEN)
    (failed := F.CFG_EVENTS.SLOT_WRITE_FAILED) rfl rfl
  exact ⟨hresult, hactive, hcfg.trans (d.cfg_showSlot slot r)⟩

/-- The slot's write is over. -/
def Device.unwriting (d : Device) : Device := { d with cfg.writing := none }

section
variable {slot n : Nat} {bytes : List Byte} {sections : Sections} (hwriting : d.cfg.writing = some (slot, n))
include hwriting

theorem slotWriteDoneEff_eq (ho fl : Bool) : slotWriteDoneEff bytes sections ho fl d =
    if !ho then d.unwriting.hostErr.writeEnded slot 0x0B
    else if !fl then d.unwriting.writeEnded slot 0x0C
    else (d.slotProgrammed slot (imageOfBytes (fit n bytes) sections)).writeEnded slot (imageCheck d.part (imageOfBytes (fit n bytes) sections)) := by
  unfold slotWriteDoneEff
  rw [hwriting]
  rfl

theorem slotWriteDoneEff_unread (fl : Bool) : slotWriteDoneEff bytes sections false fl d = d.unwriting.hostErr.writeEnded slot 0x0B :=
  (slotWriteDoneEff_eq hwriting false fl).trans (if_pos rfl)

theorem slotWriteDoneEff_unwritten : slotWriteDoneEff bytes sections true false d = d.unwriting.writeEnded slot 0x0C :=
  (slotWriteDoneEff_eq hwriting true false).trans ((if_neg Bool.false_ne_true).trans (if_pos rfl))

theorem slotWriteDoneEff_programmed : slotWriteDoneEff bytes sections true true d =
    (d.slotProgrammed slot (imageOfBytes (fit n bytes) sections)).writeEnded slot (imageCheck d.part (imageOfBytes (fit n bytes) sections)) :=
  (slotWriteDoneEff_eq hwriting true true).trans ((if_neg Bool.false_ne_true).trans (if_neg Bool.false_ne_true))

end

/-! ### The census (R391, R392) -/

theorem Device.cfg_sendBare (d : Device) (dest tc : Nat) (data : List Byte) : (d.sendBare dest tc data).cfg = d.cfg := by
  unfold Device.sendBare Device.sendData
  exact Device.cfg_ite rfl rfl

theorem Device.reg_sendBare (d : Device) (dest tc : Nat) (data : List Byte) (r : Reg) (i : Nat) : (d.sendBare dest tc data).reg r i = d.reg r i := by
  unfold Device.sendBare Device.newMsgId Device.sendData
  dsimp only
  split
  · rw [if_neg (by rw [Bool.false_and]; decide)]
    rfl
  · rfl

theorem Device.part_sendBare (d : Device) (dest tc : Nat) (data : List Byte) : (d.sendBare dest tc data).part = d.part := by
  unfold Device.sendBare Device.newMsgId Device.sendData
  dsimp only
  split <;> rfl

theorem Device.fld_sendBare (d : Device) (dest tc : Nat) (data : List Byte) (g : Field) (i : Nat) : (d.sendBare dest tc data).fld g i = d.fld g i :=
  Device.fld_congr (d.reg_sendBare dest tc data) g i

theorem Device.sealPeers_sendBare (d : Device) (dest tc : Nat) (data : List Byte) : (d.sendBare dest tc data).sealPeers = d.sealPeers := by
  unfold Device.sealPeers Device.children
  simp only [Device.fld_sendBare, Device.part_sendBare]

theorem Device.fld_count_ne (d : Device) {f g : Field} (n : Nat) (h : g ≠ f) (hf : f ∈ f.reg.fields) (hg : g ∈ g.reg.fields) :
    (d.count f n).fld g = d.fld g := by
  unfold Device.count
  split
  · exact d.fld_setFld_ne _ 0 0 h hf hg (by decide) (by decide)
  · exact d.fld_setFld_ne _ 0 0 h hf hg (by decide) (by decide)

/-- A census's queries: what the device has recorded stays. -/
theorem Device.censusAsked (d : Device) (ns : List Nat) (scope job id : Nat) :
    let t := ns.foldl (fun (d : Device) n => (d.sendBare n 4 (censusQuery scope d.node job id)).count F.CFG_CENSUS_STATUS.SENT) d
    t.cfg = d.cfg ∧ t.fld F.CFG_CENSUS_STATUS.ACTIVE = d.fld F.CFG_CENSUS_STATUS.ACTIVE ∧
      t.fld F.CFG_CENSUS_STATUS.RECEIVED = d.fld F.CFG_CENSUS_STATUS.RECEIVED :=
  have hkeeps {g : Field} (h : g ≠ F.CFG_CENSUS_STATUS.SENT) (hg : g ∈ g.reg.fields) (e : Device) (n : Nat) :
      ((e.sendBare n 4 (censusQuery scope e.node job id)).count F.CFG_CENSUS_STATUS.SENT).fld g = e.fld g :=
    (Device.fld_count_ne _ 1 h (by decide) hg).trans (e.fld_sendBare _ _ _ g 0)
  ⟨Device.cfg_foldl d (fun e n => (Device.cfg_count _ _ _ _).trans (e.cfg_sendBare _ _ _)) ns,
    List.foldl_keep (fun d : Device => d.fld F.CFG_CENSUS_STATUS.ACTIVE) _ (hkeeps (by decide) (by decide)) ns d,
    List.foldl_keep (fun d : Device => d.fld F.CFG_CENSUS_STATUS.RECEIVED) _ (hkeeps (by decide) (by decide)) ns d⟩

/-- The census as it starts, with the device's own record placed. -/
def Device.censusBegun (d : Device) : Device :=
  (({ d with cfg.censusNo := d.cfg.censusNo + 1, cfg.census := some (d.cfg.censusNo + 1, [d.node]) } : Device).setReg .CFG_CENSUS_STATUS 0 0).setFld
    F.CFG_CENSUS_STATUS.ACTIVE 1

theorem Device.placeCensus_eq (d : Device) (i : Nat) (bs : List Byte) :
    (d.placeCensus i bs).fld F.CFG_CENSUS_STATUS.RECEIVED = min (d.fld F.CFG_CENSUS_STATUS.RECEIVED + 1) (2 ^ 16 - 1) ∧
      (d.placeCensus i bs).fld F.CFG_CENSUS_STATUS.ACTIVE = d.fld F.CFG_CENSUS_STATUS.ACTIVE ∧ (d.placeCensus i bs).cfg = d.cfg := by
  unfold Device.placeCensus Device.countSat
  refine ⟨?_, ?_, d.cfg_hostWrite _ _ _⟩
  · rw [Device.fld_setFld_fits _ 0 (by decide) (by rw [Nat.lt_iff_add_one_le]; exact Nat.succ_le_of_lt (lt_of_le_of_lt (min_le_right _ _) (by decide))),
      Device.fld_hostWrite]
    rfl
  · rw [Device.fld_setFld_ne _ _ 0 0 (by decide) (by decide) (by decide) (by decide) (by decide), Device.fld_hostWrite]

/-- A census that starts records the device itself. -/
theorem censusStartEff_starts {scope : Nat} (first last : Nat) (hactive : d.on F.CFG_CENSUS_STATUS.ACTIVE = false) (hscope : scope ∈ [1, 2]) :
    (censusStartEff scope first last d).on F.CFG_CENSUS_STATUS.ACTIVE = true ∧
      (censusStartEff scope first last d).cfg.census = some (d.cfg.censusNo + 1, [d.node]) ∧
      (censusStartEff scope first last d).fld F.CFG_CENSUS_STATUS.RECEIVED = 1 := by
  have hruns : (d.on F.CFG_CENSUS_STATUS.ACTIVE || !(scope == 1 || scope == 2)) = false := by
    have hone : scope = 1 ∨ scope = 2 := by simpa using hscope
    rw [hactive]
    obtain rfl | rfl := hone <;> rfl
  obtain ⟨ns, bs, job, id, heq⟩ : ∃ (ns : List Nat) (bs : List Byte) (job id : Nat), censusStartEff scope first last d =
      ns.foldl (fun (d : Device) n => (d.sendBare n 4 (censusQuery scope d.node job id)).count F.CFG_CENSUS_STATUS.SENT)
        (d.censusBegun.placeCensus 0 bs) := by
    unfold censusStartEff
    rw [hruns, if_neg Bool.false_ne_true]
    exact ⟨_, _, _, _, rfl⟩
  obtain ⟨hreceived, hplaced, hcfg⟩ := d.censusBegun.placeCensus_eq 0 bs
  obtain ⟨hasked, hstill, hcount⟩ := (d.censusBegun.placeCensus 0 bs).censusAsked ns scope job id
  have hzero (e : Device) : ((e.setReg .CFG_CENSUS_STATUS 0 0).setFld F.CFG_CENSUS_STATUS.ACTIVE 1).fld F.CFG_CENSUS_STATUS.RECEIVED = 0 := by
    rw [Device.fld_setFld_ne _ 1 0 0 (by decide) (by decide) (by decide) (by decide) (by decide), Device.fld]
    exact congrArg F.CFG_CENSUS_STATUS.RECEIVED.get (e.reg_setReg_same .CFG_CENSUS_STATUS 0 0)
  rw [heq]
  refine ⟨?_, ?_, ?_⟩
  · rw [Device.on, hstill, hplaced]
    exact Device.on_setFld_one _ 0 (by decide) (by decide)
  · rw [hasked, hcfg]
    rfl
  · rw [hcount, hreceived, show d.censusBegun.fld F.CFG_CENSUS_STATUS.RECEIVED = 0 from hzero _]
    rfl

/-- A query has been answered. -/
def Device.censusTold (d : Device) (q : List Byte) : Device :=
  let noted := { d with cfg.queries := ((fieldAt q 2 2, fieldAt q 8 8) :: d.cfg.queries).take 16 }
  noted.sendBare (fieldAt q 2 2) 4 (noted.censusReply (fieldAt q 4 2) (fieldAt q 8 8))

theorem censusQueryEff_answers {q : List Byte} (hnode : d.node ≠ 0xFFFF) (hty : fieldAt q 0 1 = 0x51) :
    censusQueryEff q d =
      if fieldAt q 1 1 = 1 ∧ fieldAt q 4 2 = d.fld F.TURN_JOB.JOB_ID ∧ d.cfg.queries.contains (fieldAt q 2 2, fieldAt q 8 8) = false then
        d.sealPeers.foldl (fun d n => d.sendBare n 4 (fit 32 q)) (d.censusTold q)
      else d.censusTold q := by
  have hjob : (d.censusTold q).fld F.TURN_JOB.JOB_ID = d.fld F.TURN_JOB.JOB_ID := Device.fld_sendBare _ _ _ _ _ 0
  have hpeers : (d.censusTold q).sealPeers = d.sealPeers := Device.sealPeers_sendBare _ _ _ _
  have hask : ¬ (d.node = 0xFFFF ∨ fieldAt q 0 1 ≠ 0x51) := not_or.mpr ⟨hnode, not_not_intro hty⟩
  rw [← hjob, ← hpeers]
  exact if_neg hask

section
variable {bs : List Byte} {c : Nat} {ns : List Nat} (hcensus : d.cfg.census = some (c, ns)) (hid : fieldAt bs 8 8 = c % 2 ^ 64)
  (hty : fieldAt bs 0 1 = 0x52)
include hcensus hid hty

theorem censusReplyEff_known (h : fieldAt bs 4 2 ∈ ns) : censusReplyEff bs d = d.countSat F.CFG_CENSUS_STATUS.DROPPED := by
  have hask : ¬ (fieldAt bs 0 1 ≠ 0x52 ∨ fieldAt bs 8 8 ≠ c % 2 ^ 64) := not_or.mpr ⟨not_not_intro hty, not_not_intro hid⟩
  unfold censusReplyEff
  rw [hcensus]
  dsimp only
  rw [if_neg hask, if_pos (by rw [List.contains_iff_mem.mpr h]; rfl)]

theorem censusReplyEff_new (h : fieldAt bs 4 2 ∉ ns) (hroom : ns.length < 2 ^ d.fld F.CFG_CENSUS_BASE.LOG2_SIZE) :
    (censusReplyEff bs d).cfg.census = some (c, ns ++ [fieldAt bs 4 2]) := by
  have hask : ¬ (fieldAt bs 0 1 ≠ 0x52 ∨ fieldAt bs 8 8 ≠ c % 2 ^ 64) := not_or.mpr ⟨not_not_intro hty, not_not_intro hid⟩
  have hplaced : (({ d with cfg.census := some (c, ns ++ [fieldAt bs 4 2]) } : Device).placeCensus ns.length (bs.take 128)).cfg =
      { d.cfg with census := some (c, ns ++ [fieldAt bs 4 2]) } := (Device.placeCensus_eq _ _ _).2.2
  have hfresh : (ns.contains (fieldAt bs 4 2) || decide (ns.length ≥ 2 ^ d.fld F.CFG_CENSUS_BASE.LOG2_SIZE)) = false := by
    rw [Bool.eq_false_iff.mpr (fun hc => h (List.contains_iff_mem.mp hc)), decide_eq_false (by omega)]
    rfl
  have hcfg : (censusReplyEff bs d).cfg = { d.cfg with census := some (c, ns ++ [fieldAt bs 4 2]) } := by
    unfold censusReplyEff
    rw [hcensus]
    dsimp only
    rw [if_neg hask, hfresh, if_neg Bool.false_ne_true]
    split
    · exact (Device.cfg_count _ _ _ _).trans hplaced
    · exact hplaced
  rw [hcfg]

end
end

end Sys2Proof.Machine

namespace Sys2Proof.Machine

/-! ### O47 -/

section
variable {s : State}

theorem State.takesOpen.act_id {port : Nat} (h : s.takesOpen port) {f : Device → Device} (hf : f s.dev = s.dev) :
    s.act (fun d => d.asHolder port f true) = .next s := (h.act_eq hf).trans (congrArg _ (State.put_of h.1 rfl rfl))

section
variable {port : Nat} (h : s.takesOpen port)
include h

theorem exec_profileSwitch {slot : Nat} {d : Device} (hd : profileSwitchEff slot s.dev = d) : exec (.profileSwitch port slot) s = .next (s.put d) :=
  h.act_eq hd

theorem exec_slotWrite {slot bytes : Nat} {d : Device} (hd : slotWriteEff port slot bytes s.dev = d) :
    exec (.slotWrite port slot bytes) s = .next (s.put d) := h.act_eq hd

variable (hactive : s.dev.on F.CFG_CMD_STATUS.ACTIVE = false)
include hactive

theorem cfgCommands_riderless (slot bytes : Nat) (hrider : s.dev.fld F.RIDE_STATUS.STATE ≠ 2) :
    (∃ t, exec (.profileSwitch port slot) s = .next t ∧ t.dev.fld F.CFG_CMD_STATUS.RESULT = 10 ∧ t.dev.fld F.CFG_EVENTS.SWITCH_FAILED = 1) ∧
      (∃ t, exec (.slotWrite port slot bytes) s = .next t ∧ t.dev.fld F.CFG_CMD_STATUS.RESULT = 10 ∧
        t.dev.fld F.CFG_EVENTS.SLOT_WRITE_FAILED = 1) :=
  ⟨⟨_, exec_profileSwitch h (Device.cfgBegin_riderless hactive hrider), (s.put_fld _ _ _).trans (s.dev.result_cmdState 1 rfl),
      (s.put_fld _ _ _).trans (s.dev.event_cmdState 1 (by decide) (by decide))⟩,
    ⟨_, exec_slotWrite h (Device.cfgBegin_riderless hactive hrider), (s.put_fld _ _ _).trans (s.dev.result_cmdState 2 rfl),
      (s.put_fld _ _ _).trans (s.dev.event_cmdState 2 (by decide) (by decide))⟩⟩

variable (hrider : s.dev.fld F.RIDE_STATUS.STATE = 2)
include hrider

theorem profileSwitch_busy (slot : Nat) (hwhy : s.dev.busyWhy ≠ 0) : ∃ t, exec (.profileSwitch port slot) s = .next t ∧
    t.dev.fld F.CFG_CMD_STATUS.RESULT = 9 ∧ t.dev.fld F.CFG_CMD_STATUS.BUSY_WHY = s.dev.busyWhy ∧
      t.dev.on F.CFG_CMD_STATUS.ACTIVE = false := by
  obtain ⟨hresult, hoff, hshown, -, -⟩ := Device.cfgEnd_shows (((s.dev.cmdBegun 1).setFld F.CFG_CMD_STATUS.BUSY_WHY s.dev.busyWhy).setFld
    F.CFG_STATUS.RESULT 0x09) 0x09 (ok := F.CFG_EVENTS.SWITCH_DONE) (failed := F.CFG_EVENTS.SWITCH_FAILED) rfl rfl
  refine ⟨_, exec_profileSwitch h ((profileSwitchEff_runs slot hactive hrider).trans (if_pos hwhy)), (s.put_fld _ _ _).trans hresult,
    (s.put_fld _ _ _).trans (hshown.trans ?_), (s.put_on _ _ _).trans hoff⟩
  rw [Device.fld_setFld_ne _ _ 0 0 (by decide) (by decide) (by decide) (by decide) (by decide)]
  exact Device.fld_setFld_fits _ 0 (by decide) (lt_trans s.dev.busyWhy_lt (by decide))

theorem profileSwitch_switches (slot : Nat) (hwhy : s.dev.busyWhy = 0) : ∃ t, exec (.profileSwitch port slot) s = .next t ∧
    t.dev.fld F.CFG_STATUS.STATE = 2 ∧ t.dev.cfg.switchTo = some (slot % 4) ∧ t.dev.on F.CFG_CMD_STATUS.ACTIVE = true ∧
      s.dev.framed t.dev [.CFG_CMD_STATUS, .CFG_STATUS] := by
  have hframe : s.dev.framed ((s.dev.cmdBegun 1).setFld F.CFG_STATUS.STATE 2) [.CFG_CMD_STATUS, .CFG_STATUS] := by
    unfold Device.cmdBegun Device.cmdShown
    iterate 5 refine Device.framed_setFld ?_ _ _ 0 (by decide) (by decide)
    exact s.dev.framed_refl _
  refine ⟨_, exec_profileSwitch h ((profileSwitchEff_runs slot hactive hrider).trans (if_neg (not_not_intro hwhy))), ?_,
    (congrArg CfgState.switchTo (s.put_cfg _)).trans (Device.switchTo_armed _ slot), ?_,
    s.framed_put (Device.framed_armed hframe slot) (Device.mem_armed _ _)⟩
  · exact (s.put_fld _ _ _).trans ((Device.fld_armed _ _ _).trans (Device.fld_setFld_fits _ 0 (by decide) (by decide)))
  · rw [State.put_on, Device.on, Device.switching, Device.fld_armed, Device.fld_setFld_ne _ 2 0 0 (by decide) (by decide) (by decide) (by decide) (by decide)]
    exact Device.on_setFld_one _ 0 (by decide) (by decide)

theorem slotWrite_refused (slot bytes : Nat) : (slot % 4 = s.dev.fld F.CFG_STATUS.ACTIVE_SLOT → ∃ t, exec (.slotWrite port slot bytes) s = .next t ∧
      t.dev.fld F.CFG_CMD_STATUS.RESULT = 10 ∧ t.dev.cfg = s.dev.cfg) ∧
    (slot % 4 ≠ s.dev.fld F.CFG_STATUS.ACTIVE_SLOT → 0x3800000 < bytes → ∃ t, exec (.slotWrite port slot bytes) s = .next t ∧
      t.dev.fld F.CFG_CMD_STATUS.RESULT = 7 ∧ t.dev.cfg = s.dev.cfg) := by
  have hends (r : Nat) := (s.dev.cmdBegun 2).cfgEnd_shows r (ok := F.CFG_EVENTS.SLOT_WRITTEN) (failed := F.CFG_EVENTS.SLOT_WRITE_FAILED) rfl rfl
  have hruns := slotWriteEff_runs port slot bytes hactive hrider
  refine ⟨fun hslot => ?_, fun hslot hbig => ?_⟩
  · obtain ⟨hresult, -, -, -, hcfg⟩ := hends 0x0A
    exact ⟨_, exec_slotWrite h (hruns.trans (if_pos hslot)), (s.put_fld _ _ _).trans hresult, (s.put_cfg _).trans hcfg⟩
  · obtain ⟨hresult, -, -, -, hcfg⟩ := hends 0x07
    exact ⟨_, exec_slotWrite h (hruns.trans ((if_neg hslot).trans (if_pos hbig))), (s.put_fld _ _ _).trans hresult, (s.put_cfg _).trans hcfg⟩

theorem slotWrite_erases (slot bytes : Nat) (hslot : slot % 4 ≠ s.dev.fld F.CFG_STATUS.ACTIVE_SLOT) (hfits : bytes ≤ 0x3800000) :
    ∃ t, exec (.slotWrite port slot bytes) s = .next t ∧ sget none t.dev.cfg.slots (slot % 4) = none ∧
      t.dev.cfg.writing = some (slot % 4, bytes) := by
  have hcfg := Device.cfg_showSlot { s.dev.cmdBegun 2 with
    cfg.slots := sput none s.dev.cfg.slots (slot % 4) none, cfg.writing := some (slot % 4, bytes) } (slot % 4) 0x0D
  refine ⟨_, exec_slotWrite h ((slotWriteEff_runs port slot bytes hactive hrider).trans ((if_neg hslot).trans (if_neg (by omega)))), ?_, ?_⟩
  · rw [State.put_cfg]
    exact (congrArg (fun c : CfgState => sget none c.slots (slot % 4)) hcfg).trans (sget_sput_same _ _ _)
  · rw [State.put_cfg]
    exact congrArg CfgState.writing hcfg

end

section
variable (hs : s.awake)
include hs

theorem profileSwitchDone_ends {slot : Nat} (fl ho nv : Bool) (hswitch : s.dev.cfg.switchTo = some slot) :
    (∀ im, sget none s.dev.cfg.slots slot = some im → s.dev.slotResult slot fl = 1 → ∃ t, exec (.profileSwitchDone fl ho nv) s = .next t ∧
      t.dev.cfg.image = some im ∧ t.dev.fld F.CFG_STATUS.STATE = 1 ∧ t.dev.fld F.CFG_CMD_STATUS.RESULT = 1 ∧
      t.dev.on F.CFG_CMD_STATUS.ACTIVE = false) ∧
    (s.dev.slotResult slot fl ≠ 1 → ∃ t, exec (.profileSwitchDone fl ho nv) s = .next t ∧ t.dev.cfg.image = s.dev.cfg.image ∧
      t.dev.cfg.switchTo = none ∧ t.dev.on F.CFG_CMD_STATUS.ACTIVE = false) := by
  refine ⟨fun im him hresult => ?_, fun hresult => ?_⟩
  · obtain ⟨o, e, heq⟩ := profileSwitchDoneEff_applies (ho := ho) (nv := nv) hswitch him hresult
    obtain ⟨hres, hoff, -, hstate, hcfg⟩ := (Device.restartTimer o (e.applyImage im)).cfgEnd_shows 1 (ok := F.CFG_EVENTS.SWITCH_DONE)
      (failed := F.CFG_EVENTS.SWITCH_FAILED) rfl rfl
    refine ⟨_, hs.act_eq heq, ?_, (s.put_fld _ _ _).trans (hstate.trans ((Device.fld_restartTimer _ _ _).trans (e.state_applyImage im))),
      (s.put_fld _ _ _).trans hres, (s.put_on _ _ _).trans hoff⟩
    exact congrArg CfgState.image ((s.put_cfg _).trans (hcfg.trans ((Device.cfg_restartTimer _ _).trans (e.cfg_applyImage im))))
  · obtain ⟨hcfg, hoff⟩ := s.dev.switchFailed_shows slot (s.dev.slotResult slot fl)
    have hkept := (s.put_cfg _).trans hcfg
    exact ⟨_, hs.act_eq (profileSwitchDoneEff_fails hswitch hresult), (congrArg CfgState.image hkept).trans rfl,
      (congrArg CfgState.switchTo hkept).trans rfl, (s.put_on _ _ _).trans hoff⟩

theorem slotWriteDone_ends {slot n : Nat} (bytes : List Byte) (sections : Sections) (hwriting : s.dev.cfg.writing = some (slot, n)) :
    let im := imageOfBytes (fit n bytes) sections
    (∀ fl, ∃ t, exec (.slotWriteDone bytes sections false fl) s = .next t ∧ t.dev.fld F.CFG_CMD_STATUS.RESULT = 11 ∧
      t.dev.cfg = { s.dev.cfg with writing := none }) ∧
    (∃ t, exec (.slotWriteDone bytes sections true false) s = .next t ∧ t.dev.fld F.CFG_CMD_STATUS.RESULT = 12 ∧
      t.dev.cfg = { s.dev.cfg with writing := none }) ∧
    (∃ t, exec (.slotWriteDone bytes sections true true) s = .next t ∧ sget none t.dev.cfg.slots slot = some im ∧ t.dev.cfg.writing = none ∧
      t.dev.fld F.CFG_CMD_STATUS.RESULT = imageCheck s.dev.part im % 256 ∧ t.dev.on F.CFG_CMD_STATUS.ACTIVE = false) := by
  intro im
  refine ⟨fun fl => ?_, ?_, ?_⟩
  · obtain ⟨hres, -, hcfg⟩ := s.dev.unwriting.hostErr.writeEnded_shows slot 0x0B
    exact ⟨_, hs.act_eq (slotWriteDoneEff_unread hwriting fl), (s.put_fld _ _ _).trans hres,
      (s.put_cfg _).trans (hcfg.trans (Device.cfg_hostErr _))⟩
  · obtain ⟨hres, -, hcfg⟩ := s.dev.unwriting.writeEnded_shows slot 0x0C
    exact ⟨_, hs.act_eq (slotWriteDoneEff_unwritten hwriting), (s.put_fld _ _ _).trans hres, (s.put_cfg _).trans hcfg⟩
  · obtain ⟨hres, hoff, hcfg⟩ := (s.dev.slotProgrammed slot im).writeEnded_shows slot (imageCheck s.dev.part im)
    have hkept := (s.put_cfg _).trans hcfg
    refine ⟨_, hs.act_eq (slotWriteDoneEff_programmed hwriting), ?_, (congrArg CfgState.writing hkept).trans rfl, (s.put_fld _ _ _).trans hres,
      (s.put_on _ _ _).trans hoff⟩
    exact (congrArg (fun c : CfgState => sget none c.slots slot) hkept).trans (sget_sput_same _ _ _)

end

/-- Settles O47: the commands by what meets them, the switch by its target's check, the census by what each message records. -/
theorem profilesAndCensus : Obligations.ProfilesAndCensus := by
  unfold Obligations.ProfilesAndCensus
  refine ⟨fun s port slot bytes h => ⟨fun hon => ⟨h.act_id (Device.cfgBegin_active hon), h.act_id (Device.cfgBegin_active hon)⟩, fun hactive =>
    ⟨cfgCommands_riderless h hactive slot bytes, fun hrider => ⟨profileSwitch_busy h hactive hrider slot,
      profileSwitch_switches h hactive hrider slot, (slotWrite_refused h hactive hrider slot bytes).1,
      (slotWrite_refused h hactive hrider slot bytes).2, slotWrite_erases h hactive hrider slot bytes⟩⟩⟩,
    fun s slot fl ho nv hs hswitch => profileSwitchDone_ends hs fl ho nv hswitch,
    fun s slot n bytes sections hs hwriting => slotWriteDone_ends hs bytes sections hwriting,
    fun s port scope first last h hidle => ⟨fun hscope => ?_, fun hscope => ?_⟩, fun s hs => ⟨?_, ?_, ?_⟩⟩
  · obtain ⟨hon, hcensus, hreceived⟩ := censusStartEff_starts first last hidle hscope
    exact ⟨_, h.act_eq (f := censusStartEff scope first last) rfl, (s.put_on _ _ _).trans hon, (congrArg CfgState.census (s.put_cfg _)).trans hcensus,
      (s.put_fld _ _ _).trans hreceived⟩
  · refine h.act_id (if_pos ?_)
    have hnot : ¬scope = 1 ∧ ¬scope = 2 := by simpa using hscope
    rw [hidle, Bool.false_or]
    simpa using hnot
  · intro q hnode hty
    have hanswer := censusQueryEff_answers hnode hty
    refine ⟨fun hstop => hs.act_eq (hanswer.trans (if_neg ?_)), fun hscope hjob hnew => hs.act_eq (hanswer.trans (if_pos ⟨hscope, hjob, ?_⟩))⟩
    · rintro ⟨hscope, hjob, hnew⟩
      obtain h1 | h2 | h3 := hstop
      · exact h1 hscope
      · exact h2 hjob
      · rw [List.contains_iff_mem.mpr h3] at hnew
        cases hnew
    · exact Bool.eq_false_iff.mpr fun hc => hnew (List.contains_iff_mem.mp hc)
  · exact fun bs c ns hcensus hid hty => ⟨fun hmem => hs.act_eq (censusReplyEff_known hcensus hid hty hmem), fun hnew hroom =>
      ⟨_, hs.act_eq (f := censusReplyEff bs) rfl, (congrArg CfgState.census (s.put_cfg _)).trans (censusReplyEff_new hcensus hid hty hnew hroom)⟩⟩
  · intro hon
    refine ⟨_, hs.act_eq (if_pos hon), congrArg CfgState.census ((s.put_cfg _).trans (Device.cfg_eventSig _ _ _)), ?_, ?_⟩
    · rw [State.put_on, Device.on, Device.fld_eventSig_ne _ _ 0 (by decide) (by decide) (by decide) (by decide),
        Device.fld_setFld_fits _ 0 (by decide) (by decide)]
      rfl
    · exact (s.put_fld _ _ _).trans (Device.fld_eventSig_same _ _ (by decide) (by decide))

end

end Sys2Proof.Machine

/-! ## The security commands (R401, R403 to R410) -/

namespace Sys2Proof.Machine

/-! ### A command begins (R405) -/

/-- A security command that begins changes its status register alone, and reads its buffer. -/
structure Device.secBegins (d e : Device) : Prop where
  sec : e.sec = d.sec
  cfg : e.cfg = d.cfg
  mtr : e.mtr = d.mtr
  part : e.part = d.part
  mem : e.mem = d.mem
  owned : e.fur = d.fur ∧ e.gen = d.gen ∧ e.slu = d.slu ∧ e.mem5 = d.mem5
  framed : d.framed e [.SEC_CMD_STATUS]

theorem Device.secBegins_secRead (d : Device) (opcode port n : Nat) :
    d.secBegins ((d.setFld F.SEC_CMD_STATUS.OPCODE opcode).secRead port n) := by
  have hset : d.secBegins (d.setFld F.SEC_CMD_STATUS.OPCODE opcode) :=
    ⟨rfl, rfl, rfl, rfl, rfl, ⟨rfl, rfl, rfl, rfl⟩,
      Device.framed_setFld (d.framed_refl _) _ _ 0 (by decide) (by decide)⟩
  have hemit (e : Device) (o : Out) (he : d.secBegins e) : d.secBegins (e.emit o) :=
    ⟨he.sec, he.cfg, he.mtr, he.part, he.mem, he.owned, Device.framed_congr he.framed rfl rfl rfl rfl⟩
  unfold Device.secRead
  split
  · exact hset
  · exact hemit _ _ hset

theorem Device.secBegins_opened (d : Device) (opcode : Nat) : d.secBegins (d.setFld F.SEC_CMD_STATUS.OPCODE opcode) :=
  d.secBegins_secRead opcode 0 0

namespace Device.secBegins
variable {d e : Device} (h : d.secBegins e)
include h

theorem fld {g : Field} (hg : g.reg ≠ .SEC_CMD_STATUS) : e.fld g = d.fld g :=
  congrArg g.get (h.framed.2 g.reg 0 (by decide) (by simpa using hg))

theorem ownerKey (slot : Nat) : e.ownerKey slot = d.ownerKey slot := by rw [Device.ownerKey, h.sec, Device.ownerKey]

theorem hasKey (slot : Nat) : e.hasKey slot = d.hasKey slot := by rw [Device.hasKey, h.ownerKey, Device.hasKey]

theorem policyOk (bit slot : Nat) : e.policyOk bit slot = d.policyOk bit slot := by
  unfold Device.policyOk
  rw [h.fld (by decide), h.fld (by decide), h.cfg]

theorem countsUnder (slot : Nat) : e.countsUnder slot = d.countsUnder slot := by rw [Device.countsUnder, h.mtr, Device.countsUnder]

theorem keyInUse (slot : Nat) : e.keyInUse slot = d.keyInUse slot := by
  obtain ⟨hfur, hgen, hslu, hmem5⟩ := h.owned
  unfold Device.keyInUse Device.furById Device.furrow
  rw [hfur, hgen, hslu, hmem5]

end Device.secBegins

section
variable {d : Device} {port opcode n : Nat}

theorem Device.secBegin_runs (f : Device → Device) (h : d.fld F.SEC_STATUS.STATE ≠ 0 ∨ opcode = 7) :
    d.secBegin port opcode n false true f = f ((d.setFld F.SEC_CMD_STATUS.OPCODE opcode).secRead port n) := by
  have hstate : (d.setFld F.SEC_CMD_STATUS.OPCODE opcode).fld F.SEC_STATUS.STATE = d.fld F.SEC_STATUS.STATE :=
    d.fld_setFld_reg _ 0 0 (by decide) (by decide) (by decide)
  unfold Device.secBegin
  dsimp only
  rw [hstate, if_neg (by tauto)]
  rfl

/-- In BOOT_FAIL every command but FW_WRITE ends STATE. -/
theorem Device.secBegin_failed (r o : Bool) (f : Device → Device) (h : d.fld F.SEC_STATUS.STATE = 0) (hop : opcode ≠ 7) :
    d.secBegin port opcode n r o f = (d.setFld F.SEC_CMD_STATUS.OPCODE opcode).secEnd 4 :=
  if_pos ⟨(d.fld_setFld_reg _ 0 0 (by decide) (by decide) (by decide)).trans h, hop⟩

end

/-! ### A command ends (R405) -/

section
variable (d : Device)

theorem Device.sec_signal (v : Nat) : (d.signal v).sec = d.sec := by
  unfold Device.signal Device.msix
  split
  · split <;> rfl
  · rfl

theorem Device.sec_hostWrite (fn : Fn) (a : Nat) (bs : List Byte) : (d.hostWrite fn a bs).sec = d.sec := by
  unfold Device.hostWrite
  split <;> rfl

theorem Device.sec_hostErr : d.hostErr.sec = d.sec := by
  unfold Device.hostErr Device.eventSig
  rw [Device.sec_signal]
  exact d.sec_count _ _ _

theorem Device.mtr_signal (v : Nat) : (d.signal v).mtr = d.mtr := by
  unfold Device.signal
  split
  · exact d.mtr_msix _ _
  · rfl

theorem Device.sec_secEnd (r : Nat) : (d.secEnd r).sec = d.sec := Device.sec_signal _ _

theorem Device.mtr_secEnd (r : Nat) : (d.secEnd r).mtr = d.mtr := Device.mtr_signal _ _

theorem Device.mem_secEnd (r : Nat) : (d.secEnd r).mem = d.mem := Device.mem_signal _ _

theorem Device.cfg_secEnd (r : Nat) : (d.secEnd r).cfg = d.cfg := Device.cfg_signal _ _

theorem Device.result_secEnd {r : Nat} (hr : r < 2 ^ 8) : (d.secEnd r).fld F.SEC_CMD_STATUS.RESULT = r :=
  (Device.fld_eventSig_reg _ _ rfl (by decide)).trans (Device.fld_setFld_fits _ 0 (by decide) hr)

theorem Device.fld_secEnd (r : Nat) {g : Field} {i : Nat} (h1 : g.reg ≠ .SEC_CMD_STATUS) (h2 : g.reg ≠ .SEC_EVENTS) (hi : i < 0x10000) :
    (d.secEnd r).fld g i = d.fld g i := congrArg g.get (d.reg_secEnd r i h1 h2 hi)

end

theorem Device.framed_mono {d e : Device} {rs rs' : List Reg} (h : d.framed e rs) (hsub : ∀ r ∈ rs, r ∈ rs') : d.framed e rs' :=
  ⟨h.1, fun r j hj hr => h.2 r j hj fun hmem => hr (hsub r hmem)⟩

theorem Device.framed_secWrite {d e : Device} {rs : List Reg} (h : d.framed e rs) (port off : Nat) (bs : List Byte) :
    d.framed (e.secWrite port off bs) rs := by
  unfold Device.secWrite
  exact Device.framed_hostWrite h _ _ _

theorem Device.framed_secEnd {d e : Device} (h : d.framed e [.SEC_CMD_STATUS, .SEC_EVENTS]) (r : Nat) :
    d.framed (e.secEnd r) [.SEC_CMD_STATUS, .SEC_EVENTS] := by
  have h1 := Device.framed_setFld h F.SEC_CMD_STATUS.ACTIVE 0 0 (by decide) (by decide)
  have h2 := Device.framed_setFld h1 F.SEC_CMD_STATUS.RESULT r 0 (by decide) (by decide)
  exact Device.framed_signal (Device.framed_setFld h2 F.SEC_EVENTS.CMD_DONE 1 0 (by decide) (by decide)) _

/-! ### Keys (R406 to R410) -/

section
variable {d : Device} {slot : Nat}

theorem Device.drawKey_spec (n : Nat) (d : Device) : ∃ r x, d.drawKey n = (leBytes 32 r, { d with randCount := x }) := by
  induction n generalizing d with
  | zero => exact ⟨_, _, rfl⟩
  | succ n ih =>
    unfold Device.drawKey
    split
    · obtain ⟨r, x, heq⟩ := ih d.rolled
      exact ⟨r, x, heq⟩
    · exact ⟨_, _, rfl⟩

theorem leBytes_ne_nil (n v : Nat) : leBytes (n + 1) v ≠ [] := List.cons_ne_nil _ _

/-- A key that has been installed. -/
theorem Device.installKey_holds (d : Device) (hslot : slot < 4096) {key : List Byte} (hkey : key ≠ []) :
    (d.installKey slot key).ownerKey slot = key ∧ (d.installKey slot key).hasKey slot = true ∧
      (d.installKey slot key).fld F.SEC_KEY_ID.KEY_ID slot = keyId key % 2 ^ 64 ∧
      ∀ k, k ≠ slot → (d.installKey slot key).ownerKey k = d.ownerKey k := by
  have hsame : (d.installKey slot key).ownerKey slot = key := sget_sput_same _ _ _
  refine ⟨hsame, ?_, ?_, fun k hk => sget_sput_other _ _ hk⟩
  · rw [Device.hasKey, hsame]
    exact bne_iff_ne.mpr hkey
  · unfold Device.installKey Device.countSat
    rw [Device.fld_setFld_reg _ _ 0 slot (by decide) (by decide) (by omega)]
    exact Device.fld_setFld_same _ _ _ slot (by decide)

theorem keyGenerateEff_holds (h : d.hasKey slot = true) : keyGenerateEff slot d = d.secEnd 4 := if_pos h

section
variable (hkey : d.hasKey slot = false)
include hkey

theorem keyGenerateEff_forbidden (h : d.policyOk 0 slot = false) : keyGenerateEff slot d = d.secEnd 5 :=
  (if_neg (by rw [hkey]; decide)).trans (if_pos (by rw [h]; decide))

theorem keyGenerateEff_draws (hpolicy : d.policyOk 0 slot = true) (hcounts : d.countsUnder slot = false) :
    ∃ r x, keyGenerateEff slot d = (({ d with randCount := x } : Device).installKey slot (leBytes 32 r)).secEnd 1 := by
  obtain ⟨r, x, heq⟩ := d.drawKey_spec 64
  refine ⟨r, x, ?_⟩
  unfold keyGenerateEff
  rw [hkey, hpolicy, hcounts]
  dsimp only
  rw [heq]
  rfl

/-- The unwrapped key of a record (R408). -/
def Device.unwrapped (d : Device) (slot : Nat) (bs : List Byte) : Option (BitVec 256) :=
  Config.keyUnwrap (wrapKek (Config.ecdhX (partKey d.part.uid "WRAP") (((fit 160 bs).drop 16).take 97)) (fixedInfo 2 slot (fieldAt bs 8 8)))
    (((fit 160 bs).drop 113).take 40)

theorem keyImportEff_eq {bs : List Byte} (hpolicy : d.policyOk 2 slot = true) (hcounts : d.countsUnder slot = false)
    (hmagic : fieldAt bs 0 4 = 0x5A544B57) (hdir : fieldAt bs 6 1 = 2) (hfor : fieldAt bs 4 2 = slot) :
    keyImportEff slot bs d = match d.unwrapped slot bs with
      | none => d.secEnd 7
      | some k =>
        if keyId (leBytes 32 k.toNat) ≠ fieldAt bs 8 8 then d.secEnd 7
        else if keyId (leBytes 32 k.toNat) = 0 then d.secEnd 3
        else (d.installKey slot (leBytes 32 k.toNat)).secEnd 1 := by
  have hhead : ¬ (fieldAt bs 0 4 ≠ 0x5A544B57 ∨ fieldAt bs 6 1 ≠ 2 ∨ fieldAt bs 4 2 ≠ slot) := by tauto
  unfold keyImportEff
  rw [hkey, hpolicy, hcounts, if_neg hhead]
  rfl

end

section
variable (hkey : d.hasKey slot = true)
include hkey

theorem keyRetireEff_used (h : d.keyInUse slot = true) : keyRetireEff slot d = d.secEnd 2 := by
  unfold keyRetireEff
  rw [hkey, h]
  rfl

/-- The slot without its key. -/
def Device.keyDropped (d : Device) (slot : Nat) : Device :=
  ((({ d with sec.keys := sput [] d.sec.keys slot [] } : Device).setFld F.SEC_KEY_ID.KEY_ID 0 slot).countDown F.SEC_KEYS_USED.ACTIVE).event
    F.SEC_EVENTS.KEY_RETIRED

theorem keyRetireEff_retires (h : d.keyInUse slot = false) : keyRetireEff slot d = (d.keyDropped slot).secEnd 1 :=
  (if_neg (by rw [hkey]; decide)).trans (if_neg (by rw [h]; decide))

theorem keyExportEff_wraps {port : Nat} {m : List Byte} (hpolicy : d.policyOk 1 slot = true)
    (hmanager : (Config.sha384 (fit 97 m)).toNat = (d.cfg.image.map fun (im : Image) => im.kmHash).getD 0) :
    ∃ record, keyExportEff port slot m true d = (d.rolled.secWrite port 128 record).secEnd 1 := by
  exact ⟨_, (if_neg (by rw [hkey]; decide)).trans ((if_neg (by rw [hpolicy]; decide)).trans ((if_neg (not_not_intro hmanager)).trans
    (if_neg (by decide))))⟩

end

theorem Device.hasKey_keyDropped (d : Device) (slot : Nat) : (d.keyDropped slot).hasKey slot = false := by
  have hgone : (d.keyDropped slot).ownerKey slot = [] := sget_sput_same _ _ _
  rw [Device.hasKey, hgone]
  rfl

theorem Device.mtr_keyDropped (d : Device) (slot : Nat) : (d.keyDropped slot).mtr = d.mtr := rfl

theorem Device.keyId_keyDropped (d : Device) (hslot : slot < 4096) : (d.keyDropped slot).fld F.SEC_KEY_ID.KEY_ID slot = 0 := by
  unfold Device.keyDropped Device.event Device.countDown
  rw [Device.fld_setFld_reg _ _ 0 slot (by decide) (by decide) (by omega), Device.fld_setFld_reg _ _ 0 slot (by decide) (by decide) (by omega)]
  exact Device.fld_setFld_fits _ slot (by decide) (by decide)

/-! ### Firmware (R401, R405) -/

/-- A firmware slot replaced. -/
def Device.fwPut (d : Device) (slot : Nat) (x : Option FwImage) : Device := { d with sec.slots := sput none d.sec.slots slot x }

theorem Device.sec_fwPut (d : Device) (slot : Nat) (x : Option FwImage) :
    (d.fwPut slot x).sec = { d.sec with slots := sput none d.sec.slots slot x } := rfl

theorem Device.fwPut_eq {d : Device} {slots : SMap (Option FwImage)} (h : d.sec.slots = slots) (x : Option FwImage) :
    d.fwPut slot x = { d with sec.slots := sput none slots slot x } := by
  subst h
  rfl

/-- What a write to a slot makes of its image, once the buffer has been read. -/
def Device.fwDecided (d : Device) (slot : Nat) (im : FwImage) (ho fl failed : Bool) : Device :=
  if !ho then (d.fwPut slot none).hostErr.secEnd 8
  else if !fwVerifies d.part im then (d.fwPut slot none).secEnd 9
  else if im.svn < d.sec.floor then (d.fwPut slot none).secEnd 10
  else if !fl then (d.fwPut slot none).secEnd 11
  else
    let t := (d.fwPut slot (some im)).secEnd 1
    if !failed then t else if t.cfg.image.isNone then t.bootRom.loadAtBoot else t.bootRom

/-- A write to a slot that no rider runs from is decided by its image. -/
theorem fwWriteEff_eq {port n : Nat} {bytes : List Byte} (hslot : slot < 2)
    (h : d.fld F.SEC_STATUS.STATE = 0 ∨ slot ≠ d.fld F.SEC_STATUS.FW_SLOT) (ho fl : Bool) :
    fwWriteEff port slot n bytes ho fl d =
      (d.secRead port n).fwDecided slot (fwOfBytes (fit n bytes)) ho fl (decide (d.fld F.SEC_STATUS.STATE = 0)) := by
  unfold fwWriteEff
  dsimp only
  rw [if_neg (by omega : ¬ slot > 1), if_neg (by tauto)]
  rfl

end

/-- The fuse raised to a version. -/
def Device.floorRaised (d : Device) (svn : Nat) : Device := ({ d with sec.floor := svn } : Device).setFld F.SEC_STATUS.FW_FLOOR svn

theorem Device.floor_floorRaised (d : Device) (svn : Nat) : (d.floorRaised svn).sec.floor = svn := rfl

/-! ### O48 -/

section
variable {s : State} {port slot : Nat}

/-- A command that begins on a device out of BOOT_FAIL acts on what its buffer's read leaves. -/
theorem State.takes.sec_eq (h : s.takes port) {opcode n : Nat} {f : Device → Device} {d : Device}
    (hst : s.dev.fld F.SEC_STATUS.STATE ≠ 0 ∨ opcode = 7) (hf : f ((s.dev.setFld F.SEC_CMD_STATUS.OPCODE opcode).secRead port n) = d) :
    secCommand port opcode n false true f s = .next (s.put d) :=
  h.act_eq (f := fun d => d.secBegin port opcode n false true f) ((Device.secBegin_runs f hst).trans hf)

theorem State.put_hasKey (s : State) (d : Device) (slot : Nat) : (s.put d).dev.hasKey slot = d.hasKey slot := rfl

theorem State.put_ownerKey (s : State) (d : Device) (slot : Nat) : (s.put d).dev.ownerKey slot = d.ownerKey slot := rfl

theorem Device.hasKey_secEnd (d : Device) (r slot : Nat) : (d.secEnd r).hasKey slot = d.hasKey slot := by
  rw [Device.hasKey, Device.ownerKey, Device.sec_secEnd, Device.hasKey, Device.ownerKey]

theorem Device.ownerKey_secEnd (d : Device) (r slot : Nat) : (d.secEnd r).ownerKey slot = d.ownerKey slot := by
  rw [Device.ownerKey, Device.sec_secEnd, Device.ownerKey]

section
variable (h : s.takes port) (hst : s.dev.fld F.SEC_STATUS.STATE ≠ 0) (hslot : slot < 4096)
include h hst hslot

theorem keyGenerate_ends {d : Device} (hf : keyGenerateEff slot ((s.dev.setFld F.SEC_CMD_STATUS.OPCODE 1).secRead port 0) = d) :
    exec (.keyGenerate port slot false) s = .next (s.put d) := by
  have hmod : slot % 4096 = slot := Nat.mod_eq_of_lt hslot
  exact h.sec_eq (f := keyGenerateEff (slot % 4096)) (.inl hst) (by rw [hmod]; exact hf)

theorem keyGenerate_installs (hkey : s.dev.hasKey slot = false) (hpolicy : s.dev.policyOk 0 slot = true) (hcounts : s.dev.countsUnder slot = false) :
    ∃ t, exec (.keyGenerate port slot false) s = .next t ∧ t.dev.hasKey slot = true ∧
      t.dev.fld F.SEC_KEY_ID.KEY_ID slot = keyId (t.dev.ownerKey slot) % 2 ^ 64 ∧ t.dev.fld F.SEC_CMD_STATUS.RESULT = 1 ∧
        ∀ k, k ≠ slot → t.dev.ownerKey k = s.dev.ownerKey k := by
  have hb := s.dev.secBegins_secRead 1 port 0
  obtain ⟨r, x, heq⟩ := keyGenerateEff_draws ((hb.hasKey slot).trans hkey) ((hb.policyOk 0 slot).trans hpolicy)
    ((hb.countsUnder slot).trans hcounts)
  obtain ⟨hown, hhas, hid, hothers⟩ := Device.installKey_holds (slot := slot)
    { (s.dev.setFld F.SEC_CMD_STATUS.OPCODE 1).secRead port 0 with randCount := x } hslot (leBytes_ne_nil 31 r)
  refine ⟨_, keyGenerate_ends h hst hslot heq, ?_, ?_, ?_, fun k hk => ?_⟩
  · rw [State.put_hasKey, Device.hasKey_secEnd]
    exact hhas
  · rw [State.put_fld, State.put_ownerKey, Device.fld_secEnd _ _ (by decide) (by decide) (by omega), Device.ownerKey_secEnd, hown]
    exact hid
  · exact (s.put_fld _ _ _).trans (Device.result_secEnd _ (by decide))
  · rw [State.put_ownerKey, Device.ownerKey_secEnd, hothers k hk]
    exact hb.ownerKey k

theorem keyExport_ends {m : List Byte} (hkey : s.dev.hasKey slot = true) (hpolicy : s.dev.policyOk 1 slot = true)
    (hmanager : (Config.sha384 (fit 97 m)).toNat = (s.dev.cfg.image.map fun (im : Image) => im.kmHash).getD 0) :
    ∃ t, exec (.keyExport port slot m true false true) s = .next t ∧ t.dev.sec = s.dev.sec ∧ t.dev.fld F.SEC_CMD_STATUS.RESULT = 1 ∧
      s.dev.framed t.dev [.SEC_CMD_STATUS, .SEC_EVENTS] := by
  have hb := s.dev.secBegins_secRead 2 port 97
  have hmod : slot % 4096 = slot := Nat.mod_eq_of_lt hslot
  obtain ⟨record, heq⟩ := keyExportEff_wraps (port := port) ((hb.hasKey slot).trans hkey) ((hb.policyOk 1 slot).trans hpolicy)
    (m := m) (by rw [hb.cfg]; exact hmanager)
  have hexec := h.sec_eq (opcode := 2) (n := 97) (f := keyExportEff port (slot % 4096) m true) (.inl hst) ((congrArg (fun k =>
    keyExportEff port k m true ((s.dev.setFld F.SEC_CMD_STATUS.OPCODE 2).secRead port 97)) hmod).trans heq)
  have hwrote (e : Device) : (e.rolled.secWrite port 128 record).sec = e.sec ∧ (e.rolled.secWrite port 128 record).mem = e.mem ∧
      ∀ rs, s.dev.framed e rs → s.dev.framed (e.rolled.secWrite port 128 record) rs :=
    ⟨Device.sec_hostWrite _ _ _ _, Device.mem_hostWrite _ _ _ _,
      fun rs he => Device.framed_secWrite (e := e.rolled) (Device.framed_congr he rfl rfl rfl rfl) port 128 record⟩
  obtain ⟨hsec, hmem, hframe⟩ := hwrote ((s.dev.setFld F.SEC_CMD_STATUS.OPCODE 2).secRead port 97)
  refine ⟨_, hexec, ?_, (s.put_fld _ _ _).trans (Device.result_secEnd _ (by decide)),
    s.framed_put (Device.framed_secEnd (hframe _ (Device.framed_mono hb.framed (by simp))) 1) ?_⟩
  · rw [State.put_sec, Device.sec_secEnd, hsec, hb.sec]
  · exact (Device.mem_secEnd _ _).trans (hmem.trans hb.mem)

theorem keyImport_ends {bs : List Byte} (hkey : s.dev.hasKey slot = false) (hpolicy : s.dev.policyOk 2 slot = true)
    (hcounts : s.dev.countsUnder slot = false) (hmagic : fieldAt bs 0 4 = 0x5A544B57) (hdir : fieldAt bs 6 1 = 2) (hfor : fieldAt bs 4 2 = slot) :
    ∃ t, exec (.keyImport port slot bs false true) s = .next t ∧
      (∀ k, s.dev.unwrapped slot bs = some k → keyId (leBytes 32 k.toNat) = fieldAt bs 8 8 → keyId (leBytes 32 k.toNat) ≠ 0 →
        t.dev.ownerKey slot = leBytes 32 k.toNat ∧ t.dev.fld F.SEC_CMD_STATUS.RESULT = 1) ∧
      (s.dev.unwrapped slot bs = none → t.dev.hasKey slot = false ∧ t.dev.fld F.SEC_CMD_STATUS.RESULT = 7) := by
  have hb := s.dev.secBegins_secRead 3 port 160
  have hmod : slot % 4096 = slot := Nat.mod_eq_of_lt hslot
  have heq := keyImportEff_eq ((hb.hasKey slot).trans hkey) ((hb.policyOk 2 slot).trans hpolicy) ((hb.countsUnder slot).trans hcounts)
    hmagic hdir hfor
  have hunwrapped : ((s.dev.setFld F.SEC_CMD_STATUS.OPCODE 3).secRead port 160).unwrapped slot bs = s.dev.unwrapped slot bs := by
    rw [Device.unwrapped, hb.part, Device.unwrapped]
  rw [hunwrapped] at heq
  have hexec {d : Device} (hd : keyImportEff slot bs ((s.dev.setFld F.SEC_CMD_STATUS.OPCODE 3).secRead port 160) = d) :
      exec (.keyImport port slot bs false true) s = .next (s.put d) :=
    h.sec_eq (opcode := 3) (n := 160) (f := keyImportEff (slot % 4096) bs) (.inl hst) (by rw [hmod]; exact hd)
  refine ⟨_, hexec rfl, fun k hk hid hne => ?_, fun hnone => ?_⟩
  · rw [hk] at heq
    rw [State.put_ownerKey, State.put_fld, heq.trans ((if_neg (not_not_intro hid)).trans (if_neg hne)), Device.ownerKey_secEnd]
    exact ⟨(Device.installKey_holds _ hslot (leBytes_ne_nil 31 _)).1, Device.result_secEnd _ (by decide)⟩
  · rw [hnone] at heq
    rw [State.put_hasKey, State.put_fld, heq, Device.hasKey_secEnd]
    exact ⟨(hb.hasKey slot).trans hkey, Device.result_secEnd _ (by decide)⟩

theorem keyRetire_ends {d : Device} (hf : keyRetireEff slot (s.dev.setFld F.SEC_CMD_STATUS.OPCODE 4) = d) :
    exec (.keyRetire port slot false) s = .next (s.put d) := by
  have hmod : slot % 4096 = slot := Nat.mod_eq_of_lt hslot
  exact h.sec_eq (opcode := 4) (n := 0) (f := keyRetireEff (slot % 4096)) (.inl hst) (by rw [hmod]; exact hf)

theorem keyRetire_retires (hkey : s.dev.hasKey slot = true) (hfree : s.dev.keyInUse slot = false) :
    ∃ t, exec (.keyRetire port slot false) s = .next t ∧ t.dev.hasKey slot = false ∧ t.dev.fld F.SEC_KEY_ID.KEY_ID slot = 0 ∧
      t.dev.fld F.SEC_CMD_STATUS.RESULT = 1 ∧ t.dev.mtr = s.dev.mtr := by
  have hb := s.dev.secBegins_opened 4
  refine ⟨_, keyRetire_ends h hst hslot (keyRetireEff_retires ((hb.hasKey slot).trans hkey) ((hb.keyInUse slot).trans hfree)), ?_, ?_, ?_, ?_⟩
  · rw [State.put_hasKey, Device.hasKey_secEnd, Device.hasKey_keyDropped]
  · rw [State.put_fld, Device.fld_secEnd _ _ (by decide) (by decide) (by omega), Device.keyId_keyDropped _ hslot]
  · exact (s.put_fld _ _ _).trans (Device.result_secEnd _ (by decide))
  · exact (s.put_mtr _).trans ((Device.mtr_secEnd _ _).trans ((Device.mtr_keyDropped _ _).trans hb.mtr))

end

section
variable (h : s.takes port) (hst : s.dev.fld F.SEC_STATUS.STATE ≠ 0) {n : Nat} {bytes : List Byte}
include h

/-- FW_WRITE decides on the buffer that it has read, and touches no command register but its own. -/
theorem fwWrite_decides (hslot : slot < 2) (hfree : s.dev.fld F.SEC_STATUS.STATE = 0 ∨ slot ≠ s.dev.fld F.SEC_STATUS.FW_SLOT) (ho fl : Bool) :
    exec (.fwWrite port slot n bytes false ho fl) s =
      .next (s.put (((s.dev.setFld F.SEC_CMD_STATUS.OPCODE 7).secRead port n).fwDecided slot (fwOfBytes (fit n bytes)) ho fl
        (decide (s.dev.fld F.SEC_STATUS.STATE = 0)))) := by
  have hb := s.dev.secBegins_opened 7
  have heq := fwWriteEff_eq (d := s.dev.setFld F.SEC_CMD_STATUS.OPCODE 7) (port := port) (n := n) (bytes := bytes) hslot
    (by rw [hb.fld (by decide), hb.fld (by decide)]; exact hfree) ho fl
  rw [hb.fld (by decide)] at heq
  exact h.sec_eq (opcode := 7) (n := 0) (f := fwWriteEff port slot n bytes ho fl) (.inr rfl) heq

include hst

/-- What a FW_WRITE outside BOOT_FAIL leaves, by what becomes of the slot. -/
theorem fwWrite_stays (hslot : slot < 2) (hfree : slot ≠ s.dev.fld F.SEC_STATUS.FW_SLOT) {ho fl : Bool} {x : Option FwImage} {r : Nat} (hr : r < 2 ^ 8)
    (hd : ∀ e : Device, s.dev.secBegins e → ∃ e' : Device, e.fwDecided slot (fwOfBytes (fit n bytes)) ho fl false = e'.secEnd r ∧ e'.sec = (e.fwPut slot x).sec) :
    ∃ t, exec (.fwWrite port slot n bytes false ho fl) s = .next t ∧
      t.dev.sec = { s.dev.sec with slots := sput none s.dev.sec.slots slot x } ∧ t.dev.fld F.SEC_CMD_STATUS.RESULT = r := by
  have hb := s.dev.secBegins_secRead 7 port n
  obtain ⟨e', heq, hsec⟩ := hd _ hb
  have hrun := fwWrite_decides (n := n) (bytes := bytes) h hslot (.inr hfree) ho fl
  rw [decide_eq_false hst, heq] at hrun
  refine ⟨_, hrun, ?_, (s.put_fld _ _ _).trans (Device.result_secEnd _ hr)⟩
  rw [State.put_sec, Device.sec_secEnd, hsec, Device.sec_fwPut, hb.sec]

/-- An image that verifies is kept, unless it is too old or the flash fails. -/
theorem fwWrite_results (hslot : slot < 2) (hfree : slot ≠ s.dev.fld F.SEC_STATUS.FW_SLOT) :
    let im := fwOfBytes (fit n bytes)
    let stays := fun (ho fl : Bool) (x : Option FwImage) (r : Nat) => ∃ t, exec (.fwWrite port slot n bytes false ho fl) s = .next t ∧
      t.dev.sec = { s.dev.sec with slots := sput none s.dev.sec.slots slot x } ∧ t.dev.fld F.SEC_CMD_STATUS.RESULT = r
    (∀ fl, stays false fl none 8) ∧ (∀ fl, fwVerifies s.dev.part im = false → stays true fl none 9) ∧
    (fwVerifies s.dev.part im = true →
      (∀ fl, im.svn < s.dev.sec.floor → stays true fl none 10) ∧
      (s.dev.sec.floor ≤ im.svn → stays true false none 11 ∧ stays true true (some im) 1)) := by
  intro im stays
  refine ⟨fun fl => ?_, fun fl hbad => ?_, fun hgood => ⟨fun fl hold => ?_, fun hnew => ⟨?_, ?_⟩⟩⟩
  · exact fwWrite_stays h hst hslot hfree (by decide) fun e _ => ⟨_, if_pos (by decide), Device.sec_hostErr _⟩
  · exact fwWrite_stays h hst hslot hfree (by decide) fun e he =>
      ⟨_, (if_neg (by decide)).trans (if_pos (by rw [he.part, hbad]; decide)), rfl⟩
  · exact fwWrite_stays h hst hslot hfree (by decide) fun e he =>
      ⟨_, (if_neg (by decide)).trans ((if_neg (by rw [he.part, hgood]; decide)).trans (if_pos (by rw [he.sec]; exact hold))), rfl⟩
  · exact fwWrite_stays h hst hslot hfree (by decide) fun e he =>
      ⟨_, (if_neg (by decide)).trans ((if_neg (by rw [he.part, hgood]; decide)).trans ((if_neg (by rw [he.sec]; exact Nat.not_lt.mpr hnew)).trans
        (if_pos (by decide)))), rfl⟩
  · exact fwWrite_stays h hst hslot hfree (by decide) fun e he =>
      ⟨_, (if_neg (by decide)).trans ((if_neg (by rw [he.part, hgood]; decide)).trans ((if_neg (by rw [he.sec]; exact Nat.not_lt.mpr hnew)).trans
        ((if_neg (by decide)).trans (if_pos (by decide))))), rfl⟩

theorem fwFloor_ends {d : Device} (hf : fwFloorEff (s.dev.setFld F.SEC_CMD_STATUS.OPCODE 8) = d) :
    exec (.fwFloor port false) s = .next (s.put d) :=
  h.sec_eq (opcode := 8) (n := 0) (f := fwFloorEff) (.inl hst) hf

theorem fwFloor_raises (hlow : s.dev.sec.floor < s.dev.fld F.SEC_STATUS.FW_SVN) :
    ∃ t, exec (.fwFloor port false) s = .next t ∧ t.dev.sec.floor = s.dev.fld F.SEC_STATUS.FW_SVN ∧ t.dev.fld F.SEC_CMD_STATUS.RESULT = 1 := by
  have hb := s.dev.secBegins_opened 8
  have heq : fwFloorEff (s.dev.setFld F.SEC_CMD_STATUS.OPCODE 8) =
      ((s.dev.setFld F.SEC_CMD_STATUS.OPCODE 8).floorRaised (s.dev.fld F.SEC_STATUS.FW_SVN)).secEnd 1 := by
    rw [← hb.fld (g := F.SEC_STATUS.FW_SVN) (by decide)]
    exact if_neg (by rw [hb.fld (by decide), hb.sec]; omega)
  refine ⟨_, fwFloor_ends h hst heq, ?_, (s.put_fld _ _ _).trans (Device.result_secEnd _ (by decide))⟩
  rw [State.put_sec, Device.sec_secEnd, Device.floor_floorRaised]

end

section
variable (h : s.takes port) (hst : s.dev.fld F.SEC_STATUS.STATE = 0)
include h hst

/-- In BOOT_FAIL a command other than FW_WRITE only ends STATE. -/
theorem State.takes.sec_failed (opcode n : Nat) (r o : Bool) (f : Device → Device) (hop : opcode ≠ 7) :
    secCommand port opcode n r o f s = .next (s.put ((s.dev.setFld F.SEC_CMD_STATUS.OPCODE opcode).secEnd 4)) :=
  h.act_eq (f := fun d => d.secBegin port opcode n r o f) (Device.secBegin_failed r o f hst hop)

/-- In BOOT_FAIL a FW_WRITE that ends OK has the boot ROM repeat its steps. -/
theorem fwWrite_boots (n : Nat) (bytes : List Byte) (hslot : slot < 2) (hgood : fwVerifies s.dev.part (fwOfBytes (fit n bytes)) = true)
    (hnew : s.dev.sec.floor ≤ (fwOfBytes (fit n bytes)).svn) (himage : s.dev.cfg.image.isSome = true) :
    exec (.fwWrite port slot n bytes false true true) s = .next (s.put
      (({ ((s.dev.setFld F.SEC_CMD_STATUS.OPCODE 7).secRead port n) with
        sec.slots := sput none s.dev.sec.slots slot (some (fwOfBytes (fit n bytes))) } : Device).secEnd 1).bootRom) := by
  have hb := s.dev.secBegins_secRead 7 port n
  have hsome (e : Device) (he : s.dev.secBegins e) (x : Option FwImage) : ¬ ((e.fwPut slot x).secEnd 1).cfg.image.isNone = true := by
    rw [Device.cfg_secEnd, show (e.fwPut slot x).cfg = e.cfg from rfl, he.cfg]
    simpa using Option.isSome_iff_ne_none.mp himage
  have hdecided (e : Device) (he : s.dev.secBegins e) : e.fwDecided slot (fwOfBytes (fit n bytes)) true true true =
      ((e.fwPut slot (some (fwOfBytes (fit n bytes)))).secEnd 1).bootRom :=
    (if_neg (by decide)).trans ((if_neg (by rw [he.part, hgood]; decide)).trans ((if_neg (by rw [he.sec]; exact Nat.not_lt.mpr hnew)).trans
      ((if_neg (by decide)).trans ((if_neg (by decide)).trans (if_neg (hsome e he _))))))
  have hrun := fwWrite_decides (n := n) (bytes := bytes) h hslot (.inl hst) true true
  rw [decide_eq_true hst, hdecided _ hb, Device.fwPut_eq (congrArg (fun x => x.slots) hb.sec)] at hrun
  exact hrun

end
end

/-- Settles O48: each command begins on what the read of its buffer leaves, and ends as its effect decides there. -/
theorem securityCommandsEnd : Obligations.SecurityCommandsEnd := by
  unfold Obligations.SecurityCommandsEnd
  refine ⟨fun s port slot h hst hslot => ?_, fun s port slot r o bs h hst => ?_⟩
  · have hb (n : Nat) := s.dev.secBegins_opened n
    exact ⟨fun hkey => keyGenerate_ends h hst hslot (keyGenerateEff_holds (((hb 1).hasKey slot).trans hkey)),
      fun hkey hpolicy => keyGenerate_ends h hst hslot
        (keyGenerateEff_forbidden (((hb 1).hasKey slot).trans hkey) (((hb 1).policyOk 0 slot).trans hpolicy)),
      keyGenerate_installs h hst hslot,
      fun m => keyExport_ends h hst hslot,
      fun bs => keyImport_ends h hst hslot,
      fun hkey hused => keyRetire_ends h hst hslot (keyRetireEff_used (((hb 4).hasKey slot).trans hkey) (((hb 4).keyInUse slot).trans hused)),
      keyRetire_retires h hst hslot,
      fun nonce => h.sec_eq (f := fun d => (d.secWrite port 64 (d.report nonce)).secEnd 1) (.inl hst) rfl,
      h.sec_eq (f := fun d => (d.secWrite port 0 (identityRecord d.part.uid)).secEnd 1) (.inl hst) rfl,
      fun n bytes => fwWrite_results h hst,
      fun hlow => fwFloor_ends h hst (if_pos (by rw [(hb 8).fld (by decide), (hb 8).sec]; exact hlow)),
      fwFloor_raises h hst⟩
  · exact ⟨fun n bytes => fwWrite_boots h hst n bytes, h.sec_failed hst 1 0 r true _ (by decide), h.sec_failed hst 2 97 r o _ (by decide),
      h.sec_failed hst 3 160 r o _ (by decide), h.sec_failed hst 4 0 r true _ (by decide), h.sec_failed hst 5 32 r o _ (by decide),
      h.sec_failed hst 6 0 r o _ (by decide), h.sec_failed hst 8 0 r true _ (by decide)⟩

end Sys2Proof.Machine

/-! ## Answers to the sluice engines' messages (R263, R264, R266, R270) -/

namespace Sys2Proof.Machine

theorem Device.fld_count_below (d : Device) {f g : Field} (n i : Nat) (h : g.reg.ctorIdx < f.reg.ctorIdx) : (d.count f n i).fld g = d.fld g := by
  unfold Device.count
  split
  · exact d.fld_setFld_below _ _ h
  · exact d.fld_setFld_below _ _ h

/-- An answer names an unanswered message of this device to its sender. -/
theorem Device.answered_take {d : Device} {m : Msg} {o : OutMsg} (hout : d.outMsg m.hdr.reqId = some o) (hnode : o.node = m.src) :
    (d.take m).answered m = some o := by
  have htaken : (d.take m).outMsg m.hdr.reqId = some o := hout
  rw [Device.answered, htaken]
  exact if_pos (beq_iff_eq.mpr hnode)

/-! ### What each answer does -/

section
variable {d : Device} {m : Msg} {o : OutMsg} (ho : (d.take m).answered m = some o)
include ho

theorem ackEff_settles (hop : o.hdr.op = 1 ∨ o.hdr.op = 9) : ackEff m d = (d.take m).settle o 0 := by
  rw [ackEff, ho]
  exact if_pos hop

theorem nackEff_settles : nackEff m d = (d.take m).settle o (max 1 m.hdr.subop) := by
  rw [nackEff, ho]

theorem atomicRespEff_settles (hop : o.hdr.op = 4) :
    atomicRespEff m d = ((d.take m).modCtx o.eng o.ctx fun y => { y with result := m.hdr.operand }).settle o 0 := by
  rw [atomicRespEff, ho]
  exact if_pos hop

/-- A FAULT is counted, and FAULT_LIMIT decides whether its message waits or fails. -/
theorem faultEff_decides :
    faultEff m d =
      if d.fld F.SLU_ODP.FAULT_LIMIT ≤ o.faults + 1 then ((d.take m).count F.SLU_ENG_RETRY.FAULTS 1 o.eng).settle o 5
      else ((d.take m).count F.SLU_ENG_RETRY.FAULTS 1 o.eng).modMsg o.msgId fun x =>
        { x with faults := x.faults + 1, faultWait := true, waiting := m.hdr.operand } := by
  have hlimit : ((d.take m).count F.SLU_ENG_RETRY.FAULTS 1 o.eng).fld F.SLU_ODP.FAULT_LIMIT = d.fld F.SLU_ODP.FAULT_LIMIT :=
    Device.fld_count_below _ _ _ (by decide)
  rw [faultEff]
  dsimp only
  rw [ho]
  dsimp only
  rw [hlimit]

variable {x : SluCtx} (hop : o.hdr.op = 2) (hctx : d.ctx o.eng o.ctx = some x) (hwaits : d.respWaits m = none)
include hop hctx hwaits

/-- A read's response whose placing passes its parity checks is placed as far as it goes, and settles its message. -/
theorem readRespEff_places (hlive : x.abandoned = false) {n parity : Nat} {bs : List Byte} (hparity : parity ≤ 3)
    (hn : n = if o.hdr.region = 0xFFFF then min o.len m.data.length else o.len)
    (hbs : (if m.hdr.codedWire then expandAll m.data o.len else .ok (fit n m.data)) = .ok bs) {b : Device}
    (hb : b = if parity = 0 then d.take m else (d.take m).count F.ERR_COUNTS.REPLAYED) :
    readRespEff m parity d = (((b.gotOwn m).putLocal x x.desc.locHost o.dst (fit n bs)).modCtx o.eng o.ctx fun y =>
      { y with placed := y.placed + n, result := y.result + n }).settle o 0 := by
  have htaken : (d.take m).ctx o.eng o.ctx = some x := hctx
  rw [readRespEff, hwaits]
  dsimp only
  rw [ho]
  dsimp only
  rw [if_neg (not_not_intro hop), htaken]
  dsimp only
  rw [if_neg (Nat.not_lt.mpr hparity), Device.replay_counted _ hparity, ← hb, ← hn, hbs]
  dsimp only
  rw [hlive, if_neg Bool.false_ne_true]

theorem readRespEff_fails {parity st : Nat} (hparity : 3 < parity) (hst : st = if !x.desc.locHost && decide (resvBase ≤ o.dst) then 0x0C else 0x0D) :
    readRespEff m parity d = ((d.take m).uncorrectable
      { cause := 1, severity := 2, status := st, replays := 3, unitKind := 2, unit := o.eng, owner := o.hdr.owner, address := o.dst }).settle o st := by
  have htaken : (d.take m).ctx o.eng o.ctx = some x := hctx
  rw [readRespEff, hwaits]
  dsimp only
  rw [ho]
  dsimp only
  rw [if_neg (not_not_intro hop), htaken]
  dsimp only
  rw [if_pos hparity, if_neg (c := 1 ≤ parity ∧ parity ≤ 3) (by omega), ← hst]

end

/-! ### What a send keeps -/

section
variable (d : Device)

theorem Device.slu_signal (v : Nat) : (d.signal v).slu = d.slu := by
  unfold Device.signal Device.msix
  split
  · split <;> rfl
  · rfl

theorem Device.fab_signal (v : Nat) : (d.signal v).fab = d.fab := by
  unfold Device.signal Device.msix
  split
  · split <;> rfl
  · rfl

theorem Device.slu_noKey (n : Nat) : (d.noKey n).slu = d.slu := by
  unfold Device.noKey Device.eventSig
  rw [Device.slu_signal]
  exact d.slu_count _ _ _

theorem Device.fab_noKey (n : Nat) : (d.noKey n).fab = d.fab := by
  unfold Device.noKey Device.eventSig
  rw [Device.fab_signal]
  exact d.fab_count _ _ _

/-- A message sent joins the packets that wait or, to the device itself, its inbox. -/
theorem Device.sendData_keeps (dest tc id attempt : Nat) (enc : Bool) (kind : Nat) (op : OpHdr) (bs : List Byte) :
    (d.sendData dest tc id attempt enc kind op bs).slu.msgs = d.slu.msgs ∧ (d.sendData dest tc id attempt enc kind op bs).fab = d.fab := by
  unfold Device.sendData
  split
  · split
    · exact ⟨congrArg SluState.msgs (d.slu_noKey _), d.fab_noKey _⟩
    · exact ⟨rfl, rfl⟩
  · exact ⟨rfl, rfl⟩

theorem Device.sentBytes_keeps (e n : Nat) : (d.sentBytes e n).slu.msgs = d.slu.msgs ∧ (d.sentBytes e n).fab = d.fab := by
  have hcounted (c : Prop) [Decidable c] (f : Field) (k : Nat) :
      (if c then d else d.count f k e).slu.msgs = d.slu.msgs ∧ (if c then d else d.count f k e).fab = d.fab := by
    split
    · exact ⟨rfl, rfl⟩
    · exact ⟨congrArg SluState.msgs (d.slu_count _ _ _), d.fab_count _ _ _⟩
  exact hcounted _ _ _

end

/-! ### The ends of delays and timeouts -/

/-- A message that goes again as a new one. -/
def OutMsg.renewed (o : OutMsg) (new : Nat) : OutMsg :=
  { o with msgId := new, attempt := 0, retries := 0, stale := false, faultWait := false }

/-- The device as a fault's delay leaves it before the message goes out again. -/
def Device.renews (d : Device) (id : Nat) : Device :=
  let swap := fun (ws : List Nat) => ws.map fun i => if i = id then d.newMsgId.1 else i
  let b := d.newMsgId.2.modMsg id fun x => x.renewed d.newMsgId.1
  { b with slu.ctxs := b.slu.ctxs.map fun (x : SluCtx) => { x with watch := swap x.watch }
           slu.flushWatch := swap b.slu.flushWatch }

theorem Device.msgId_renews (d : Device) (id : Nat) : (d.renews id).fab.msgId = (d.fab.msgId + 1) % 2 ^ 48 := rfl

/-- A message that has a new ID goes out. -/
def Device.sendRenewed (d : Device) (new : Nat) (hd seen : List Byte) : Device :=
  match d.outMsg new with
  | some o =>
    let data := if o.hdr.op = 1 ∧ o.data = [] then d.sourceBytes o.srcHost o.src o.len hd else o.data
    (d.sentBytes o.eng (o.wire seen data).2.length).sendData o.node o.cls new 0 true 1 (o.wire seen data).1 (o.wire seen data).2
  | none => d

/-- What goes out changes neither the messages nor the counter of their IDs. -/
theorem Device.sendRenewed_keeps (d : Device) (new : Nat) (hd seen : List Byte) :
    (d.sendRenewed new hd seen).slu.msgs = d.slu.msgs ∧ (d.sendRenewed new hd seen).fab = d.fab := by
  unfold Device.sendRenewed
  split
  · next o _ =>
    obtain ⟨hmsgs, hfab⟩ := (d.sentBytes o.eng _).sendData_keeps o.node o.cls new 0 true 1 _ _
    obtain ⟨hmsgs', hfab'⟩ := d.sentBytes_keeps o.eng _
    exact ⟨hmsgs.trans hmsgs', hfab.trans hfab'⟩
  · exact ⟨rfl, rfl⟩

section
variable {d : Device} {id : Nat} {o : OutMsg} (ho : d.outMsg id = some o)
include ho

theorem Device.renewed_mem_renews : o.renewed d.fab.msgId ∈ (d.renews id).slu.msgs := by
  have hid : o.msgId = id := beq_iff_eq.mp (List.find?_some (p := fun (o : OutMsg) => o.msgId == id) ho)
  exact List.mem_map.mpr ⟨o, List.mem_of_find?_eq_some ho, if_pos hid⟩

theorem faultDelayEff_renews (hd seen : List Byte) (hwait : o.faultWait = true) :
    faultDelayEff id hd seen d = (d.renews id).sendRenewed d.fab.msgId hd seen := by
  rw [faultDelayEff, ho]
  dsimp only
  rw [hwait]
  rfl

/-- A timeout sends the message again while LIMIT allows it. -/
theorem retransmitEff_resends (hd seen : List Byte) (hwait : o.faultWait = false) (hlimit : o.retries < d.fld F.SLU_RETRY.LIMIT) :
    retransmitEff id hd seen d =
      ((((d.count F.SLU_ENG_RETRY.RETRIES 1 o.eng).modCtx o.eng o.ctx fun x => { x with retries := x.retries + 1 }).modMsg id
        fun _ => { o with retries := o.retries + 1 })).resend { o with retries := o.retries + 1 } hd seen := by
  rw [retransmitEff, ho]
  dsimp only
  rw [hwait, if_neg Bool.false_ne_true, if_pos hlimit]

theorem retransmitEff_exhausts (hd seen : List Byte) (hwait : o.faultWait = false) (hlimit : d.fld F.SLU_RETRY.LIMIT ≤ o.retries) :
    retransmitEff id hd seen d = ((d.count F.SLU_ENG_RETRY.EXHAUSTED 1 o.eng).event F.SLU_EVENTS.TIMEOUT_EXHAUSTED).settle o 2 := by
  rw [retransmitEff, ho]
  dsimp only
  rw [hwait, if_neg Bool.false_ne_true, if_neg (Nat.not_lt.mpr hlimit)]

end

/-- Settles O31: each answer acts on the message that it names, which is off its list of arrivals; a delay's end and a timeout on theirs. -/
theorem sluiceAnswersAreTaken : Obligations.SluiceAnswersAreTaken := by
  intro s hs
  refine ⟨fun m o hout hnode => ?_, fun id o hd seen ho => ⟨fun hwait => ?_, fun hwait hlimit => hs.act_eq (retransmitEff_resends ho hd seen hwait hlimit),
    fun hwait hlimit => hs.act_eq (retransmitEff_exhausts ho hd seen hwait hlimit)⟩⟩
  · have ho := Device.answered_take hout hnode
    exact ⟨fun hop => hs.act_eq (ackEff_settles ho hop), hs.act_eq (nackEff_settles ho),
      fun x hop hctx hlive hwaits =>
        ⟨fun bs parity hparity hbs => hs.act_eq (readRespEff_places ho hop hctx hwaits hlive hparity rfl hbs rfl),
          fun parity hparity => hs.act_eq (readRespEff_fails ho hop hctx hwaits hparity rfl)⟩,
      fun hop => hs.act_eq (atomicRespEff_settles ho hop),
      fun hbelow => hs.act_eq ((faultEff_decides ho).trans (if_neg (Nat.not_le.mpr hbelow))),
      fun hlimit => hs.act_eq ((faultEff_decides ho).trans (if_pos hlimit))⟩
  · obtain ⟨hmsgs, hfab⟩ := (s.dev.renews id).sendRenewed_keeps s.dev.fab.msgId hd seen
    refine ⟨_, hs.act_eq (faultDelayEff_renews ho hd seen hwait), ?_, o.renewed s.dev.fab.msgId, ?_, rfl⟩
    · rw [State.put_fab, hfab, Device.msgId_renews]
    · rw [State.put_slu, hmsgs]
      exact Device.renewed_mem_renews ho

end Sys2Proof.Machine

/-! ## Regions registered and revoked (R255 to R257, R260) -/

namespace Sys2Proof.Machine

section
variable {d : Device} {x : SluCtx} {r : Nat}

theorem Device.region_of_kept {e : Device} (h : e.kept = d.kept) (r : Nat) : e.region r = d.region r := by
  have hregions : e.slu.regions = d.slu.regions := congrArg Prod.snd h
  rw [Device.region, hregions, Device.region]

theorem Device.region_endCtx (d : Device) (e c status result r : Nat) : (d.endCtx e c status result).region r = d.region r :=
  Device.region_of_kept (d.kept_endCtx e c status result) r

/-- An entry that has been replaced. -/
theorem Device.region_setRegion_same (d : Device) (r : Nat) (g : Region) : (d.setRegion r g).region r = g := by
  have hsame : ({ d with slu.regions := sput {} d.slu.regions r g } : Device).region r = g := sget_sput_same _ _ _
  unfold Device.setRegion Device.mirror
  split
  · exact (Device.region_of_kept (Device.kept_store _ _ _) r).trans hsame
  · exact hsame

theorem Device.kept_regionEvent (d : Device) (m : Msg) (len kind reason gen : Nat) : (d.regionEvent m len kind reason gen).kept = d.kept := by
  have hput (fn : Fn) (base size p c n : Nat) (bs : List Byte) : (d.ringPut fn base size p c n bs).1.kept = d.kept := by
    unfold Device.ringPut
    split
    · rfl
    · exact d.kept_hostWrite _ _ _
  unfold Device.regionEvent
  exact Device.kept_ite rfl (Device.kept_ite ((Device.kept_signal _ _).trans (hput _ _ _ _ _ _ _)) (hput _ _ _ _ _ _ _))

/-! ### REGISTER -/

theorem Device.sluCheck_failed (d : Device) (x : SluCtx) {parity : Nat} (h : 4 ≤ parity) (host : Bool) (a : Nat) (f g : Device → Device) :
    d.sluCheck x parity host a f = d.sluCheck x parity host a g := by
  unfold Device.sluCheck
  rw [if_neg (c := parity = 0) (by omega), if_neg (c := parity = 0) (by omega), if_neg (c := parity ≤ 3) (by omega),
    if_neg (c := parity ≤ 3) (by omega)]

theorem Device.takeSource_keeps (d : Device) (x : SluCtx) (host : Bool) (a n : Nat) (hd : List Byte) :
    (d.takeSource x host a n hd).1.kept = d.kept ∧ (d.takeSource x host a n hd).1.randCount = d.randCount := by
  unfold Device.takeSource
  dsimp only
  split
  · exact ⟨rfl, rfl⟩
  · exact ⟨rfl, rfl⟩

/-- The device once a REGISTER has the bytes of its image. -/
def Device.registers (x : SluCtx) (d : Device) (bs : List Byte) : Device :=
  let old := d.region x.desc.region
  let g := Region.ofImage bs x.fn.port
  if x.desc.region = 0xFFFF then d.endCtx x.eng x.id 0x0E 0
  else if old.state ≠ 0 then d.endCtx x.eng x.id 0x13 0
  else if d.regionInvalid g then d.endCtx x.eng x.id 0x0E 0
  else
    let g := { g with gen := old.gen, secret := d.rand 48, state := 1 }
    (d.rolled.setRegion x.desc.region g).endCtx x.eng x.id 0 g.accessKey

section
variable (hloc : d.localFault x x.desc.locHost x.desc.loc 32 false = none) (hd : List Byte)
include hloc

theorem registerEff_checks (parity : Nat) :
    registerEff hd parity x d = d.sluCheck x parity x.desc.locHost x.desc.loc fun d =>
      Device.registers x (d.takeSource x x.desc.locHost x.desc.loc 32 hd).1 (d.takeSource x x.desc.locHost x.desc.loc 32 hd).2 := by
  rw [registerEff, hloc]
  rfl

theorem registerEff_reads :
    registerEff hd 0 x d = Device.registers x (d.takeSource x x.desc.locHost x.desc.loc 32 hd).1 (d.takeSource x x.desc.locHost x.desc.loc 32 hd).2 :=
  (registerEff_checks hloc hd 0).trans (Device.sluCheck_clean _ _ _ _ _)

end

section
variable {bs : List Byte} (hreal : x.desc.region ≠ 0xFFFF)
include hreal

theorem Device.registers_busy (hbusy : (d.region x.desc.region).state ≠ 0) : Device.registers x d bs = d.endCtx x.eng x.id 0x13 0 :=
  (if_neg hreal).trans (if_pos hbusy)

variable (hfree : (d.region x.desc.region).state = 0)
include hfree

theorem Device.registers_invalid (hbad : d.regionInvalid (Region.ofImage bs x.fn.port) = true) : Device.registers x d bs = d.endCtx x.eng x.id 0x0E 0 :=
  (if_neg hreal).trans ((if_neg (not_not_intro hfree)).trans (if_pos hbad))

theorem Device.registers_valid (hgood : d.regionInvalid (Region.ofImage bs x.fn.port) = false) :
    (Device.registers x d bs).region x.desc.region =
      { Region.ofImage bs x.fn.port with gen := (d.region x.desc.region).gen, secret := d.rand 48, state := 1 } := by
  have hregisters : Device.registers x d bs = _ :=
    (if_neg hreal).trans ((if_neg (not_not_intro hfree)).trans (if_neg (Bool.not_eq_true _ ▸ hgood)))
  rw [hregisters, Device.region_endCtx, Device.region_setRegion_same]

end

/-! ### REVOKE and its end -/

theorem revokeEff_valid (h : (d.region x.desc.region).state = 1) :
    (revokeEff x d).region x.desc.region = { d.region x.desc.region with state := 2 } := by
  rw [revokeEff]
  dsimp only
  rw [if_pos h, Device.region_setRegion_same]

theorem revokeEff_other (h : (d.region x.desc.region).state ≠ 1) : revokeEff x d = d.endCtx x.eng x.id 0x13 0 := if_neg h

theorem revokeCompleteEff_ends (h : (d.region r).state = 2) (hnone : (d.region r).inFlight = 0) :
    (revokeCompleteEff r d).region r = { d.region r with state := 0, gen := ((d.region r).gen + 1) % 65536 } := by
  have hended (e : Device) (l : List SluCtx) (gen : Nat) :
      (l.foldl (fun (d : Device) x => d.endCtx x.eng x.id 0 gen) e).kept = e.kept :=
    Device.kept_foldl e (fun d x => d.kept_endCtx _ _ _ _) l
  have hevent (e : Device) (f : Field) : (e.event f).kept = e.kept := rfl
  rw [revokeCompleteEff]
  dsimp only
  rw [if_pos ⟨h, hnone⟩, Device.region_of_kept ((hended _ _ _).trans ((hevent _ _).trans (Device.kept_regionEvent _ _ _ _ _ _))),
    Device.region_setRegion_same]

theorem revokeCompleteEff_stays (h : (d.region r).state ≠ 2 ∨ (d.region r).inFlight ≠ 0) : revokeCompleteEff r d = d := by
  rw [revokeCompleteEff]
  dsimp only
  rw [if_neg (by tauto)]

end

theorem State.put_region (s : State) (d : Device) (r : Nat) : (s.put d).dev.region r = d.region r := rfl

/-- Settles O29: REGISTER by its parity check, its region's state and its image, REVOKE and its end by the region's state. -/
theorem regionsRegisterAndRevoke : Obligations.RegionsRegisterAndRevoke := by
  refine ⟨fun s e c x hd h => ?_, fun s e c x h => ⟨fun hvalid => ?_, fun hother => h.act_eq (revokeEff_other hother)⟩,
    fun s r hs => ⟨fun hstate hnone => ?_, fun hother => ?_⟩⟩
  · intro b r g old hloc hreal
    obtain ⟨hkept, hrand⟩ := b.takeSource_keeps x x.desc.locHost x.desc.loc 32 hd
    have hregion : r.1.region x.desc.region = old := Device.region_of_kept hkept _
    refine ⟨fun hfree hgood => ⟨_, h.act_eq (registerEff_reads hloc hd), ?_⟩, fun parity hparity => ?_,
      fun hbusy => h.act_eq ((registerEff_reads hloc hd).trans (Device.registers_busy hreal (hregion ▸ hbusy))),
      fun hfree hbad => h.act_eq ((registerEff_reads hloc hd).trans (Device.registers_invalid hreal (hregion ▸ hfree) hbad))⟩
    · have hdrawn : r.1.rand 48 = s.dev.rand 48 := by
        rw [Device.rand, hrand]
        rfl
      rw [State.put_region, Device.registers_valid hreal (hregion ▸ hfree) hgood, hregion, hdrawn]
    · exact h.act_eq ((registerEff_checks hloc hd parity).trans (Device.sluCheck_failed _ _ hparity _ _ _ _))
  · exact ⟨_, h.act_eq rfl, (State.put_region _ _ _).trans (revokeEff_valid hvalid)⟩
  · exact ⟨_, hs.act_eq (f := revokeCompleteEff r) rfl, (State.put_region _ _ _).trans (revokeCompleteEff_ends hstate hnone)⟩
  · exact State.act_id hs.1 (revokeCompleteEff_stays hother)

end Sys2Proof.Machine

/-! ## SIGNAL in device memory (R7, R249) -/

namespace Sys2Proof.Machine

/-! ### What a write leaves of memory -/

theorem writtenByte_append (a : Nat) (ws : List MemWrite) (w : MemWrite) (acc : Option Byte) :
    writtenByte a (ws ++ [w]) acc = (w.at a).orElse fun _ => writtenByte a ws acc := by
  induction ws generalizing acc with
  | nil => rfl
  | cons v ws ih => exact ih _

section
variable (d : Device) {a : Nat} {bs : List Byte}

theorem Device.store_eq (h : bs ≠ []) : d.store a bs = { d with wr := d.wr ++ [.put a bs] } :=
  if_neg (by rw [List.isEmpty_iff]; exact h)

/-- A byte that a write gives. -/
theorem Device.byte_store_in {k : Nat} (h : k < bs.length) : (d.store a bs).byte (a + k) = bs[k] := by
  have hat : MemWrite.at (a + k) (.put a bs) = some bs[k] := by
    rw [MemWrite.at, if_pos ⟨by omega, by omega⟩, Nat.add_sub_cancel_left, List.getElem?_eq_getElem h]
  refine Device.byte_written ?_
  rw [d.store_eq (List.ne_nil_of_length_pos (by omega)), writtenByte_append, hat]
  rfl

/-- A byte that a write does not reach. -/
theorem Device.byte_store_out {b : Nat} (h : b < a ∨ a + bs.length ≤ b) : (d.store a bs).byte b = d.byte b := by
  by_cases hnil : bs = []
  · rw [Device.store, if_pos (List.isEmpty_iff.mpr hnil)]
  · have hat : MemWrite.at b (.put a bs) = none := if_neg (by omega)
    rw [d.store_eq hnil, Device.byte, writtenByte_append, hat]
    rfl

theorem Device.ctx_store (a : Nat) (bs : List Byte) (e c : Nat) : (d.store a bs).ctx e c = d.ctx e c := by
  unfold Device.store
  split <;> rfl

/-- Bytes placed in device memory below the reservoir are stored there. -/
theorem Device.putLocal_below (x : SluCtx) (ha : a < resvBase) (hbs : bs ≠ []) : d.putLocal x false a bs = d.store a bs := by
  unfold Device.putLocal Device.writeMem
  rw [if_neg Bool.false_ne_true, if_neg (by rw [List.isEmpty_iff]; exact hbs), if_pos ha]

end

theorem leBytes_getElem (n v k : Nat) (h : k < (leBytes n v).length) : (leBytes n v)[k] = BitVec.ofNat 8 (v / 2 ^ (8 * k)) := by
  induction n generalizing v k with
  | zero => exact absurd h (Nat.not_lt_zero _)
  | succ n ih =>
    cases k with
    | zero => exact congrArg (BitVec.ofNat 8) (Nat.div_one v).symm
    | succ k =>
      refine (ih (v / 256) k (Nat.lt_of_succ_lt_succ h)).trans (congrArg _ ?_)
      rw [Nat.div_div_eq_div_mul, Nat.mul_succ, Nat.pow_add, Nat.mul_comm]

/-! ### A host queue's descriptor ends (R252) -/

section
variable (d : Device) {e c : Nat} {x : SluCtx}

/-- The memory of a device and the writes that wait to land in it. -/
def Device.memory (d : Device) : SMap Byte × List MemWrite := (d.mem, d.wr)

theorem Device.byte_of_memory {d d' : Device} (h : d'.memory = d.memory) (a : Nat) : d'.byte a = d.byte a :=
  Device.byte_congr (congrArg Prod.fst h) (congrArg Prod.snd h) a

theorem Device.memory_signal (v : Nat) : (d.signal v).memory = d.memory := Prod.ext (d.mem_signal v) (d.wr_signal v)

theorem Device.memory_hostWrite (fn : Fn) (a : Nat) (bs : List Byte) : (d.hostWrite fn a bs).memory = d.memory :=
  Prod.ext (d.mem_hostWrite fn a bs) (d.wr_hostWrite fn a bs)

theorem Device.memory_cplRecord (x : SluCtx) (q index status : Nat) (late : Bool) : (d.cplRecord x q index status late).memory = d.memory := by
  unfold Device.cplRecord
  dsimp only
  refine (Device.memory_signal _ _).trans ?_
  split
  · exact d.memory_hostWrite _ _ _
  · exact d.memory_hostWrite _ _ _

theorem Device.memory_tellIssuer {q index prog pos : Nat} (hiss : x.iss = .hostQ q index prog pos) (status : Nat) (late : Bool) :
    (d.tellIssuer x status late).memory = d.memory := by
  have hfails : (if status ≠ 0 ∧ late = false then d.progFails q prog pos else d).memory = d.memory := by
    split
    · rfl
    · rfl
  unfold Device.tellIssuer
  rw [hiss]
  dsimp only
  split
  · exact hfails
  · exact (Device.memory_cplRecord _ _ _ _ _ _).trans hfails

theorem Device.memory_openCtx {desc : Desc} {iss : Issuer} {fn : Fn} {payload : List Byte} {d' : Device}
    (h : d.openCtx e desc iss fn payload = some (c, d')) : d'.memory = d.memory := by
  unfold Device.openCtx at h
  obtain ⟨k, -, hk⟩ := Option.map_eq_some_iff.mp h
  rw [← (Prod.mk.inj hk).2]
  rfl

theorem Device.memory_admitWaiting : d.admitWaiting.memory = d.memory := by
  have htaken (d : Device) (iss : Issuer) (e c : Nat) : (d.ctxTaken iss e c).memory = d.memory := by
    unfold Device.ctxTaken
    split <;> rfl
  unfold Device.admitWaiting
  split
  · rfl
  split
  · next h =>
    have hopened := Device.memory_openCtx _ h
    exact (htaken _ _ _ _).trans hopened
  · rfl

theorem Device.memory_closeCtx (e c : Nat) : (d.closeCtx e c).memory = d.memory := by
  unfold Device.closeCtx
  split
  · rfl
  dsimp only
  split
  · exact Device.memory_admitWaiting _
  · exact Device.memory_admitWaiting _

/-- The end of a host queue's descriptor is told to the host, and writes no memory of the device. -/
theorem Device.memory_endCtx {q index prog pos : Nat} (hctx : d.ctx e c = some x) (hiss : x.iss = .hostQ q index prog pos) (status result : Nat) :
    (d.endCtx e c status result).memory = d.memory := by
  have hended (y : SluCtx) (hy : y.iss = x.iss) : ((d.modCtx e c fun _ => y).tellIssuer y status false).memory = d.memory :=
    Device.memory_tellIssuer _ (hy.trans hiss) _ _
  unfold Device.endCtx
  rw [hctx]
  dsimp only
  split
  · rfl
  split
  · exact (Device.memory_closeCtx _ _ _).trans (hended _ rfl)
  · exact hended _ rfl

end

/-! ### A context that changes -/

section
variable {d : Device} {e c : Nat} {x : SluCtx}

theorem Device.ctx_names (h : d.ctx e c = some x) : x.eng = e ∧ x.id = c := by
  have hfound := List.find?_some (p := fun (x : SluCtx) => x.eng == e && x.id == c) h
  rw [Bool.and_eq_true, beq_iff_eq, beq_iff_eq] at hfound
  exact hfound

/-- A change that keeps a context's engine and number changes the context that they name. -/
theorem Device.ctx_modCtx (h : d.ctx e c = some x) {f : SluCtx → SluCtx} (hf : ∀ y, (f y).eng = y.eng ∧ (f y).id = y.id) :
    (d.modCtx e c f).ctx e c = some (f x) := by
  have hsame (y : SluCtx) : (if y.eng = e ∧ y.id = c then f y else y).eng = y.eng ∧ (if y.eng = e ∧ y.id = c then f y else y).id = y.id := by
    split
    · exact hf y
    · exact ⟨rfl, rfl⟩
  have hp : ((fun (x : SluCtx) => x.eng == e && x.id == c) ∘ fun (y : SluCtx) => if y.eng = e ∧ y.id = c then f y else y) =
      fun (x : SluCtx) => x.eng == e && x.id == c := by
    funext y
    obtain ⟨heng, hid⟩ := hsame y
    rw [Function.comp_apply, heng, hid]
  rw [Device.ctx] at h ⊢
  rw [Device.modCtx, List.find?_map, hp, h]
  exact congrArg some (if_pos (Device.ctx_names h))

theorem Device.ctx_ctxBegun (h : d.ctx e c = some x) : (d.ctxBegun e c).ctx e c = some { x with started := true } :=
  Device.ctx_modCtx h fun _ => ⟨rfl, rfl⟩

end

/-- Settles O28: the descriptor's end tells the host, so OPERAND's eight bytes are all that memory takes. -/
theorem signalWritesItsWord : Obligations.SignalWritesItsWord := by
  rintro s e c x h hlocal hrange ⟨q, n, g, p, hiss⟩ hloc
  obtain ⟨-, hctx, -⟩ := id h
  obtain ⟨rfl, rfl⟩ := Device.ctx_names hctx
  have hbelow : x.desc.loc < resvBase := by omega
  have hplaces : signalEff 0 x (s.dev.ctxBegun x.eng x.id) =
      ((s.dev.ctxBegun x.eng x.id).store x.desc.loc (leBytes 8 x.desc.operand)).endCtx x.eng x.id 0 0 := by
    rw [signalEff_places 0 (by rw [hlocal]; exact hloc), Device.sluCheck_clean, hlocal, Device.putLocal_below _ x hbelow (leBytes_ne_nil 7 _)]
  have hstored : ((s.dev.ctxBegun x.eng x.id).store x.desc.loc (leBytes 8 x.desc.operand)).ctx x.eng x.id = some { x with started := true } :=
    (Device.ctx_store _ _ _ _ _).trans (Device.ctx_ctxBegun hctx)
  have hmemory := Device.memory_endCtx _ hstored hiss 0 0
  have hmem : (((s.dev.ctxBegun x.eng x.id).store x.desc.loc (leBytes 8 x.desc.operand)).endCtx x.eng x.id 0 0).mem = s.dev.mem :=
    (congrArg Prod.fst hmemory).trans (Device.mem_store _ _ _)
  have hbyte (a : Nat) : (s.put (((s.dev.ctxBegun x.eng x.id).store x.desc.loc (leBytes 8 x.desc.operand)).endCtx x.eng x.id 0 0)).dev.byte a =
      ((s.dev.ctxBegun x.eng x.id).store x.desc.loc (leBytes 8 x.desc.operand)).byte a :=
    (s.put_byte _ hmem a).trans (Device.byte_of_memory hmemory a)
  refine ⟨_, h.act_eq hplaces, fun k hk => ?_, fun a ha => ?_⟩
  · rw [hbyte, Device.byte_store_in _ (by rwa [leBytes_length]), leBytes_getElem]
  · rw [hbyte, Device.byte_store_out _ (by rwa [leBytes_length])]
    exact Device.byte_congr rfl rfl a

end Sys2Proof.Machine

/-! ## Messages out of a sluice engine (R262, R264) -/

namespace Sys2Proof.Machine

/-- The engine number whose copy of SLU_ENG_STATS stands at the key of FAB_NODE. -/
def nodeEngine : Nat := (Reg.ctorIdx .FAB_NODE - Reg.ctorIdx .SLU_ENG_STATS) * 0x10000

/-- A WRITE of one byte to node 0, in a context of that engine. -/
def nodeCtx : SluCtx where
  eng := nodeEngine
  id := 0
  desc := { opcode := 2, length := 1 }
  iss := .furrow 0 .none
  fn := ⟨0, 0⟩

/-- A device of no node number, whose context holds that WRITE; the engine's next byte completes a MiB. -/
def nodeDevice : Device where
  slu := { ctxs := [nodeCtx], sentBytes := [(nodeEngine, 0xFFFFF)] }

theorem nodeDevice_begins : State.begins { dev := nodeDevice } nodeEngine 0 2 nodeCtx := by
  decide

theorem nodeDevice_allows : (nodeDevice.ctxBegun nodeEngine 0).localFault nodeCtx false 0 1 false = none := by
  decide

/-- The MiB that the WRITE's message completes is counted over the device's node number, so the message is for the device itself, and the WRITE
ends at once. -/
theorem writeEff_nodeDevice :
    ((writeEff [] [] 0 nodeCtx (nodeDevice.ctxBegun nodeEngine 0)).ctx nodeEngine 0).map (fun z => (z.pending, z.done)) = some (1, true) := by
  decide

theorem State.put_ctx (s : State) (d : Device) (e c : Nat) : (s.put d).dev.ctx e c = d.ctx e c := rfl

/-- Refutes O30: a WRITE to another node ends with its answer outstanding, on a device where the count of its engine's bytes writes over
FAB_NODE. -/
theorem not_sluiceMessagesGoOut : ¬ Obligations.SluiceMessagesGoOut := by
  unfold Obligations.SluiceMessagesGoOut
  rintro ⟨hstarts, -⟩
  obtain ⟨-, -, hlive⟩ := hstarts { dev := nodeDevice } nodeEngine 0 2 nodeCtx nodeDevice_begins
  obtain ⟨-, hlong, -⟩ := hlive (by decide)
  obtain ⟨t, hexec, hctx, -⟩ := hlong [] [] rfl (by decide) (by decide) (by decide) (.inl (by decide)) nodeDevice_allows
  have hnext : exec (.sluWrite nodeEngine 0 [] [] 0) { dev := nodeDevice } = _ := nodeDevice_begins.act_eq (f := writeEff [] [] 0) rfl
  obtain rfl : t = _ := Host.Outcome.next.inj (hexec.symm.trans hnext)
  rw [State.put_ctx, show nodeCtx.eng = nodeEngine from rfl, show nodeCtx.id = 0 from rfl, writeEff_nodeDevice] at hctx
  exact absurd (congrArg (Option.map Prod.snd) hctx) (by decide)

end Sys2Proof.Machine

/-! ## Descriptors fetched (R248, R250, R251, R356) -/

namespace Sys2Proof.Machine

theorem firstFrom_holds {p : Nat → Bool} {c : Nat} : ∀ {k n : Nat}, firstFrom p k n = some c → p c = true
  | _, 0, h => nomatch h
  | k, n + 1, h => by
    rw [firstFrom] at h
    split at h
    · next hk => exact Option.some.inj h ▸ hk
    · exact firstFrom_holds h

section
variable {d : Device} {q c : Nat} {desc : Desc}

theorem Device.ctx_freeCtx {e : Nat} (h : d.freeCtx e = some c) : d.ctx e c = none :=
  Option.isNone_iff_eq_none.mp (firstFrom_holds (p := fun c => (d.ctx e c).isNone) h)

theorem Device.engine_lt (d : Device) (q : Nat) : d.fld F.HQ_Q_CTRL.ENGINE q < 32 := Nat.mod_lt _ (by decide)

/-! ### The context that a fetched descriptor takes -/

/-- The context of a descriptor that a queue's fetch brings (R248). -/
def Device.fetchedCtx (d : Device) (q : Nat) (desc : Desc) (c : Nat) : SluCtx where
  eng := d.fld F.HQ_Q_CTRL.ENGINE q
  id := c
  desc := desc
  fn := ⟨(d.ringFn .HQ_Q_BASE q).port, desc.func⟩
  iss := .hostQ q (d.fld F.HQ_Q_STATUS.HEAD q) (sget 0 d.slu.progs q) (sget 0 d.slu.progLen q)

/-- A device with one more context. -/
def Device.ctxAdded (d : Device) (x : SluCtx) : Device :=
  let b : Device := { d with slu.ctxs := d.slu.ctxs ++ [x] }
  b.setFld F.SLU_ENG_STATUS.OUTSTANDING (b.ctxCount x.eng) x.eng

/-- A context that takes a free number is the one that the number names. -/
theorem Device.ctx_ctxAdded {x : SluCtx} (h : d.ctx x.eng x.id = none) : (d.ctxAdded x).ctx x.eng x.id = some x := by
  have hadded : (d.ctxAdded x).ctx x.eng x.id = (d.slu.ctxs ++ [x]).find? fun y => y.eng == x.eng && y.id == x.id := rfl
  rw [Device.ctx] at h
  rw [hadded, List.find?_append, h, Option.none_or, List.find?_cons_of_pos]
  rw [beq_self_eq_true, beq_self_eq_true]
  rfl

theorem Device.fld_ctxAdded (d : Device) {x : SluCtx} (hx : x.eng < 0x10000) {f : Field} {i : Nat} (hf : f.reg ≠ .SLU_ENG_STATUS) (hi : i < 0x10000) :
    (d.ctxAdded x).fld f i = d.fld f i :=
  Device.fld_setFld_reg _ _ _ _ hf hx hi

theorem Device.descOpened_eq (h : d.freeCtx (d.fld F.HQ_Q_CTRL.ENGINE q) = some c) (desc : Desc) :
    d.descOpened q desc = some (c, (d.descTaken q desc).ctxAdded (d.fetchedCtx q desc c)) := by
  have htaken : (d.descTaken q desc).freeCtx (d.fld F.HQ_Q_CTRL.ENGINE q) = some c := h
  rw [Device.descOpened, Device.openCtx, htaken]
  rfl

/-! ### What the fetch changes -/

theorem Device.fld_descTaken (d : Device) (q : Nat) (desc : Desc) (f : Field) (i : Nat) :
    (d.descTaken q desc).fld f i =
      (d.setFld F.HQ_Q_STATUS.HEAD ((d.fld F.HQ_Q_STATUS.HEAD q + 1) % d.hqSize q) q).fld f i := rfl

variable (hq : q < 256)
include hq

theorem Device.framed_fetched (d : Device) (desc : Desc) (c : Nat) :
    d.framed ((d.descTaken q desc).ctxAdded (d.fetchedCtx q desc c)) [.HQ_Q_STATUS, .SLU_ENG_STATUS] := by
  have hlt := d.engine_lt q
  have htaken : d.framed (d.descTaken q desc) [.HQ_Q_STATUS, .SLU_ENG_STATUS] :=
    Device.framed_congr (Device.framed_setFld (d.framed_refl _) F.HQ_Q_STATUS.HEAD ((d.fld F.HQ_Q_STATUS.HEAD q + 1) % d.hqSize q) q (by decide)
      (by omega)) rfl rfl rfl rfl
  have hadded (e : Device) (x : SluCtx) (hx : x.eng < 0x10000) (he : d.framed e [.HQ_Q_STATUS, .SLU_ENG_STATUS]) :
      d.framed (e.ctxAdded x) [.HQ_Q_STATUS, .SLU_ENG_STATUS] :=
    Device.framed_setFld (Device.framed_congr he rfl rfl rfl rfl) _ _ _ (by decide) hx
  exact hadded _ (d.fetchedCtx q desc c) (show d.fld F.HQ_Q_CTRL.ENGINE q < 0x10000 by omega) htaken

theorem Device.head_fetched (d : Device) (desc : Desc) (c : Nat) :
    ((d.descTaken q desc).ctxAdded (d.fetchedCtx q desc c)).fld F.HQ_Q_STATUS.HEAD q =
      (d.fld F.HQ_Q_STATUS.HEAD q + 1) % 2 ^ d.fld F.HQ_Q_CTRL.LOG2_SIZE q % 2 ^ F.HQ_Q_STATUS.HEAD.w := by
  have hlt := d.engine_lt q
  rw [Device.fld_ctxAdded _ (show d.fld F.HQ_Q_CTRL.ENGINE q < 0x10000 by omega) (by decide) (by omega), Device.fld_descTaken]
  exact Device.fld_setFld_same _ _ _ _ (by decide)

theorem Device.descInvalid_fetched (d : Device) (desc y : Desc) (c : Nat) :
    ((d.descTaken q desc).ctxAdded (d.fetchedCtx q desc c)).descInvalid y = d.descInvalid y := by
  have hlt := d.engine_lt q
  have hnode : ((d.descTaken q desc).ctxAdded (d.fetchedCtx q desc c)).node = d.node := by
    rw [Device.node, Device.fld_ctxAdded _ (show d.fld F.HQ_Q_CTRL.ENGINE q < 0x10000 by omega) (by decide) (by decide), Device.fld_descTaken]
    exact Device.fld_setFld_reg _ _ _ _ (by decide) (by omega) (by decide)
  have hregion (r : Nat) : ((d.descTaken q desc).ctxAdded (d.fetchedCtx q desc c)).region r = d.region r := rfl
  unfold Device.descInvalid
  rw [hnode, hregion]

omit hq in
theorem Device.freeCtx_of_mayFetch (h : d.mayFetch q = true) : ∃ c, d.freeCtx (d.fld F.HQ_Q_CTRL.ENGINE q) = some c := by
  unfold Device.mayFetch at h
  rw [Bool.and_eq_true, Bool.and_eq_true] at h
  obtain ⟨⟨-, hfree⟩, -⟩ := h
  exact Option.isSome_iff_exists.mp hfree

/-- A fetch that a queue may make opens a context, in which a descriptor that R250 or R251 refuses ends INVALID. -/
theorem sluiceFetchEff_opens {bytes : List Byte} (hmay : d.mayFetch q = true) (hc : d.freeCtx (d.fld F.HQ_Q_CTRL.ENGINE q) = some c) :
    sluiceFetchEff q bytes d =
      let b := (d.descTaken q (Desc.ofBytes bytes)).ctxAdded (d.fetchedCtx q (Desc.ofBytes bytes) c)
      if d.descInvalid (Desc.ofBytes bytes) || decide (sget 0 d.slu.progLen q ≥ 64) then b.endCtx (d.fld F.HQ_Q_CTRL.ENGINE q) c 0x0E 0 else b := by
  have hopens : sluiceFetchEff q bytes d = match d.descOpened q (Desc.ofBytes bytes) with
      | none => d.descTaken q (Desc.ofBytes bytes)
      | some (c, b) =>
        if b.descInvalid (Desc.ofBytes bytes) || decide (sget 0 d.slu.progLen q ≥ 64) then b.endCtx (d.fld F.HQ_Q_CTRL.ENGINE q) c 0x0E 0 else b := by
    rw [sluiceFetchEff, hmay]
    rfl
  rw [hopens, Device.descOpened_eq hc]
  dsimp only
  rw [Device.descInvalid_fetched hq]

end

/-- Settles O26: what the fetch opens, and whether R250 or R251 refuses the descriptor. -/
theorem sluiceDescriptorFetched : Obligations.SluiceDescriptorFetched := by
  intro s q bytes hs hq
  have hmod : q % 256 = q := Nat.mod_eq_of_lt hq
  have hexec {d : Device} (h : sluiceFetchEff q bytes s.dev = d) : exec (.sluiceFetch q bytes) s = .next (s.put d) :=
    hs.act_eq (f := sluiceFetchEff (q % 256) bytes) (by rw [hmod]; exact h)
  refine ⟨fun hmay hvalid hpos => ?_, fun hmay hrefused => ?_, fun hmay => ?_⟩
  · obtain ⟨c, hc⟩ := Device.freeCtx_of_mayFetch hmay
    have hopens := (sluiceFetchEff_opens (bytes := bytes) hq hmay hc).trans
      (if_neg (by rw [hvalid, decide_eq_false (Nat.not_le.mpr hpos)]; decide))
    refine ⟨_, hexec hopens, ?_, (s.put_fld _ _ _).trans (Device.head_fetched hq _ _ _), s.framed_put (Device.framed_fetched hq _ _ _) rfl⟩
    rw [State.put_ctx, hc]
    exact Device.ctx_ctxAdded (x := s.dev.fetchedCtx q (Desc.ofBytes bytes) c) (Device.ctx_freeCtx hc)
  · obtain ⟨c, hc⟩ := Device.freeCtx_of_mayFetch hmay
    refine ⟨_, Device.descOpened_eq hc _, hexec ((sluiceFetchEff_opens hq hmay hc).trans (if_pos ?_))⟩
    rw [Bool.or_eq_true, decide_eq_true_eq]
    exact hrefused
  · refine State.act_id hs.1 (f := sluiceFetchEff (q % 256) bytes) ?_
    rw [hmod]
    exact if_pos (by rw [hmay]; rfl)

end Sys2Proof.Machine

/-! ## Packets received (R318, R323, R329) -/

namespace Sys2Proof.Machine

/-- A device with a packet off the list of those that have arrived. -/
def Device.arrivedTaken (d : Device) (at_ link : Nat) (p : Packet) : Device :=
  { d.at_ at_ with fab.arrived := (d.at_ at_).fab.arrived.erase (link, p) }

section
variable {d : Device} {p : Packet} {at_ link parity : Nat} {sj : Bool}

theorem packetReceivedEff_transit (h : p.dest ≠ d.node) :
    packetReceivedEff at_ link p sj parity d = (d.arrivedTaken at_ link p).transit p := if_pos h

section
variable (hdest : p.dest = d.node)
include hdest

theorem packetReceivedEff_malformed (h : malformed p = true) :
    packetReceivedEff at_ link p sj parity d = (d.arrivedTaken at_ link p).dropPacket F.FAB_RX_DROPS.MALFORMED F.FAB_EVENTS.MALFORMED :=
  (if_neg (not_not_intro hdest)).trans (if_pos h)

variable (hform : malformed p = false)
include hform

theorem packetReceivedEff_stale (htc : p.tc ≠ 0) (hbank : d.bankFor p.epoch = none) :
    packetReceivedEff at_ link p sj parity d = ((d.arrivedTaken at_ link p).count F.FAB_ROUTE_STATS.STALE_SENT).notice 0x41 p :=
  (if_neg (not_not_intro hdest)).trans ((if_neg (ne_true_of_eq_false hform)).trans
    (if_pos ⟨htc, Option.isNone_iff_eq_none.mpr hbank⟩))

/-- What a device makes of a packet of one of its epochs: a sealed one is opened, and one whose own bytes fail their check is dropped. -/
def Device.opens (d : Device) (p : Packet) (sj : Bool) (parity : Nat) : Device :=
  if p.enc then
    if !d.hasKey (p.op.owner % 4096) then d.dropPacket F.FAB_RX_DROPS.NO_KEY F.FAB_EVENTS.NO_KEY
    else
      match d.openPkt p with
      | none => d.dropPacket F.FAB_RX_DROPS.TAG F.FAB_EVENTS.TAG
      | some bs => if parity ≥ 5 then d.dropPacket F.FAB_RX_DROPS.TAG F.FAB_EVENTS.TAG else d.rxPacket p bs sj parity
  else if parity ≥ 5 then d.dropPacket F.FAB_RX_DROPS.TAG F.FAB_EVENTS.TAG
  else d.rxPacket p p.payload sj parity

theorem packetReceivedEff_opens (hbank : p.tc = 0 ∨ (d.bankFor p.epoch).isSome = true) :
    packetReceivedEff at_ link p sj parity d = (d.arrivedTaken at_ link p).opens p sj parity := by
  have hknown : ¬ (p.tc ≠ 0 ∧ (d.bankFor p.epoch).isNone = true) := by
    rintro ⟨htc, hnone⟩
    rw [Option.isNone_iff_eq_none.mp hnone] at hbank
    exact hbank.elim htc (by simp)
  exact (if_neg (not_not_intro hdest)).trans ((if_neg (ne_true_of_eq_false hform)).trans (if_neg hknown))

end

section
variable (henc : p.enc = true)
include henc

theorem Device.opens_noKey (h : d.hasKey (p.op.owner % 4096) = false) :
    d.opens p sj parity = d.dropPacket F.FAB_RX_DROPS.NO_KEY F.FAB_EVENTS.NO_KEY :=
  (if_pos henc).trans (if_pos (by rw [h]; rfl))

variable (hkey : d.hasKey (p.op.owner % 4096) = true)
include hkey

theorem Device.opens_sealed :
    d.opens p sj parity = match d.openPkt p with
      | none => d.dropPacket F.FAB_RX_DROPS.TAG F.FAB_EVENTS.TAG
      | some bs => if parity ≥ 5 then d.dropPacket F.FAB_RX_DROPS.TAG F.FAB_EVENTS.TAG else d.rxPacket p bs sj parity :=
  (if_pos henc).trans (if_neg (by rw [hkey]; decide))

theorem Device.opens_badTag (h : d.openPkt p = none) : d.opens p sj parity = d.dropPacket F.FAB_RX_DROPS.TAG F.FAB_EVENTS.TAG := by
  rw [Device.opens_sealed henc hkey, h]

theorem Device.opens_opened {bs : List Byte} (h : d.openPkt p = some bs) (hparity : parity < 5) :
    d.opens p sj parity = d.rxPacket p bs sj parity := by
  rw [Device.opens_sealed henc hkey, h]
  exact if_neg (Nat.not_le.mpr hparity)

end

theorem Device.opens_clear (henc : p.enc = false) (hparity : parity < 5) : d.opens p sj parity = d.rxPacket p p.payload sj parity :=
  (if_neg (ne_true_of_eq_false henc)).trans (if_neg (Nat.not_le.mpr hparity))

theorem Device.opens_failed (hparity : 5 ≤ parity) (hkey : p.enc = true → d.hasKey (p.op.owner % 4096) = true) :
    d.opens p sj parity = d.dropPacket F.FAB_RX_DROPS.TAG F.FAB_EVENTS.TAG := by
  cases henc : p.enc with
  | false => exact (if_neg (ne_true_of_eq_false henc)).trans (if_pos hparity)
  | true =>
    rw [Device.opens_sealed henc (hkey henc)]
    split
    · rfl
    · exact if_pos hparity

/-! ### A packet in clear joins its message -/

/-- The message that an answer packet is. -/
def answerMsg (p : Packet) (sj : Bool) : Msg :=
  { src := p.src, msgId := p.msgId, attempt := p.attempt, hdr := p.op, tc := p.tc, sameJob := sj }

theorem Device.rxPacket_answer (h : answerPacket p = true) (bs : List Byte) :
    d.rxPacket p bs sj parity = { d with slu.inbox := d.slu.inbox ++ [answerMsg p sj] } := by
  have hkind : p.kind ≠ 2 := by
    unfold answerPacket at h
    rw [Bool.and_eq_true, beq_iff_eq] at h
    omega
  exact (if_neg hkind).trans (if_pos h)

section
variable {c : RxCtx} (hanswer : answerPacket p = false) (hkind : p.kind = 1) (hctx : d.rxCtx p.src p.msgId = some c)
include hanswer hkind hctx

theorem Device.rxPacket_joins (bs : List Byte) : d.rxPacket p bs sj parity = d.rxTake c p bs parity := by
  rw [Device.rxPacket]
  dsimp only
  rw [if_neg (by omega), hanswer, if_neg Bool.false_ne_true, hctx]

theorem Device.rxPacket_duplicate (htotal : p.total = c.total) (htaken : c.bitmap.testBit (p.offset / 4096) = true) (bs : List Byte) :
    d.rxPacket p bs sj parity = d.count F.FAB_RX_STATS.DUPLICATES :=
  (Device.rxPacket_joins hanswer hkind hctx bs).trans ((if_neg (not_not_intro htotal)).trans (if_pos htaken))

end
end

/-- Settles O33: the packet by where it goes, its form, its epoch and its seal; in clear it joins its message's context. -/
theorem packetsAreReceived : Obligations.PacketsAreReceived := by
  intro s at_ link p sj parity hs
  have hopens {d : Device} (hdest : p.dest = s.dev.node) (hform : malformed p = false) (hbank : p.tc = 0 ∨ (s.dev.bankFor p.epoch).isSome = true)
      (h : (s.dev.arrivedTaken at_ link p).opens p sj parity = d) : exec (.packetReceived at_ link p sj parity) s = .next (s.put d) :=
    hs.act_eq ((packetReceivedEff_opens hdest hform hbank).trans h)
  refine ⟨fun hdest => hs.act_eq (packetReceivedEff_transit hdest), fun hdest => ⟨fun hform => hs.act_eq (packetReceivedEff_malformed hdest hform),
    fun hform htc hbank => hs.act_eq (packetReceivedEff_stale hdest hform htc hbank), fun hform hbank =>
      ⟨fun henc hkey => hopens hdest hform hbank (Device.opens_noKey henc hkey),
        fun henc hkey => ⟨fun htag => hopens hdest hform hbank (Device.opens_badTag henc hkey htag),
          fun bs htag hparity => hopens hdest hform hbank (Device.opens_opened henc hkey htag hparity)⟩,
        fun hparity hkey => hopens hdest hform hbank (Device.opens_failed hparity hkey), fun henc hparity => ?_⟩⟩⟩
  have hclear := Device.opens_clear (d := s.dev.arrivedTaken at_ link p) (sj := sj) henc hparity
  refine ⟨hopens hdest hform hbank hclear, fun hanswer => ?_, fun c hanswer hkind hctx htotal => ?_⟩
  · exact ⟨_, hopens hdest hform hbank (hclear.trans (Device.rxPacket_answer hanswer _)), rfl,
      s.framed_put (Device.framed_congr (s.dev.framed_refl []) rfl rfl rfl rfl) rfl⟩
  · have hjoined : (s.dev.arrivedTaken at_ link p).rxCtx p.src p.msgId = some c := hctx
    exact ⟨fun htaken => hopens hdest hform hbank (hclear.trans (Device.rxPacket_duplicate hanswer hkind hjoined htotal htaken _)),
      fun _ => hopens hdest hform hbank (hclear.trans (Device.rxPacket_joins hanswer hkind hjoined _))⟩

end Sys2Proof.Machine

/-! ## What the handoff logic leaves of the turn's state

A handoff message is followed by what waits for a boundary while the turn unit is IDLE. In a turn nothing that a message does makes the
unit IDLE: it writes no register up to TURN_STATUS, and it changes a furrow or its handoff entry only where it says so. -/

namespace Sys2Proof.Machine

/-- TURN_STATUS, the handoff entries and the furrows of a device. -/
def Device.stood (d : Device) : Word × SMap HoEntry × SMap Furrow := (d.reg .TURN_STATUS, d.ho.entries, d.fur.desc)

theorem Device.stood_ite {c : Prop} [Decidable c] {a b e : Device} (ha : a.stood = e.stood) (hb : b.stood = e.stood) :
    (if c then a else b).stood = e.stood := by
  split
  · exact ha
  · exact hb

section
variable (d : Device)

theorem Device.stood_foldl {α : Type} {f : Device → α → Device} (h : ∀ d x, (f d x).stood = d.stood) (l : List α) : (l.foldl f d).stood = d.stood :=
  List.foldl_keep Device.stood f h l d

/-- A register after TURN_STATUS in the table is written, whatever copy of it. -/
theorem Device.stood_setFld {f : Field} (x i : Nat) (h : Reg.ctorIdx .TURN_STATUS < f.reg.ctorIdx) : (d.setFld f x i).stood = d.stood := by
  refine congrArg (·, d.ho.entries, d.fur.desc) (d.reg_setReg_key f.reg .TURN_STATUS i 0 _ ?_)
  unfold regKey
  omega

theorem Device.stood_count {f : Field} (n i : Nat) (h : Reg.ctorIdx .TURN_STATUS < f.reg.ctorIdx) : (d.count f n i).stood = d.stood := by
  unfold Device.count
  exact Device.stood_ite (d.stood_setFld _ _ h) (d.stood_setFld _ _ h)

theorem Device.stood_signal (v : Nat) : (d.signal v).stood = d.stood := by
  unfold Device.signal Device.msix
  split
  · split <;> rfl
  · rfl

theorem Device.stood_eventSig {f : Field} (v : Field) (h : Reg.ctorIdx .TURN_STATUS < f.reg.ctorIdx) : (d.eventSig f v).stood = d.stood :=
  (Device.stood_signal _ _).trans (d.stood_setFld _ _ h)

theorem Device.stood_hostWrite (fn : Fn) (a : Nat) (bs : List Byte) : (d.hostWrite fn a bs).stood = d.stood := by
  unfold Device.hostWrite
  split <;> rfl

theorem Device.stood_store (a : Nat) (bs : List Byte) : (d.store a bs).stood = d.stood := by
  unfold Device.store
  split <;> rfl

theorem Device.stood_mirror (a : Nat) (bs : List Byte) : (d.mirror a bs).stood = d.stood := by
  unfold Device.mirror
  exact Device.stood_ite (d.stood_store _ _) rfl

theorem Device.stood_noKey (n : Nat) : (d.noKey n).stood = d.stood := by
  unfold Device.noKey
  exact (Device.stood_eventSig _ _ (by decide)).trans (d.stood_count _ _ (by decide))

/-! ### Error records -/

theorem Device.stood_errRing (bs : List Byte) : (d.errRing bs).stood = d.stood := by
  unfold Device.errRing
  split
  · rfl
  dsimp only
  split
  · exact d.stood_setFld _ _ (by decide)
  split
  · rfl
  · exact (Device.stood_signal _ _).trans ((Device.stood_setFld _ _ _ (by decide)).trans (d.stood_hostWrite _ _ _))

theorem Device.stood_record (r : ErrRec) (b : Bool) : (d.record r b).stood = d.stood := by
  have hstored (e : Device) : ({ e.bumpErr r with err.seq := e.err.seq + 1 } : Device).stood = e.stood := rfl
  have hval (e : Device) (a v : Nat) : (e.storeVal a 8 v).stood = e.stood := e.stood_store _ _
  unfold Device.record
  split
  · exact d.stood_setFld _ _ (by decide)
  · dsimp only
    rw [Device.stood_errRing]
    refine (Device.stood_setFld _ _ _ (by decide)).trans ((hstored _).trans ?_)
    rw [hval, hval, Device.stood_store]

/-! ### Memory, pools and drives -/

theorem Device.stood_claimUnits (n u : Nat) : (d.claimUnits u n).stood = d.stood := by
  induction n generalizing d u with
  | zero => rfl
  | succ n ih =>
    unfold Device.claimUnits
    refine (ih _ _).trans (Device.stood_ite rfl ?_)
    exact d.stood_store _ _

theorem Device.stood_writeMem (a : Nat) (bs : List Byte) : (d.writeMem a bs).stood = d.stood := by
  unfold Device.writeMem
  exact Device.stood_ite rfl (Device.stood_ite (d.stood_store _ _) ((Device.stood_store _ _ _).trans (d.stood_claimUnits _ _)))

theorem Device.stood_noteWait (a n : Nat) : (d.noteWait a n).stood = d.stood := by
  unfold Device.noteWait
  exact Device.stood_foldl d (fun d k => d.stood_count _ _ (by decide)) _

theorem Device.stood_postWrite (a : Nat) (bs : List Byte) (owner : Nat) (use : AccUse) : (d.postWrite a bs owner use).stood = d.stood := by
  have hwaits (e : Device) (k : Nat) (c : PimChan) : ((e.setChan k c).noteWait a bs.length).stood = e.stood := Device.stood_noteWait _ _ _
  unfold Device.postWrite
  split
  · exact d.stood_writeMem _ _
  · exact hwaits _ _ _

theorem Device.stood_postRead (a n owner : Nat) (use : AccUse) : (d.postRead a n owner use).stood = d.stood := by
  have hwaits (e : Device) (k : Nat) (c : PimChan) : ((e.setChan k c).noteWait a n).stood = e.stood := Device.stood_noteWait _ _ _
  unfold Device.postRead
  split
  · rfl
  · exact Device.stood_ite rfl (hwaits _ _ _)

theorem Device.stood_formatFrame (f : Nat) : (d.formatFrame f).stood = d.stood := by
  unfold Device.formatFrame
  exact Device.stood_ite (d.stood_postWrite _ _ _ _) rfl

theorem Device.stood_setFlashOwner (f e : Nat) : (d.setFlashOwner f e).stood = d.stood := Device.stood_mirror _ _ _

theorem Device.stood_submit (c : NvmeCmd) (opcode nsid : Nat) : (d.submit c opcode nsid).stood = d.stood := by
  have hemit (e : Device) (o : Out) : (e.emit o).stood = e.stood := rfl
  obtain ⟨c', x, n, o, heq, -⟩ := d.submit_eq c opcode nsid
  rw [heq, hemit]
  exact Device.stood_setFld _ _ _ (by decide)

theorem Device.stood_submitWrite (c : NvmeCmd) (nsid : Nat) (units : List Byte × List Byte) : (d.submitWrite c nsid units).stood = d.stood := by
  have hsubmit (o : Out) : ((d.emit o).submit c 1 nsid).stood = d.stood := Device.stood_submit _ _ _ _
  have hstage (e : Device) (c : NvmeCmd) : (e.stageUnits c units.1 units.2).stood = e.stood := by
    unfold Device.stageUnits
    split
    · exact (Device.stood_store _ _ _).trans (e.stood_store _ _)
    · rfl
  unfold Device.submitWrite
  dsimp only
  split
  · exact (hstage _ _).trans (hsubmit _)
  · exact hsubmit _

theorem Device.stood_spillWrite (x : Nat) (fn : Fn) (a : Nat) (bs : List Byte) : (d.spillWrite x fn a bs).stood = d.stood :=
  (Device.stood_hostWrite _ _ _ _).trans (d.stood_hostWrite _ _ _)

theorem Device.stood_startJob {use : FlashUse} {frame units : Nat} {e : Device} (h : d.startJob use frame units = some e) : e.stood = d.stood := by
  have hsubmit (j : List FlashJob) (n : Nat) (c : NvmeCmd) (x : Nat) :
      (({ d with slu.jobs := j, slu.nextJob := n } : Device).submit c 2 x).stood = d.stood := Device.stood_submit _ _ _ _
  unfold Device.startJob at h
  obtain ⟨x, -, hx⟩ := Option.bind_eq_some_iff.mp h
  split at hx
  · cases hx
  · obtain rfl := Option.some.inj hx
    exact hsubmit _ _ _ _

theorem Device.stood_freeHw (a : Nat) : (d.freeHw a).stood = d.stood := by
  unfold Device.freeHw
  exact Device.stood_ite (Device.stood_count _ _ _ (by decide)) rfl

theorem Device.stood_freeRes (a : Nat) : (d.freeRes a).stood = d.stood := by
  unfold Device.freeRes
  exact Device.stood_ite rfl (Device.stood_ite rfl (Device.stood_count _ _ _ (by decide)))

theorem Device.stood_freeFlash (f : Nat) : (d.freeFlash f).stood = d.stood := by
  have hcleared (fs : List Nat) :
      ((({ d with mem5.leavingFlash := fs } : Device).setFlashOwner f 0).count F.FUR_POOL_STATUS.FREE 1 poolFlash).stood = d.stood :=
    (Device.stood_count _ _ _ (by decide)).trans (Device.stood_setFlashOwner _ _ _)
  unfold Device.freeFlash
  refine Device.stood_ite rfl (Device.stood_ite rfl ?_)
  dsimp only
  split
  · split
    · split
      · exact (Device.stood_store _ _ _).trans ((Device.stood_submit _ _ _ _).trans (hcleared _))
      · exact (Device.stood_submit _ _ _ _).trans (hcleared _)
    · exact hcleared _
  · exact hcleared _

theorem Device.stood_freePlace (tier frame : Nat) : (d.freePlace tier frame).stood = d.stood := by
  unfold Device.freePlace
  split
  · exact d.stood_freeHw _
  · exact d.stood_freeRes _
  · exact d.stood_freeFlash _
  · rfl

theorem Device.stood_allocFrame {pool near owner : Nat} {shared : Bool} {p : Nat × Device} (h : d.allocFrame pool near owner shared = some p) :
    p.2.stood = d.stood := by
  have hless (e : Device) : (e.countDown F.FUR_POOL_STATUS.FREE 1 pool).stood = e.stood := e.stood_setFld _ _ (by decide)
  unfold Device.allocFrame at h
  split at h
  · obtain ⟨f, -, rfl⟩ := Option.map_eq_some_iff.mp h
    exact hless _
  · obtain ⟨f, -, rfl⟩ := Option.map_eq_some_iff.mp h
    exact hless _
  · obtain ⟨f, -, rfl⟩ := Option.map_eq_some_iff.mp h
    exact hless _
  · obtain ⟨f, -, rfl⟩ := Option.map_eq_some_iff.mp h
    exact (hless _).trans (Device.stood_setFlashOwner _ _ _)
  · cases h

theorem Device.stood_granuleFrame {g owner die : Nat} {e : Device} (h : d.granuleFrame g owner die = some e) : e.stood = d.stood := by
  have hplaced (b : Device) (f a : Nat) (t : SMap Nat) (bs : List Byte) : (({ b.formatFrame f with fur.dir := t } : Device).mirror a bs).stood = b.stood :=
    (Device.stood_mirror _ _ _).trans (b.stood_formatFrame f)
  unfold Device.granuleFrame at h
  split at h
  · obtain rfl := Option.some.inj h
    rfl
  · obtain ⟨p, hp, rfl⟩ := Option.map_eq_some_iff.mp h
    exact (hplaced _ _ _ _ _).trans (d.stood_allocFrame hp)

theorem Device.stood_beginLoad (i g tier frame span : Nat) (coded : Bool) (op : Nat) : (d.beginLoad i g tier frame span coded op).stood = d.stood := by
  have hjob (e : Device) (use : FlashUse) (units : Nat) : ((e.startJob use frame units).getD e).stood = e.stood := by
    cases hj : e.startJob use frame units with
    | none => rfl
    | some b => exact e.stood_startJob hj
  unfold Device.beginLoad
  exact Device.stood_ite (hjob _ _ _) (Device.stood_postRead _ _ _ _ _)

/-! ### Messages and commands of the handoff logic -/

theorem Device.stood_openCtx {e c : Nat} {desc : Desc} {iss : Issuer} {fn : Fn} {payload : List Byte} {d' : Device}
    (h : d.openCtx e desc iss fn payload = some (c, d')) : d'.stood = d.stood := by
  unfold Device.openCtx at h
  obtain ⟨k, -, hk⟩ := Option.map_eq_some_iff.mp h
  rw [← (Prod.mk.inj hk).2]
  exact Device.stood_setFld _ _ _ (by decide)

theorem Device.stood_internalSend (die : Nat) (iss : Issuer) (node owner cls : Nat) (payload : List Byte) :
    (d.internalSend die iss node owner cls payload).stood = d.stood := by
  have htaken (d : Device) (e c : Nat) : (d.ctxTaken iss e c).stood = d.stood := by
    unfold Device.ctxTaken
    split <;> rfl
  unfold Device.internalSend Device.issue
  dsimp only
  split
  · next h => exact (htaken _ _ _).trans (d.stood_openCtx h)
  · rfl

theorem Device.stood_hoRaw (i node cls owner : Nat) (data : List Byte) (op : Nat) : (d.hoRaw i node cls owner data op).stood = d.stood := by
  have hfail (e : Device) (a b c : Nat) : (e.hoFail i a b c op).stood = e.stood := rfl
  unfold Device.hoRaw
  refine Device.stood_ite (Device.stood_ite ((hfail _ _ _ _).trans (d.stood_noKey 1)) rfl) ?_
  exact d.stood_internalSend _ _ _ _ _ _

theorem Device.stood_hoSend (i node cls owner : Nat) (data : List Byte) (op : Nat) : (d.hoSend i node cls owner data op).stood = d.stood := by
  have hpeer (e : Device) (p : HoPeer) : (e.setPeer node p).stood = e.stood := rfl
  have hfail (e : Device) (a b c : Nat) : (e.hoFail i a b c op).stood = e.stood := rfl
  unfold Device.hoSend
  refine Device.stood_ite (d.stood_hoRaw _ _ _ _ _ _) (Device.stood_ite ?_ (Device.stood_ite (hpeer _ _) ?_))
  · exact (Device.stood_eventSig _ _ (by decide)).trans (hfail _ _ _ _)
  · exact (Device.stood_hoRaw _ _ _ _ _ _ _).trans (hpeer _ _)

theorem Device.stood_hoCtl (i node ty gen donor rcpt kind reason length : Nat) (body : List Byte) (xfer op : Nat) :
    (d.hoCtl i node ty gen donor rcpt kind reason length body xfer op).stood = d.stood := d.stood_hoSend _ _ _ _ _ _

theorem Device.stood_hoRefuse (i node gen reason : Nat) : (d.hoRefuse i node gen reason).stood = d.stood := d.stood_hoCtl _ _ _ _ _ _ _ _ _ _ _ _

theorem Device.stood_hoStale : d.hoStale.stood = d.stood := d.stood_count _ _ (by decide)

theorem Device.stood_hoEvent {f : Field} (h : Reg.ctorIdx .TURN_STATUS < f.reg.ctorIdx) : (d.hoEvent f).stood = d.stood := d.stood_eventSig _ h

theorem Device.stood_hoEnd (c : HoCmd) (result reason gen owner : Nat) : (d.hoEnd c result reason gen owner).stood = d.stood := by
  unfold Device.hoEnd
  refine (Device.stood_signal _ _).trans ((Device.stood_hostWrite _ _ _ _).trans ?_)
  exact Device.stood_ite ((Device.stood_hostWrite _ _ _ _).trans (d.stood_hostWrite _ _ _)) (d.stood_hostWrite _ _ _)

theorem Device.stood_hoResult (cmd : Option HoCmd) (auto : Bool) (result reason gen : Nat) :
    (d.hoResult cmd auto result reason gen).stood = d.stood := by
  have hended : (match cmd with
      | some c => d.hoEnd c result reason gen
      | none => d).stood = d.stood := by
    cases cmd with
    | none => rfl
    | some c => exact d.stood_hoEnd _ _ _ _ _
  have hshown (e : Device) : (e.hoEvent (if result = 1 then F.FUR_HO_EVENTS.PARKED else F.FUR_HO_EVENTS.REFUSED)).stood = e.stood := by
    split
    · exact e.stood_hoEvent (by decide)
    · exact e.stood_hoEvent (by decide)
  unfold Device.hoResult
  exact Device.stood_ite ((hshown _).trans hended) (Device.stood_ite ((Device.stood_hoEvent _ (by decide)).trans hended) hended)

theorem Device.stood_freeTaken (pages : List (Nat × Pte)) : (d.freeTaken pages).stood = d.stood :=
  Device.stood_foldl d (fun d _ => d.stood_freePlace _ _) _

end

end Sys2Proof.Machine

/-! ## The home's record of a request (R287, R294, R295) -/

namespace Sys2Proof.Machine

/-! ### A handoff message in a turn (R283 to R285) -/

theorem Device.fld_of_stood {d e : Device} (h : e.stood = d.stood) : e.fld F.TURN_STATUS.STATE = d.fld F.TURN_STATUS.STATE :=
  congrArg F.TURN_STATUS.STATE.get (congrArg Prod.fst h)

theorem Device.hoSettled.took {d : Device} (h : d.hoSettled) (m : Msg) : (d.took m).hoSettled := h

section
variable {s : State} {m : Msg} {ty k : Nat} (h : s.hears m ty k)
include h

/-- A message that the device hears has its effect on the furrow that it names, and nothing follows it in the turn. -/
theorem State.hears.recv {f : Option Nat → Device → Device} {d : Device} (hf : f (some k) (s.dev.took m) = d)
    (hd : d.fld F.TURN_STATUS.STATE = s.dev.fld F.TURN_STATUS.STATE) : s.dev.hoRecv m ty f = d := by
  obtain ⟨-, hset, hshadow, hturn, hty, hversion, hk⟩ := h
  have hk' : (s.dev.took m).furById (m.num 8 4) = some k := hk
  have hplain : ¬ (m.num 14 1 ≠ ty ∨ (s.dev.took m).isShadow = true ∧ movesHandoff ty = true) := by
    rintro (hne | ⟨hsh, -⟩)
    · exact hne hty
    · exact Bool.false_ne_true (hshadow.symm.trans hsh)
  have hrecv : s.dev.hoRecv m ty f =
      let e := (s.dev.took m).settleHandoffs
      if m.num 14 1 ≠ ty ∨ e.isShadow = true ∧ movesHandoff ty = true then e
      else if m.num 15 1 ≠ 0x10 ∧ ¬(ty = 0x36 ∧ m.num 21 1 = 8) then e.refuseId m 8
      else if (f (e.furById (m.num 8 4)) e).fld F.TURN_STATUS.STATE = 0 then (f (e.furById (m.num 8 4)) e).hoBoundary
      else f (e.furById (m.num 8 4)) e := rfl
  rw [hrecv, (hset.took m).settleHandoffs]
  dsimp only
  rw [if_neg hplain, if_neg (fun hbad => hbad.1 hversion), hk', hf, if_neg (by rw [hd]; exact hturn)]

/-- So its command ends there. -/
theorem State.hears.act_eq {g : Device → Device} {d : Device} (hg : g s.dev = d) : s.act g = .next (s.put d) := by
  have hs : s.awake := h.1
  exact hs.act_eq hg

end

/-! ### Handoff entries (R281) -/

section
variable (d : Device) (k : Nat)

theorem Device.hoEntry_of_stood {d e : Device} (h : e.stood = d.stood) (k : Nat) : e.hoEntry k = d.hoEntry k := by
  have hentries : e.ho.entries = d.ho.entries := congrArg (fun p => p.2.1) h
  rw [Device.hoEntry, hentries, Device.hoEntry]

theorem Device.furrow_of_stood {d e : Device} (h : e.stood = d.stood) (k : Nat) : e.furrow k = d.furrow k := by
  have hfurrows : e.fur.desc = d.fur.desc := congrArg (fun p => p.2.2) h
  rw [Device.furrow, hfurrows, Device.furrow]

theorem Device.stood_setHoEntry (e : HoEntry) : (d.setHoEntry k e).stood = (d.reg .TURN_STATUS, sput {} d.ho.entries k e, d.fur.desc) :=
  Device.stood_mirror _ _ _

theorem Device.stood_setFurrow (f : Furrow) : (d.setFurrow k f).stood = (d.reg .TURN_STATUS, d.ho.entries, sput {} d.fur.desc k f) :=
  Device.stood_mirror _ _ _

/-- An entry that has been replaced. -/
theorem Device.hoEntry_setHoEntry_same (e : HoEntry) : (d.setHoEntry k e).hoEntry k = e := by
  have hentries : (d.setHoEntry k e).ho.entries = sput {} d.ho.entries k e := congrArg (fun p => p.2.1) (d.stood_setHoEntry k e)
  rw [Device.hoEntry, hentries]
  exact sget_sput_same _ _ _

theorem Device.state_setHoEntry (e : HoEntry) : (d.setHoEntry k e).fld F.TURN_STATUS.STATE = d.fld F.TURN_STATUS.STATE :=
  congrArg F.TURN_STATUS.STATE.get (congrArg Prod.fst (d.stood_setHoEntry k e))

theorem Device.hoEntry_setFurrow (f : Furrow) (j : Nat) : (d.setFurrow k f).hoEntry j = d.hoEntry j := by
  have hentries : (d.setFurrow k f).ho.entries = d.ho.entries := congrArg (fun p => p.2.1) (d.stood_setFurrow k f)
  rw [Device.hoEntry, hentries, Device.hoEntry]

/-- A furrow that has been replaced. -/
theorem Device.furrow_setFurrow_same (f : Furrow) : (d.setFurrow k f).furrow k = f := by
  have hfurrows : (d.setFurrow k f).fur.desc = sput {} d.fur.desc k f := congrArg (fun p => p.2.2) (d.stood_setFurrow k f)
  rw [Device.furrow, hfurrows]
  exact sget_sput_same _ _ _

/-! ### OFFER, ACCEPT and WITHDRAW at the home -/

section
variable {d : Device} {k src gen rcpt kind length donor : Nat}

theorem Device.homeOffer_next (hsrc : src = (d.hoEntry k).owner) (hgen : gen = (d.hoEntry k).gen + 1) (hlisted : (d.hoEntry k).homeState ≠ 0) :
    d.homeOffer k src gen rcpt kind length =
      if (d.hoEntry k).homeState = 1 ∨ (d.hoEntry k).homeState = 2 ∧ rcpt ≠ (d.hoEntry k).pending then
        d.setHoEntry k { d.hoEntry k with homeState := 2, pending := rcpt, since := d.turnNo, offerLength := length, kind := kind }
      else d := by
  unfold Device.homeOffer
  dsimp only
  rw [if_neg (by omega), if_neg hlisted, if_neg (not_not_intro hsrc)]
  simp only [hgen, true_and]

theorem Device.homeAccept_next (hgen : gen = (d.hoEntry k).gen + 1)
    (h : (d.hoEntry k).homeState = 1 ∧ donor = (d.hoEntry k).owner ∨ (d.hoEntry k).homeState = 2 ∧ src = (d.hoEntry k).pending) :
    d.homeAccept k src gen donor kind =
      d.setHoEntry k { d.hoEntry k with homeState := 3, pending := src, since := d.turnNo, kind := kind } :=
  (if_neg (not_not_intro hgen)).trans ((if_neg (by omega)).trans (if_pos h))

theorem Device.homeWithdraw_next (hgen : gen = (d.hoEntry k).gen + 1) (hstate : (d.hoEntry k).homeState = 2) (hsrc : src = (d.hoEntry k).owner) :
    d.homeWithdraw k src gen = d.setHoEntry k { d.hoEntry k with homeState := 1, pending := 0, kind := 0, since := d.turnNo } :=
  (if_neg (not_not_intro hgen)).trans (if_pos ⟨hstate, hsrc⟩)

end

/-- None of the three changes the record's generation. -/
theorem Device.gen_homeOffer (src gen rcpt kind length : Nat) : ((d.homeOffer k src gen rcpt kind length).hoEntry k).gen = (d.hoEntry k).gen := by
  unfold Device.homeOffer
  dsimp only
  split
  · rw [Device.hoEntry_of_stood d.stood_hoStale]
  split
  · rfl
  split
  · split
    · rfl
    · rw [Device.hoEntry_of_stood (d.stood_hoRefuse _ _ _ _)]
  split
  · rw [Device.hoEntry_setHoEntry_same]
  · rfl

theorem Device.gen_homeAccept (src gen donor kind : Nat) : ((d.homeAccept k src gen donor kind).hoEntry k).gen = (d.hoEntry k).gen := by
  unfold Device.homeAccept
  dsimp only
  split
  · rw [Device.hoEntry_of_stood d.stood_hoStale]
  split
  · rfl
  split
  · rw [Device.hoEntry_setHoEntry_same]
  split
  · rfl
  · rw [Device.hoEntry_of_stood (d.stood_hoRefuse _ _ _ _)]

theorem Device.gen_homeWithdraw (src gen : Nat) : ((d.homeWithdraw k src gen).hoEntry k).gen = (d.hoEntry k).gen := by
  unfold Device.homeWithdraw
  dsimp only
  split
  · rw [Device.hoEntry_of_stood d.stood_hoStale]
  split
  · rw [Device.hoEntry_setHoEntry_same]
  · rfl

/-! ### The commit of an ACCEPTED record (R295) -/

/-- The entry that a commit leaves. -/
def Device.committed (d : Device) (k : Nat) : HoEntry :=
  { d.hoEntry k with homeState := 1, owner := (d.hoEntry k).pending, gen := (d.hoEntry k).gen + 1, pending := 0, kind := 0, since := d.turnNo }

/-- What a commit does to the record and to the home's own furrow. -/
def Device.commitPlaced (d : Device) (k : Nat) : Device :=
  let e := d.hoEntry k
  let e2 := d.committed k
  match (d.hoLoc k).rx with
  | some r =>
    if decide (e.pending = d.node) && r.done && !r.push then
      let d := if r.src = d.node then d else d.applyPages k r
      let d := d.setHoEntry k (if e.kind == 2 then { e2 with held := r.length, heldTurn := r.turn, image := r.image } else e2)
      d.setFurrow k { d.furrow k with state := 1, length := r.length, pushed := if e.kind = 4 then r.pushed else r.length }
    else d.setHoEntry k e2
  | none => d.setHoEntry k e2

theorem Device.hoEntry_commitPlaced : (d.commitPlaced k).hoEntry k = d.committed k ∨
    ∃ r : HoRx, (d.commitPlaced k).hoEntry k = { d.committed k with held := r.length, heldTurn := r.turn, image := r.image } := by
  have hset (e : Device) (x : HoEntry) (f : Furrow) : ((e.setHoEntry k x).setFurrow k f).hoEntry k = x :=
    (Device.hoEntry_setFurrow _ _ _ _).trans (e.hoEntry_setHoEntry_same k x)
  unfold Device.commitPlaced
  dsimp only
  split
  · next r _ =>
    split
    · rw [hset]
      split
      · exact .inr ⟨r, rfl⟩
      · exact .inl rfl
    · exact .inl (d.hoEntry_setHoEntry_same k _)
  · exact .inl (d.hoEntry_setHoEntry_same k _)

/-- What follows the change of the record leaves it. -/
theorem Device.hoEntry_commitAccepted (h : (d.hoEntry k).homeState = 3) : (d.commitAccepted k).hoEntry k = (d.commitPlaced k).hoEntry k := by
  have hloc (e : Device) (l : HoLocal) : (e.setHoLoc k l).stood = e.stood := rfl
  have hcount (e : Device) : (e.count F.FUR_HO_STATS.COMMITS).stood = e.stood := e.stood_count _ _ (by decide)
  have hcommits : d.commitAccepted k =
      let e := d.hoEntry k
      let g := e.gen + 1
      let mine := decide (e.pending = d.node)
      let b := (d.commitPlaced k).count F.FUR_HO_STATS.COMMITS
      let b := if e.owner = b.node ∧ mine = false then b.setFurrow k { b.furrow k with state := 2 } else b
      let b := if mine then b.grantDue k g else b.hoCtl k e.pending 0x34 g e.owner e.pending e.kind 0 0
      if e.owner = b.node then b.releaseDue k g else b.hoCtl k e.owner 0x35 g e.owner e.pending e.kind 0 0 := if_neg (not_not_intro h)
  have hfur (c : Prop) [Decidable c] (e : Device) (f : Furrow) : (if c then e.setFurrow k f else e).hoEntry k = e.hoEntry k := by
    split
    · exact e.hoEntry_setFurrow k f k
    · rfl
  have hgrant (c : Prop) [Decidable c] (e : Device) (a g x y z : Nat) :
      (if c then e.grantDue k g else e.hoCtl k a 0x34 g x y z 0 0).stood = e.stood :=
    Device.stood_ite (hloc _ _) (e.stood_hoCtl _ _ _ _ _ _ _ _ _ _ _ _)
  have hrelease (c : Prop) [Decidable c] (e : Device) (a g x y z : Nat) :
      (if c then e.releaseDue k g else e.hoCtl k a 0x35 g x y z 0 0).stood = e.stood :=
    Device.stood_ite (hloc _ _) (e.stood_hoCtl _ _ _ _ _ _ _ _ _ _ _ _)
  rw [hcommits]
  dsimp only
  rw [Device.hoEntry_of_stood (hrelease _ _ _ _ _ _ _), Device.hoEntry_of_stood (hgrant _ _ _ _ _ _ _), hfur, Device.hoEntry_of_stood (hcount _)]

theorem Device.commitAccepted_commits (h : (d.hoEntry k).homeState = 3) : ((d.commitAccepted k).hoEntry k).gen = (d.hoEntry k).gen + 1 ∧
    ((d.commitAccepted k).hoEntry k).owner = (d.hoEntry k).pending ∧ ((d.commitAccepted k).hoEntry k).homeState = 1 := by
  rw [d.hoEntry_commitAccepted k h]
  obtain heq | ⟨r, heq⟩ := d.hoEntry_commitPlaced k
  · rw [heq]
    exact ⟨rfl, rfl, rfl⟩
  · rw [heq]
    exact ⟨rfl, rfl, rfl⟩

/-! ### A record given back to its home (R294) -/

/-- The parts of a home's record that a party's own state does not change: HOME_STATE, OWNER and GENERATION. -/
def HoEntry.record (e : HoEntry) : Nat × Nat × Nat := (e.homeState, e.owner, e.gen)

theorem Device.record_of_stood {d e : Device} (h : e.stood = d.stood) (k : Nat) : (e.hoEntry k).record = (d.hoEntry k).record := by
  rw [Device.hoEntry_of_stood h]

theorem Device.record_localTo (state kind pending : Nat) : ((d.localTo k state kind pending).hoEntry k).record = (d.hoEntry k).record := by
  unfold Device.localTo Device.modHo
  rw [Device.hoEntry_setHoEntry_same]
  dsimp only
  split
  · rfl
  · rfl

theorem Device.record_txEnd (result reason : Nat) : ((d.txEnd k result reason false).hoEntry k).record = (d.hoEntry k).record := by
  have hloc (e : Device) (f : HoLocal → HoLocal) : (e.modHoLoc k f).stood = e.stood := rfl
  unfold Device.txEnd
  split
  · rfl
  · exact (Device.record_of_stood (Device.stood_hoResult _ _ _ _ _ _) k).trans ((Device.record_localTo _ _ _ _ _).trans
      (Device.record_of_stood (hloc d _) k))

theorem Device.record_rxDrop (result reason : Nat) : ((d.rxDrop k result reason).hoEntry k).record = (d.hoEntry k).record := by
  have hleft (pages : List (Nat × Pte)) (l : HoLocal) (c : Prop) [Decidable c] :
      ((if c then (d.freeTaken pages).setHoLoc k l else ((d.freeTaken pages).setHoLoc k l).localTo k 0 0 0).hoEntry k).record =
        (d.hoEntry k).record := by
    have hfreed : ((d.freeTaken pages).setHoLoc k l).stood = d.stood := d.stood_freeTaken pages
    split
    · exact Device.record_of_stood hfreed k
    · exact (Device.record_localTo _ _ _ _ _).trans (Device.record_of_stood hfreed k)
  unfold Device.rxDrop
  split
  · rfl
  dsimp only
  split
  · exact (Device.record_of_stood (Device.stood_hoEnd _ _ _ _ _ _) k).trans (hleft _ _ _)
  · exact hleft _ _ _

/-- The device once the home has taken a record back, and both parties have been told. -/
def Device.reclaimed (d : Device) (k : Nat) : Device :=
  let e := d.hoEntry k
  let b := d.setHoEntry k { e with homeState := 1, owner := d.node, gen := e.gen + 2, pending := 0, kind := 0, since := d.turnNo }
  let b := if e.owner = b.node then b.txEnd k 7 0 false else b.hoCtl k e.owner 0x35 (e.gen + 2) e.owner b.node e.kind 0 0
  if e.pending = b.node then b.rxDrop k 7 7 else b.hoRefuse k e.pending (e.gen + 1) 7

theorem Device.record_reclaimed : ((d.reclaimed k).hoEntry k).record = (1, d.node, (d.hoEntry k).gen + 2) := by
  have htold (c : Prop) [Decidable c] (b : Device) (a g x y z : Nat) :
      ((if c then b.txEnd k 7 0 false else b.hoCtl k a 0x35 g x y z 0 0).hoEntry k).record = (b.hoEntry k).record := by
    split
    · exact b.record_txEnd k _ _
    · exact Device.record_of_stood (b.stood_hoCtl _ _ _ _ _ _ _ _ _ _ _ _) k
  have hrefused (c : Prop) [Decidable c] (b : Device) (a g : Nat) :
      ((if c then b.rxDrop k 7 7 else b.hoRefuse k a g 7).hoEntry k).record = (b.hoEntry k).record := by
    split
    · exact b.record_rxDrop k _ _
    · exact Device.record_of_stood (b.stood_hoRefuse _ _ _ _) k
  unfold Device.reclaimed
  dsimp only
  rw [hrefused, htold, Device.hoEntry_setHoEntry_same]
  rfl

end

section
variable {d : Device} {k furrow : Nat} (hk : d.furById furrow = some k) (hhome : d.isHome k = true) (hstate : (d.hoEntry k).homeState = 2)
  (hcommit : d.turn.lastCommit = d.turnNo) (hrun : d.running = true)
  (hdue : (d.hoEntry k).since + d.fld F.FUR_HO_TIMING.TIMEOUT_TURNS ≤ d.turnNo)
include hk hhome hstate hcommit hrun hdue

/-- A timeout that is due records the loss, and counts it, once the record and the home's own furrow have changed. -/
theorem handoffTimeoutEff_reclaims : ∃ r : ErrRec, handoffTimeoutEff furrow d =
    (((((d.reclaimed k).setFurrow k { d.furrow k with state := 1, length := (d.hoEntry k).held }).record r).hoEvent
      F.FUR_HO_EVENTS.RECLAIMED).count F.FUR_HO_STATS.RECLAIMS).count F.FUR_HO_STATS.COMMITS := by
  have hnot : ¬ (d.isHome k = false ∨ (d.hoEntry k).homeState ≠ 2 ∨ d.turn.lastCommit ≠ d.turnNo ∨ d.running = false ∨
      d.turnNo < (d.hoEntry k).since + d.fld F.FUR_HO_TIMING.TIMEOUT_TURNS) := by
    rintro (hbad | hbad | hbad | hbad | hbad)
    · exact Bool.false_ne_true (hbad.symm.trans hhome)
    · exact hbad hstate
    · exact hbad hcommit
    · exact Bool.false_ne_true (hbad.symm.trans hrun)
    · omega
  refine ⟨{ cause := 0x0C, severity := 1, unitKind := 10, owner := (d.furrow k).owner, furrow := (d.furrow k).id,
            detail := [(4, (d.hoEntry k).held), (4, (d.hoEntry k).offerLength)] }, ?_⟩
  rw [handoffTimeoutEff, hk]
  exact if_neg hnot

theorem handoffTimeoutEff_returns :
    ((handoffTimeoutEff furrow d).hoEntry k).record = (1, d.node, (d.hoEntry k).gen + 2) ∧
      (handoffTimeoutEff furrow d).furrow k = { d.furrow k with state := 1, length := (d.hoEntry k).held } := by
  obtain ⟨r, heq⟩ := handoffTimeoutEff_reclaims hk hhome hstate hcommit hrun hdue
  have hshown (b : Device) (r : ErrRec) :
      ((((b.record r).hoEvent F.FUR_HO_EVENTS.RECLAIMED).count F.FUR_HO_STATS.RECLAIMS).count F.FUR_HO_STATS.COMMITS).stood = b.stood :=
    (Device.stood_count _ _ _ (by decide)).trans ((Device.stood_count _ _ _ (by decide)).trans
      ((Device.stood_hoEvent _ (by decide)).trans (b.stood_record _ _)))
  rw [heq, Device.record_of_stood (hshown _ _), Device.furrow_of_stood (hshown _ _), Device.hoEntry_setFurrow, Device.furrow_setFurrow_same]
  exact ⟨d.record_reclaimed k, rfl⟩

end

theorem State.put_hoEntry (s : State) (d : Device) (k : Nat) : (s.put d).dev.hoEntry k = d.hoEntry k := rfl

theorem State.put_furrow (s : State) (d : Device) (k : Nat) : (s.put d).dev.furrow k = d.furrow k := rfl

section
variable {s : State} {m : Msg} {k : Nat} (hhome : s.dev.isHome k = true)
include hhome

/-- An OFFER that is not for the home itself is a matter of its record alone. -/
theorem State.hears.offer_home (h : s.hears m 0x31 k) (hother : ¬ (192 ≤ m.data.length ∧ m.num 18 2 = s.dev.node)) {d : Device}
    (hd : (s.dev.took m).homeOffer k m.src (m.num 0 8) (m.num 18 2) (m.num 20 1) (m.num 32 8) = d)
    (hstate : d.fld F.TURN_STATUS.STATE = s.dev.fld F.TURN_STATUS.STATE) : exec (.offer m) s = .next (s.put d) := by
  have hmine : ¬ (decide (192 ≤ m.data.length) && m.num 18 2 == (s.dev.took m).node) = true := by
    rw [Bool.and_eq_true, decide_eq_true_eq, beq_iff_eq]
    exact hother
  have hhome' : (s.dev.took m).isHome k = true := hhome
  refine h.act_eq (g := offerEff m) ?_
  unfold offerEff
  exact h.recv ((if_neg hmine).trans ((if_pos hhome').trans hd)) hstate

end

theorem Device.hoEntry_took (d : Device) (m : Msg) (k : Nat) : (d.took m).hoEntry k = d.hoEntry k := rfl

theorem Device.turnNo_took (d : Device) (m : Msg) : (d.took m).turnNo = d.turnNo := rfl

theorem Device.state_took (d : Device) (m : Msg) : (d.took m).fld F.TURN_STATUS.STATE = d.fld F.TURN_STATUS.STATE := rfl

/-- Settles O40: a message by the record's state and its sender, the timeout by the state it leaves, and the commit by the entry it writes. -/
theorem homeRecordsFollowTable12_5 : Obligations.HomeRecordsFollowTable12_5 := by
  refine ⟨fun s m k hhome => ⟨fun h hother hsrc hgen => ?offer, fun h hparty hgen => ?accept, fun h hstate hsrc hgen => ?withdraw, fun h => ?ownerQ⟩,
    fun s furrow k hs hk hhome hstate hcommit hrun hdue => ?timeout, fun d k a b c x y => ⟨d.gen_homeOffer k a b c x y, d.gen_homeAccept k a b c x,
      d.gen_homeWithdraw k a b⟩, fun d k => d.commitAccepted_commits k⟩
  case offer =>
    rw [← s.dev.hoEntry_took m k] at hsrc hgen
    rw [← s.dev.hoEntry_took m k, ← s.dev.turnNo_took m]
    constructor
    · intro hfree
      have hlisted : ((s.dev.took m).hoEntry k).homeState ≠ 0 := by omega
      exact h.offer_home hhome hother ((Device.homeOffer_next hsrc hgen hlisted).trans (if_pos hfree))
        ((Device.state_setHoEntry _ _ _).trans (s.dev.state_took m))
    · intro hpending hsame
      have hlisted : ((s.dev.took m).hoEntry k).homeState ≠ 0 := by omega
      refine h.offer_home hhome hother ((Device.homeOffer_next hsrc hgen hlisted).trans (if_neg ?_)) (s.dev.state_took m)
      rintro (hone | ⟨-, hne⟩)
      · omega
      · exact hne hsame
  case accept =>
    rw [← s.dev.hoEntry_took m k] at hparty hgen
    rw [← s.dev.hoEntry_took m k, ← s.dev.turnNo_took m]
    have hhome' : (s.dev.took m).isHome k = true := hhome
    refine h.act_eq (g := acceptEff m) ?_
    unfold acceptEff
    exact h.recv ((if_pos hhome').trans (Device.homeAccept_next hgen hparty))
      ((Device.state_setHoEntry _ _ _).trans (s.dev.state_took m))
  case withdraw =>
    rw [← s.dev.hoEntry_took m k] at hstate hsrc hgen
    rw [← s.dev.hoEntry_took m k, ← s.dev.turnNo_took m]
    have hhome' : (s.dev.took m).isHome k = true := hhome
    refine h.act_eq (g := withdrawEff m) ?_
    unfold withdrawEff
    exact h.recv ((if_pos hhome').trans (Device.homeWithdraw_next hgen hstate hsrc))
      ((Device.state_setHoEntry _ _ _).trans (s.dev.state_took m))
  case ownerQ =>
    rw [← s.dev.hoEntry_took m k]
    have hhome' : (s.dev.took m).isHome k = true := hhome
    refine h.act_eq (g := ownerQEff m) ?_
    unfold ownerQEff
    exact h.recv (if_pos hhome')
      ((Device.fld_of_stood (Device.stood_hoCtl _ _ _ _ _ _ _ _ _ _ _ _ _)).trans (s.dev.state_took m))
  case timeout =>
    obtain ⟨hrecord, hfurrow⟩ := handoffTimeoutEff_returns hk hhome hstate hcommit hrun hdue
    obtain ⟨hone, hpair⟩ := Prod.mk.inj hrecord
    obtain ⟨howner, hgen⟩ := Prod.mk.inj hpair
    refine ⟨_, hs.act_eq (f := handoffTimeoutEff furrow) rfl, ?_⟩
    rw [State.put_hoEntry, State.put_furrow, hfurrow]
    exact ⟨hone, howner, hgen, rfl, rfl⟩

end Sys2Proof.Machine

/-! ## What the parties of a handoff leave of the turn's state

A party's own steps change its entry, its transfer and the slot that names its furrow, so of `Device.stood` they keep the register alone. -/

namespace Sys2Proof.Machine

/-- TURN_STATUS of a device. -/
def Device.turnReg (d : Device) : Word := d.reg .TURN_STATUS

theorem Device.turnReg_of_stood {d e : Device} (h : e.stood = d.stood) : e.turnReg = d.turnReg := congrArg Prod.fst h

theorem Device.state_of_turnReg {d e : Device} (h : e.turnReg = d.turnReg) : e.fld F.TURN_STATUS.STATE = d.fld F.TURN_STATUS.STATE :=
  congrArg F.TURN_STATUS.STATE.get h

theorem Device.turnReg_ite {c : Prop} [Decidable c] {a b e : Device} (ha : a.turnReg = e.turnReg) (hb : b.turnReg = e.turnReg) :
    (if c then a else b).turnReg = e.turnReg := by
  split
  · exact ha
  · exact hb

section
variable (d : Device) (k : Nat)

/-! ### Entries, slots and the home's record -/

theorem Device.turnReg_setHoEntry (e : HoEntry) : (d.setHoEntry k e).turnReg = d.turnReg := congrArg Prod.fst (d.stood_setHoEntry k e)

theorem Device.turnReg_modHo (f : HoEntry → HoEntry) : (d.modHo k f).turnReg = d.turnReg := d.turnReg_setHoEntry k _

theorem Device.turnReg_localTo (state kind pending : Nat) : (d.localTo k state kind pending).turnReg = d.turnReg := d.turnReg_modHo k _

theorem Device.turnReg_modHoLoc (f : HoLocal → HoLocal) : (d.modHoLoc k f).turnReg = d.turnReg := rfl

theorem Device.turnReg_hoCtl (node ty gen donor rcpt kind reason length : Nat) (body : List Byte) (xfer op : Nat) :
    (d.hoCtl k node ty gen donor rcpt kind reason length body xfer op).turnReg = d.turnReg :=
  Device.turnReg_of_stood (d.stood_hoCtl _ _ _ _ _ _ _ _ _ _ _ _)

theorem Device.turnReg_hoRefuse (node gen reason : Nat) : (d.hoRefuse k node gen reason).turnReg = d.turnReg :=
  Device.turnReg_of_stood (d.stood_hoRefuse _ _ _ _)

theorem Device.turnReg_hoStale : d.hoStale.turnReg = d.turnReg := Device.turnReg_of_stood d.stood_hoStale

theorem Device.turnReg_hoEnd (c : HoCmd) (result reason gen owner : Nat) : (d.hoEnd c result reason gen owner).turnReg = d.turnReg :=
  Device.turnReg_of_stood (d.stood_hoEnd _ _ _ _ _)

theorem Device.turnReg_hoResult (cmd : Option HoCmd) (auto : Bool) (result reason gen : Nat) :
    (d.hoResult cmd auto result reason gen).turnReg = d.turnReg := Device.turnReg_of_stood (d.stood_hoResult _ _ _ _ _)

theorem Device.stood_countUsers (old new : Nat) : (d.countUsers old new).stood = d.stood := by
  have hless : (if old < 1024 then d.countDown F.SCR_TABLE.USERS 1 old else d).stood = d.stood :=
    Device.stood_ite (d.stood_setFld _ _ (by decide)) rfl
  unfold Device.countUsers
  exact Device.stood_ite rfl (Device.stood_ite ((Device.stood_count _ _ _ (by decide)).trans hless) hless)

theorem Device.stood_setSlot (i : Nat) (x : Slot) : (d.setSlot i x).stood = d.stood :=
  (Device.stood_mirror _ _ _).trans (d.stood_countUsers _ _)

theorem Device.turnReg_homeOffer (src gen rcpt kind length : Nat) : (d.homeOffer k src gen rcpt kind length).turnReg = d.turnReg := by
  unfold Device.homeOffer
  refine Device.turnReg_ite d.turnReg_hoStale (Device.turnReg_ite rfl (Device.turnReg_ite ?_ (Device.turnReg_ite ?_ rfl)))
  · exact Device.turnReg_ite rfl (d.turnReg_hoRefuse _ _ _ _)
  · exact d.turnReg_setHoEntry _ _

theorem Device.turnReg_homeAccept (src gen donor kind : Nat) : (d.homeAccept k src gen donor kind).turnReg = d.turnReg := by
  unfold Device.homeAccept
  refine Device.turnReg_ite d.turnReg_hoStale (Device.turnReg_ite rfl (Device.turnReg_ite ?_ (Device.turnReg_ite rfl ?_)))
  · exact d.turnReg_setHoEntry _ _
  · exact d.turnReg_hoRefuse _ _ _ _

theorem Device.turnReg_homeWithdraw (src gen : Nat) : (d.homeWithdraw k src gen).turnReg = d.turnReg := by
  unfold Device.homeWithdraw
  exact Device.turnReg_ite d.turnReg_hoStale (Device.turnReg_ite (d.turnReg_setHoEntry _ _) rfl)

/-! ### The donor -/

theorem Device.turnReg_txEnd (result reason : Nat) (withdraw : Bool) : (d.txEnd k result reason withdraw).turnReg = d.turnReg := by
  have hidle (f : HoLocal → HoLocal) : ((d.modHoLoc k f).localTo k 0 0 0).turnReg = d.turnReg := Device.turnReg_localTo _ _ _ _ _
  have htold (t : HoTx) (e : Device) : (if !withdraw then e
      else if e.isHome k then e.homeWithdraw k e.node t.gen
      else e.hoCtl k (e.furrow k).home 0x3C t.gen e.node t.rcpt t.kind 0 0).turnReg = e.turnReg :=
    Device.turnReg_ite rfl (Device.turnReg_ite (e.turnReg_homeWithdraw _ _ _) (e.turnReg_hoCtl _ _ _ _ _ _ _ _ _ _ _ _))
  unfold Device.txEnd
  split
  · rfl
  · next t _ => exact (Device.turnReg_hoResult _ _ _ _ _ _).trans ((htold t _).trans (hidle _))

theorem Device.stood_hoData (node gen kind : Nat) (xs : List Byte) (op : Nat) : (d.hoData k node gen kind xs op).stood = d.stood := by
  unfold Device.hoData
  exact Device.stood_foldl d (fun d _ => d.stood_hoSend _ _ _ _ _ _) _

theorem Device.stood_beginSend (x : HoSend) : (d.beginSend k x).stood = d.stood := by
  unfold Device.beginSend
  generalize hread : x.pages.foldl _ (d, x) = p
  have hp : p.1.stood = d.stood := by
    rw [← hread]
    refine List.foldl_keep (fun acc : Device × HoSend => acc.1.stood) _ (fun acc g => ?_) x.pages (d, x)
    dsimp only
    split
    · rfl
    · exact acc.1.stood_beginLoad _ _ _ _ _ _ _
  exact Device.stood_ite ((Device.stood_hoData _ _ _ _ _ _ _).trans hp) hp

theorem Device.turnReg_startOffer (kind rcpt : Nat) (cmd : Option HoCmd) (auto : Bool) : (d.startOffer k kind rcpt cmd auto).turnReg = d.turnReg := by
  have hnumbered (n : Nat) : ({ d with ho.nextOp := n } : Device).turnReg = d.turnReg := rfl
  have hbegun (e : Device) (f : HoLocal → HoLocal) (g : HoEntry → HoEntry) :
      (if ((e.modHoLoc k f).localTo k 1 kind rcpt).isHome k then (e.modHoLoc k f).localTo k 1 kind rcpt
        else ((e.modHoLoc k f).localTo k 1 kind rcpt).modHo k g).turnReg = e.turnReg := by
    have hloc : ((e.modHoLoc k f).localTo k 1 kind rcpt).turnReg = e.turnReg := Device.turnReg_localTo _ _ _ _ _
    exact Device.turnReg_ite hloc ((Device.turnReg_modHo _ _ _).trans hloc)
  have hrecord (e : Device) (node gen length : Nat) (body : List Byte) (xfer op : Nat) :
      (if e.isHome k then e.homeOffer k e.node gen rcpt kind length
        else e.hoCtl k node 0x31 gen e.node rcpt kind 0 length body xfer op).turnReg = e.turnReg :=
    Device.turnReg_ite (e.turnReg_homeOffer _ _ _ _ _ _) (e.turnReg_hoCtl _ _ _ _ _ _ _ _ _ _ _ _)
  unfold Device.startOffer Device.newOp
  dsimp only
  refine Device.turnReg_ite ?refused (Device.turnReg_ite ?home ?away)
  case refused =>
    refine (Device.turnReg_hoResult _ _ _ _ _ _).trans ((Device.turnReg_localTo _ _ _ _ _).trans ((Device.turnReg_modHoLoc _ _ _).trans ?_))
    exact (hbegun _ _ _).trans (hnumbered _)
  case home =>
    refine (Device.turnReg_homeAccept _ _ _ _ _ _).trans ((Device.turnReg_homeOffer _ _ _ _ _ _ _).trans ((Device.turnReg_modHoLoc _ _ _).trans ?_))
    exact (hbegun _ _ _).trans (hnumbered _)
  case away =>
    refine (Device.turnReg_of_stood (Device.stood_beginSend _ _ _)).trans ((hrecord _ _ _ _ _ _ _).trans ?_)
    refine (Device.turnReg_hoCtl _ _ _ _ _ _ _ _ _ _ _ _ _).trans ?_
    exact (hbegun _ _ _).trans (hnumbered _)

theorem Device.turnReg_offerOrWait (kind rcpt : Nat) (cmd : Option HoCmd) (auto : Bool) : (d.offerOrWait k kind rcpt cmd auto).turnReg = d.turnReg := by
  unfold Device.offerOrWait
  exact Device.turnReg_ite rfl (d.turnReg_startOffer k _ _ _ _)

theorem Device.turnReg_pushOver (accepted : Bool) : (d.pushOver k accepted).turnReg = d.turnReg := by
  have hshown (e : Device) (g : Option Nat) (x y : Nat → Slot) : (match g with
      | some j => if accepted then e.setSlot j (x j) else e.setSlot j (y j)
      | none => e).turnReg = e.turnReg := by
    cases g with
    | none => rfl
    | some j => exact Device.turnReg_ite (Device.turnReg_of_stood (e.stood_setSlot _ _)) (Device.turnReg_of_stood (e.stood_setSlot _ _))
  have hafter (e : Device) (a : Option (Nat × Nat × Option HoCmd × Bool)) : (match a with
      | none => e
      | some (kind, rcpt, cmd, auto) =>
        if e.mayOffer k then e.startOffer k kind rcpt cmd auto
        else if kind = 3 ∧ rcpt ≠ e.node then e.hoRefuse k rcpt (e.hoEntry k).gen 6
        else e.hoResult cmd auto 4 0 (e.hoEntry k).gen).turnReg = e.turnReg := by
    cases a with
    | none => rfl
    | some p =>
      exact Device.turnReg_ite (e.turnReg_startOffer k _ _ _ _) (Device.turnReg_ite (e.turnReg_hoRefuse k _ _ _) (e.turnReg_hoResult _ _ _ _ _))
  unfold Device.pushOver
  exact (hafter _ _).trans (hshown _ _ _ _)

/-! ### The recipient -/

theorem Device.turnReg_rxDrop (result reason : Nat) : (d.rxDrop k result reason).turnReg = d.turnReg := by
  have hleft (pages : List (Nat × Pte)) (l : HoLocal) (c : Prop) [Decidable c] :
      (if c then (d.freeTaken pages).setHoLoc k l else ((d.freeTaken pages).setHoLoc k l).localTo k 0 0 0).turnReg = d.turnReg := by
    have hfreed : ((d.freeTaken pages).setHoLoc k l).turnReg = d.turnReg := Device.turnReg_of_stood (d.stood_freeTaken pages)
    exact Device.turnReg_ite hfreed ((Device.turnReg_localTo _ _ _ _ _).trans hfreed)
  unfold Device.rxDrop
  split
  · rfl
  dsimp only
  split
  · exact (Device.turnReg_hoEnd _ _ _ _ _ _).trans (hleft _ _ _)
  · exact hleft _ _ _

theorem Device.turnReg_rxRefuse (reason : Nat) : (d.rxRefuse k reason).turnReg = d.turnReg := by
  unfold Device.rxRefuse
  split
  · rfl
  · exact (Device.turnReg_hoRefuse _ _ _ _ _).trans (d.turnReg_rxDrop _ _ _)

theorem Device.turnReg_beginRx (r : HoRx) : (d.beginRx k r).turnReg = d.turnReg := by
  unfold Device.beginRx
  exact Device.turnReg_ite rfl ((Device.turnReg_modHo _ _ _).trans (Device.turnReg_localTo _ _ _ _ _))

theorem Device.stood_placePage (tier frame span : Nat) (bs : List Byte) : (d.placePage k tier frame span bs).stood = d.stood := by
  unfold Device.placePage
  split
  · exact d.stood_writeMem _ _
  · exact d.stood_postWrite _ _ _ _
  · split
    · rfl
    · exact Device.stood_ite (d.stood_submitWrite _ _ _) (d.stood_spillWrite _ _ _ _)

theorem Device.stood_takeCarried {f : Furrow} {isOpen : Bool} {tier frame : Nat} {e : Device} (h : d.takeCarried f isOpen = some (tier, frame, e)) :
    e.stood = d.stood := by
  have htaken {pool : Nat} {g : Nat × Device → Nat × Nat × Device} (hg : ∀ p, (g p).2.2 = p.2)
      (h : (d.allocFrame pool 0 f.owner).map g = some (tier, frame, e)) : e.stood = d.stood := by
    obtain ⟨p, hp, heq⟩ := Option.map_eq_some_iff.mp h
    have he : p.2 = e := (hg p).symm.trans (congrArg (fun x => x.2.2) heq)
    rw [← he]
    exact d.stood_allocFrame hp
  unfold Device.takeCarried at h
  split at h
  · exact htaken (fun (_, _) => rfl) h
  · rw [Option.orElse_eq_or] at h
    obtain hres | ⟨-, hflash⟩ := Option.or_eq_some_iff.mp h
    · exact htaken (fun (_, _) => rfl) hres
    · split at hflash
      · cases hflash
      · exact htaken (fun (_, _) => rfl) hflash

theorem Device.stood_placeCarried (f : Furrow) (ws : List Nat) (bs : List Byte) (acc : List (Nat × Pte)) :
    (d.placeCarried k f ws bs acc).1.stood = d.stood := by
  induction ws generalizing d bs acc with
  | nil => rfl
  | cons w ws ih =>
    unfold Device.placeCarried
    dsimp only
    split
    · rfl
    · next h => exact (ih _ _ _).trans ((Device.stood_placePage _ _ _ _ _ _).trans (d.stood_takeCarried h))

theorem Device.stood_granuleFrames {owner : Nat} {gs : List Nat} {e : Device} (h : d.granuleFrames owner gs = some e) : e.stood = d.stood := by
  induction gs generalizing d with
  | nil =>
    obtain rfl := Option.some.inj h
    rfl
  | cons g gs ih =>
    obtain ⟨b, hb, hrest⟩ := Option.bind_eq_some_iff.mp h
    exact (ih b hrest).trans (d.stood_granuleFrame hb)

theorem Device.turnReg_rxPlaced : (d.rxPlaced k).turnReg = d.turnReg := by
  have haccepted (e : Device) (r : HoRx) : (if e.isHome k then e.homeAccept k e.node r.gen r.src r.kind
      else e.hoCtl k (e.furrow k).home 0x33 r.gen r.src e.node r.kind 0 0).turnReg = e.turnReg :=
    Device.turnReg_ite (e.turnReg_homeAccept _ _ _ _ _) (e.turnReg_hoCtl _ _ _ _ _ _ _ _ _ _ _ _)
  unfold Device.rxPlaced
  split
  · rfl
  · refine Device.turnReg_ite rfl (Device.turnReg_ite ((Device.turnReg_rxRefuse _ _ _).trans rfl) (Device.turnReg_ite rfl ?_))
    exact (haccepted _ _).trans ((Device.turnReg_localTo _ _ _ _ _).trans rfl)

theorem Device.turnReg_rxComplete (r : HoRx) (xs : List Byte) : (d.rxComplete k r xs).turnReg = d.turnReg := by
  unfold Device.rxComplete
  dsimp only
  split
  · exact d.turnReg_rxRefuse k 4
  · next e hgranules =>
    have hframes : e.turnReg = d.turnReg := Device.turnReg_of_stood (d.stood_granuleFrames hgranules)
    have hplaced (ws : List Nat) (bs : List Byte) : (e.placeCarried k (d.furrow k) ws bs []).1.turnReg = d.turnReg :=
      (Device.turnReg_of_stood (e.stood_placeCarried k _ _ _ _)).trans hframes
    have hfreed (b : Device) (pages : List (Nat × Pte)) (reason : Nat) : ((b.freeTaken pages).rxRefuse k reason).turnReg = b.turnReg :=
      (Device.turnReg_rxRefuse _ _ _).trans (Device.turnReg_of_stood (b.stood_freeTaken pages))
    refine Device.turnReg_ite ((hfreed _ _ _).trans (hplaced _ _)) (Device.turnReg_ite ((hfreed _ _ _).trans (hplaced _ _)) ?_)
    exact (Device.turnReg_rxPlaced _ _).trans ((Device.turnReg_modHoLoc _ _ _).trans (hplaced _ _))

/-! ### What the home says of its record -/

theorem Device.turnReg_ownerIs (owner pending state gen : Nat) : (d.ownerIs k owner pending state gen).turnReg = d.turnReg := by
  have hqueries (e : Device) (cs : List HoCmd) :
      (cs.foldl (fun (d : Device) c => d.hoEnd c 1 0 gen owner) e).turnReg = e.turnReg :=
    Device.turnReg_of_stood (e.stood_foldl (fun d _ => d.stood_hoEnd _ _ _ _ _) _)
  unfold Device.ownerIs
  dsimp only
  refine (hqueries _ _).trans ((Device.turnReg_modHoLoc _ _ _).trans ?_)
  split
  · exact Device.turnReg_ite rfl (Device.turnReg_ite (d.turnReg_txEnd _ _ _ _) rfl)
  split
  · exact Device.turnReg_ite rfl (Device.turnReg_ite (d.turnReg_hoCtl _ _ _ _ _ _ _ _ _ _ _ _) (d.turnReg_rxDrop _ _ _))
  · exact Device.turnReg_ite (d.turnReg_modHo _ _) rfl

end

end Sys2Proof.Machine

/-! ## The parties of a handoff (R286 to R295) -/

namespace Sys2Proof.Machine

/-! ### HELLO (R286) -/

section
variable (d : Device)

theorem Device.peers_ctxTaken (iss : Issuer) (e c : Nat) : (d.ctxTaken iss e c).ho.peers = d.ho.peers := by
  unfold Device.ctxTaken
  split <;> rfl

theorem Device.peers_internalSend (die : Nat) (iss : Issuer) (node owner cls : Nat) (payload : List Byte) :
    (d.internalSend die iss node owner cls payload).ho.peers = d.ho.peers := by
  unfold Device.internalSend Device.issue
  dsimp only
  split
  · next h =>
    obtain ⟨k, -, hk⟩ := Option.map_eq_some_iff.mp h
    rw [Device.peers_ctxTaken, ← (Prod.mk.inj hk).2]
    rfl
  · rfl

theorem Device.peers_signal (v : Nat) : (d.signal v).ho.peers = d.ho.peers := by
  unfold Device.signal Device.msix
  split
  · split <;> rfl
  · rfl

theorem Device.peers_noKey (n : Nat) : (d.noKey n).ho.peers = d.ho.peers := by
  have hcount : (d.count F.FAB_RX_DROPS.NO_KEY n).ho.peers = d.ho.peers := by
    unfold Device.count
    split <;> rfl
  exact (Device.peers_signal _ _).trans hcount

theorem Device.peers_hoRaw (i node cls owner : Nat) (data : List Byte) (op : Nat) : (d.hoRaw i node cls owner data op).ho.peers = d.ho.peers := by
  unfold Device.hoRaw
  split
  · split
    · exact d.peers_noKey 1
    · rfl
  · exact d.peers_internalSend _ _ _ _ _ _

theorem Device.peers_unless_hoRaw (c : Prop) [Decidable c] (node cls owner : Nat) (data : List Byte) :
    (if c then d else d.hoRaw 0 node cls owner data 0).ho.peers = d.ho.peers := by
  split
  · rfl
  · exact d.peers_hoRaw _ _ _ _ _ _

theorem Device.peer_of_peers {d e : Device} (h : e.ho.peers = d.ho.peers) (n : Nat) : e.peer n = d.peer n := by
  rw [Device.peer, h, Device.peer]

theorem Device.peer_setPeer_same (n : Nat) (p : HoPeer) : (d.setPeer n p).peer n = p := sget_sput_same _ _ _

/-- What waited for a peer fails, and its protocol state is replaced. -/
theorem Device.peer_dropHeld (n status : Nat) (p : HoPeer) : (d.dropHeld n status p).peer n = p := by
  have hfail (e : Device) (h : HoHeld) : (e.hoFail h.desc n status (hoType h.data) h.op).ho.peers = e.ho.peers := rfl
  have hkept : (d.dropHeld n status p).ho.peers = (d.setPeer n p).ho.peers := List.foldl_keep (fun e : Device => e.ho.peers) _ hfail _ _
  rw [Device.peer_of_peers hkept, Device.peer_setPeer_same]

end

section
variable {d : Device} {m : Msg} (hset : d.hoSettled) (hty : m.num 14 1 = 0x30)
include hset hty

/-- A HELLO of major version 1 leaves its peer agreed on the lower of the two versions. -/
theorem agreed_helloEff (hmajor : m.num 15 1 / 16 = 1) : ((helloEff m d).peer m.src).agreed = some (min (m.num 15 1) 0x10) := by
  have hasked (c : Prop) [Decidable c] (e : Device) (x y : Nat) (bs : List Byte) :
      (if c then e.hoRaw 0 m.src x y bs 0 else e).ho.peers = e.ho.peers := by
    split
    · exact e.peers_hoRaw _ _ _ _ _ _
    · rfl
  have hleft (hs : List HoHeld) (e : Device) :
      (hs.foldl (fun (d : Device) h => d.hoRaw h.desc m.src h.cls h.owner h.data h.op) e).ho.peers = e.ho.peers :=
    List.foldl_keep (fun e : Device => e.ho.peers) _ (fun e _ => e.peers_hoRaw _ _ _ _ _ _) _ _
  have hpeers : (helloEff m d).ho.peers = ((d.took m).setPeer m.src { sent := true, agreed := some (min (m.num 15 1) 0x10) }).ho.peers := by
    unfold Msg.num at hty hmajor
    unfold helloEff
    dsimp only
    rw [(hset.took m).settleHandoffs, if_neg (not_not_intro hty), if_neg (not_not_intro hmajor)]
    exact (hasked _ _ _ _ _).trans ((hleft _ _).trans (Device.peers_unless_hoRaw _ _ _ _ _ _))
  rw [Device.peer_of_peers hpeers, Device.peer_setPeer_same]

/-- A HELLO of another major version leaves its peer refused, and shows VERSION. -/
theorem refused_helloEff (hmajor : m.num 15 1 / 16 ≠ 1) :
    ((helloEff m d).peer m.src).refused = true ∧ (helloEff m d).fld F.FUR_HO_EVENTS.VERSION = 1 := by
  have hevent (e : Device) : (e.hoEvent F.FUR_HO_EVENTS.VERSION).ho.peers = e.ho.peers := Device.peers_signal _ _
  have hpeers : (helloEff m d).ho.peers = ((d.took m).dropHeld m.src 0x14 { sent := true, refused := true }).ho.peers ∧
      (helloEff m d).fld F.FUR_HO_EVENTS.VERSION = 1 := by
    unfold Msg.num at hty hmajor
    unfold helloEff
    dsimp only
    rw [(hset.took m).settleHandoffs, if_neg (not_not_intro hty), if_pos hmajor]
    exact ⟨(hevent _).trans ((Device.peers_hoRaw _ _ _ _ _ _ _).trans (Device.peers_unless_hoRaw _ _ _ _ _ _)),
      Device.fld_eventSig_same _ _ (by decide) (by decide)⟩
  obtain ⟨hkept, hversion⟩ := hpeers
  rw [Device.peer_of_peers hkept, Device.peer_dropHeld]
  exact ⟨rfl, hversion⟩

end

/-! ### What taking a message leaves -/

theorem Device.hoLoc_took (d : Device) (m : Msg) (k : Nat) : (d.took m).hoLoc k = d.hoLoc k := rfl

theorem Device.furrow_took (d : Device) (m : Msg) (k : Nat) : (d.took m).furrow k = d.furrow k := rfl

theorem Device.turnReg_took (d : Device) (m : Msg) : (d.took m).turnReg = d.turnReg := rfl

theorem Device.turnReg_refuseId (d : Device) (m : Msg) (reason : Nat) : (d.refuseId m reason).turnReg = d.turnReg :=
  Device.turnReg_of_stood (d.stood_hoSend _ _ _ _ _ _)

/-! ### A transfer begins, and its DATA comes (R291) -/

section
variable {d : Device} {k : Nat}

theorem Device.hoLoc_setHoEntry (e : HoEntry) (j : Nat) : (d.setHoEntry k e).hoLoc j = d.hoLoc j := by
  unfold Device.setHoEntry Device.mirror Device.store
  split
  · split <;> rfl
  · rfl

theorem Device.hoLoc_setHoLoc_same (l : HoLocal) : (d.setHoLoc k l).hoLoc k = l := sget_sput_same _ _ _

theorem Device.localState_localTo (state kind pending : Nat) : ((d.localTo k state kind pending).hoEntry k).localState = state := by
  unfold Device.localTo Device.modHo
  rw [Device.hoEntry_setHoEntry_same]
  dsimp only
  split <;> rfl

theorem Device.hoLoc_localTo (state kind pending j : Nat) : (d.localTo k state kind pending).hoLoc j = d.hoLoc j := Device.hoLoc_setHoEntry _ _

theorem Device.rx_beginRx (r : HoRx) : ((d.beginRx k r).hoLoc k).rx = some r := by
  have hrx (e : Device) : ((e.modHoLoc k fun (l : HoLocal) => { l with rx := some r }).hoLoc k).rx = some r := by
    rw [Device.modHoLoc, Device.hoLoc_setHoLoc_same]
  unfold Device.beginRx Device.modHo
  dsimp only
  split
  · exact hrx _
  · rw [Device.hoLoc_setHoEntry, Device.hoLoc_localTo]
    exact hrx _

theorem Device.localState_beginRx (r : HoRx) (hpush : r.push = false) : ((d.beginRx k r).hoEntry k).localState = 2 := by
  unfold Device.beginRx Device.modHo
  dsimp only
  rw [if_neg (by rw [hpush]; decide), Device.hoEntry_setHoEntry_same]
  split
  · exact Device.localState_localTo _ _ _
  · exact Device.localState_localTo _ _ _

theorem Device.rxOffer_begins (r : HoRx) (hgen : (d.hoEntry k).gen < r.gen) (hstate : (d.furrow k).state = 2) (hlocal : (d.hoEntry k).localState = 0)
    (hrx : (d.hoLoc k).rx = none) : d.rxOffer k r = d.beginRx k r := by
  unfold Device.rxOffer
  rw [if_neg (by omega), if_neg (not_not_intro hstate), if_neg]
  rw [hrx]
  rintro (hne | hsome)
  · exact hne hlocal
  · exact Bool.false_ne_true hsome

/-- DATA of the transfer under way is kept; it refuses the transfer or completes it. -/
theorem Device.rxData_next {r : HoRx} {src gen : Nat} (offset : Nat) (body : List Byte) (hgen : (d.hoEntry k).gen < gen)
    (hr : (d.hoLoc k).rx = some r) (hrgen : r.gen = gen) (hsrc : r.src = src) (hdone : r.done = false) (hplacing : r.placing = false) :
    d.rxData k src gen offset body =
      if 192 ≤ (joined 0 (sput [] r.got offset body)).length ∧ sameGeometry (joined 0 (sput [] r.got offset body)) (d.furrow k) = false then
        (d.setHoLoc k { d.hoLoc k with rx := some { r with got := sput [] r.got offset body } }).rxRefuse k 3
      else if r.total ≤ (joined 0 (sput [] r.got offset body)).length then
        (d.setHoLoc k { d.hoLoc k with rx := some { r with got := sput [] r.got offset body } }).rxComplete k { r with got := sput [] r.got offset body }
          ((joined 0 (sput [] r.got offset body)).take r.total)
      else d.setHoLoc k { d.hoLoc k with rx := some { r with got := sput [] r.got offset body } } := by
  have hcurrent : ¬ (r.gen ≠ gen ∨ r.src ≠ src ∨ r.done = true ∨ r.placing = true) := by
    simp [hrgen, hsrc, hdone, hplacing]
  unfold Device.rxData
  rw [if_neg (by omega), hr]
  exact if_neg hcurrent

end

/-! ### The messages -/

section
variable {s : State} {m : Msg} {k : Nat}

theorem State.hears.offer_mine (h : s.hears m 0x31 k) (himage : 192 ≤ m.data.length) (hnode : m.num 18 2 = s.dev.node)
    (hgen : (s.dev.hoEntry k).gen < m.num 0 8) (hf : (s.dev.furrow k).state = 2) (hlocal : (s.dev.hoEntry k).localState = 0)
    (hrx : (s.dev.hoLoc k).rx = none) :
    exec (.offer m) s = .next (s.put ((s.dev.took m).beginRx k
      { gen := m.num 0 8, src := m.src, kind := m.num 20 1, image := (m.data.drop 64).take 128, length := m.num 32 8, total := m.num 40 8,
        at_ := s.dev.now })) := by
  have hmine : (decide (192 ≤ m.data.length) && m.num 18 2 == (s.dev.took m).node) = true := by
    rw [Bool.and_eq_true, decide_eq_true_eq, beq_iff_eq]
    exact ⟨himage, hnode⟩
  rw [← s.dev.hoEntry_took m k] at hgen hlocal
  rw [← s.dev.hoLoc_took m k] at hrx
  rw [← s.dev.furrow_took m k] at hf
  refine h.act_eq (g := offerEff m) ?_
  unfold offerEff
  exact h.recv ((if_pos hmine).trans (Device.rxOffer_begins _ hgen hf hlocal hrx))
    (Device.state_of_turnReg ((Device.turnReg_beginRx _ _ _).trans (s.dev.turnReg_took m)))

theorem State.hears.data (h : s.hears m 0x32 k) {d : Device} (hd : (s.dev.took m).rxData k m.src (m.num 0 8) (m.num 40 8) (m.data.drop 64) = d)
    (hreg : d.turnReg = s.dev.turnReg) : exec (.dataMsg m) s = .next (s.put d) := by
  refine h.act_eq (g := dataEff m) ?_
  unfold dataEff
  exact h.recv hd (Device.state_of_turnReg hreg)

theorem State.hears.grant_stale (h : s.hears m 0x34 k) (hgen : m.num 0 8 ≤ (s.dev.hoEntry k).gen) :
    exec (.grant m) s = .next (s.put (s.dev.took m).hoStale) := by
  rw [← s.dev.hoEntry_took m k] at hgen
  refine h.act_eq (g := grantEff m) ?_
  unfold grantEff
  exact h.recv (if_pos hgen) (Device.state_of_turnReg ((Device.turnReg_hoStale _).trans (s.dev.turnReg_took m)))

theorem State.hears.grant_due (h : s.hears m 0x34 k) {r : HoRx} (hgen : (s.dev.hoEntry k).gen < m.num 0 8) (hr : (s.dev.hoLoc k).rx = some r)
    (hdone : r.done = true) (hpush : r.push = false) (hrgen : r.gen = m.num 0 8) :
    exec (.grant m) s = .next (s.put ((s.dev.took m).grantDue k (m.num 0 8))) := by
  have hawaited : (r.done && !r.push && r.gen == m.num 0 8) = true := by simp [hdone, hpush, hrgen]
  rw [← s.dev.hoEntry_took m k] at hgen
  rw [← s.dev.hoLoc_took m k] at hr
  refine h.act_eq (g := grantEff m) ?_
  unfold grantEff
  refine h.recv ((if_neg (Nat.not_le.mpr hgen)).trans ?_) (s.dev.state_took m)
  rw [hr]
  exact if_pos hawaited

theorem State.hears.release_stale (h : s.hears m 0x35 k) (hgen : m.num 0 8 ≤ (s.dev.hoEntry k).gen) :
    exec (.release m) s = .next (s.put (s.dev.took m).hoStale) := by
  rw [← s.dev.hoEntry_took m k] at hgen
  refine h.act_eq (g := releaseEff m) ?_
  unfold releaseEff
  exact h.recv (if_pos hgen) (Device.state_of_turnReg ((Device.turnReg_hoStale _).trans (s.dev.turnReg_took m)))

theorem State.hears.release_due (h : s.hears m 0x35 k) {x : HoTx} (hgen : (s.dev.hoEntry k).gen < m.num 0 8) (hx : (s.dev.hoLoc k).tx = some x)
    (hxgen : x.gen ≤ m.num 0 8) : exec (.release m) s = .next (s.put ((s.dev.took m).releaseDue k (m.num 0 8))) := by
  rw [← s.dev.hoEntry_took m k] at hgen
  rw [← s.dev.hoLoc_took m k] at hx
  refine h.act_eq (g := releaseEff m) ?_
  unfold releaseEff
  refine h.recv ((if_neg (Nat.not_le.mpr hgen)).trans ?_) (s.dev.state_took m)
  rw [hx]
  exact if_pos hxgen

theorem State.hears.refuse_donor (h : s.hears m 0x36 k) {x : HoTx} (hx : (s.dev.hoLoc k).tx = some x) (hgen : x.gen = m.num 0 8)
    (hreleased : (s.dev.hoLoc k).released = none) (hrcpt : x.rcpt = m.src) (hreason : m.num 21 1 ≠ 8) :
    exec (.refuse m) s = .next (s.put ((s.dev.took m).txEnd k 2 (m.num 21 1) true)) := by
  rw [← s.dev.hoLoc_took m k] at hx hreleased
  have hdonor : (((s.dev.took m).hoLoc k).tx.any fun t => t.gen == m.num 0 8 && ((s.dev.took m).hoLoc k).released.isNone &&
      (t.rcpt == m.src || decide (m.src = ((s.dev.took m).furrow k).home) && m.num 21 1 != 7)) = true := by
    simp [hx, hreleased, hgen, hrcpt]
  refine h.act_eq (g := refuseEff m) ?_
  unfold refuseEff
  dsimp only
  refine h.recv ?_ (Device.state_of_turnReg ((Device.turnReg_txEnd _ _ _ _ _).trans (s.dev.turnReg_took m)))
  unfold Msg.num at hreason hdonor
  dsimp only
  rw [if_neg hreason, if_pos hdonor, if_neg hreason]
  rfl

theorem State.hears.ownerIs (h : s.hears m 0x38 k) (hsrc : m.src = (s.dev.furrow k).home) :
    exec (.ownerIs m) s = .next (s.put ((s.dev.took m).ownerIs k (m.num 16 2) (m.num 18 2) (m.num 20 1) (m.num 0 8))) := by
  rw [← s.dev.furrow_took m k] at hsrc
  refine h.act_eq (g := ownerIsEff m) ?_
  unfold ownerIsEff
  exact h.recv (if_pos hsrc) (Device.state_of_turnReg ((Device.turnReg_ownerIs _ _ _ _ _ _).trans (s.dev.turnReg_took m)))

theorem State.hears.claimReq_away (h : s.hears m 0x39 k) (hhome : s.dev.isHome k = false) :
    exec (.claimReq m) s = .next (s.put ((s.dev.took m).refuseId m 1)) := by
  have hhome' : (s.dev.took m).isHome k = false := hhome
  refine h.act_eq (g := claimReqEff m) ?_
  unfold claimReqEff
  exact h.recv (if_pos (.inl hhome')) (Device.state_of_turnReg ((Device.turnReg_refuseId _ _ _).trans (s.dev.turnReg_took m)))

theorem State.hears.claimReq_owned (h : s.hears m 0x39 k) (hhome : s.dev.isHome k = true) (hstate : (s.dev.hoEntry k).homeState = 1)
    (howner : (s.dev.hoEntry k).owner = s.dev.node) (hmay : s.dev.mayOffer k = true) :
    exec (.claimReq m) s = .next (s.put ((s.dev.took m).offerOrWait k 3 m.src none false)) := by
  have hhome' : (s.dev.took m).isHome k = true := hhome
  have howner' : ((s.dev.took m).hoEntry k).owner = (s.dev.took m).node := howner
  have hmay' : (s.dev.took m).mayOffer k = true := hmay
  rw [← s.dev.hoEntry_took m k] at hstate
  have hlisted : ¬ ((s.dev.took m).isHome k = false ∨ ((s.dev.took m).hoEntry k).homeState = 0 ∨
      ((s.dev.took m).hoEntry k).owner ≠ (s.dev.took m).node) := by
    simp [hhome', hstate, howner']
  have hfree : ¬ (((s.dev.took m).hoEntry k).homeState ≠ 1 ∨ (s.dev.took m).mayOffer k = false) := by
    simp [hstate, hmay']
  refine h.act_eq (g := claimReqEff m) ?_
  unfold claimReqEff
  exact h.recv ((if_neg hlisted).trans (if_neg hfree)) (Device.state_of_turnReg ((Device.turnReg_offerOrWait _ _ _ _ _ _).trans (s.dev.turnReg_took m)))

theorem State.hears.push_begins (h : s.hears m 0x3A k) (hhome : s.dev.isHome k = true) (hstate : (s.dev.hoEntry k).homeState = 1)
    (hgen : m.num 0 8 = (s.dev.hoEntry k).gen) (hsrc : m.src = (s.dev.hoEntry k).owner) (hrx : (s.dev.hoLoc k).rx = none) :
    exec (.pushMsg m) s = .next (s.put ((s.dev.took m).beginRx k
      { gen := (s.dev.hoEntry k).gen + 1, src := m.src, kind := 1, push := true, image := (m.data.drop 64).take 128, total := m.num 40 8,
        at_ := s.dev.now })) := by
  have hhome' : ¬ (s.dev.took m).isHome k = false := by
    rw [Bool.not_eq_false]
    exact hhome
  have hidle : ¬ (((s.dev.took m).hoLoc k).rx.isSome = true ∨ ((s.dev.took m).hoEntry k).homeState = 3) := by
    rw [s.dev.hoLoc_took m k, hrx, s.dev.hoEntry_took m k, hstate]
    decide
  have hlisted : ((s.dev.took m).hoEntry k).homeState ≠ 0 := by
    rw [s.dev.hoEntry_took m k, hstate]
    decide
  rw [← s.dev.hoEntry_took m k] at hgen hsrc
  refine h.act_eq (g := pushEff m) ?_
  unfold pushEff
  exact h.recv ((if_neg hhome').trans ((if_neg (not_not_intro hgen)).trans ((if_neg hlisted).trans
      ((if_neg (not_not_intro hsrc)).trans (if_neg hidle)))))
    (Device.state_of_turnReg ((Device.turnReg_beginRx _ _ _).trans (s.dev.turnReg_took m)))

theorem State.hears.pushAck (h : s.hears m 0x3B k) {p : HoPush} (hp : (s.dev.hoLoc k).push = some p) (hgen : p.gen = m.num 0 8)
    (hsrc : m.src = (s.dev.furrow k).home) : exec (.pushAck m) s =
      .next (s.put (((s.dev.took m).modHoLoc k fun (l : HoLocal) => { l with pushed := some p.length }).pushOver k true)) := by
  rw [← s.dev.hoLoc_took m k] at hp
  rw [← s.dev.furrow_took m k] at hsrc
  refine h.act_eq (g := pushAckEff m) ?_
  unfold pushAckEff
  refine h.recv ?_ (Device.state_of_turnReg ((Device.turnReg_pushOver _ _ _).trans (s.dev.turnReg_took m)))
  dsimp only
  rw [hp]
  exact if_pos ⟨hgen, hsrc⟩

end

/-! ### Expiries (R288, R291) -/

section
variable {d : Device} {furrow k : Nat} (hk : d.furById furrow = some k)
include hk

theorem queryTurnsEff_donor (hset : d.hoSettled) {x : HoTx} (hx : (d.hoLoc k).tx = some x) (hreleased : (d.hoLoc k).released = none)
    (hdue : x.asked + d.fld F.FUR_HO_TIMING.QUERY_TURNS ≤ d.turnNo) :
    queryTurnsEff furrow d = (d.setHoLoc k { d.hoLoc k with tx := some { x with asked := d.turnNo } }).askOwner k := by
  have hasks : (decide (x.asked + d.fld F.FUR_HO_TIMING.QUERY_TURNS ≤ d.turnNo) && (d.hoLoc k).released.isNone) = true := by
    simp [hdue, hreleased]
  unfold queryTurnsEff
  rw [hset.settleHandoffs]
  dsimp only
  rw [hk]
  dsimp only
  rw [hx]
  exact if_pos hasks

theorem transferTimeoutEff_overdue (at_ : Nat) {r : HoRx} (hr : (d.hoLoc k).rx = some r) (hdone : r.done = false)
    (hdue : r.at_ + 1000 * d.fld F.SLU_TARGET_CTRL.REASSEMBLY_US ≤ max d.now at_) :
    transferTimeoutEff furrow at_ d = (d.at_ at_).rxRefuse k 9 := by
  have hk' : (d.at_ at_).furById furrow = some k := hk
  have hr' : ((d.at_ at_).hoLoc k).rx = some r := hr
  have hover : (!r.done && decide (r.at_ + 1000 * (d.at_ at_).fld F.SLU_TARGET_CTRL.REASSEMBLY_US ≤ (d.at_ at_).now)) = true := by
    rw [hdone, Bool.not_false, Bool.true_and, decide_eq_true_eq]
    exact hdue
  unfold transferTimeoutEff
  dsimp only
  rw [hk']
  dsimp only
  rw [hr']
  exact if_pos hover

end

theorem State.put_peer (s : State) (d : Device) (n : Nat) : (s.put d).dev.peer n = d.peer n := rfl

theorem State.put_hoLoc (s : State) (d : Device) (k : Nat) : (s.put d).dev.hoLoc k = d.hoLoc k := rfl

/-- Settles O41: each message acts on the entry or the transfer of the furrow that it names, and the expiries on what they find due. -/
theorem handoffPartiesAct : Obligations.HandoffPartiesAct := by
  refine ⟨fun s m hs hset hty => ⟨fun hmajor => ?agreed, fun hmajor => ?refused⟩, fun s m k => ?messages,
    fun s furrow k hs hk => ⟨?query, ?overdue⟩⟩
  case agreed => exact ⟨_, hs.act_eq (f := helloEff m) rfl, agreed_helloEff hset hty hmajor⟩
  case refused =>
    obtain ⟨hpeer, hversion⟩ := refused_helloEff hset hty hmajor
    exact ⟨_, hs.act_eq (f := helloEff m) rfl, hpeer, (s.put_fld _ _ _).trans hversion⟩
  case messages =>
    refine ⟨fun h himage hnode hgen hf hlocal hrx => ?offer, fun r h hgen hr hrgen hsrc hdone => ?data,
      fun h => ⟨h.grant_stale, fun r hgen hr hdone hpush hrgen => h.grant_due hgen hr hdone hpush hrgen⟩,
      fun h => ⟨h.release_stale, fun x hgen hx hxgen => h.release_due hgen hx hxgen⟩,
      fun x h hx hgen hreleased hrcpt hreason => h.refuse_donor hx hgen hreleased hrcpt hreason, fun h hsrc => h.ownerIs hsrc,
      fun h => ⟨h.claimReq_away, fun hhome hstate howner hmay => h.claimReq_owned hhome hstate howner hmay⟩,
      fun h hhome hstate hgen hsrc hrx => ?push, fun p h hp hgen hsrc => h.pushAck hp hgen hsrc⟩
    case offer =>
      refine ⟨_, h.offer_mine himage hnode hgen hf hlocal hrx, ?_, ?_⟩
      · rw [State.put_hoEntry]
        exact Device.localState_beginRx _ rfl
      · rw [State.put_hoLoc]
        exact Device.rx_beginRx _
    case push =>
      refine ⟨_, h.push_begins hhome hstate hgen hsrc hrx, ?_⟩
      rw [State.put_hoLoc]
      exact Device.rx_beginRx _
    case data =>
      have ⟨_, hset, _⟩ := h
      have hplacing := hset.not_placing hr
      have hbad (xs : List Byte) (f : Furrow) :
          (decide (192 ≤ xs.length) && !sameGeometry xs f) = true ↔ 192 ≤ xs.length ∧ sameGeometry xs f = false := by
        rw [Bool.and_eq_true, decide_eq_true_eq, Bool.not_eq_true']
      rw [← s.dev.hoEntry_took m k] at hgen
      rw [← s.dev.hoLoc_took m k] at hr
      rw [← s.dev.hoLoc_took m k, ← s.dev.furrow_took m k]
      have hnext := Device.rxData_next (m.num 40 8) (m.data.drop 64) hgen hr hrgen hsrc hdone hplacing
      have hkept (l : HoLocal) : ((s.dev.took m).setHoLoc k l).turnReg = s.dev.turnReg := rfl
      refine ⟨fun hforeign => ?_, fun hown hpart => ?_, fun hown hwhole => ?_⟩
      · exact h.data (hnext.trans (if_pos ((hbad _ _).mp hforeign))) ((Device.turnReg_rxRefuse _ _ _).trans (hkept _))
      · have hsame := fun hforeign => Bool.false_ne_true (hown.symm.trans ((hbad _ _).mpr hforeign))
        exact h.data (hnext.trans ((if_neg hsame).trans (if_neg (Nat.not_le.mpr hpart)))) (hkept _)
      · have hsame := fun hforeign => Bool.false_ne_true (hown.symm.trans ((hbad _ _).mpr hforeign))
        exact h.data (hnext.trans ((if_neg hsame).trans (if_pos hwhole))) ((Device.turnReg_rxComplete _ _ _ _).trans (hkept _))
  case query => exact fun x hset hx hreleased hdue => hs.act_eq (queryTurnsEff_donor hk hset hx hreleased hdue)
  case overdue => exact fun at_ r hr hdone hdue => hs.act_eq (transferTimeoutEff_overdue hk at_ hr hdone hdue)

end Sys2Proof.Machine
